-- ==== Sys2Proof/Word.lean ====
section
/-! DEFINITION. The word types of the block and their plainest arithmetic.

The spec's words are: a 64-bit payload word of a chain, a byte, a 32-bit register (R8), and counts.
A register FIELD is held as the natural number the spec's tables give it, always below two to its width. -/

namespace Sys2Proof

/-- A byte, as memory and the host's structures hold it (R6). -/
abbrev Byte := BitVec 8

/-- The payload of one chain word (R31, bits [63:0]). -/
abbrev Word64 := BitVec 64

/-- One 32-bit register word (R8). -/
abbrev Word32 := BitVec 32

/-- A Bool read as a one-bit field. -/
def b2n (b : Bool) : Nat := if b then 1 else 0

/-- The field of `w` bits of `x` that starts at bit `lo`. -/
def bitsOf (x lo w : Nat) : Nat := (x >>> lo) % 2 ^ w

/-- Bit `i` of `x`. -/
def bitAt (x i : Nat) : Bool := bitsOf x i 1 == 1

/-- `x` with bit `i` set. -/
def setBit (x i : Nat) : Nat := if bitAt x i then x else x + 2 ^ i

/-- `x` with bit `i` clear. -/
def clrBit (x i : Nat) : Nat := if bitAt x i then x - 2 ^ i else x

/-- `x` with bit `i` made `b`. -/
def putBit (x i : Nat) (b : Bool) : Nat := if b then setBit x i else clrBit x i

/-- Addition that stops at `top` (the manual's "saturating" counters). -/
def satAdd (top x k : Nat) : Nat := min top (x + k)

/-- A signed value as a `w`-bit two's complement field. -/
def toField (w : Nat) (x : Int) : Nat := (x % (2 ^ w : Nat)).toNat

/-- A `w`-bit two's complement field read as a signed value. -/
def ofField (w : Nat) (x : Nat) : Int := if x % 2 ^ w < 2 ^ (w - 1) then (x % 2 ^ w : Nat) else (x % 2 ^ w : Nat) - (2 ^ w : Nat)

/-- A signed value clamped to `[lo, hi]`. -/
def clampInt (lo hi x : Int) : Int := max lo (min hi x)

/-- The number of one bits in the low `n` bits of `x`. -/
def onesIn : Nat → Nat → Nat
  | 0, _ => 0
  | n + 1, x => x % 2 + onesIn n (x / 2)

/-- The bytes of `x`, `n` of them, the lowest first (R6: host structures and registers are little-endian). -/
def bytesLE : Nat → Nat → List Byte
  | 0, _ => []
  | n + 1, x => BitVec.ofNat 8 x :: bytesLE n (x / 256)

/-- The bytes of `x`, `n` of them, the highest first (R6: on tape, multi-byte header fields are big-endian). -/
def bytesBE (n x : Nat) : List Byte := (bytesLE n x).reverse

/-- The number a little-endian byte string spells. -/
def natLE : List Byte → Nat
  | [] => 0
  | b :: r => b.toNat + 256 * natLE r

/-- The number a big-endian byte string spells. -/
def natBE (l : List Byte) : Nat := natLE l.reverse

end Sys2Proof
end

