-- ==== Sys2Proof/Forms.lean ====
section
/-! DEFINITION. The operand forms of the block's commands: who sends one, which chain, gate FIFO or page it names, what a
reading or a verdict holds, and the header that every ring command shares. -/

namespace Sys2Proof

/-- Who makes a register access: a steward core (firmware, domain 1) or a function of an endpoint (R343, R427). -/
inductive Accessor where
  /-- Steward `i`: chip stewards 0 to 3, spoke stewards 4 to 11. -/
  | fw (i : Fin 12)
  /-- Function `f` of endpoint `e`; function 0 is the physical function (R281). -/
  | fn (e : Fin 2) (f : Fin 64)
  deriving DecidableEq, Repr

/-- The number of an accessor: 64 × endpoint + function (as FUNC fields hold it, R300), stewards from 128. -/
def Accessor.num : Accessor → Nat
  | .fw i => 128 + i.val
  | .fn e f => 64 * e.val + f.val

/-- A chain with a chain group (R49): the input chains of the compressors, of the decompressors and of the tiles. -/
inductive ChainId where
  | comp (i : Fin 17)
  | decomp (i : Fin 17)
  | tile (n : Fin 8) (t : Fin 9)
  deriving DecidableEq, Repr

/-- A chain's number, for the map that holds it. -/
def ChainId.key : ChainId → Nat
  | .comp i => i.val
  | .decomp i => 32 + i.val
  | .tile n t => 64 + 16 * n.val + t.val

/-- The cells that push into a chain: the lanes of a tile's spoke, the two CRYPT blocks before a decompressor, the four DMA blocks
before a compressor.
(DESIGN CHOICE, log entry 14.) -/
def producers : ChainId → Nat
  | .tile .. => 64
  | .decomp _ => 2
  | .comp _ => 4

/-- A gate FIFO (R39, R18): the sample path of a read lane, a write serial lane, the PCIe receive and transmit paths,
the DDR5 read and write paths, the management interfaces. -/
inductive GateId where
  | sample (n : Fin 8) (l : Fin 64)
  | writeLane (n : Fin 8) (w : Fin 2)
  | pcieRx (e : Fin 2)
  | pcieTx (e : Fin 2)
  | ddrRead (c : Fin 4)
  | ddrWrite (c : Fin 4)
  | mgmtRx
  | mgmtTx
  deriving DecidableEq, Repr

/-- A gate FIFO's number. -/
def GateId.key : GateId → Nat
  | .sample n l => 64 * n.val + l.val
  | .writeLane n w => 512 + 2 * n.val + w.val
  | .pcieRx e => 528 + e.val
  | .pcieTx e => 530 + e.val
  | .ddrRead c => 532 + c.val
  | .ddrWrite c => 536 + c.val
  | .mgmtRx => 540
  | .mgmtTx => 541

/-- Is the clocked side the writer (R50, CLOCKED_WRITES)? -/
def GateId.clockedWrites : GateId → Bool
  | .sample .. | .pcieRx _ | .ddrRead _ | .mgmtRx => true
  | .writeLane .. | .pcieTx _ | .ddrWrite _ | .mgmtTx => false

/-- Can the clocked writer hold its data (R41)? Only the converter island's sample path cannot. -/
def GateId.canHold : GateId → Bool
  | .sample .. => false
  | _ => true

/-- A crossing that carries words (R31): a chain or a gate FIFO. -/
inductive Hop where
  | chain (c : ChainId)
  | gate (g : GateId)
  deriving DecidableEq, Repr

/-- What crosses a cell boundary beside parity (R31). -/
structure CoreWord where
  soi : Bool
  eoi : Bool
  data : Word64
  deriving DecidableEq, Repr

/-- Bits [65:0] of a word (R31). -/
def CoreWord.bits (w : CoreWord) : Nat := 2 ^ 65 * b2n w.soi + 2 ^ 64 * b2n w.eoi + w.data.toNat

/-- The parity bit (R31): the 67 bits hold an even number of ones. -/
def CoreWord.parity (w : CoreWord) : Nat := onesIn 66 w.bits % 2

/-- The 67 bits as they are sent (R31). -/
def CoreWord.wire (w : CoreWord) : Nat := 2 ^ 66 * w.parity + w.bits

/-- Does the parity of 67 received bits check (R31, R33)? -/
def parityOk (x : Nat) : Bool := onesIn 67 x % 2 == 0

/-- The word that 67 received bits spell. -/
def CoreWord.ofWire (x : Nat) : CoreWord :=
  { soi := bitAt x 65, eoi := bitAt x 64, data := BitVec.ofNat 64 x }

/-- What a cell offers a chain (R13, R31): the cell that pushes, the other cells whose requests are pending, the word. -/
structure Offer where
  cell : Nat
  asks : List Nat
  word : CoreWord
  deriving DecidableEq, Repr

/-- A pop of a gate FIFO (R40): the FIFO, and the bits that the crossing to its reader flips (R39). -/
structure GatePop where
  gate : GateId
  err : BitVec 67
  deriving DecidableEq, Repr

/-- An item on a shared crossing (R14): the region that it leaves or asks for, its class, A to E as 0 to 4, and its length in words. -/
structure XItem where
  region : Nat
  cls : Nat
  words : Nat
  deriving DecidableEq, Repr

/-- The item's bytes. -/
def XItem.bytes (x : XItem) : Nat := 8 * x.words

/-- A segment's identity as its header carries it (R151). Of a fill segment (R71) `row` is 64 times its place in the area plus its
channel. -/
structure SegId where
  sheet : Nat
  row : Nat
  gen : Nat
  rwslot : Nat
  fill : Bool := false
  deriving DecidableEq, Repr

/-- The result fields a tile hands on with a row (R89). -/
structure SegResult where
  converged : Bool
  iters : Nat
  llr : Nat
  freewheel : Bool
  altAlign : Bool
  deriving DecidableEq, Repr

/-- What a lane's front end and timing detector give over 16 channel bits (R206, R209): the sum of the magnitudes of the ADC output, and
the sum of the timing errors, in units of 2^−16 channel bit. -/
structure LoopObs where
  amp : Nat
  terr : Int
  deriving DecidableEq, Repr

/-- What a tile's detector and decoder come to when they stop (R219): the hard decisions on the 36,864 codeword bits as they stand on
tape, the global iterations, MEAN_ABS_LLR. -/
structure TileOut where
  bits : List Bool
  iters : Nat
  llr : Nat
  deriving DecidableEq, Repr

/-- What a tile counts of a decode beside its decisions (R219): the global iterations, MEAN_ABS_LLR. -/
structure TileEnd where
  iters : Nat
  llr : Nat
  deriving DecidableEq, Repr

/-- A low tone found on a lane (R216), and the channel bit of its detection, counted alike on every lane. -/
structure ToneAt where
  lane : Fin 64
  place : Int
  deriving DecidableEq, Repr

/-- A cycle of a spoke's reel loop (R176), and the delay of the cadence echo seen in it, if one was (R190). -/
structure ReelTurn where
  spoke : Fin 8
  echo : Option Nat
  deriving DecidableEq, Repr

/-- A frame received on a spoke's control link, as bytes (R191). -/
structure LinkFrame where
  spoke : Fin 8
  bytes : List Byte
  deriving DecidableEq, Repr

/-- What one servo reader times in a frame beside its C and D bursts (R169), in picoseconds: were all 20 stripes found; t_F; t_P of the
six A–B pairs. -/
structure ReaderTimes where
  found : Bool
  tF : Nat
  ab : List Nat
  deriving DecidableEq, Repr

/-- What one servo reader times in a frame (R166, R169), in picoseconds: were all 20 stripes found; t_F; t_P of the six A–B pairs; when
stripes 1 to 4 of the C burst, and those of the D burst, passed. -/
structure ReaderFrame where
  found : Bool
  tF : Nat
  ab : List Nat
  c : List Int
  d : List Int
  deriving DecidableEq, Repr

/-- The track-follow compensator for one frame (R174): the crossover in force in mHz; LEAD_RATIO as it acts, in 1/16, with the zero at the
crossover over its root and the pole at the crossover times its root; the integrator's corner in mHz, 0 for none; the notches not bypassed,
each with its frequency in Hz and its quality factor in 1/8. -/
structure Compensator where
  crossover : Nat
  lead : Nat
  corner : Nat
  notches : List (Nat × Nat)
  deriving DecidableEq, Repr

/-- What loop identification finds (R194, R197): the fields of LOOP_CFG, NOTCH0 and NOTCH1. -/
structure LoopFit where
  crossover : Nat
  lead : Nat
  corner : Nat
  freq0 : Nat
  q0 : Nat
  freq1 : Nat
  q1 : Nat
  deriving DecidableEq, Repr

/-- Who reads a chest word, and what (R257): a sheet's bytes or an accumulator of ream `r` for the writer of spoke `n`, a
record of stream `st` for a compressor, stored bytes or a history for the read on spoke `n`, bytes on their way to the
host for the command in progress on spoke `n`, a handle's descriptor, anything else. -/
inductive MemReader where
  | sheet (n : Fin 8) (num : Nat)
  | accumulator (n : Fin 8) (ream : Fin 4)
  | comp (st : Nat)
  | decomp (n : Fin 8)
  | dma (n : Fin 8)
  | descriptor (h : Nat)
  | other
  deriving DecidableEq, Repr

/-- An access of the chest: a read of one word, with the word address that the DRAM returned and what it returned wrong
in each lane (data bits, check bits); a write of consecutive beats from a word address, each with its byte enables. -/
inductive MemAcc where
  | read (by_ : MemReader) (word reached : Nat) (flips : List (Nat × Nat))
  | write (word : Nat) (beats : List (Nat × Nat))
  deriving DecidableEq, Repr

/-- What a calibration measures beside what the servo frames give (R194, R197, R207, R227): was servo acquired on the band, within the
limit of load step 5; the direction in which each lane's CTLE boost lowers its error; each lane's best OFFSET and its noise power with GAIN
at 120; the loop response, once identified. -/
structure CalMeas where
  acquired : Bool
  boost : List Int
  offsets : List Int
  noise : List Nat
  fit : Option LoopFit
  deriving DecidableEq, Repr

/-- The unit that a timeout damages (R397): its block and what of the unit the outcome of R398 needs. `second` says that
the unit had been made again once before. -/
inductive Damage where
  | laneSegment (n : Fin 8) (l : Fin 64)
  | tileSegment (n : Fin 8) (t : Fin 9) (decode : Bool) (iters : Nat)
  | writerSegment (n : Fin 8) (ch : Fin 64)
  | packing (n : Fin 8) (second : Bool)
  | verdict (n : Fin 8) (seg : SegId)
  | verifyDecode (n : Fin 8)
  | inlineDecode (n : Fin 8)
  | replay (n : Fin 8)
  | sample (n : Fin 8)
  | reel (n : Fin 8)
  | link (n : Fin 8)
  | comp (i : Fin 17)
  | decomp (i : Fin 17)
  | cryptWrite (i : Fin 2)
  | cryptRead (i : Fin 2)
  | ringFetch (q : Nat) (second : Bool)
  | ringPost (q : Nat) (second : Bool)
  | transfer (i : Fin 4) (n : Fin 8) (second : Bool)
  | memory (k : Fin 4) (word : Nat) (reader : MemReader) (second : Bool)
  | pool (h : Nat) (second : Bool)
  | other (page requester : Nat) (second : Bool)
  deriving DecidableEq, Repr

/-- Whose transfer a failed non-posted request belongs to (R280): entries of the oldest fetch turn of ring `q`, or the data of
the command in progress on spoke `n`. -/
inductive XferOwner where
  | entry (q : Fin 4096)
  | spoke (n : Fin 8)
  deriving DecidableEq, Repr

/-- An error completion (R280): Unsupported Request or Completer Abort; poisoned; an ECRC error. -/
inductive CplError where
  | urCa | poisoned | ecrc
  deriving DecidableEq, Repr

/-- A start-up operation completed (R408), steps 1 to 9: the main rails with HBX_SPLIT as sampled; the fills; the fuses,
with both private keys held or not; the flash slots verified; the stewards released; the DDR5 channels that trained; the
pool; the links; readiness. -/
inductive StartStep where
  | rails (split : Bool)
  | fills
  | fuses (identityOk : Bool)
  | flash
  | release
  | trained (channels : Fin 16)
  | pool
  | links
  | ready
  deriving DecidableEq, Repr

/-- An element of a buffer list (R291): a data buffer, or with `next` the place of the next segment; `last` ends the list. -/
structure ListElem where
  addr : Nat
  len : Nat
  next : Bool
  last : Bool
  deriving DecidableEq, Repr

/-- What a write of an endpoint's PCI Express Device Control registers sets (R279): Max Payload Size and Max Read Request Size in bytes,
10-Bit Tag Requester Enable, Extended Tag Field Enable, Enable Relaxed Ordering. The reset values are those of the base specification.
(PRESUMED, log entry 49.) -/
structure PciCtl where
  payload : Nat := 128
  readReq : Nat := 512
  tag10 : Bool := false
  extTag : Bool := false
  relaxed : Bool := true
  deriving DecidableEq, Repr

/-- A configuration request (R278): the function, and what it writes to the Device Control registers, if it does. -/
structure CfgReq where
  fn : Fin 64
  ctl : Option PciCtl
  deriving DecidableEq, Repr

/-- The header that every submission entry shares (R290), with the ring it was fetched from. -/
structure CmdHdr where
  sq : Nat
  cid : Nat
  fence : Bool
  target : Nat
  stream : Nat
  dmode : Nat
  dptr : Nat
  dlen : Nat
  /-- The elements of a buffer list as host memory holds them, in the list's order (R291). -/
  list : List ListElem
  deriving DecidableEq, Repr

end Sys2Proof
end

