-- ==== Sys2Proof/Syntax.lean ====
section
/-! DEFINITION. The commands of the block, one constructor per row of the command table, in the table's order. -/

namespace Sys2Proof

/-- A command: what is done to the block from outside, or an event of its own that the manual tells of. -/
inductive Instr where
  /-- CHAIN_PUSH (R35). What is offered, and the bits that the crossing flips. -/
  | chainPush (c : ChainId) (w : Offer) (err : BitVec 67)
  /-- CHAIN_POP (R36). -/
  | chainPop (c : ChainId)
  /-- CREDIT_RETURN (R36). -/
  | creditReturn (c : ChainId)
  /-- WORD_REPLAY (R33). -/
  | wordReplay (h : Hop) (err : BitVec 67)
  /-- GATE_FIFO_WRITE (R39). -/
  | gateFifoWrite (g : GateId) (w : CoreWord) (err : BitVec 67)
  /-- GATE_FIFO_POP (R40). -/
  | gateFifoPop (g : GatePop)
  /-- FLUSH (R43). A write of CH_CTRL in the page of the chain's consumer. -/
  | flush (a : Accessor) (c : ChainId)
  /-- QUIESCE_REQ (R23). -/
  | quiesceReq (a : Accessor) (page : Nat)
  /-- BLOCK_QUIESCED (R23). -/
  | blockQuiesced (page : Nat)
  /-- MODE_CHANGE (R23). -/
  | modeChange (a : Accessor) (page : Nat) (mode : Bool)
  /-- BLOCK_ENABLE (R429). -/
  | blockEnable (a : Accessor) (page : Nat) (enable : Bool)
  /-- NOW_LO_READ (R20). -/
  | nowLoRead (a : Accessor)
  /-- SUPPLY_SETTLED (R25). -/
  | supplySettled
  /-- PACKER_PLACE (R135). -/
  | packerPlace (n : Fin 8)
  /-- SHEET_SEAL (R91). -/
  | sheetSeal (n : Fin 8)
  /-- POSTAMBLE_END (R152). -/
  | postambleEnd (n : Fin 8)
  /-- WRITE_FRAME (R142). `phase` is the servo phase code that the frame carries. -/
  | writeFrame (n : Fin 8) (lane : Fin 2) (phase : Nat)
  /-- HEAD_TEMP_STALE (R145). -/
  | headTempStale (n : Fin 8)
  /-- WAVE_BAND_WRITE (R145). -/
  | waveBandWrite (a : Accessor) (n : Fin 8) (k : Fin 8) (wcur amp dur pre : Nat)
  /-- SHOCK_ASSERT (R147). -/
  | shockAssert (n : Fin 8)
  /-- SHOCK_NEGATE (R148). -/
  | shockNegate (n : Fin 8)
  /-- WRITE_RESTORE (R148). -/
  | writeRestore (n : Fin 8)
  /-- VERDICT (R151). What was read back of the segment that was written as `seg`. -/
  | verdict (n : Fin 8) (seg : SegId) (found headerOk idOk : Bool) (res : SegResult) (data : List Byte)
  /-- CLOSING_DWELL_END (R153). -/
  | closingDwellEnd (n : Fin 8)
  /-- VERIFY_DECODE_START (R157). -/
  | verifyDecodeStart (n : Fin 8) (sheet gen : Nat)
  /-- VERIFY_DECODE_DONE (R157). -/
  | verifyDecodeDone (n : Fin 8)
  /-- DEAD_MAP_CLEAR (R156). -/
  | deadMapClear (a : Accessor) (n : Fin 8) (mask : BitVec 64)
  /-- SERVO_FRAME (R173). What the four readers time, and when the stripes of their C and D bursts pass. -/
  | servoFrame (n : Fin 8) (readers : List ReaderTimes) (cBursts dBursts : List (List Int))
  /-- SERVO_LOST (R170). -/
  | servoLost (n : Fin 8)
  /-- SERVO_REACQUIRED (R170). -/
  | servoReacquired (n : Fin 8)
  /-- REEL_CYCLE (R176). -/
  | reelCycle (n : ReelTurn)
  /-- TENSION_FAULT (R177). -/
  | tensionFault (n : Fin 8)
  /-- TENSION_ESTABLISHED (R177). -/
  | tensionEstablished (n : Fin 8)
  /-- SHIFT_COMPLETE (R179). -/
  | shiftComplete (n : Fin 8)
  /-- DWELL_END (R181). -/
  | dwellEnd (n : Fin 8)
  /-- COG_REQ_WRITE (R183). -/
  | cogReqWrite (a : Accessor) (n : Fin 8) (cog : Nat)
  /-- READ_RESUME (R182). -/
  | readResume (n : Fin 8)
  /-- TAPE_STOPPED (R185). -/
  | tapeStopped (n : Fin 8)
  /-- PARK_COMPLETE (R185). -/
  | parkComplete (n : Fin 8)
  /-- RUN_UP_START (R185). -/
  | runUpStart (n : Fin 8)
  /-- RUN_UP_COMPLETE (R185). -/
  | runUpComplete (n : Fin 8)
  /-- LOCATE_COMPLETE (R187). -/
  | locateComplete (n : Fin 8)
  /-- ENV (R192). -/
  | env (n : Fin 8) (tapeTemp headTemp : Int) (rh : Nat)
  /-- ENV_TIMEOUT (R188). -/
  | envTimeout (n : Fin 8)
  /-- ENV_HOLD_END (R188). -/
  | envHoldEnd (n : Fin 8)
  /-- ECHO_LOST (R190). -/
  | echoLost (n : Fin 8)
  /-- LINK_SILENT (R190). -/
  | linkSilent (n : Fin 8)
  /-- MOTION_STAT (R192). No register of the manual holds the hall state, and nothing is told of what follows from it. -/
  | motionStat (n : Fin 8) (supply takeup tension hall fault : Nat)
  /-- MECH_STAT (R192). No register of the manual holds the coarse position. -/
  | mechStat (n : Fin 8) (state fault coarse : Nat)
  /-- CM_RSP (R192). -/
  | cmRsp (n : Fin 8) (tag status : Nat) (data : List Byte)
  /-- ACK (R192). Nothing is told of what follows from SEQ. -/
  | ack (n : Fin 8) (type seq status : Nat)
  /-- BAD_FRAME (R191). -/
  | badFrame (n : LinkFrame)
  /-- CM_REQ_TIMEOUT (R193). -/
  | cmReqTimeout (n : Fin 8) (tag : Nat)
  /-- CALIBRATION_TICK (R197). -/
  | calibrationTick (n : Fin 8) (m : CalMeas)
  /-- SEGMENT_DUE (R218). What 16 channel bits after 16 gave: the amplitude, the timing errors found late and found early. -/
  | segmentDue (n : Fin 8) (lane : Fin 64) (amp late early : List Nat)
  /-- SEGMENT_ARRIVED (R219). `dist`: the sync distances at the places searched; `hdr`: the header bits decoded at each. -/
  | segmentArrived (n : Fin 8) (lane : Fin 64) (dist : List (Int × Nat)) (hdr : List (Int × List Bool)) (tone : Bool) (samples : List Int)
  /-- TILE_DECODE_DONE (R219). -/
  | tileDecodeDone (n : Fin 8) (tile : Fin 9) (bits : List Bool) (iters llr : Nat)
  /-- LOW_TONE (R216). -/
  | lowTone (n : Fin 8) (lane : ToneAt)
  /-- HUNT (R217). -/
  | hunt (n : Fin 8) (lane : Fin 64)
  /-- SPOKE_SYNC_LOST (R217). -/
  | spokeSyncLost (n : Fin 8)
  /-- SHEET_PASSED (R97). -/
  | sheetPassed (n : Fin 8) (sheet gen kind : Nat)
  /-- SECOND_DECODE (R97). -/
  | secondDecode (n : Fin 8) (sheet : Nat)
  /-- C2_DECODE_DONE (R96). -/
  | c2DecodeDone (n : Fin 8)
  /-- REPLAY_START (R236). -/
  | replayStart (n : Fin 8) (tile : Fin 9)
  /-- REPLAY_DONE (R236). -/
  | replayDone (n : Fin 8) (res : TileEnd) (bits hdr : List Bool)
  /-- LADDER_DECODE_DONE (R233). -/
  | ladderDecodeDone (n : Fin 8)
  /-- C3_REBUILD_DONE (R99). -/
  | c3RebuildDone (n : Fin 8)
  /-- LADDER_STEP_HANDOVER (R245). -/
  | ladderStepHandover (a : Accessor) (n : Fin 8)
  /-- LADDER_STEP_RUNG (R245). NEXT is `k + 1`. -/
  | ladderStepRung (a : Accessor) (n : Fin 8) (k : Fin 8)
  /-- LADDER_STEP_RAW (R245). -/
  | ladderStepRaw (a : Accessor) (n : Fin 8)
  /-- LADDER_STEP_UNREADABLE (R245). -/
  | ladderStepUnreadable (a : Accessor) (n : Fin 8)
  /-- HOST_WAIT_EXPIRY (R245). -/
  | hostWaitExpiry (n : Fin 8)
  /-- LOST_OBJ_LO_READ (R248). -/
  | lostObjLoRead (a : Accessor) (n : Fin 8)
  /-- COMPRESS_START (R121). -/
  | compressStart (st : Nat)
  /-- FINGERPRINT_STEP (R122). -/
  | fingerprintStep (st : Nat)
  /-- BLOCK_DISPATCH (R122). -/
  | blockDispatch (e : Fin 17)
  /-- BLOCK_CODED (R109). `body` is what the engine coded; the manual leaves its choice to the engine (R113). -/
  | blockCoded (e : Fin 17) (body : List Byte)
  /-- COMP_BUFFER_RETRY (R124). -/
  | compBufferRetry (e : Fin 17)
  /-- DECOMP_DISPATCH (R126). -/
  | decompDispatch (e : Fin 17)
  /-- DECOMP_RESUME (R127). -/
  | decompResume (e : Fin 17)
  /-- FAR_REFERENCE_RESUME (R126). -/
  | farReferenceResume (e : Fin 17)
  /-- DECOMP_BLOCK_DONE (R130). -/
  | decompBlockDone (e : Fin 17)
  /-- FRAME_ENCRYPT (R361). -/
  | frameEncrypt (c : Fin 2)
  /-- FRAME_DECRYPT (R364). -/
  | frameDecrypt (c : Fin 2)
  /-- MEMORY_READ (R253). `reached` is the word address that the DRAM returned, `flips` what it returned wrong. -/
  | memoryRead (reader : MemReader) (word reached : Nat) (flips : List (Nat × Nat))
  /-- MEMORY_WRITE (R255). Each beat is its 64 bits and its eight byte enables. -/
  | memoryWrite (word : Nat) (beats : List (Nat × Nat))
  /-- PAGE_FILL_DONE (R260). -/
  | pageFillDone (page : Nat)
  /-- VM_CLR (R261). -/
  | vmClr (a : Accessor)
  /-- VM_CLR_DONE (R261). -/
  | vmClrDone
  /-- INJ_ARM (R273). -/
  | injArm (a : Accessor) (k : Fin 4) (pattern lane : Nat)
  /-- ALLOCATION (R267). -/
  | allocation (owner size : Nat)
  /-- INCREMENT (R269). -/
  | increment (h : Nat)
  /-- DECREMENT (R269). -/
  | decrement (h : Nat)
  /-- APPLY (R265). -/
  | apply (a : Accessor)
  /-- POOL_CONFIG_DONE (R265). -/
  | poolConfigDone
  /-- NOBUF_WAIT_EXPIRY (R272). -/
  | nobufWaitExpiry (n : Fin 8)
  /-- PERST_ASSERT (R278). -/
  | perstAssert (e : Fin 2)
  /-- PERST_RELEASE (R278). -/
  | perstRelease (e : Fin 2)
  /-- LINK_UP (R278). -/
  | linkUp (e : Fin 2) (width speed : Nat)
  /-- LINK_DOWN (R297). -/
  | linkDown (e : Fin 2)
  /-- CONFIGURATION_REQUEST (R278). -/
  | configurationRequest (e : Fin 2) (f : CfgReq)
  /-- FUNCTION_LEVEL_RESET (R287). -/
  | functionLevelReset (e : Fin 2) (f : Fin 64)
  /-- BUS_MASTER_ENABLE (R279). -/
  | busMasterEnable (e : Fin 2) (f : Fin 64)
  /-- VF_ENABLE (R294). -/
  | vfEnable (e : Fin 2)
  /-- COMPLETION_TIMEOUT (R280). -/
  | completionTimeout (i : Fin 4) (x : XferOwner)
  /-- ERROR_COMPLETION (R280). -/
  | errorCompletion (i : Fin 4) (x : XferOwner) (c : CplError)
  /-- RING_ENABLE (R284). SIZE of the ring that the page's window names; a code of 0 disables it. -/
  | ringEnable (a : Accessor) (i : Fin 8) (cq : Bool) (size : Fin 16)
  /-- RING_DISABLE (R284). -/
  | ringDisable (a : Accessor) (i : Fin 8) (cq : Bool)
  /-- SQ_TAIL_DOORBELL (R286). -/
  | sqTailDoorbell (e : Fin 2) (f : Fin 64) (q : Fin 4096) (v : Nat)
  /-- CQ_HEAD_DOORBELL (R287). -/
  | cqHeadDoorbell (e : Fin 2) (f : Fin 64) (q : Fin 4096) (v : Nat)
  /-- SQ_CREDIT_WRITE (R288). -/
  | sqCreditWrite (a : Accessor) (i : Fin 8) (credit : Nat)
  /-- FETCH_TURN (R289). -/
  | fetchTurn (q : Fin 4096)
  /-- FETCH_COMPLETE (R289). `bad` entries of the turn were not read. -/
  | fetchComplete (q : Fin 4096) (bad : Nat)
  /-- AGG_TIMER_EXPIRY (R295). -/
  | aggTimerExpiry (q : Fin 4096)
  /-- HEARTBEAT (R296). -/
  | heartbeat (a : Accessor) (e : Fin 2) (v : Nat)
  /-- HB_WINDOW_WRITE (R296). -/
  | hbWindowWrite (a : Accessor) (e : Fin 2) (window : Nat)
  /-- HEARTBEAT_MISS (R296). -/
  | heartbeatMiss (e : Fin 2)
  /-- HOLD_UNLOAD_TIMEOUT (R412). -/
  | holdUnloadTimeout (n : Fin 8)
  /-- BAR0_BAD_ACCESS (R423). -/
  | bar0BadAccess (a : Accessor) (isRead : Bool)
  /-- REGISTER_WRITE (R8). `be` are the byte enables. -/
  | registerWrite (a : Accessor) (page off value be : Nat)
  /-- DOMAIN_FENCE_LIFT (R368). -/
  | domainFenceLift (a : Accessor) (lo hi : BitVec 32)
  /-- NOP (R340). -/
  | nop (h : CmdHdr)
  /-- WRITE (R318). -/
  | write (h : CmdHdr) (more waitCommit anchorReq : Bool) (data : List Byte)
  /-- WRITE_ACCEPTED (R316). -/
  | writeAccepted (n : Fin 8)
  /-- WRITE_MARK (R319). -/
  | writeMark (h : CmdHdr) (waitCommit : Bool) (count : Nat)
  /-- SYNC (R321). -/
  | sync (h : CmdHdr)
  /-- READ (R322). -/
  | read (h : CmdHdr) (more : Bool)
  /-- LOCATE (R326). -/
  | locate (h : CmdHdr) (object part : Nat) (toEod : Bool) (hint : Nat)
  /-- SPACE (R327). -/
  | space (h : CmdHdr) (count : Int) (unit : Nat)
  /-- READ_POSITION (R328). -/
  | readPosition (h : CmdHdr)
  /-- TAPE_STATUS (R334). -/
  | tapeStatus (h : CmdHdr)
  /-- CLOSE_SESSION (R331). -/
  | closeSession (h : CmdHdr)
  /-- FORMAT (R332). -/
  | format (h : CmdHdr) (count : Nat) (wraps : List Nat)
  /-- UNLOAD (R333). -/
  | unload (h : CmdHdr)
  /-- CANCEL (R341). -/
  | cancel (h : CmdHdr)
  /-- STREAM_OPEN (R330). -/
  | streamOpen (h : CmdHdr) (params : Nat)
  /-- STREAM_SET (R330). -/
  | streamSet (h : CmdHdr) (params : Nat)
  /-- STREAM_CLOSE (R330). -/
  | streamClose (h : CmdHdr)
  /-- STREAM_QUERY (R330). -/
  | streamQuery (h : CmdHdr)
  /-- SHEET_WRITE (R335). -/
  | sheetWrite (h : CmdHdr) (content : List Byte)
  /-- SHEET_READ (R336). -/
  | sheetRead (h : CmdHdr) (source sheet mapAddr : Nat)
  /-- RAW_RELEASE (R337). -/
  | rawRelease (h : CmdHdr)
  /-- BUF_ALLOC (R338). -/
  | bufAlloc (h : CmdHdr) (size : Nat)
  /-- BUF_REF (R338). -/
  | bufRef (h : CmdHdr) (handle : Nat)
  /-- BUF_RELEASE (R338). -/
  | bufRelease (h : CmdHdr) (handle : Nat)
  /-- BUF_LOAD (R338). -/
  | bufLoad (h : CmdHdr) (handle offset : Nat) (data : List Byte)
  /-- BUF_STORE (R338). -/
  | bufStore (h : CmdHdr) (handle offset : Nat)
  /-- CM_READ (R339). -/
  | cmRead (h : CmdHdr) (offset : Nat)
  /-- CM_WRITE (R339). -/
  | cmWrite (h : CmdHdr) (offset : Nat) (data : List Byte)
  /-- TAKEOVER (R298). -/
  | takeover (h : CmdHdr)
  /-- STAGE_SET (R346). -/
  | stageSet (a : Accessor) (dom count : Nat)
  /-- DISCARD (R346). -/
  | discard (a : Accessor)
  /-- COMMIT (R347). -/
  | commit (a : Accessor)
  /-- GET_VERSION (R351). -/
  | getVersion
  /-- GET_CAPABILITIES (R351). -/
  | getCapabilities
  /-- NEGOTIATE_ALGORITHMS (R351). -/
  | negotiateAlgorithms
  /-- GET_DIGESTS (R351). -/
  | getDigests
  /-- GET_CERTIFICATE (R351). -/
  | getCertificate (slot off len : Nat)
  /-- CHALLENGE (R351). -/
  | challenge (slot : Nat) (nonce : List Byte)
  /-- GET_MEASUREMENTS (R352). -/
  | getMeasurements (index : Nat) (signed : Bool) (nonce : List Byte)
  /-- SPDM_UNSUPPORTED_REQUEST (R351). `code` is the request code. -/
  | spdmUnsupportedRequest (code : Nat)
  /-- PLDM_FIRMWARE_UPDATE (R356). -/
  | pldmFirmwareUpdate (image : List Byte)
  /-- POWER_CAP_EFFECTER (R383). -/
  | powerCapEffecter (v : Nat)
  /-- NUMERIC_SENSOR_READ (R383). -/
  | numericSensorRead (k : Nat)
  /-- UPDATE_START (R356). -/
  | updateStart (a : Accessor)
  /-- UPD_DATA (R356). -/
  | updData (a : Accessor) (v : BitVec 32)
  /-- UPDATE_END (R356). -/
  | updateEnd (a : Accessor)
  /-- UPDATE_VERIFY_DONE (R356). `flashOk`: the flash read back as written. -/
  | updateVerifyDone (flashOk : Bool)
  /-- UPDATE_RELEASE (R356). -/
  | updateRelease (a : Accessor)
  /-- SVN_COMMIT (R357). -/
  | svnCommit (a : Accessor)
  /-- SVN_COMMIT_DONE (R357). -/
  | svnCommitDone
  /-- KEK_GO (R358). -/
  | kekGo (a : Accessor)
  /-- KEK_LOAD_DONE (R358). -/
  | kekLoadDone
  /-- KEY_GO (R358). -/
  | keyGo (a : Accessor)
  /-- KEY_LOAD_DONE (R358). -/
  | keyLoadDone
  /-- KEY_CLEAR (R358). -/
  | keyClear (a : Accessor)
  /-- KEK_CLEAR (R358). -/
  | kekClear (a : Accessor)
  /-- IV_COUNT_LO_READ (R373). -/
  | ivCountLoRead (a : Accessor)
  /-- SEQ_LO_READ (R374). -/
  | seqLoRead (a : Accessor)
  /-- TPW_LO_READ (R198). -/
  | tpwLoRead (a : Accessor) (n : Fin 8)
  /-- TAMPER (R369). Condition `k` (0 voltage, 1 temperature, 2 light, 3 mesh) is met, or is gone. -/
  | tamper (k : Fin 4) (present : Bool)
  /-- ZEROISE_ALL (R370). -/
  | zeroiseAll (a : Accessor)
  /-- THERMAL_SAMPLE (R380). Readings in units of 1/16 °C. -/
  | thermalSample (readings : List Int)
  /-- RATE_EVALUATION (R381). -/
  | rateEvaluation
  /-- TRIP_COMPARATOR (R385). -/
  | tripComparator (site : Fin 26)
  /-- TRIP_RESTART (R387). -/
  | tripRestart
  /-- DRAM_TEMP_READ (R388). No reading: the read failed. -/
  | dramTempRead (i : Fin 52) (reading : Option Int)
  /-- OVER_LIMIT (R396). `power` in 0.1 W. -/
  | overLimit (power : Nat)
  /-- P3V3_STBY_GOOD (R391). -/
  | p3v3StbyGood (mv mgmtAddr : Nat)
  /-- P12V_GOOD (R391). -/
  | p12vGood (mv : Nat)
  /-- BROWN_OUT (R393). -/
  | brownOut
  /-- RAIL_FAULT (R393). -/
  | railFault (r : Fin 6)
  /-- WORK_UNIT_DAMAGED (R398). -/
  | workUnitDamaged (x : Damage)
  /-- ERR_FORCE (R399). -/
  | errForce (a : Accessor) (page mask : Nat)
  /-- MODULE_RESET (R400). -/
  | moduleReset (a : Accessor)
  /-- KEEP_RESET (R400). -/
  | keepReset (a : Accessor)
  /-- SPOKE_RESET (R400). -/
  | spokeReset (a : Accessor) (target : Fin 16)
  /-- SPOKE_FENCE_SET (R401). -/
  | spokeFenceSet (a : Accessor) (mask : BitVec 8)
  /-- SPOKE_FENCE_LIFT (R402). -/
  | spokeFenceLift (a : Accessor) (mask : BitVec 8)
  /-- READMIT (R406). The block that RET_SEL names. -/
  | readmit (a : Accessor)
  /-- WATCHDOG_EXPIRY (R407). -/
  | watchdogExpiry (i : Fin 12)
  /-- REVIVE (R407). -/
  | revive (a : Accessor) (i : Fin 12)
  /-- TRANSPORT_ABSENT (R409). -/
  | transportAbsent (n : Fin 8)
  /-- TRANSPORT_PRESENT (R409). -/
  | transportPresent (n : Fin 8)
  /-- SWITCH_GO (R410). -/
  | switchGo (a : Accessor)
  /-- STEWARD_PAUSE (R410). -/
  | stewardPause (i : Fin 12)
  /-- SWITCH_PAUSE_TIMEOUT (R410). -/
  | switchPauseTimeout
  /-- SWITCH_REVERT (R411). -/
  | switchRevert
  /-- BYPASS (R452). -/
  | bypass (value : Nat)
  /-- IDCODE (R452). -/
  | idcode (value : Nat)
  /-- SAMPLE_PRELOAD (R452). -/
  | samplePreload (value : Nat)
  /-- EXTEST (R452). -/
  | extest (value : Nat)
  /-- CLAMP (R452). -/
  | clamp (value : Nat)
  /-- HIGHZ (R452). -/
  | highz (value : Nat)
  /-- ACCOUNTING_WINDOW (R15). The items asked for in the window, those of class A and the rest, each in the order of their requests. -/
  | accountingWindow (first rest : List XItem)
  /-- RX_LOCK_ACQUIRED (R201). -/
  | rxLockAcquired (n : Fin 8)
  /-- RX_LOCK_LOST (R201). -/
  | rxLockLost (n : Fin 8)
  /-- STEWARD_RUNNING (R407). -/
  | stewardRunning (i : Fin 12)
  /-- PAGE_VIOLATION_READ (R366). The reader may also own the page: then the read returns its register. -/
  | pageViolationRead (a : Accessor) (page off : Nat)
  /-- KEEP_READY (R400). -/
  | keepReady (identityOk : Bool)
  /-- START_UP_STEP_COMPLETED (R408). -/
  | startUpStepCompleted (x : StartStep)
  /-- TRST_N_ASSERT (R452). -/
  | trstNAssert
  /-- VECTOR_UNMASK (R294). -/
  | vectorUnmask (e : Fin 2) (f : Fin 64) (v : Fin 2048)
  deriving DecidableEq, Repr

end Sys2Proof
end

