-- ==== Sys2Proof/Machine/Format.lean ====
section
/-! DEFINITION. PBF-1, the recording format (spec chapter 3): the layout of a tape, the segment header and its CRC, the
scrambler, the sheet index, the close record and the cartridge memory areas, as functions of plain data.
Bit sequences sent on tape are lists of Bool, first bit sent first. -/

namespace Sys2Proof.Machine

/-! ### Bits and bytes -/

/-- The `w` bits of `x`, most significant first (R6: on tape each field is sent most significant bit first). -/
def bitsMsb : Nat → Nat → List Bool
  | 0, _ => []
  | w + 1, x => bitAt x w :: bitsMsb w x

/-- The number whose bits, most significant first, are the list. -/
def ofBitsMsb (l : List Bool) : Nat := l.foldl (fun a b => 2 * a + b2n b) 0

/-- The bits of a byte string as they are sent (R65: each byte most significant bit first, bytes ascending). -/
def bytesBits : List Byte → List Bool
  | [] => []
  | b :: r => bitsMsb 8 b.toNat ++ bytesBits r

/-- `n` copies of a pattern. -/
def rep {α : Type} : Nat → List α → List α
  | 0, _ => []
  | n + 1, l => l ++ rep n l

/-- The first `n` of a list, with `z` where the list has ended. -/
def takePad {α : Type} (z : α) : Nat → List α → List α
  | 0, _ => []
  | n + 1, [] => z :: takePad z n []
  | n + 1, a :: r => a :: takePad z n r

/-- The byte at place `i` of a byte string, 0 past its end. -/
def byteAt (l : List Byte) (i : Nat) : Byte := l.getD i 0

/-! ### CRC-32 (R62), CRC-8 (R167) and CRC-16 (R191): one bit-serial register for all three -/

/-- One bit into a CRC register of `w` bits with generator `poly` (no reflection). -/
def crcBit (w poly crc : Nat) (b : Bool) : Nat :=
  let top := bitAt crc (w - 1)
  let sh := (2 * crc) % 2 ^ w
  if top == b then sh else sh ^^^ poly

/-- A bit string into a CRC register. -/
def crcBits (w poly : Nat) (init : Nat) (l : List Bool) : Nat := l.foldl (crcBit w poly) init

/-- CRC-32 of R62 over a bit string: generator 0x04C1_1DB7, register set to ones, result inverted. -/
def crc32 (l : List Bool) : Nat := crcBits 32 0x04C11DB7 0xFFFFFFFF l ^^^ 0xFFFFFFFF

/-- CRC-32 of R62 over a byte string, as the cartridge memory areas end in (R82). -/
def crc32Bytes (l : List Byte) : Nat := crc32 (bytesBits l)

/-! ### The tape across and along (R52 to R58) -/

/-- The data band of logical wrap `l` (R57). -/
def bandOfWrap (l : Nat) : Nat := [2, 3, 1, 4, 0, 5].getD (l / 32) 0

/-- The density zone of a data band (R53). -/
def zoneOfBand (b : Nat) : Nat := if b = 0 ∨ b = 5 then 0 else if b = 1 ∨ b = 4 then 1 else 2

/-- The zone of a logical wrap (R57). -/
def zoneOfWrap (l : Nat) : Nat := zoneOfBand (bandOfWrap l)

/-- Channel bits per millimetre of tape (R53). -/
def bitsPerMm (z : Nat) : Nat := if z = 0 then 39370 else if z = 1 then 43307 else 47244

/-- Sheet slots per wrap (R53). -/
def slotsPerWrap (z : Nat) : Nat := if z = 0 then 40192 else if z = 1 then 44160 else 48128

/-- Channel bits of one sheet on one track (R64). -/
def sheetBits : Nat := 1187072

/-- Channel bits of one segment (R59). -/
def segmentBits : Nat := 37056

/-- Track slot of band wrap `j` in every sub-band (R55). -/
def trackSlot (j : Nat) : Nat := if j % 2 = 0 then j / 2 else 31 - (j - 1) / 2

/-- Is logical wrap `l` written forward (R55)? -/
def wrapForward (l : Nat) : Bool := l % 2 == 0

/-- Cartridge track number of channel `c` on logical wrap `l` (R55). -/
def trackNumber (l c : Nat) : Nat := 2048 * bandOfWrap l + (32 * c + trackSlot (l % 32))

/-- Centre line of track `t` above its band's lower edge, in units of 0.45 µm (R55: (T + 0.5) × 0.9 µm). -/
def trackCentre (t : Nat) : Nat := 2 * t + 1

/-- The width a written slot keeps, of a written width `w`, in nanometres (R56). -/
def widthRemaining (channel slot w : Nat) : Nat :=
  if slot = 16 then w else if slot = 0 ∧ channel ≠ 0 then 1800 - w else 900

/-- The data area along a wrap, in micrometres from the physical beginning of tape (R58). -/
def dataAreaStart : Nat := 14000000
def dataAreaEnd : Nat := 1226000000

/-- Length of `bits` channel bits on a track of zone `z`, in micrometres, rounded up. -/
def bitsToUm (z bits : Nat) : Nat := (bits * 1000 + bitsPerMm z - 1) / bitsPerMm z

/-- May a new sheet slot begin on a wrap of zone `z` after `used` slots, with `run` micrometres of the data area
already used in the wrap's direction (R58)? -/
def slotAllowed (z used run : Nat) : Bool :=
  decide (used < slotsPerWrap z) && decide (run + bitsToUm z sheetBits ≤ dataAreaEnd - dataAreaStart)

/-- Does the slot belong to the last 16 sheet lengths of a partition, which take no data sheet (R81)?
`lastWrap` says that the wrap is the partition's last. -/
def slotReserved (lastWrap : Bool) (z used run : Nat) : Bool :=
  lastWrap && (decide (slotsPerWrap z - 16 ≤ used) ||
    decide (dataAreaEnd - dataAreaStart < run + bitsToUm z sheetBits + 16 * bitsToUm z sheetBits))

/-! ### Segment headers (R60 to R63) -/

/-- The fields of a segment header (R60). -/
structure SegHeader where
  fmt : Nat := 1
  kind : Nat
  sheet : Nat
  row : Nat
  wrap : Nat
  part : Nat
  gen : Nat
  zone : Nat
  rwslot : Nat
  tpw : Nat
  deriving DecidableEq, Repr

/-- The 112 field bits, bit 143 first (R60). -/
def SegHeader.fieldBits (h : SegHeader) : List Bool :=
  bitsMsb 4 h.fmt ++ bitsMsb 4 h.kind ++ bitsMsb 32 h.sheet ++ bitsMsb 11 h.row ++ bitsMsb 8 h.wrap ++
  bitsMsb 2 h.part ++ bitsMsb 2 h.gen ++ bitsMsb 2 h.zone ++ bitsMsb 3 h.rwslot ++ bitsMsb 36 h.tpw ++ bitsMsb 8 0

/-- The 144 header bits with their CRC (R60, R62), before scrambling. -/
def SegHeader.bits (h : SegHeader) : List Bool := h.fieldBits ++ bitsMsb 32 (crc32 h.fieldBits)

/-- A bit field of a sent bit string: `w` bits from place `at`. -/
def slice (l : List Bool) (pos w : Nat) : Nat := ofBitsMsb ((l.drop pos).take w)

/-- The header fields that 144 descrambled bits spell (R60). -/
def SegHeader.ofBits (l : List Bool) : SegHeader :=
  { fmt := slice l 0 4, kind := slice l 4 4, sheet := slice l 8 32, row := slice l 40 11, wrap := slice l 51 8,
    part := slice l 59 2, gen := slice l 61 2, zone := slice l 63 2, rwslot := slice l 65 3, tpw := slice l 68 36 }

/-- The tests of R63 on 144 descrambled header bits read on channel `c`: true when the header passes. -/
def headerPasses (l : List Bool) (c : Nat) : Bool :=
  let h := SegHeader.ofBits l
  slice l 112 32 == crc32 (l.take 112) && h.fmt == 1 && (decide (1 ≤ h.kind) && decide (h.kind ≤ 5)) &&
  decide (h.wrap ≤ 191) && decide (h.zone ≤ 2) && decide (h.rwslot ≤ 4) && (h.kind == 5 || h.row % 64 == c)

/-! ### The scrambler (R66) -/

/-- One step of the generator x^31 + x^28 + 1: (next state, output bit). -/
def lfsrStep (s : Nat) : Nat × Bool :=
  let b := bitAt s 30 != bitAt s 27
  ((2 * s + b2n b) % 2 ^ 31, b)

/-- The state after `n` outputs. -/
def lfsrSkip : Nat → Nat → Nat
  | 0, s => s
  | n + 1, s => lfsrSkip n (lfsrStep s).1

/-- `n` outputs from state `s`. -/
def lfsrOut : Nat → Nat → List Bool
  | 0, _ => []
  | n + 1, s => (lfsrStep s).2 :: lfsrOut n (lfsrStep s).1

/-- Seed of a segment header's scrambling on channel `c` (R66). -/
def headerSeed (c : Nat) : Nat := 0x2B3C4D5E ^^^ c

/-- Seed of the codeword scrambling of a sheet on channel `c` (R66). -/
def codewordSeed (sheet c : Nat) : Nat :=
  let x := ((sheet % 2 ^ 25) * 64 + c) ^^^ 0x2B3C4D5E
  if x = 0 then 1 else x

/-- Bitwise exclusive or of two bit strings. -/
def xorBits (a b : List Bool) : List Bool := List.zipWith (fun x y => x != y) a b

/-- Header bits scrambled, or descrambled, for channel `c` (R66). -/
def scrambleHeader (c : Nat) (l : List Bool) : List Bool := xorBits l (lfsrOut 144 (headerSeed c))

/-- Codeword bits of the segment at position `p` scrambled, or descrambled (R66). -/
def scrambleCodeword (sheet c p : Nat) (l : List Bool) : List Bool :=
  xorBits l (lfsrOut 36864 (lfsrSkip (36864 * p) (codewordSeed sheet c)))

/-- The sync mark (R59). -/
def syncMark : List Bool := bitsMsb 48 0x0F5C6E1AD39B

/-! ### The sheet index (R67 to R70) -/

/-- One index entry (R68). -/
structure IdxEntry where
  mark : Bool            -- TYPE 0x2 when true, 0x1 when false
  first : Bool
  last : Bool
  anchor : Bool
  enc : Bool
  form : Nat
  stream : Nat
  offset : Nat
  length : Nat
  hostLength : Nat
  deriving DecidableEq, Repr

/-- The 16 bytes of an entry (R68). -/
def IdxEntry.bytes (e : IdxEntry) : List Byte :=
  [BitVec.ofNat 8 ((if e.mark then 0x20 else 0x10) + 8 * b2n e.first + 4 * b2n e.last + 2 * b2n e.anchor + b2n e.enc),
   BitVec.ofNat 8 ((e.form % 4) * 64)] ++ bytesBE 2 e.stream ++ bytesBE 4 e.offset ++ bytesBE 4 e.length ++
  bytesBE 4 e.hostLength

/-- The entry that 16 bytes spell; none for a TYPE or FORM that is not written (R68). -/
def IdxEntry.ofBytes (l : List Byte) : Option IdxEntry :=
  let b0 := (byteAt l 0).toNat
  let b1 := (byteAt l 1).toNat
  let ty := b0 / 16
  if (ty = 1 ∨ ty = 2) ∧ b1 / 64 ≤ 1 then
    some { mark := ty == 2, first := bitAt b0 3, last := bitAt b0 2, anchor := bitAt b0 1, enc := bitAt b0 0,
           form := b1 / 64, stream := natBE ((l.drop 2).take 2), offset := natBE ((l.drop 4).take 4),
           length := natBE ((l.drop 8).take 4), hostLength := natBE ((l.drop 12).take 4) }
  else none

/-- Index rows that `n` entries take (R67). -/
def indexRows (n : Nat) : Nat := max 2 ((16 * (n + 1) + 4095) / 4096)

/-- Bytes of the user area beside `rows` index rows (R67). -/
def userArea (rows : Nat) : Nat := (1888 - rows) * 4096

/-- Rows and bytes of a sheet's payload (R65). -/
def payloadRows : Nat := 1888
def payloadBytes : Nat := 7733248

/-- The index of a sheet (R67): its header, then its entries; bytes past the list are 0. -/
def indexBytes (flags payloadEnd firstRecord : Nat) (es : List IdxEntry) : List Byte :=
  bytesBE 2 es.length ++ bytesBE 1 (indexRows es.length) ++ bytesBE 1 flags ++ bytesBE 4 payloadEnd ++
  bytesBE 6 firstRecord ++ bytesBE 2 0 ++ (es.map IdxEntry.bytes).flatten

/-- SHEET_FLAGS (R67). -/
def sheetFlags (early padded hostBuilt : Bool) : Nat := 128 * b2n early + 64 * b2n padded + 32 * b2n hostBuilt

/-- The object of entry `e` (R69): FIRST_RECORD plus the entries from 1 to `e` that have FIRST = 1. -/
def objectOfEntry (firstRecord e : Nat) (es : List IdxEntry) : Nat :=
  firstRecord + (((es.drop 1).take e).filter IdxEntry.first).length

/-- May an entry of at least one byte be added to a sheet of `n` entries whose extents end at `payloadEnd` (R70)?
The index may grow by a row, which shrinks the user area. -/
def roomFor (n payloadEnd : Nat) : Bool :=
  decide (n < 4095) && decide (payloadEnd < userArea (indexRows (n + 1)))

/-- May an entry of no bytes be added (R70)? -/
def roomForEmpty (n payloadEnd : Nat) : Bool :=
  decide (n < 4095) && decide (payloadEnd ≤ userArea (indexRows (n + 1)))

/-! ### Reams (R75) -/

/-- The interleave block, the position in it, the ream and the member number of a sheet number (R75). -/
def sheetBlock (sheet : Nat) : Nat := sheet / 128
def sheetPos (sheet : Nat) : Nat := sheet % 128
def sheetReam (sheet : Nat) : Nat := sheetPos sheet % 4
def sheetMember (sheet : Nat) : Nat := sheetPos sheet / 4

/-- The sheet number of member `m` of ream `r` of block `q`. -/
def memberSheet (q r m : Nat) : Nat := 128 * q + 4 * m + r

/-- The number that the next data sheet takes after `sheet`, skipping positions 120 to 127 (R75). -/
def nextDataSheet (sheet : Nat) : Nat :=
  if sheetPos (sheet + 1) < 120 then sheet + 1 else 128 * (sheetBlock (sheet + 1) + 1)

/-! ### The close record (R79) -/

/-- The close record of a session-break or end-of-data sheet (R79), 64 bytes, big-endian. -/
structure CloseRec where
  closeKind : Nat
  reason : Nat
  copy : Nat
  part : Nat
  timebase : Nat
  nextRecord : Nat
  lastDataSheet : Nat
  session : Nat
  sessionSheet : Nat
  deriving DecidableEq, Repr

/-- Its bytes (R79). -/
def CloseRec.bytes (c : CloseRec) : List Byte :=
  bytesBE 1 c.closeKind ++ bytesBE 1 c.reason ++ bytesBE 1 c.copy ++ bytesBE 1 c.part ++ bytesBE 8 c.timebase ++
  bytesBE 6 c.nextRecord ++ bytesBE 4 c.lastDataSheet ++ bytesBE 4 c.session ++ bytesBE 4 c.sessionSheet ++
  List.replicate 34 0

/-- The record that 64 bytes spell. -/
def CloseRec.ofBytes (l : List Byte) : CloseRec :=
  { closeKind := natBE (l.take 1), reason := natBE ((l.drop 1).take 1), copy := natBE ((l.drop 2).take 1),
    part := natBE ((l.drop 3).take 1), timebase := natBE ((l.drop 4).take 8), nextRecord := natBE ((l.drop 12).take 6),
    lastDataSheet := natBE ((l.drop 18).take 4), session := natBE ((l.drop 22).take 4),
    sessionSheet := natBE ((l.drop 26).take 4) }

/-! ### Cartridge memory areas (R82, R462) -/

/-- An area: its bytes, zero-filled to `n − 4`, and the CRC-32 that ends it (R82). -/
def cmArea (n : Nat) (body : List Byte) : List Byte :=
  takePad 0 (n - 4) body ++ bytesBE 4 (crc32Bytes (takePad 0 (n - 4) body))

/-- Does an area's CRC check (R82)? -/
def cmAreaOk (n : Nat) (area : List Byte) : Bool :=
  natBE ((area.drop (n - 4)).take 4) == crc32Bytes (area.take (n - 4))

/-- Offsets of the areas (R82). -/
def cmManufacture : Nat := 0x0000
def cmFormatId : Nat := 0x0040
def cmPartA : Nat := 0x0080
def cmPartB : Nat := 0x0180
def cmEod : Nat := 0x0280
def cmUsage : Nat := 0x0480

/-- A partition of the cartridge: its first wrap and its wrap count (R81, R462). -/
structure PartDef where
  firstWrap : Nat
  wrapCount : Nat
  deriving DecidableEq, Repr

/-- The format identification area (R462). -/
def formatIdArea (code : Nat) (initialised : Bool) (parts timebase : Nat) : List Byte :=
  cmArea 64 (bytesBE 1 code ++ bytesBE 1 (b2n initialised) ++ bytesBE 1 parts ++ bytesBE 1 0 ++ bytesBE 8 timebase)

/-- A partition table copy (R462). -/
def partTableArea (generation : Nat) (ps : List PartDef) : List Byte :=
  cmArea 256 (bytesBE 4 generation ++
    ((takePad ⟨0, 0⟩ 4 ps).map (fun p => bytesBE 1 p.firstWrap ++ bytesBE 1 p.wrapCount)).flatten)

/-- An end-of-data entry (R462). -/
structure EodEntry where
  valid : Bool := false
  wrap : Nat := 0
  sheet : Nat := 0
  tpw : Nat := 0
  nextRecord : Nat := 0
  session : Nat := 0
  deriving DecidableEq, Repr

/-- Its 64 bytes (R462). -/
def EodEntry.bytes (e : EodEntry) : List Byte :=
  bytesBE 1 (b2n e.valid) ++ bytesBE 1 e.wrap ++ bytesBE 2 0 ++ bytesBE 4 e.sheet ++ bytesBE 5 e.tpw ++ bytesBE 1 0 ++
  bytesBE 6 e.nextRecord ++ bytesBE 4 e.session ++ List.replicate 40 0

/-- The entry that 64 bytes spell. -/
def EodEntry.ofBytes (l : List Byte) : EodEntry :=
  { valid := bitAt (byteAt l 0).toNat 0, wrap := (byteAt l 1).toNat, sheet := natBE ((l.drop 4).take 4),
    tpw := natBE ((l.drop 8).take 5), nextRecord := natBE ((l.drop 14).take 6), session := natBE ((l.drop 20).take 4) }

/-- The end-of-data table (R462). -/
def eodTableArea (es : List EodEntry) : List Byte :=
  cmArea 512 ((takePad {} 4 es).map EodEntry.bytes).flatten

/-- The usage counters (R462), in the order of their places. -/
structure Usage where
  loads : Nat := 0
  sheetsWritten : Nat := 0
  sheetsRead : Nat := 0
  segRewrites : Nat := 0
  sheetCopies : Nat := 0
  rungs : List Nat := [0, 0, 0, 0, 0, 0, 0, 0]
  unread : Nat := 0
  deadMarks : List Nat := [0, 0, 0, 0, 0, 0]
  deriving DecidableEq, Repr

/-- The usage area; every counter saturates (R462). -/
def Usage.area (u : Usage) : List Byte :=
  let s4 (x : Nat) := bytesBE 4 (min x 0xFFFFFFFF)
  let s8 (x : Nat) := bytesBE 8 (min x 0xFFFFFFFFFFFFFFFF)
  cmArea 1024 (s4 u.loads ++ s8 u.sheetsWritten ++ s8 u.sheetsRead ++ s8 u.segRewrites ++ s8 u.sheetCopies ++
    (u.rungs.map s4).flatten ++ s4 u.unread ++ (u.deadMarks.map s4).flatten)

/-- The counters that a usage area spells. -/
def Usage.ofArea (l : List Byte) : Usage :=
  let g (o n : Nat) := natBE ((l.drop o).take n)
  { loads := g 0 4, sheetsWritten := g 4 8, sheetsRead := g 12 8, segRewrites := g 20 8, sheetCopies := g 28 8,
    rungs := [g 36 4, g 40 4, g 44 4, g 48 4, g 52 4, g 56 4, g 60 4, g 64 4], unread := g 68 4,
    deadMarks := [g 72 4, g 76 4, g 80 4, g 84 4, g 88 4, g 92 4] }

/-- Manufacture area: is the cartridge Class K (R82)? -/
def isClassK (area : List Byte) : Bool := (byteAt area 0).toNat == 0x4B

end Sys2Proof.Machine
end

