-- ==== Sys2Proof/Machine/Ecc.lean ====
section
/-! DEFINITION. The three codes (spec chapter 4): C1's encoder and check, C2 over GF(2^16) with errors-and-erasures
decoding, C3 over GF(2^8) with the accumulators' arithmetic and the rebuilding of a lost member. -/

namespace Sys2Proof.Machine

/-! ### Binary field arithmetic -/

/-- Product of `a` and `b` in GF(2^w) with primitive polynomial `poly` (its x^w term included). -/
def gfMulAux (w poly : Nat) : Nat → Nat → Nat → Nat → Nat
  | 0, _, _, acc => acc
  | n + 1, a, b, acc =>
    let acc := if b % 2 = 1 then acc ^^^ a else acc
    let a2 := 2 * a
    gfMulAux w poly n (if a2 < 2 ^ w then a2 else a2 ^^^ poly) (b / 2) acc

def gfMul (w poly a b : Nat) : Nat := if a = 0 ∨ b = 0 then 0 else gfMulAux w poly w a b 0

/-- `a` to the `n`, by squaring over `fuel` bits of `n`. -/
def gfPowAux (w poly : Nat) : Nat → Nat → Nat → Nat → Nat
  | 0, _, _, acc => acc
  | f + 1, a, n, acc =>
    if n = 0 then acc
    else gfPowAux w poly f (gfMul w poly a a) (n / 2) (if n % 2 = 1 then gfMul w poly acc a else acc)

def gfPow (w poly a n : Nat) : Nat := gfPowAux w poly 64 a n 1

/-- The inverse of a non-zero element: its power 2^w − 2. -/
def gfInv (w poly a : Nat) : Nat := gfPow w poly a (2 ^ w - 2)

/-- C2's field GF(2^16), 0x1_100B (R90). -/
def mul16 (a b : Nat) : Nat := gfMul 16 0x1100B a b
def pow16 (n : Nat) : Nat := gfPow 16 0x1100B 2 (n % 65535)
def inv16 (a : Nat) : Nat := gfInv 16 0x1100B a

/-- C3's field GF(2^8), 0x11D (R92). -/
def mul8 (a b : Nat) : Nat := gfMul 8 0x11D a b
def pow8 (n : Nat) : Nat := gfPow 8 0x11D 2 (n % 255)
def inv8 (a : Nat) : Nat := gfInv 8 0x11D a

/-! ### C1 (R86 to R88) -/

/-- Is block (i, j) of the information part non-zero, and with what shift (R87, its note)? -/
def c1Shift (i j : Nat) : Option Nat :=
  let k := (i + 8 * 64 - j) % 8
  if k = 0 ∨ k = 1 ∨ k = 3 ∨ k = 6 then some (37 * i * (j + 1) % 512) else none

/-- The word of base column `j`: bits c(512 j) to c(512 j + 511), bit b of the number at c(512 j + b). -/
def c1Word (bits : List Bool) (j : Nat) : Nat := ofBitsMsb (((bits.drop (512 * j)).take 512).reverse)

/-- Rotation of a 512-bit word down by `s`: bit a of the result is bit (a + s) mod 512 of `x`. -/
def rot512 (x s : Nat) : Nat := (x >>> s) ||| ((x <<< (512 - s)) % 2 ^ 512)

/-- s_i of R88: the exclusive or over the information columns of base row `i`. -/
def c1Sum (words : List Nat) (i : Nat) : Nat :=
  ((List.range 64).zip words).foldl (fun acc jw =>
    match c1Shift i jw.1 with
    | none => acc
    | some s => acc ^^^ rot512 jw.2 s) 0

/-- The parity words p_0 to p_7 of 64 information words (R88). -/
def c1Parity (words : List Nat) : List Nat :=
  ((List.range 8).foldl (fun (acc : Nat × List Nat) i =>
    let p := acc.1 ^^^ c1Sum words i
    (p, acc.2 ++ [p])) (0, [])).2

/-- The 512 bits of a word as they are sent, bit 0 first. -/
def wordBits (x : Nat) : List Bool := (bitsMsb 512 x).reverse

/-- The 36,864 bits of the C1 codeword of a row of 4,096 bytes (R65, R86 to R88). -/
def c1Encode (row : List Byte) : List Bool :=
  let info := bytesBits (takePad 0 4096 row)
  info ++ ((c1Parity ((List.range 64).map (c1Word info))).map wordBits).flatten

/-- Do all 4,096 checks of C1 hold on 36,864 bits (R86)? -/
def c1Check (bits : List Bool) : Bool :=
  let p := c1Parity ((List.range 64).map (c1Word bits))
  ((List.range 8).map (fun k => c1Word bits (64 + k))) == p

/-! ### C2 (R90): encoding -/

/-- Product of a polynomial (highest coefficient first) with (x − r). -/
def polyMulRoot (r : Nat) (p : List Nat) : List Nat :=
  List.zipWith (· ^^^ ·) (p ++ [0]) (0 :: p.map (mul16 r))

/-- The generator polynomial of C2 (R90), 161 coefficients, highest first. -/
def c2Gen : List Nat := (List.range 160).foldl (fun g i => polyMulRoot (pow16 i) g) [1]

/-- One symbol into the remainder register of 160 symbols, highest coefficient first. -/
def c2Shift (reg : List Nat) (d : Nat) : List Nat :=
  let f := reg.headD 0 ^^^ d
  if f = 0 then reg.drop 1 ++ [0]
  else List.zipWith (· ^^^ ·) (reg.drop 1 ++ [0]) ((c2Gen.drop 1).map (mul16 f))

/-- The 160 parity symbols of 1,888 information symbols, coefficient of x^159 first (R90). -/
def c2ParityOf (info : List Nat) : List Nat := info.foldl c2Shift (List.replicate 160 0)

/-- Symbol of codeword `w` in a row (R90): bytes 2w and 2w + 1, big-endian. -/
def rowSymbol (row : List Byte) (w : Nat) : Nat := (byteAt row (2 * w)).toNat * 256 + (byteAt row (2 * w + 1)).toNat

/-- Parity row 1,888 + k of a sheet whose payload rows are given by `row` (R90). -/
def c2ParityRow (row : Nat → List Byte) (k : Nat) : List Byte :=
  ((List.range 2048).map (fun w =>
    bytesBE 2 ((c2ParityOf ((List.range 1888).map (fun r => rowSymbol (row r) w))).getD k 0))).flatten

/-! ### C2: errors-and-erasures decoding (R96)

A received codeword is given sparsely, as (position r, symbol) pairs; an unlisted position holds 0. Position r has
locator α^(2,047 − r). -/

/-- Locator of position `r` (R90). -/
def c2Loc (r : Nat) : Nat := pow16 (2047 - r)

/-- Syndrome `i`: the received polynomial at α^i. -/
def c2Syndrome (rx : List (Nat × Nat)) (i : Nat) : Nat :=
  rx.foldl (fun acc p => acc ^^^ mul16 p.2 (pow16 (i * (2047 - p.1)))) 0

/-- Polynomials below have their LOWEST coefficient first. -/
def polyEval (p : List Nat) (x : Nat) : Nat := p.reverse.foldl (fun acc c => mul16 acc x ^^^ c) 0
def polyXor : List Nat → List Nat → List Nat
  | [], b => b
  | a, [] => a
  | x :: a, y :: b => (x ^^^ y) :: polyXor a b
def polyScale (k : Nat) (p : List Nat) : List Nat := p.map (mul16 k)
def polyMul : List Nat → List Nat → List Nat
  | [], _ => []
  | x :: a, b => polyXor (polyScale x b) (0 :: polyMul a b)

/-- Erasure locator: the product of (1 − X z) over the erased positions. -/
def erasureLocator (era : List Nat) : List Nat := era.foldl (fun p r => polyMul [1, c2Loc r] p) [1]

/-- Berlekamp–Massey on the syndromes, started from the erasure locator of degree `f` (R96).
State: (current locator, previous locator, L, previous discrepancy's inverse shift). -/
def bmStep (syn : List Nat) (f : Nat) (st : List Nat × List Nat × Nat) (n : Nat) : List Nat × List Nat × Nat :=
  let (lam, b, l) := st
  let d := (List.range (l + 1)).foldl (fun acc i => acc ^^^ mul16 (lam.getD i 0) (syn.getD (n - i) 0)) 0
  let b1 := 0 :: b
  if d = 0 then (lam, b1, l)
  else
    let lam2 := polyXor lam (polyScale d b1)
    if 2 * l ≤ n + f then (lam2, polyScale (inv16 d) lam, n + 1 + f - l) else (lam2, b1, l)

/-- The errata locator of the syndromes and erasures. -/
def errataLocator (syn : List Nat) (era : List Nat) : List Nat × Nat :=
  let g := erasureLocator era
  let f := era.length
  let r := ((List.range 160).drop f).foldl (bmStep syn f) (g, g, f)
  (r.1, r.2.2)

/-- Formal derivative in characteristic 2. -/
def polyDeriv : List Nat → List Nat
  | [] => []
  | [_] => []
  | _ :: c1 :: r => c1 :: 0 :: polyDeriv r

/-- What decoding one codeword gives: the corrections (position, symbol to exclusive-or), and e; none when the
codeword fails (R96). -/
def c2DecodeWord (errLimit : Nat) (era : List Nat) (rx : List (Nat × Nat)) : Option (List (Nat × Nat) × Nat) :=
  let f := era.length
  if 160 < f then none
  else
    let syn := (List.range 160).map (c2Syndrome rx)
    if syn.all (· == 0) then some ([], 0)
    else
      let (lam, deg) := errataLocator syn era
      let roots := (List.range 2048).filter (fun r => polyEval lam (inv16 (c2Loc r)) == 0)
      let e := deg - f
      if roots.length = deg ∧ 2 * e + f ≤ 160 ∧ e ≤ errLimit then
        let omega := (polyMul syn lam).take 160
        let dl := polyDeriv lam
        some (roots.map (fun r =>
          let xi := inv16 (c2Loc r)
          (r, mul16 (c2Loc r) (mul16 (polyEval omega xi) (inv16 (polyEval dl xi))))), e)
      else none

/-! ### C3 (R92, R93, R99) -/

/-- Member `m`'s factor in the second check: α^(31 − m) (R92). -/
def c3Loc (m : Nat) : Nat := pow8 (31 - m)

/-- Parity member 30 from the two accumulators (R93): (A0 XOR A1) × 0xF4. -/
def c3Parity30 (a0 a1 : Byte) : Byte := BitVec.ofNat 8 (mul8 ((a0 ^^^ a1).toNat) 0xF4)

/-- Parity member 31 (R93): A0 XOR member 30. -/
def c3Parity31 (a0 a1 : Byte) : Byte := a0 ^^^ c3Parity30 a0 a1

/-- What member data adds to accumulator A1 (R93): d × α^(31 − m). -/
def c3Scale (m : Nat) (d : Byte) : Byte := BitVec.ofNat 8 (mul8 d.toNat (c3Loc m))

/-- Solving one byte position for member `m` (R99): `known` are the (member, byte) pairs not erased, `erased` the
erased members. None: the position cannot be rebuilt, or the S1 requirement of a single erasure fails. -/
def c3Solve (m : Nat) (erased : List Nat) (known : List (Nat × Nat)) : Option Nat :=
  let s0 := known.foldl (fun a p => a ^^^ p.2) 0
  let s1 := known.foldl (fun a p => a ^^^ mul8 p.2 (c3Loc p.1)) 0
  match erased with
  | [] => (known.find? (fun p => p.1 == m)).map (·.2)
  | [a] => if s1 = mul8 s0 (c3Loc a) then (if a = m then some s0 else (known.find? (fun p => p.1 == m)).map (·.2)) else none
  | [a, b] =>
    let ca := mul8 (s1 ^^^ mul8 s0 (c3Loc b)) (inv8 (c3Loc a ^^^ c3Loc b))
    if a = m then some ca else if b = m then some (s0 ^^^ ca) else (known.find? (fun p => p.1 == m)).map (·.2)
  | _ => none

end Sys2Proof.Machine
end

