-- ==== Sys2Proof/Config.lean ====
section
/-! DEFINITION. What one module fixes and the manual does not state, and the values it leaves open. Every constant here
is OPAQUE: no proof can see a value, so a claim about it holds whatever it is.

The cryptographic functions stand here as uninterpreted functions too: the manual defines them by other standards
(SHA-512, AES-GCM, AES key wrap, RSA), which it does not restate. -/

namespace Sys2Proof.Config

/-- A free value of the index: what the manual leaves undefined and the machine still produces. -/
opaque freeValue : Nat → Nat

/-- What a misuse of a free handle leaves in the free list of its class (UB-2, UB-8 of R417), each number taken in the class.
(DESIGN CHOICE, log entry 17.) -/
opaque freeHandles : Nat → List Nat

/-- The actuator position that the compensator in force makes of a position error sample (R173, R174); R174 states its shape, no gain and no
rule of discretisation. The last argument counts free values, for the output depends on the samples before too.
(DESIGN CHOICE, log entry 12.) -/
opaque compensate : Compensator → Int → Nat → Nat

/-- By-design number behind a chain's depth (R35, R49: 4 to 64 stages, "By design"). -/
opaque chainDepthRaw : Nat → Nat

/-- The depth of a chain: 4 to 64 stages (R35).
(DESIGN CHOICE, log entry 9.) -/
def chainDepth (k : Nat) : Nat := 4 + chainDepthRaw k % 61

/-- SHA-512/256, which R115 takes from its standard. -/
opaque sha512_256 : List Byte → Nat

/-- SHA-512, which the security chapter takes from its standard. -/
opaque sha512 : List Byte → List Byte

/-- What a register that only time or the outside fills shows (ENERGY, CORR_ERRS): its page, its offset, the time, and what
software wrote to it last.
(DESIGN CHOICE, log entry 3.) -/
opaque gathered : Nat → Nat → Nat → Nat → Nat

/-- What a decompressor makes of a block of host-supplied NCF that breaks R104, R107 or R110 to R113 (R131, UB-7): found faulty
under the check numbered 0 to 2, or, from 3 on, not found, with some bytes as its output. The first argument counts free values.
(DESIGN CHOICE, log entry 18.) -/
opaque brokenNcf : Nat → List Byte → Nat × List Byte

/-- AES-256-GCM of SP 800-38D: key, IV, additional data, plaintext; ciphertext followed by the tag (R361). -/
opaque gcmEncrypt : List Byte → List Byte → List Byte → List Byte → List Byte

/-- AES-256-GCM decryption: key, IV, additional data, ciphertext, tag; none when the tag does not check (R364). -/
opaque gcmDecrypt : List Byte → List Byte → List Byte → List Byte → List Byte → Option (List Byte)

/-- RSAES-OAEP decryption under the module's key transport key (R358). -/
opaque oaepDecrypt : List Byte → Option (List Byte)

/-- AES key unwrap of SP 800-38F: key-encryption key, ciphertext; none when the integrity check fails (R358). -/
opaque keyUnwrap : List Byte → List Byte → Option (List Byte)

/-- What a flash slot holds where the manual does not give it (R353): slots A and B as the module was made (0, 1), a slot
after a write that did not end well (from 2 on). -/
opaque flashImage : Nat → List Byte

/-- Does the signature that ends an image verify under key 0 or 1 (R354)? -/
opaque imageSigned : Nat → List Byte → Bool

/-- The fuse that revokes key 0 (R354). -/
opaque keyRevoked : Bool

/-- The fuses of R14 (IDENT): die serial and module serial, 64 bits each; fuse-bank version. -/
opaque dieSerial : Nat
opaque moduleSerial : Nat
opaque fuseBank : Nat

/-- The manufacturer identity of the JTAG IDCODE (R452), which the manual does not give. -/
opaque jtagMaker : Nat

/-- SHA-512 of the boot ROM (R352). -/
opaque bootRomDigest : List Byte

/-- The certificate chain of an SPDM slot (R351). -/
opaque certChain : Nat → List Byte

/-- RSASSA-PSS under the identity key (R351): the message and the salt drawn. -/
opaque identitySign : List Byte → Nat → List Byte

end Sys2Proof.Config
end

