-- ==== Sys2Proof/Machine/Ncf.lean ====
section
/-! DEFINITION. NCF, the Niruver format (spec chapter 5), as functions of plain data: chunking, block headers, the coded
body and its decoder, and the fingerprint index. -/

namespace Sys2Proof.Machine

/-! ### Content-defined chunks (R114, R115) -/

/-- gear of R114, modulo 2^64. -/
def gear (b : Byte) : Nat :=
  let m := 2 ^ 64
  let z := ((b.toNat + 1) * 0x9e3779b97f4a7c15) % m
  let z := ((z ^^^ (z >>> 30)) * 0xbf58476d1ce4e5b9) % m
  let z := ((z ^^^ (z >>> 27)) * 0x94d049bb133111eb) % m
  z ^^^ (z >>> 31)

/-- The length of the chunk that begins the bytes, and whether a chunk boundary ends it; `(n, false)` says that the bytes
end before a boundary. -/
def chunkAt : List Byte → Nat → Nat → Nat × Bool
  | [], _, n => (n, false)
  | x :: r, h, n =>
    let h := ((2 * h) % 2 ^ 64 + gear x) % 2 ^ 64
    if n + 1 = 65536 ∨ (4096 ≤ n + 1 ∧ h >>> 40 < 1365) then (n + 1, true) else chunkAt r h (n + 1)

/-- SHA-512/256 of a chunk (R115). The manual takes the digest from its own standard: an uninterpreted function. -/
def fingerprint (c : List Byte) : Nat := Config.sha512_256 c % 2 ^ 256

/-! ### Block headers (R107, R108) -/

/-- A block header. `type` is 0 empty, 1 coded, 2 raw. -/
structure NcfHeader where
  type : Nat
  first : Bool
  last : Bool
  farUsed : Bool
  inLen : Nat
  bodyLen : Nat
  check : Nat
  deriving DecidableEq, Repr

/-- Its 16 bytes. -/
def NcfHeader.bytes (h : NcfHeader) : List Byte :=
  [0xA7, BitVec.ofNat 8 (0x10 + h.type % 16), BitVec.ofNat 8 (128 * b2n h.first + 64 * b2n h.last + 32 * b2n h.farUsed), 0] ++
  bytesBE 4 h.inLen ++ bytesBE 4 h.bodyLen ++ bytesBE 4 h.check

/-- CHECK of a block's host bytes (R107): CRC-32, and 0 over no bytes. -/
def ncfCheck (l : List Byte) : Nat := if l.isEmpty then 0 else crc32Bytes l

/-- The header that 16 bytes spell, none where SIG, VERSION or TYPE is not one that R107 writes. -/
def NcfHeader.ofBytes (l : List Byte) : Option NcfHeader :=
  let b1 := (byteAt l 1).toNat
  let b2 := (byteAt l 2).toNat
  if l.length < 16 ∨ byteAt l 0 ≠ 0xA7 ∨ b1 / 16 ≠ 1 ∨ 2 < b1 % 16 then none
  else some { type := b1 % 16, first := bitAt b2 7, last := bitAt b2 6, farUsed := bitAt b2 5,
              inLen := natBE ((l.drop 4).take 4), bodyLen := natBE ((l.drop 8).take 4), check := natBE ((l.drop 12).take 4) }

/-- Are IN_LEN and BODY_LEN in the ranges of R107 for the TYPE? -/
def NcfHeader.rangesOk (h : NcfHeader) : Bool :=
  if h.type = 0 then h.inLen == 0 && h.bodyLen == 0
  else if h.type = 1 then decide (1 ≤ h.inLen) && decide (h.inLen ≤ 1048576) && decide (129 ≤ h.bodyLen) && decide (h.bodyLen ≤ 1048575)
  else decide (1 ≤ h.inLen) && decide (h.inLen ≤ 1048576) && h.bodyLen == h.inLen

/-- How a header walk ends (R132): at a block with LAST = 1, at the end of the data before one, or at a bad header. -/
inductive WalkEnd where
  | ended | short | bad
  deriving DecidableEq, Repr

/-- The header walk of R132 from place `pos`: the blocks as (place of the header, IN_LEN), and how it ends. Bodies are
not read. -/
def ncfWalk : Nat → List Byte → Nat → List (Nat × Nat) × WalkEnd
  | 0, _, _ => ([], .short)
  | k + 1, l, pos =>
    if l.length < 16 then ([], .short)
    else
      match NcfHeader.ofBytes l with
      | none => ([], .bad)
      | some h =>
        if l.length < 16 + h.bodyLen then ([(pos, h.inLen)], .short)
        else if h.last then ([(pos, h.inLen)], .ended)
        else
          let r := ncfWalk k (l.drop (16 + h.bodyLen)) (pos + 16 + h.bodyLen)
          ((pos, h.inLen) :: r.1, r.2)

/-! ### The coded body (R110 to R113) -/

/-- The code length of byte value `s` in a table of 128 bytes. -/
def codeLen (table : List Byte) (s : Nat) : Nat :=
  let b := (byteAt table (s / 2)).toNat
  if s % 2 = 0 then b / 16 else b % 16

/-- Values in code order, with their lengths: sorted by length, then by value. -/
def codeOrder (table : List Byte) : List (Nat × Nat) :=
  (((List.range 15).map (fun k => ((List.range 256).filter (fun s => codeLen table s == k + 1)).map (fun s => (s, k + 1))))).flatten

/-- Canonical codes (R110): (value, length, code). -/
def assignCodes : List (Nat × Nat) → Nat → Nat → List (Nat × Nat × Nat)
  | [], _, _ => []
  | (s, l) :: r, prevLen, next =>
    let code := next <<< (l - prevLen)
    (s, l, code) :: assignCodes r l (code + 1)

def canonical (table : List Byte) : List (Nat × Nat × Nat) :=
  match codeOrder table with
  | [] => []
  | (s, l) :: r => (s, l, 0) :: assignCodes r l 1

/-- Is the Kraft sum of the table at most 1? -/
def kraftOk (table : List Byte) : Bool :=
  decide (((codeOrder table).map (fun p => 2 ^ (15 - p.2))).foldl (· + ·) 0 ≤ 2 ^ 15)

/-- A literal's value read from a bit string, and the bits after it. -/
def readLiteral (codes : List (Nat × Nat × Nat)) : List Bool → Nat → Nat → Option (Nat × List Bool)
  | [], _, _ => none
  | b :: r, len, acc =>
    let acc := 2 * acc + b2n b
    match codes.find? (fun c => c.2.1 == len + 1 && c.2.2 == acc) with
    | some c => some (c.1, r)
    | none => if 15 ≤ len + 1 then none else readLiteral codes r (len + 1) acc

/-- Leading zero bits of a bit string, and the rest. -/
def leadZeros : List Bool → Nat × List Bool
  | [] => (0, [])
  | false :: r => ((leadZeros r).1 + 1, (leadZeros r).2)
  | true :: r => (0, true :: r)

/-- An order-2 exponential-Golomb value (R111). -/
def readGolomb2 (l : List Bool) : Option (Nat × List Bool) :=
  let z := leadZeros l
  let n := z.1 + 3
  if z.2.length < n then none else some (ofBitsMsb (z.2.take n) - 4, z.2.drop n)

/-- One token (R111). -/
inductive Token where
  | lit (b : Nat)
  | near (len dist : Nat)
  | far (fp : Nat)
  deriving DecidableEq, Repr

def readToken (codes : List (Nat × Nat × Nat)) : List Bool → Option (Token × List Bool)
  | false :: r => (readLiteral codes r 0 0).map (fun p => (.lit p.1, p.2))
  | true :: false :: r =>
    match readGolomb2 r with
    | none => none
    | some (v, r) => if r.length < 16 then none else some (.near (v + 4) (ofBitsMsb (r.take 16) + 1), r.drop 16)
  | true :: true :: r => if r.length < 256 then none else some (.far (ofBitsMsb (r.take 256)), r.drop 256)
  | _ => none

/-- `n` bytes copied from `dist` back, one at a time (R112); output newest first. -/
def copyNear : Nat → Nat → List Byte → List Byte
  | 0, _, out => out
  | n + 1, dist, out => copyNear n dist (out.getD (dist - 1) 0 :: out)

/-- Why a block is faulty (R130). -/
inductive BlockFault where
  | badForm | farUnresolved | check
  deriving DecidableEq, Repr

/-- The kinds of token that copy (R127). -/
inductive CopyKind where
  | near | far
  deriving DecidableEq, Repr

/-- A token as it was read: the block's output from `start` up to `stop`, the bits of the body after its fields; for a copy its kind
and where it copies from: the distance back, or the place of its chunk in the span. -/
structure TokSpan where
  start : Nat
  stop : Nat
  bit : Nat
  copy : Option (CopyKind × Nat)
  deriving DecidableEq, Repr

/-- What the tokens of a body come to: the output, newest first; the tokens, in order; the bits left. -/
structure Decoded where
  out : List Byte
  toks : List TokSpan
  rest : List Bool
  deriving DecidableEq, Repr

/-- A token put before those that follow it. -/
def Decoded.after (t : TokSpan) (d : Decoded) : Decoded := { d with toks := t :: d.toks }

/-- Tokens read until `left` bytes have been produced. `far` resolves a fingerprint to its chunk and the chunk's place in the span,
given the block's output so far: a chunk of the same block may be meant (R118). -/
def decodeTokens (codes : List (Nat × Nat × Nat)) (far : Nat → List Byte → Option (List Byte × Nat)) :
    Nat → Nat → List Bool → Nat → List Byte → Except BlockFault Decoded
  | 0, _, bits, left, out => if left = 0 then .ok ⟨out, [], bits⟩ else .error .badForm
  | k + 1, bit, bits, left, out =>
    if left = 0 then .ok ⟨out, [], bits⟩
    else
      match readToken codes bits with
      | none => .error .badForm
      | some (.lit b, r) =>
        let bit := bit + (bits.length - r.length)
        (decodeTokens codes far k bit r (left - 1) (BitVec.ofNat 8 b :: out)).map (Decoded.after ⟨out.length, out.length + 1, bit, none⟩)
      | some (.near len dist, r) =>
        let bit := bit + (bits.length - r.length)
        if left < len ∨ out.length < dist then .error .badForm
        else (decodeTokens codes far k bit r (left - len) (copyNear len dist out)).map
          (Decoded.after ⟨out.length, out.length + len, bit, some (.near, dist)⟩)
      | some (.far fp, r) =>
        let bit := bit + (bits.length - r.length)
        match far fp out with
        | none => .error .farUnresolved
        | some (c, place) => if left < c.length ∨ c.isEmpty then .error .badForm
          else (decodeTokens codes far k bit r (left - c.length) (c.reverse ++ out)).map
            (Decoded.after ⟨out.length, out.length + c.length, bit, some (.far, place)⟩)

/-- The tokens of a coded body (R110 to R113) that stands for `n` bytes. -/
def decodeBody (far : Nat → List Byte → Option (List Byte × Nat)) (body : List Byte) (n : Nat) : Except BlockFault Decoded :=
  if !kraftOk (body.take 128) then .error .badForm
  else decodeTokens (canonical (body.take 128)) far n 1024 (bytesBits (body.drop 128)) n []

/-- Where a far reference stands: the tokens that are far references. -/
def Decoded.fars (d : Decoded) : List TokSpan := d.toks.filter (fun t => match t.copy with | some (.far, _) => true | _ => false)

/-- What a decompressor saves that suspends in the middle of a token (R127): the bit of the body that comes after the token, its
kind, the bytes it has still to copy, and where from: the distance back, or the next place of the history. -/
structure MidToken where
  bit : Nat
  kind : CopyKind
  remain : Nat
  src : Nat
  deriving DecidableEq, Repr

/-- The token that is cut after `k` bytes of the block's output, none where a token ends there. -/
def midToken (toks : List TokSpan) (k : Nat) : Option MidToken :=
  (toks.find? (fun t => decide (t.start < k) && decide (k < t.stop))).bind (fun t => t.copy.map (fun c =>
    { bit := t.bit, kind := c.1, remain := t.stop - k, src := if c.1 = .near then c.2 else c.2 + (k - t.start) }))

/-- The bytes that a block's header and body spell (R107 to R113), and its tokens. CHECK is not looked at. -/
def blockSpells (far : Nat → List Byte → Option (List Byte × Nat)) (l : List Byte) : Except BlockFault (List Byte × List TokSpan) :=
  match NcfHeader.ofBytes l with
  | none => .error .badForm
  | some h =>
    if !h.rangesOk || decide (l.length < 16 + h.bodyLen) then .error .badForm
    else
      let body := (l.drop 16).take h.bodyLen
      if h.type = 0 then .ok ([], [])
      else if h.type = 2 then .ok (body, [])
      else (decodeBody far body h.inLen).map (fun d => (d.out.reverse, d.toks))

/-- The host bytes of a block: what it spells, where that agrees with CHECK (R130). -/
def decodeBlock (far : Nat → List Byte → Option (List Byte × Nat)) (l : List Byte) : Except BlockFault (List Byte × List TokSpan) :=
  match blockSpells far l with
  | .error e => .error e
  | .ok x => if ncfCheck x.1 = natBE ((l.drop 12).take 4) then .ok x else .error .check

/-! ### What host-supplied NCF must obey (R113, R131) -/

/-- The chunks (R115) of bytes that begin where a chunk begins, as (place, length): those that a boundary ends. -/
def chunkPlaces : Nat → List Byte → Nat → List (Nat × Nat)
  | 0, _, _ => []
  | k + 1, l, pos =>
    match chunkAt l 0 0 with
    | (n, true) => (pos, n) :: chunkPlaces k (l.drop n) (pos + n)
    | (_, false) => []

/-- Does a stored block obey R104, R107 and R110 to R113? `first` says that it begins its record; `part` is what the record's
earlier blocks leave of an unended chunk; `bound` says that far references can be resolved at all. -/
def blockKeeps (bound first : Bool) (part : List Byte) (far : Nat → List Byte → Option (List Byte × Nat)) (l : List Byte) : Bool :=
  match NcfHeader.ofBytes l with
  | none => false
  | some h =>
    h.rangesOk && h.first == first && (byteAt l 2).toNat % 32 == 0 && byteAt l 3 == 0 && (h.type != 0 || (h.last && !h.first)) &&
    match decodeBlock far l with
    | .error .farUnresolved => !bound
    | .error _ => false
    | .ok (out, toks) =>
      let refs := (Decoded.mk [] toks []).fars
      let ends := chunkPlaces (part.length + out.length + 1) (part ++ out) 0
      h.farUsed == !refs.isEmpty && refs.all (fun t => ends.contains (part.length + t.start, t.stop - t.start))

/-! ### The fingerprint index (R117) -/

/-- An entry: fingerprint, position in the span, length. The oldest entry stands first. -/
structure FpEntry where
  fp : Nat
  pos : Nat
  len : Nat
  deriving DecidableEq, Repr

/-- Entries out of reach of a chunk that begins at `pos` removed. -/
def fpReach (idx : List FpEntry) (pos : Nat) : List FpEntry := idx.filter (fun e => decide (pos ≤ e.pos + 268435456))

/-- The entry of a fingerprint. -/
def fpFind (idx : List FpEntry) (fp : Nat) : Option FpEntry := idx.find? (fun e => e.fp == fp)

/-- An indexable chunk inserted: not where its fingerprint is present; a full index first loses its oldest entry. The
flag says that one was evicted. -/
def fpInsert (idx : List FpEntry) (e : FpEntry) : List FpEntry × Bool :=
  if (fpFind idx e.fp).isSome then (idx, false)
  else if 16384 ≤ idx.length then (idx.drop 1 ++ [e], true)
  else (idx ++ [e], false)

/-- A decoder's chunker fed with host bytes in stream order (R126): (index, bytes of the chunk in progress, span bytes).
A record's end closes its last chunk, which is never indexable (R115). -/
structure Chunker where
  idx : List FpEntry := []
  part : List Byte := []
  span : Nat := 0
  deriving DecidableEq, Repr

/-- The chunk in progress carried on with new bytes: every chunk that ends at a boundary is indexed. -/
def Chunker.feed : Nat → Chunker → List Byte → Chunker
  | 0, c, _ => c
  | k + 1, c, bs =>
    if bs.isEmpty then c
    else
      let all := c.part ++ bs
      match chunkAt all 0 0 with
      | (_, false) => { c with part := all, span := c.span + bs.length }
      | (n, true) =>
        let start := c.span - c.part.length
        let idx := (fpInsert (fpReach c.idx start) ⟨fingerprint (all.take n), start, n⟩).1
        Chunker.feed k { idx := idx, part := [], span := start + n } (all.drop n)

/-- The record's end. -/
def Chunker.recordEnd (c : Chunker) : Chunker := { c with part := [] }

end Sys2Proof.Machine
end

