-- ==== Sys2Proof/Machine/Maps.lean ====
section
/-! DEFINITION. Sparse maps from a number to a value, in ONE canonical form: keys strictly rising, and no entry
equal to what an unlisted key reads as. Everything of the block that the spec numbers (registers, spokes, rings,
chest bytes, protection entries) is held in one of these, so that equal contents are equal data. -/

namespace Sys2Proof.Machine

/-- A sparse map: (key, value) pairs. What an unlisted key reads as is an argument of each operation. -/
abbrev SMap (α : Type) := List (Nat × α)

/-- What key `k` reads as: its entry, or the default of an unlisted key. -/
def mget {α : Type} (dflt : Nat → α) : SMap α → Nat → α
  | [], k => dflt k
  | (a, b) :: r, k => if a = k then b else mget dflt r k

/-- The map without key `k`. -/
def mdel {α : Type} (k : Nat) : SMap α → SMap α
  | [] => []
  | (a, b) :: r => if a = k then mdel k r else (a, b) :: mdel k r

/-- The map with (k, v) put before the first greater key. -/
def mins {α : Type} (k : Nat) (v : α) : SMap α → SMap α
  | [] => [(k, v)]
  | (a, b) :: r => if k < a then (k, v) :: (a, b) :: r else (a, b) :: mins k v r

/-- The map with key `k` reading as `v`; writing what an unlisted key reads as removes the entry. -/
def mset {α : Type} [DecidableEq α] (dflt : Nat → α) (m : SMap α) (k : Nat) (v : α) : SMap α :=
  if v = dflt k then mdel k m else mins k v (mdel k m)

/-- Key `k` changed by `f`. -/
def mmod {α : Type} [DecidableEq α] (dflt : Nat → α) (m : SMap α) (k : Nat) (f : α → α) : SMap α :=
  mset dflt m k (f (mget dflt m k))

/-- Every listed entry changed by `f`, which keeps what an unlisted key reads as. -/
def mmap {α : Type} [DecidableEq α] (dflt : Nat → α) (m : SMap α) (f : Nat → α → α) : SMap α :=
  (m.map (fun p => (p.1, f p.1 p.2))).filter (fun p => decide (p.2 ≠ dflt p.1))

/-- Every key of the map is above `lo`, the keys rise strictly, and no entry is a default. -/
def mwfFrom {α : Type} [DecidableEq α] (dflt : Nat → α) : Nat → SMap α → Bool
  | _, [] => true
  | lo, (a, b) :: r => decide (lo ≤ a) && decide (b ≠ dflt a) && mwfFrom dflt (a + 1) r

/-- The canonical form. -/
def mwf {α : Type} [DecidableEq α] (dflt : Nat → α) (m : SMap α) : Bool := mwfFrom dflt 0 m

end Sys2Proof.Machine
end

