-- ==== Sys2Proof/Machine/RegTab.lean ====
section
/-! DEFINITION. The register tables of the spec, page type by page type: every field of every block page with its
offset, its place in the register, its width, its access code (R8) and its reset value.

A field's `Fld` names its place; a page's `rows` list says how a write treats it and what it reads at reset.
A row with `cnt` above 1 stands for `cnt` registers, `stride` bytes apart (the manual's "0x080 + 4k"). Reserved fields
have no row: they read 0 and ignore writes (R9, R422). Resets the manual calls By design, Fuses, Flash, Image, Strap
or Index are views of other state (Ops.lean) and stand here as 0. -/

namespace Sys2Proof.Machine

/-- The access codes of R8. -/
inductive Acc where
  | ro | rw | rwh | w1c | w1p | wo
  deriving DecidableEq, Repr

/-- A field's place in its page: byte offset of its 32-bit register, lowest bit, width. -/
structure Fld where
  off : Nat
  lo : Nat
  w : Nat
  deriving DecidableEq, Repr

/-- A field's slot number in its page. -/
def Fld.slot (f : Fld) : Nat := f.off * 32 + f.lo

/-- One row of a page's field table. -/
structure Row where
  off : Nat
  cnt : Nat
  stride : Nat
  lo : Nat
  w : Nat
  acc : Acc
  rst : Nat
  deriving DecidableEq, Repr

/-- Does the row hold the field at offset `off`, lowest bit `lo`? -/
def Row.holds (r : Row) (off lo : Nat) : Bool :=
  r.lo == lo && decide (r.off ≤ off) && (if r.stride = 0 then off == r.off
    else (off - r.off) % r.stride == 0 && decide ((off - r.off) / r.stride < r.cnt))

/-- Does the row have a field in the register at offset `off`? -/
def Row.inReg (r : Row) (off : Nat) : Bool := r.holds off r.lo

/-- The field of row `r` in the register at `off`. -/
def Row.fld (r : Row) (off : Nat) : Fld := ⟨off, r.lo, r.w⟩

/-- The block types of R432. -/
inductive PageTy where
  | IDENT
  | FELT
  | THERMAL
  | POWER
  | TIMEBASE
  | MGMT
  | KEYSTORE
  | PROTECT
  | ALARM
  | BOOT
  | RINGS
  | DMA
  | PCIE
  | MSIX
  | COMP
  | DECOMP
  | CRYPT
  | MEMCTL
  | POOL
  | VALIDMAP
  | LANEFE
  | DETECT
  | DECODE
  | VERIFY
  | WRITER
  | SERVO
  | MOTION
  | DERAILLEUR
  | SAMPLEHOLD
  | LINK
  deriving DecidableEq, Repr

/-- The type code of R432. -/
def PageTy.code : PageTy → Nat
  | .IDENT => 0x01
  | .FELT => 0x02
  | .THERMAL => 0x10
  | .POWER => 0x11
  | .TIMEBASE => 0x12
  | .MGMT => 0x13
  | .KEYSTORE => 0x20
  | .PROTECT => 0x21
  | .ALARM => 0x22
  | .BOOT => 0x23
  | .RINGS => 0x30
  | .DMA => 0x31
  | .PCIE => 0x32
  | .MSIX => 0x33
  | .COMP => 0x40
  | .DECOMP => 0x41
  | .CRYPT => 0x42
  | .MEMCTL => 0x50
  | .POOL => 0x51
  | .VALIDMAP => 0x52
  | .LANEFE => 0x80
  | .DETECT => 0x81
  | .DECODE => 0x82
  | .VERIFY => 0x83
  | .WRITER => 0x84
  | .SERVO => 0x85
  | .MOTION => 0x86
  | .DERAILLEUR => 0x87
  | .SAMPLEHOLD => 0x88
  | .LINK => 0x89

namespace Reg.HEADER

def BLK_REGION : Fld := ⟨0x000, 24, 8⟩
def BLK_TYPE : Fld := ⟨0x000, 16, 8⟩
def BLK_INSTANCE : Fld := ⟨0x000, 8, 8⟩
def BLK_LAYOUT : Fld := ⟨0x000, 0, 8⟩
def CAPS_CHAINS : Fld := ⟨0x004, 24, 8⟩
def CAPS_GATES : Fld := ⟨0x004, 16, 8⟩
def CAPS_SIBLINGS : Fld := ⟨0x004, 8, 8⟩
def CAPS_RETIRABLE : Fld := ⟨0x004, 2, 1⟩
def CAPS_QUIESCE : Fld := ⟨0x004, 1, 1⟩
def BLK_CAPS_MODE : Fld := ⟨0x004, 0, 1⟩
def QUIESCE_REQ : Fld := ⟨0x008, 2, 1⟩
def BLK_CTRL_MODE : Fld := ⟨0x008, 1, 1⟩
def ENABLE : Fld := ⟨0x008, 0, 1⟩
def MODE_IN_FORCE : Fld := ⟨0x00C, 2, 1⟩
def QUIESCED : Fld := ⟨0x00C, 1, 1⟩
def BUSY : Fld := ⟨0x00C, 0, 1⟩
def ERR_STAT : Fld := ⟨0x010, 0, 32⟩
def ERR_MASK : Fld := ⟨0x014, 0, 16⟩
def ERR_FORCE : Fld := ⟨0x018, 0, 32⟩
def ERR_CNT : Fld := ⟨0x01C, 0, 32⟩
def FIRST_VALID : Fld := ⟨0x020, 31, 1⟩
def FIRST_BIT : Fld := ⟨0x020, 24, 4⟩
def FIRST_TIME : Fld := ⟨0x020, 0, 24⟩
def REPLAY_CNT : Fld := ⟨0x024, 0, 32⟩
def DOMAIN : Fld := ⟨0x028, 0, 6⟩
def UNITS : Fld := ⟨0x030, 0, 32⟩
def DAMAGED_UNITS : Fld := ⟨0x034, 0, 32⟩
def RETIRED : Fld := ⟨0x038, 2, 1⟩
def NO_SPARE : Fld := ⟨0x038, 1, 1⟩
def EVENT : Fld := ⟨0x038, 0, 1⟩

/-- The field table of the page type (R428). -/
def rows : List Row :=
  [⟨0x000, 1, 0, 24, 8, .ro, 0⟩,
   ⟨0x000, 1, 0, 16, 8, .ro, 0⟩,
   ⟨0x000, 1, 0, 8, 8, .ro, 0⟩,
   ⟨0x000, 1, 0, 0, 8, .ro, 1⟩,
   ⟨0x004, 1, 0, 24, 8, .ro, 0⟩,
   ⟨0x004, 1, 0, 16, 8, .ro, 0⟩,
   ⟨0x004, 1, 0, 8, 8, .ro, 0⟩,
   ⟨0x004, 1, 0, 2, 1, .ro, 0⟩,
   ⟨0x004, 1, 0, 1, 1, .ro, 0⟩,
   ⟨0x004, 1, 0, 0, 1, .ro, 0⟩,
   ⟨0x008, 1, 0, 2, 1, .rw, 0⟩,
   ⟨0x008, 1, 0, 1, 1, .rw, 0⟩,
   ⟨0x008, 1, 0, 0, 1, .rw, 1⟩,
   ⟨0x00C, 1, 0, 2, 1, .ro, 0⟩,
   ⟨0x00C, 1, 0, 1, 1, .ro, 0⟩,
   ⟨0x00C, 1, 0, 0, 1, .ro, 0⟩,
   ⟨0x010, 1, 0, 0, 32, .w1c, 0⟩,
   ⟨0x014, 1, 0, 0, 16, .rw, 0⟩,
   ⟨0x018, 1, 0, 0, 32, .w1p, 0⟩,
   ⟨0x01C, 1, 0, 0, 32, .rwh, 0⟩,
   ⟨0x020, 1, 0, 31, 1, .w1c, 0⟩,
   ⟨0x020, 1, 0, 24, 4, .ro, 0⟩,
   ⟨0x020, 1, 0, 0, 24, .ro, 0⟩,
   ⟨0x024, 1, 0, 0, 32, .rwh, 0⟩] ++
  [⟨0x028, 1, 0, 0, 6, .ro, 0⟩,
   ⟨0x030, 1, 0, 0, 32, .rwh, 0⟩,
   ⟨0x034, 1, 0, 0, 32, .rwh, 0⟩,
   ⟨0x038, 1, 0, 2, 1, .ro, 0⟩,
   ⟨0x038, 1, 0, 1, 1, .ro, 0⟩,
   ⟨0x038, 1, 0, 0, 1, .ro, 0⟩]

end Reg.HEADER

namespace Reg.IDENT

def PART_CODE : Fld := ⟨0x040, 0, 32⟩
def FUSE_BANK : Fld := ⟨0x044, 8, 8⟩
def STEPPING : Fld := ⟨0x044, 0, 8⟩
def DIE_SERIAL_LO : Fld := ⟨0x048, 0, 32⟩
def DIE_SERIAL_HI : Fld := ⟨0x04C, 0, 32⟩
def MODULE_SERIAL_LO : Fld := ⟨0x050, 0, 32⟩
def MODULE_SERIAL_HI : Fld := ⟨0x054, 0, 32⟩
def PRESENT : Fld := ⟨0x058, 0, 16⟩
def PAGES : Fld := ⟨0x05C, 0, 16⟩

/-- The field table of the page type (R431). -/
def rows : List Row :=
  [⟨0x040, 1, 0, 0, 32, .ro, 0x53564b38⟩,
   ⟨0x044, 1, 0, 8, 8, .ro, 0⟩,
   ⟨0x044, 1, 0, 0, 8, .ro, 0xa1⟩,
   ⟨0x048, 1, 0, 0, 32, .ro, 0⟩,
   ⟨0x04C, 1, 0, 0, 32, .ro, 0⟩,
   ⟨0x050, 1, 0, 0, 32, .ro, 0⟩,
   ⟨0x054, 1, 0, 0, 32, .ro, 0⟩,
   ⟨0x058, 1, 0, 0, 16, .ro, 0xff3f⟩,
   ⟨0x05C, 1, 0, 0, 16, .ro, 0x12f⟩]

end Reg.IDENT

namespace Reg.FELT

def RESERVING : Fld := ⟨0x040, 0, 8⟩
def WINDOW_NS : Fld := ⟨0x044, 0, 32⟩
def MBPS (i : Nat) : Fld := ⟨0x048 + 4 * i, 0, 16⟩
def GRANTED_MIB (i : Nat) : Fld := ⟨0x080 + 4 * i, 0, 32⟩
def OVER_RESERVE (i : Nat) : Fld := ⟨0x0C0 + 4 * i, 0, 32⟩

/-- The field table of the page type (R431). -/
def rows : List Row :=
  [⟨0x040, 1, 0, 0, 8, .ro, 0⟩,
   ⟨0x044, 1, 0, 0, 32, .ro, 0x2710⟩,
   ⟨0x048, 8, 4, 0, 16, .ro, 0⟩,
   ⟨0x080, 16, 4, 0, 32, .rwh, 0⟩,
   ⟨0x0C0, 8, 4, 0, 32, .rwh, 0⟩]

end Reg.FELT

namespace Reg.THERMAL

def STEP_COUNT : Fld := ⟨0x040, 8, 4⟩
def STEP_REQ : Fld := ⟨0x040, 0, 3⟩
def TEMP_STEP : Fld := ⟨0x044, 24, 3⟩
def RATE_ADD : Fld := ⟨0x044, 23, 1⟩
def FAST : Fld := ⟨0x044, 22, 1⟩
def HOTTEST : Fld := ⟨0x044, 16, 5⟩
def T_MAX : Fld := ⟨0x044, 0, 16⟩
def SENS_SEL_SENSOR : Fld := ⟨0x048, 0, 5⟩
def FAILED : Fld := ⟨0x04C, 31, 1⟩
def SENS_VAL_CAUSE : Fld := ⟨0x04C, 29, 2⟩
def SENS_VAL_READING : Fld := ⟨0x04C, 0, 16⟩
def MARKS : Fld := ⟨0x050, 0, 26⟩
def DEVICE : Fld := ⟨0x054, 0, 6⟩
def UNREADABLE : Fld := ⟨0x058, 31, 1⟩
def BAND : Fld := ⟨0x058, 16, 2⟩
def TEMP : Fld := ⟨0x058, 0, 16⟩
def DRAM_FAIL : Fld := ⟨0x05C, 6, 1⟩
def DRAM_OVER : Fld := ⟨0x05C, 5, 1⟩
def SENS_FAILED : Fld := ⟨0x05C, 4, 1⟩
def RATE_EVT : Fld := ⟨0x05C, 3, 1⟩
def STEP_DOWN : Fld := ⟨0x05C, 2, 1⟩
def STEP_UP : Fld := ⟨0x05C, 1, 1⟩
def TRIPPED : Fld := ⟨0x05C, 0, 1⟩
def TRIP_CNT : Fld := ⟨0x060, 0, 32⟩
def TRIP_INFO_CAUSE : Fld := ⟨0x064, 30, 2⟩
def TRIP_INFO_SENSOR : Fld := ⟨0x064, 16, 5⟩
def TRIP_INFO_READING : Fld := ⟨0x064, 0, 16⟩
def RECALS : Fld := ⟨0x068, 0, 32⟩
def ERROR : Fld := ⟨0x06C, 0, 16⟩

/-- The field table of the page type (R395). -/
def rows : List Row :=
  [⟨0x040, 1, 0, 8, 4, .rw, 7⟩,
   ⟨0x040, 1, 0, 0, 3, .rw, 0⟩,
   ⟨0x044, 1, 0, 24, 3, .ro, 0⟩,
   ⟨0x044, 1, 0, 23, 1, .ro, 0⟩,
   ⟨0x044, 1, 0, 22, 1, .ro, 0⟩,
   ⟨0x044, 1, 0, 16, 5, .ro, 0⟩,
   ⟨0x044, 1, 0, 0, 16, .ro, 0⟩,
   ⟨0x048, 1, 0, 0, 5, .rw, 0⟩,
   ⟨0x04C, 1, 0, 31, 1, .ro, 0⟩,
   ⟨0x04C, 1, 0, 29, 2, .ro, 0⟩,
   ⟨0x04C, 1, 0, 0, 16, .ro, 0⟩,
   ⟨0x050, 1, 0, 0, 26, .w1c, 0⟩,
   ⟨0x054, 1, 0, 0, 6, .rw, 0⟩,
   ⟨0x058, 1, 0, 31, 1, .ro, 0⟩,
   ⟨0x058, 1, 0, 16, 2, .ro, 0⟩,
   ⟨0x058, 1, 0, 0, 16, .ro, 0⟩,
   ⟨0x05C, 1, 0, 6, 1, .w1c, 0⟩,
   ⟨0x05C, 1, 0, 5, 1, .w1c, 0⟩,
   ⟨0x05C, 1, 0, 4, 1, .w1c, 0⟩,
   ⟨0x05C, 1, 0, 3, 1, .w1c, 0⟩,
   ⟨0x05C, 1, 0, 2, 1, .w1c, 0⟩,
   ⟨0x05C, 1, 0, 1, 1, .w1c, 0⟩,
   ⟨0x05C, 1, 0, 0, 1, .w1c, 0⟩,
   ⟨0x060, 1, 0, 0, 32, .ro, 0⟩] ++
  [⟨0x064, 1, 0, 30, 2, .ro, 0⟩,
   ⟨0x064, 1, 0, 16, 5, .ro, 0⟩,
   ⟨0x064, 1, 0, 0, 16, .ro, 0⟩,
   ⟨0x068, 1, 0, 0, 32, .rwh, 0⟩,
   ⟨0x06C, 1, 0, 0, 16, .ro, 0⟩]

end Reg.THERMAL

namespace Reg.POWER

def POWER_CAP : Fld := ⟨0x040, 0, 8⟩
def STEP : Fld := ⟨0x044, 25, 3⟩
def TARGET : Fld := ⟨0x044, 22, 3⟩
def SLEWING : Fld := ⟨0x044, 21, 1⟩
def CAP_WAIT : Fld := ⟨0x044, 20, 1⟩
def VCORE_MV : Fld := ⟨0x044, 0, 10⟩
def STBY_MV : Fld := ⟨0x048, 16, 16⟩
def P12V_MV : Fld := ⟨0x048, 0, 16⟩
def P12V_POWER : Fld := ⟨0x04C, 0, 16⟩
def FAULTED : Fld := ⟨0x050, 8, 6⟩
def GOOD : Fld := ⟨0x050, 0, 6⟩
def RAIL_FAULT : Fld := ⟨0x054, 3, 1⟩
def BROWNOUT : Fld := ⟨0x054, 2, 1⟩
def OVER_LIMIT : Fld := ⟨0x054, 1, 1⟩
def STEP_CHANGE : Fld := ⟨0x054, 0, 1⟩
def STEP_CHANGES : Fld := ⟨0x058, 0, 32⟩
def ENERGY : Fld := ⟨0x05C, 0, 32⟩

/-- The field table of the page type (R396). -/
def rows : List Row :=
  [⟨0x040, 1, 0, 0, 8, .rw, 0⟩,
   ⟨0x044, 1, 0, 25, 3, .ro, 0⟩,
   ⟨0x044, 1, 0, 22, 3, .ro, 0⟩,
   ⟨0x044, 1, 0, 21, 1, .ro, 0⟩,
   ⟨0x044, 1, 0, 20, 1, .ro, 0⟩,
   ⟨0x044, 1, 0, 0, 10, .ro, 0x352⟩,
   ⟨0x048, 1, 0, 16, 16, .ro, 0⟩,
   ⟨0x048, 1, 0, 0, 16, .ro, 0⟩,
   ⟨0x04C, 1, 0, 0, 16, .ro, 0⟩,
   ⟨0x050, 1, 0, 8, 6, .ro, 0⟩,
   ⟨0x050, 1, 0, 0, 6, .ro, 0⟩,
   ⟨0x054, 1, 0, 3, 1, .w1c, 0⟩,
   ⟨0x054, 1, 0, 2, 1, .w1c, 0⟩,
   ⟨0x054, 1, 0, 1, 1, .w1c, 0⟩,
   ⟨0x054, 1, 0, 0, 1, .w1c, 0⟩,
   ⟨0x058, 1, 0, 0, 32, .rwh, 0⟩,
   ⟨0x05C, 1, 0, 0, 32, .rwh, 0⟩]

end Reg.POWER

namespace Reg.TIMEBASE

def NOW_LO : Fld := ⟨0x040, 0, 32⟩
def NOW_HI : Fld := ⟨0x044, 0, 32⟩
def TICK_NS : Fld := ⟨0x048, 0, 8⟩

/-- The field table of the page type (R20). -/
def rows : List Row :=
  [⟨0x040, 1, 0, 0, 32, .ro, 0⟩,
   ⟨0x044, 1, 0, 0, 32, .ro, 0⟩,
   ⟨0x048, 1, 0, 0, 8, .ro, 0x14⟩]

end Reg.TIMEBASE

namespace Reg.MGMT

def READY : Fld := ⟨0x040, 31, 1⟩
def FAULT : Fld := ⟨0x040, 30, 1⟩
def PHASE : Fld := ⟨0x040, 0, 4⟩
def TARGET : Fld := ⟨0x044, 8, 4⟩
def KIND : Fld := ⟨0x044, 0, 2⟩
def FENCED : Fld := ⟨0x048, 0, 8⟩
def LIFT : Fld := ⟨0x04C, 8, 8⟩
def SET : Fld := ⟨0x04C, 0, 8⟩
def FENCE_CAUSE : Fld := ⟨0x050, 0, 32⟩
def UNLOAD_MIN : Fld := ⟨0x054, 0, 8⟩
def RECOVERING : Fld := ⟨0x058, 8, 8⟩
def HOLDING : Fld := ⟨0x058, 0, 8⟩
def PERSIST : Fld := ⟨0x05C, 31, 1⟩
def LIMIT : Fld := ⟨0x05C, 16, 8⟩
def WINDOW : Fld := ⟨0x05C, 0, 16⟩
def REGION : Fld := ⟨0x060, 8, 8⟩
def PAGE : Fld := ⟨0x060, 0, 8⟩
def RETIRED : Fld := ⟨0x064, 31, 1⟩
def RET_VIEW_NO_SPARE : Fld := ⟨0x064, 30, 1⟩
def DAMAGE : Fld := ⟨0x064, 16, 8⟩
def READMIT : Fld := ⟨0x064, 0, 1⟩
def RETIRED_CNT : Fld := ⟨0x068, 0, 32⟩
def GO : Fld := ⟨0x06C, 0, 1⟩
def STATUS : Fld := ⟨0x070, 28, 4⟩
def PAUSED : Fld := ⟨0x070, 0, 12⟩
def RECOVERY : Fld := ⟨0x074, 8, 1⟩
def REVERTED : Fld := ⟨0x074, 7, 1⟩
def SWITCHED : Fld := ⟨0x074, 6, 1⟩
def STEWARD_FAILED : Fld := ⟨0x074, 5, 1⟩
def STEWARD_RESTART : Fld := ⟨0x074, 4, 1⟩
def MGMT_EVT_NO_SPARE : Fld := ⟨0x074, 3, 1⟩
def RETIRE : Fld := ⟨0x074, 2, 1⟩
def FENCE : Fld := ⟨0x074, 1, 1⟩
def HOST_LOSS_CLOSE : Fld := ⟨0x074, 0, 1⟩
def RESTARTS : Fld := ⟨0x078, 0, 32⟩
def STATE (i : Nat) : Fld := ⟨0x080 + 4 * i, 30, 2⟩
def BANK (i : Nat) : Fld := ⟨0x080 + 4 * i, 29, 1⟩
def RESTARTS_60S (i : Nat) : Fld := ⟨0x080 + 4 * i, 16, 8⟩
def REVIVE (i : Nat) : Fld := ⟨0x080 + 4 * i, 0, 1⟩

/-- The field table of the page type (R419, R420). -/
def rows : List Row :=
  [⟨0x040, 1, 0, 31, 1, .ro, 0⟩,
   ⟨0x040, 1, 0, 30, 1, .ro, 0⟩,
   ⟨0x040, 1, 0, 0, 4, .ro, 0⟩,
   ⟨0x044, 1, 0, 8, 4, .rw, 0⟩,
   ⟨0x044, 1, 0, 0, 2, .wo, 0⟩,
   ⟨0x048, 1, 0, 0, 8, .ro, 0⟩,
   ⟨0x04C, 1, 0, 8, 8, .w1p, 0⟩,
   ⟨0x04C, 1, 0, 0, 8, .w1p, 0⟩,
   ⟨0x050, 1, 0, 0, 32, .ro, 0⟩,
   ⟨0x054, 1, 0, 0, 8, .rw, 0⟩,
   ⟨0x058, 1, 0, 8, 8, .ro, 0⟩,
   ⟨0x058, 1, 0, 0, 8, .ro, 0⟩,
   ⟨0x05C, 1, 0, 31, 1, .rw, 1⟩,
   ⟨0x05C, 1, 0, 16, 8, .rw, 4⟩,
   ⟨0x05C, 1, 0, 0, 16, .rw, 0x3e8⟩,
   ⟨0x060, 1, 0, 8, 8, .rw, 0⟩,
   ⟨0x060, 1, 0, 0, 8, .rw, 0⟩,
   ⟨0x064, 1, 0, 31, 1, .ro, 0⟩,
   ⟨0x064, 1, 0, 30, 1, .ro, 0⟩,
   ⟨0x064, 1, 0, 16, 8, .ro, 0⟩,
   ⟨0x064, 1, 0, 0, 1, .w1p, 0⟩,
   ⟨0x068, 1, 0, 0, 32, .rwh, 0⟩,
   ⟨0x06C, 1, 0, 0, 1, .w1p, 0⟩,
   ⟨0x070, 1, 0, 28, 4, .ro, 0⟩] ++
  [⟨0x070, 1, 0, 0, 12, .ro, 0⟩,
   ⟨0x074, 1, 0, 8, 1, .w1c, 0⟩,
   ⟨0x074, 1, 0, 7, 1, .w1c, 0⟩,
   ⟨0x074, 1, 0, 6, 1, .w1c, 0⟩,
   ⟨0x074, 1, 0, 5, 1, .w1c, 0⟩,
   ⟨0x074, 1, 0, 4, 1, .w1c, 0⟩,
   ⟨0x074, 1, 0, 3, 1, .w1c, 0⟩,
   ⟨0x074, 1, 0, 2, 1, .w1c, 0⟩,
   ⟨0x074, 1, 0, 1, 1, .w1c, 0⟩,
   ⟨0x074, 1, 0, 0, 1, .w1c, 0⟩,
   ⟨0x078, 1, 0, 0, 32, .rwh, 0⟩,
   ⟨0x080, 3, 4, 30, 2, .ro, 0⟩,
   ⟨0x080, 3, 4, 29, 1, .ro, 0⟩,
   ⟨0x080, 3, 4, 16, 8, .ro, 0⟩,
   ⟨0x080, 3, 4, 0, 1, .w1p, 0⟩]

end Reg.MGMT

namespace Reg.KEYSTORE

def KEK_CLEAR : Fld := ⟨0x040, 3, 1⟩
def KEY_CLEAR : Fld := ⟨0x040, 2, 1⟩
def KEY_GO : Fld := ⟨0x040, 1, 1⟩
def KEK_GO : Fld := ⟨0x040, 0, 1⟩
def KEK : Fld := ⟨0x044, 8, 2⟩
def SLOT : Fld := ⟨0x044, 0, 8⟩
def KEY_ID_LO : Fld := ⟨0x048, 0, 32⟩
def KEY_ID_HI : Fld := ⟨0x04C, 0, 32⟩
def IV_FIXED : Fld := ⟨0x050, 0, 32⟩
def BUSY : Fld := ⟨0x054, 31, 1⟩
def KEK_VALID : Fld := ⟨0x054, 4, 4⟩
def RESULT : Fld := ⟨0x054, 0, 4⟩
def LOADED : Fld := ⟨0x058, 31, 1⟩
def ZEROISED : Fld := ⟨0x058, 30, 1⟩
def KEK_USED : Fld := ⟨0x058, 24, 2⟩
def SLOT_ID_LO : Fld := ⟨0x05C, 0, 32⟩
def SLOT_ID_HI : Fld := ⟨0x060, 0, 32⟩
def IV_COUNT_LO : Fld := ⟨0x064, 0, 32⟩
def IV_COUNT_HI : Fld := ⟨0x068, 0, 32⟩
def UNWRAP_FAILS : Fld := ⟨0x06C, 0, 32⟩
def ZEROISE : Fld := ⟨0x070, 2, 1⟩
def UNWRAP_FAIL : Fld := ⟨0x070, 1, 1⟩
def DONE : Fld := ⟨0x070, 0, 1⟩
def KEY_IN (i : Nat) : Fld := ⟨0x400 + 4 * i, 0, 32⟩

/-- The field table of the page type (R373). -/
def rows : List Row :=
  [⟨0x040, 1, 0, 3, 1, .w1p, 0⟩,
   ⟨0x040, 1, 0, 2, 1, .w1p, 0⟩,
   ⟨0x040, 1, 0, 1, 1, .w1p, 0⟩,
   ⟨0x040, 1, 0, 0, 1, .w1p, 0⟩,
   ⟨0x044, 1, 0, 8, 2, .rw, 0⟩,
   ⟨0x044, 1, 0, 0, 8, .rw, 0⟩,
   ⟨0x048, 1, 0, 0, 32, .rw, 0⟩,
   ⟨0x04C, 1, 0, 0, 32, .rw, 0⟩,
   ⟨0x050, 1, 0, 0, 32, .rw, 0⟩,
   ⟨0x054, 1, 0, 31, 1, .ro, 0⟩,
   ⟨0x054, 1, 0, 4, 4, .ro, 0⟩,
   ⟨0x054, 1, 0, 0, 4, .ro, 0⟩,
   ⟨0x058, 1, 0, 31, 1, .ro, 0⟩,
   ⟨0x058, 1, 0, 30, 1, .w1c, 0⟩,
   ⟨0x058, 1, 0, 24, 2, .ro, 0⟩,
   ⟨0x05C, 1, 0, 0, 32, .ro, 0⟩,
   ⟨0x060, 1, 0, 0, 32, .ro, 0⟩,
   ⟨0x064, 1, 0, 0, 32, .ro, 0⟩,
   ⟨0x068, 1, 0, 0, 32, .ro, 0⟩,
   ⟨0x06C, 1, 0, 0, 32, .rwh, 0⟩,
   ⟨0x070, 1, 0, 2, 1, .w1c, 0⟩,
   ⟨0x070, 1, 0, 1, 1, .w1c, 0⟩,
   ⟨0x070, 1, 0, 0, 1, .w1c, 0⟩,
   ⟨0x400, 128, 4, 0, 32, .wo, 0⟩]

end Reg.KEYSTORE

namespace Reg.PROTECT

def KIND : Fld := ⟨0x040, 16, 3⟩
def INDEX : Fld := ⟨0x040, 0, 12⟩
def DOMAIN : Fld := ⟨0x044, 16, 6⟩
def COUNT : Fld := ⟨0x044, 0, 13⟩
def LIVE : Fld := ⟨0x048, 8, 6⟩
def STAGED : Fld := ⟨0x048, 0, 6⟩
def DISCARD : Fld := ⟨0x04C, 1, 1⟩
def COMMIT : Fld := ⟨0x04C, 0, 1⟩
def BUSY : Fld := ⟨0x050, 31, 1⟩
def DIRTY : Fld := ⟨0x050, 30, 1⟩
def REFUSE : Fld := ⟨0x050, 0, 3⟩
def SEQ_LO : Fld := ⟨0x054, 0, 32⟩
def SEQ_HI : Fld := ⟨0x058, 0, 32⟩
def LEDGER_i (i : Nat) : Fld := ⟨0x060 + 4 * i, 0, 32⟩
def COMMIT_REFUSED : Fld := ⟨0x0A0, 1, 1⟩
def COMMITTED : Fld := ⟨0x0A0, 0, 1⟩

/-- The field table of the page type (R374). -/
def rows : List Row :=
  [⟨0x040, 1, 0, 16, 3, .rw, 0⟩,
   ⟨0x040, 1, 0, 0, 12, .rw, 0⟩,
   ⟨0x044, 1, 0, 16, 6, .wo, 0⟩,
   ⟨0x044, 1, 0, 0, 13, .wo, 0⟩,
   ⟨0x048, 1, 0, 8, 6, .ro, 0⟩,
   ⟨0x048, 1, 0, 0, 6, .ro, 0⟩,
   ⟨0x04C, 1, 0, 1, 1, .w1p, 0⟩,
   ⟨0x04C, 1, 0, 0, 1, .w1p, 0⟩,
   ⟨0x050, 1, 0, 31, 1, .ro, 0⟩,
   ⟨0x050, 1, 0, 30, 1, .ro, 0⟩,
   ⟨0x050, 1, 0, 0, 3, .ro, 0⟩,
   ⟨0x054, 1, 0, 0, 32, .ro, 0⟩,
   ⟨0x058, 1, 0, 0, 32, .ro, 0⟩,
   ⟨0x060, 16, 4, 0, 32, .ro, 0⟩,
   ⟨0x0A0, 1, 0, 1, 1, .w1c, 0⟩,
   ⟨0x0A0, 1, 0, 0, 1, .w1c, 0⟩]

end Reg.PROTECT

namespace Reg.ALARM

def HANDLE : Fld := ⟨0x040, 8, 2⟩
def KEYSLOT : Fld := ⟨0x040, 6, 2⟩
def COMMAND : Fld := ⟨0x040, 4, 2⟩
def DOORBELL : Fld := ⟨0x040, 2, 2⟩
def PAGE : Fld := ⟨0x040, 0, 2⟩
def FENCE_LO : Fld := ⟨0x044, 0, 32⟩
def FENCE_HI : Fld := ⟨0x048, 0, 32⟩
def VALID : Fld := ⟨0x04C, 31, 1⟩
def KIND : Fld := ⟨0x04C, 24, 3⟩
def LAST_VIOL_DOMAIN : Fld := ⟨0x04C, 16, 6⟩
def INDEX : Fld := ⟨0x04C, 0, 12⟩
def VIOL_CNT : Fld := ⟨0x050, 0, 32⟩
def DOM_SEL_DOMAIN : Fld := ⟨0x054, 0, 6⟩
def DOM_VIOL : Fld := ⟨0x058, 0, 32⟩
def MESH : Fld := ⟨0x05C, 3, 1⟩
def LIGHT : Fld := ⟨0x05C, 2, 1⟩
def TEMP : Fld := ⟨0x05C, 1, 1⟩
def VOLTAGE : Fld := ⟨0x05C, 0, 1⟩
def TAMPER_CNT : Fld := ⟨0x060, 0, 32⟩
def ZEROISE_CNT : Fld := ⟨0x064, 0, 32⟩
def ZEROISE_ALL : Fld := ⟨0x068, 0, 1⟩
def TAMPER : Fld := ⟨0x06C, 3, 1⟩
def ZEROISED : Fld := ⟨0x06C, 2, 1⟩
def FENCED : Fld := ⟨0x06C, 1, 1⟩
def VIOLATION : Fld := ⟨0x06C, 0, 1⟩

/-- The field table of the page type (R375). -/
def rows : List Row :=
  [⟨0x040, 1, 0, 8, 2, .rw, 1⟩,
   ⟨0x040, 1, 0, 6, 2, .rw, 0⟩,
   ⟨0x040, 1, 0, 4, 2, .rw, 0⟩,
   ⟨0x040, 1, 0, 2, 2, .rw, 1⟩,
   ⟨0x040, 1, 0, 0, 2, .rw, 1⟩,
   ⟨0x044, 1, 0, 0, 32, .w1c, 0⟩,
   ⟨0x048, 1, 0, 0, 32, .w1c, 0⟩,
   ⟨0x04C, 1, 0, 31, 1, .w1c, 0⟩,
   ⟨0x04C, 1, 0, 24, 3, .ro, 0⟩,
   ⟨0x04C, 1, 0, 16, 6, .ro, 0⟩,
   ⟨0x04C, 1, 0, 0, 12, .ro, 0⟩,
   ⟨0x050, 1, 0, 0, 32, .rwh, 0⟩,
   ⟨0x054, 1, 0, 0, 6, .rw, 0⟩,
   ⟨0x058, 1, 0, 0, 32, .rwh, 0⟩,
   ⟨0x05C, 1, 0, 3, 1, .w1c, 0⟩,
   ⟨0x05C, 1, 0, 2, 1, .w1c, 0⟩,
   ⟨0x05C, 1, 0, 1, 1, .w1c, 0⟩,
   ⟨0x05C, 1, 0, 0, 1, .w1c, 0⟩,
   ⟨0x060, 1, 0, 0, 32, .ro, 0⟩,
   ⟨0x064, 1, 0, 0, 32, .ro, 0⟩,
   ⟨0x068, 1, 0, 0, 1, .w1p, 0⟩,
   ⟨0x06C, 1, 0, 3, 1, .w1c, 0⟩,
   ⟨0x06C, 1, 0, 2, 1, .w1c, 0⟩,
   ⟨0x06C, 1, 0, 1, 1, .w1c, 0⟩] ++
  [⟨0x06C, 1, 0, 0, 1, .w1c, 0⟩]

end Reg.ALARM

namespace Reg.BOOT

def COUNTER : Fld := ⟨0x040, 16, 7⟩
def SVN_RUN : Fld := ⟨0x040, 8, 8⟩
def IDENTITY : Fld := ⟨0x040, 4, 1⟩
def SLOT : Fld := ⟨0x040, 3, 1⟩
def STATE : Fld := ⟨0x040, 0, 3⟩
def IMAGE_VERSION : Fld := ⟨0x044, 0, 32⟩
def RELEASE : Fld := ⟨0x048, 2, 1⟩
def END : Fld := ⟨0x048, 1, 1⟩
def START : Fld := ⟨0x048, 0, 1⟩
def UPD_DATA : Fld := ⟨0x04C, 0, 32⟩
def STATUS : Fld := ⟨0x050, 28, 4⟩
def WORDS : Fld := ⟨0x050, 0, 23⟩
def SVN_COMMIT : Fld := ⟨0x054, 0, 1⟩
def BUSY : Fld := ⟨0x058, 31, 1⟩
def EXHAUSTED : Fld := ⟨0x058, 30, 1⟩
def STAGED_VERSION : Fld := ⟨0x05C, 0, 32⟩
def SVN_EXHAUSTED : Fld := ⟨0x060, 3, 1⟩
def SVN_RAISED : Fld := ⟨0x060, 2, 1⟩
def STAGE_FAIL : Fld := ⟨0x060, 1, 1⟩
def STAGED : Fld := ⟨0x060, 0, 1⟩

/-- The field table of the page type (R376). -/
def rows : List Row :=
  [⟨0x040, 1, 0, 16, 7, .ro, 0⟩,
   ⟨0x040, 1, 0, 8, 8, .ro, 0⟩,
   ⟨0x040, 1, 0, 4, 1, .ro, 0⟩,
   ⟨0x040, 1, 0, 3, 1, .ro, 0⟩,
   ⟨0x040, 1, 0, 0, 3, .ro, 0⟩,
   ⟨0x044, 1, 0, 0, 32, .ro, 0⟩,
   ⟨0x048, 1, 0, 2, 1, .w1p, 0⟩,
   ⟨0x048, 1, 0, 1, 1, .w1p, 0⟩,
   ⟨0x048, 1, 0, 0, 1, .w1p, 0⟩,
   ⟨0x04C, 1, 0, 0, 32, .wo, 0⟩,
   ⟨0x050, 1, 0, 28, 4, .ro, 0⟩,
   ⟨0x050, 1, 0, 0, 23, .ro, 0⟩,
   ⟨0x054, 1, 0, 0, 1, .w1p, 0⟩,
   ⟨0x058, 1, 0, 31, 1, .ro, 0⟩,
   ⟨0x058, 1, 0, 30, 1, .ro, 0⟩,
   ⟨0x05C, 1, 0, 0, 32, .ro, 0⟩,
   ⟨0x060, 1, 0, 3, 1, .w1c, 0⟩,
   ⟨0x060, 1, 0, 2, 1, .w1c, 0⟩,
   ⟨0x060, 1, 0, 1, 1, .w1c, 0⟩,
   ⟨0x060, 1, 0, 0, 1, .w1c, 0⟩]

end Reg.BOOT

namespace Reg.RINGS

def RING_SEL_RING : Fld := ⟨0x040, 0, 9⟩
def SQ_BASE_LO_ADDR : Fld := ⟨0x044, 6, 26⟩
def SQ_BASE_HI_ADDR_HI : Fld := ⟨0x048, 0, 32⟩
def SQ_CFG_SIZE : Fld := ⟨0x04C, 28, 4⟩
def CQ : Fld := ⟨0x04C, 16, 12⟩
def FETCH_BURST : Fld := ⟨0x04C, 12, 4⟩
def SQ_CFG_FUNC : Fld := ⟨0x04C, 0, 7⟩
def CREDIT : Fld := ⟨0x050, 0, 12⟩
def STALL_CREDIT : Fld := ⟨0x054, 31, 1⟩
def SQ_STAT_MISMATCH : Fld := ⟨0x054, 30, 1⟩
def SQ_STAT_TAIL : Fld := ⟨0x054, 16, 12⟩
def SQ_STAT_HEAD : Fld := ⟨0x054, 0, 12⟩
def OUTSTANDING : Fld := ⟨0x058, 16, 12⟩
def CREDITS : Fld := ⟨0x058, 0, 12⟩
def LAST_CID : Fld := ⟨0x05C, 0, 16⟩
def CQ_BASE_LO_ADDR : Fld := ⟨0x060, 5, 27⟩
def CQ_BASE_HI_ADDR_HI : Fld := ⟨0x064, 0, 32⟩
def CQ_CFG_SIZE : Fld := ⟨0x068, 28, 4⟩
def IRQ_EN : Fld := ⟨0x068, 27, 1⟩
def VECTOR : Fld := ⟨0x068, 16, 11⟩
def AGG_COUNT : Fld := ⟨0x068, 8, 8⟩
def CQ_CFG_FUNC : Fld := ⟨0x068, 0, 7⟩
def AGG_TIME : Fld := ⟨0x06C, 0, 16⟩
def PHASE : Fld := ⟨0x070, 31, 1⟩
def FULL : Fld := ⟨0x070, 30, 1⟩
def CQ_STAT_HEAD : Fld := ⟨0x070, 16, 12⟩
def CQ_STAT_TAIL : Fld := ⟨0x070, 0, 12⟩
def PENDING : Fld := ⟨0x074, 0, 12⟩
def BAD_VECTOR : Fld := ⟨0x078, 4, 1⟩
def CPL_DROPPED : Fld := ⟨0x078, 3, 1⟩
def CQ_FULL : Fld := ⟨0x078, 2, 1⟩
def RINGS_EVT_MISMATCH : Fld := ⟨0x078, 1, 1⟩
def LOSS_DISABLE : Fld := ⟨0x078, 0, 1⟩
def EVT_RING_RING : Fld := ⟨0x07C, 0, 9⟩
def FETCHED : Fld := ⟨0x080, 0, 32⟩
def POSTED : Fld := ⟨0x084, 0, 32⟩
def DROPPED : Fld := ⟨0x088, 0, 32⟩

/-- The field table of the page type (R300). -/
def rows : List Row :=
  [⟨0x040, 1, 0, 0, 9, .rw, 0⟩,
   ⟨0x044, 1, 0, 6, 26, .rw, 0⟩,
   ⟨0x048, 1, 0, 0, 32, .rw, 0⟩,
   ⟨0x04C, 1, 0, 28, 4, .rw, 0⟩,
   ⟨0x04C, 1, 0, 16, 12, .rw, 0⟩,
   ⟨0x04C, 1, 0, 12, 4, .rw, 4⟩,
   ⟨0x04C, 1, 0, 0, 7, .rw, 0⟩,
   ⟨0x050, 1, 0, 0, 12, .rw, 0xfff⟩,
   ⟨0x054, 1, 0, 31, 1, .ro, 0⟩,
   ⟨0x054, 1, 0, 30, 1, .ro, 0⟩,
   ⟨0x054, 1, 0, 16, 12, .ro, 0⟩,
   ⟨0x054, 1, 0, 0, 12, .ro, 0⟩,
   ⟨0x058, 1, 0, 16, 12, .ro, 0⟩,
   ⟨0x058, 1, 0, 0, 12, .ro, 0⟩,
   ⟨0x05C, 1, 0, 0, 16, .ro, 0⟩,
   ⟨0x060, 1, 0, 5, 27, .rw, 0⟩,
   ⟨0x064, 1, 0, 0, 32, .rw, 0⟩,
   ⟨0x068, 1, 0, 28, 4, .rw, 0⟩,
   ⟨0x068, 1, 0, 27, 1, .rw, 1⟩,
   ⟨0x068, 1, 0, 16, 11, .rw, 0⟩,
   ⟨0x068, 1, 0, 8, 8, .rw, 1⟩,
   ⟨0x068, 1, 0, 0, 7, .rw, 0⟩,
   ⟨0x06C, 1, 0, 0, 16, .rw, 0⟩,
   ⟨0x070, 1, 0, 31, 1, .ro, 1⟩] ++
  [⟨0x070, 1, 0, 30, 1, .ro, 0⟩,
   ⟨0x070, 1, 0, 16, 12, .ro, 0⟩,
   ⟨0x070, 1, 0, 0, 12, .ro, 0⟩,
   ⟨0x074, 1, 0, 0, 12, .ro, 0⟩,
   ⟨0x078, 1, 0, 4, 1, .w1c, 0⟩,
   ⟨0x078, 1, 0, 3, 1, .w1c, 0⟩,
   ⟨0x078, 1, 0, 2, 1, .w1c, 0⟩,
   ⟨0x078, 1, 0, 1, 1, .w1c, 0⟩,
   ⟨0x078, 1, 0, 0, 1, .w1c, 0⟩,
   ⟨0x07C, 1, 0, 0, 9, .ro, 0⟩,
   ⟨0x080, 1, 0, 0, 32, .rwh, 0⟩,
   ⟨0x084, 1, 0, 0, 32, .rwh, 0⟩,
   ⟨0x088, 1, 0, 0, 32, .rwh, 0⟩]

end Reg.RINGS

namespace Reg.DMA

def READS_OUT : Fld := ⟨0x040, 16, 10⟩
def ACTIVE : Fld := ⟨0x040, 0, 1⟩
def MIB : Fld := ⟨0x044, 0, 32⟩
def FAILED : Fld := ⟨0x048, 0, 32⟩
def BME_STALL : Fld := ⟨0x04C, 3, 1⟩
def POISONED : Fld := ⟨0x04C, 2, 1⟩
def UR_CA : Fld := ⟨0x04C, 1, 1⟩
def CPL_TIMEOUT : Fld := ⟨0x04C, 0, 1⟩

/-- The field table of the page type (R303). -/
def rows : List Row :=
  [⟨0x040, 1, 0, 16, 10, .ro, 0⟩,
   ⟨0x040, 1, 0, 0, 1, .ro, 0⟩,
   ⟨0x044, 1, 0, 0, 32, .rwh, 0⟩,
   ⟨0x048, 1, 0, 0, 32, .rwh, 0⟩,
   ⟨0x04C, 1, 0, 3, 1, .w1c, 0⟩,
   ⟨0x04C, 1, 0, 2, 1, .w1c, 0⟩,
   ⟨0x04C, 1, 0, 1, 1, .w1c, 0⟩,
   ⟨0x04C, 1, 0, 0, 1, .w1c, 0⟩]

end Reg.DMA

namespace Reg.PCIE

def LINK_UP : Fld := ⟨0x040, 31, 1⟩
def SPLIT : Fld := ⟨0x040, 30, 1⟩
def WIDTH : Fld := ⟨0x040, 16, 5⟩
def SPEED : Fld := ⟨0x040, 0, 4⟩
def WINDOW : Fld := ⟨0x044, 0, 16⟩
def VALUE : Fld := ⟨0x048, 0, 32⟩
def TAKEN_OVER : Fld := ⟨0x04C, 3, 1⟩
def HOST_LOST : Fld := ⟨0x04C, 2, 1⟩
def CAUSE : Fld := ⟨0x04C, 0, 2⟩
def TAKEOVER : Fld := ⟨0x050, 5, 1⟩
def HB_MISS : Fld := ⟨0x050, 4, 1⟩
def LINK_DOWN : Fld := ⟨0x050, 3, 1⟩
def ECRC : Fld := ⟨0x050, 2, 1⟩
def UNCORR : Fld := ⟨0x050, 1, 1⟩
def CORR : Fld := ⟨0x050, 0, 1⟩
def LINK_DOWNS : Fld := ⟨0x054, 0, 32⟩
def CORR_ERRS : Fld := ⟨0x058, 0, 32⟩
def UNCORR_ERRS : Fld := ⟨0x05C, 0, 32⟩

/-- The field table of the page type (R301). -/
def rows : List Row :=
  [⟨0x040, 1, 0, 31, 1, .ro, 0⟩,
   ⟨0x040, 1, 0, 30, 1, .ro, 0⟩,
   ⟨0x040, 1, 0, 16, 5, .ro, 0⟩,
   ⟨0x040, 1, 0, 0, 4, .ro, 0⟩,
   ⟨0x044, 1, 0, 0, 16, .rw, 0⟩,
   ⟨0x048, 1, 0, 0, 32, .rw, 0⟩,
   ⟨0x04C, 1, 0, 3, 1, .ro, 0⟩,
   ⟨0x04C, 1, 0, 2, 1, .ro, 0⟩,
   ⟨0x04C, 1, 0, 0, 2, .ro, 0⟩,
   ⟨0x050, 1, 0, 5, 1, .w1c, 0⟩,
   ⟨0x050, 1, 0, 4, 1, .w1c, 0⟩,
   ⟨0x050, 1, 0, 3, 1, .w1c, 0⟩,
   ⟨0x050, 1, 0, 2, 1, .w1c, 0⟩,
   ⟨0x050, 1, 0, 1, 1, .w1c, 0⟩,
   ⟨0x050, 1, 0, 0, 1, .w1c, 0⟩,
   ⟨0x054, 1, 0, 0, 32, .rwh, 0⟩,
   ⟨0x058, 1, 0, 0, 32, .rwh, 0⟩,
   ⟨0x05C, 1, 0, 0, 32, .rwh, 0⟩]

end Reg.PCIE

namespace Reg.MSIX

def K : Fld := ⟨0x040, 0, 3⟩
def VF_VECTORS : Fld := ⟨0x044, 16, 6⟩
def PF_VECTORS : Fld := ⟨0x044, 0, 12⟩
def MSGS : Fld := ⟨0x048, 0, 32⟩
def MASKED : Fld := ⟨0x04C, 0, 32⟩

/-- The field table of the page type (R302). -/
def rows : List Row :=
  [⟨0x040, 1, 0, 0, 3, .rw, 4⟩,
   ⟨0x044, 1, 0, 16, 6, .ro, 0x10⟩,
   ⟨0x044, 1, 0, 0, 12, .ro, 0x410⟩,
   ⟨0x048, 1, 0, 0, 32, .rwh, 0⟩,
   ⟨0x04C, 1, 0, 0, 32, .rwh, 0⟩]

end Reg.MSIX

namespace Reg.COMP

def OUT_CLASS : Fld := ⟨0x040, 8, 3⟩
def LAZY : Fld := ⟨0x040, 6, 1⟩
def MATCH_DEPTH : Fld := ⟨0x040, 0, 6⟩
def LEAD_STREAMS : Fld := ⟨0x044, 8, 4⟩
def WAIT_BUF : Fld := ⟨0x044, 2, 1⟩
def FP_BUSY : Fld := ⟨0x044, 1, 1⟩
def ACTIVE : Fld := ⟨0x044, 0, 1⟩
def BLOCKS : Fld := ⟨0x048, 0, 32⟩
def IN_MIB : Fld := ⟨0x04C, 0, 32⟩
def OUT_MIB : Fld := ⟨0x050, 0, 32⟩
def RAW_BLOCKS : Fld := ⟨0x054, 0, 32⟩
def FAR_REFS : Fld := ⟨0x058, 0, 32⟩
def REDONE : Fld := ⟨0x05C, 2, 1⟩
def EVICT : Fld := ⟨0x05C, 1, 1⟩
def NOBUF_WAIT : Fld := ⟨0x05C, 0, 1⟩
def SET : Fld := ⟨0x070, 0, 4⟩
def BOUND : Fld := ⟨0x074, 31, 1⟩
def ENTRIES : Fld := ⟨0x074, 16, 15⟩
def STREAM : Fld := ⟨0x074, 0, 16⟩
def SPAN_MIB : Fld := ⟨0x078, 0, 32⟩

/-- The field table of the page type (R133). -/
def rows : List Row :=
  [⟨0x040, 1, 0, 8, 3, .rw, 4⟩,
   ⟨0x040, 1, 0, 6, 1, .rw, 1⟩,
   ⟨0x040, 1, 0, 0, 6, .rw, 8⟩,
   ⟨0x044, 1, 0, 8, 4, .ro, 0⟩,
   ⟨0x044, 1, 0, 2, 1, .ro, 0⟩,
   ⟨0x044, 1, 0, 1, 1, .ro, 0⟩,
   ⟨0x044, 1, 0, 0, 1, .ro, 0⟩,
   ⟨0x048, 1, 0, 0, 32, .rwh, 0⟩,
   ⟨0x04C, 1, 0, 0, 32, .rwh, 0⟩,
   ⟨0x050, 1, 0, 0, 32, .rwh, 0⟩,
   ⟨0x054, 1, 0, 0, 32, .rwh, 0⟩,
   ⟨0x058, 1, 0, 0, 32, .rwh, 0⟩,
   ⟨0x05C, 1, 0, 2, 1, .w1c, 0⟩,
   ⟨0x05C, 1, 0, 1, 1, .w1c, 0⟩,
   ⟨0x05C, 1, 0, 0, 1, .w1c, 0⟩,
   ⟨0x070, 1, 0, 0, 4, .rw, 0⟩,
   ⟨0x074, 1, 0, 31, 1, .ro, 0⟩,
   ⟨0x074, 1, 0, 16, 15, .ro, 0⟩,
   ⟨0x074, 1, 0, 0, 16, .ro, 0⟩,
   ⟨0x078, 1, 0, 0, 32, .ro, 0⟩]

end Reg.COMP

namespace Reg.DECOMP

def WAIT_FAR : Fld := ⟨0x040, 2, 1⟩
def SUSPENDED : Fld := ⟨0x040, 1, 1⟩
def ACTIVE : Fld := ⟨0x040, 0, 1⟩
def BLOCKS : Fld := ⟨0x044, 0, 32⟩
def OUT_MIB : Fld := ⟨0x048, 0, 32⟩
def DISCARD_MIB : Fld := ⟨0x04C, 0, 32⟩
def FAULT_BLOCKS : Fld := ⟨0x050, 0, 32⟩
def FAR_UNRESOLVED : Fld := ⟨0x054, 3, 1⟩
def CHECK_MISMATCH : Fld := ⟨0x054, 2, 1⟩
def SYNTAX : Fld := ⟨0x054, 1, 1⟩
def TRUNCATED : Fld := ⟨0x054, 0, 1⟩
def FAULT_STREAM : Fld := ⟨0x058, 0, 16⟩
def SET : Fld := ⟨0x070, 0, 4⟩
def SET_VIEW : Fld := ⟨0x074, 0, 32⟩
def SPAN_MIB : Fld := ⟨0x078, 0, 32⟩

/-- The field table of the page type (R134). -/
def rows : List Row :=
  [⟨0x040, 1, 0, 2, 1, .ro, 0⟩,
   ⟨0x040, 1, 0, 1, 1, .ro, 0⟩,
   ⟨0x040, 1, 0, 0, 1, .ro, 0⟩,
   ⟨0x044, 1, 0, 0, 32, .rwh, 0⟩,
   ⟨0x048, 1, 0, 0, 32, .rwh, 0⟩,
   ⟨0x04C, 1, 0, 0, 32, .rwh, 0⟩,
   ⟨0x050, 1, 0, 0, 32, .rwh, 0⟩,
   ⟨0x054, 1, 0, 3, 1, .w1c, 0⟩,
   ⟨0x054, 1, 0, 2, 1, .w1c, 0⟩,
   ⟨0x054, 1, 0, 1, 1, .w1c, 0⟩,
   ⟨0x054, 1, 0, 0, 1, .w1c, 0⟩,
   ⟨0x058, 1, 0, 0, 16, .ro, 0⟩,
   ⟨0x070, 1, 0, 0, 4, .rw, 0⟩,
   ⟨0x074, 1, 0, 0, 32, .ro, 0⟩,
   ⟨0x078, 1, 0, 0, 32, .ro, 0⟩]

end Reg.DECOMP

namespace Reg.CRYPT

def DEC_ACTIVE : Fld := ⟨0x040, 1, 1⟩
def ENC_ACTIVE : Fld := ⟨0x040, 0, 1⟩
def FRAMES_ENC : Fld := ⟨0x044, 0, 32⟩
def FRAMES_DEC : Fld := ⟨0x048, 0, 32⟩
def TAG_FAILS : Fld := ⟨0x04C, 0, 32⟩
def ABANDONED : Fld := ⟨0x050, 0, 32⟩
def FAIL_STREAM : Fld := ⟨0x054, 0, 16⟩
def COUNTER_END : Fld := ⟨0x058, 3, 1⟩
def NO_KEY : Fld := ⟨0x058, 2, 1⟩
def KEYID_MISMATCH : Fld := ⟨0x058, 1, 1⟩
def TAG_FAIL : Fld := ⟨0x058, 0, 1⟩

/-- The field table of the page type (R377). -/
def rows : List Row :=
  [⟨0x040, 1, 0, 1, 1, .ro, 0⟩,
   ⟨0x040, 1, 0, 0, 1, .ro, 0⟩,
   ⟨0x044, 1, 0, 0, 32, .rwh, 0⟩,
   ⟨0x048, 1, 0, 0, 32, .rwh, 0⟩,
   ⟨0x04C, 1, 0, 0, 32, .rwh, 0⟩,
   ⟨0x050, 1, 0, 0, 32, .rwh, 0⟩,
   ⟨0x054, 1, 0, 0, 16, .ro, 0⟩,
   ⟨0x058, 1, 0, 3, 1, .w1c, 0⟩,
   ⟨0x058, 1, 0, 2, 1, .w1c, 0⟩,
   ⟨0x058, 1, 0, 1, 1, .w1c, 0⟩,
   ⟨0x058, 1, 0, 0, 1, .w1c, 0⟩]

end Reg.CRYPT

namespace Reg.MEMCTL

def REFRESH : Fld := ⟨0x040, 1, 2⟩
def TRAINED : Fld := ⟨0x040, 0, 1⟩
def CE_CNT : Fld := ⟨0x044, 0, 32⟩
def UE_ODD_CNT : Fld := ⟨0x048, 0, 32⟩
def UE_EVEN_CNT : Fld := ⟨0x04C, 0, 32⟩
def CE_ADDR : Fld := ⟨0x050, 0, 32⟩
def CE_INFO_VALID : Fld := ⟨0x054, 31, 1⟩
def CE_INFO_SYNDROME : Fld := ⟨0x054, 8, 5⟩
def CE_INFO_ADDR_HI : Fld := ⟨0x054, 0, 4⟩
def UE_ADDR : Fld := ⟨0x058, 0, 32⟩
def UE_INFO_VALID : Fld := ⟨0x05C, 31, 1⟩
def LANES : Fld := ⟨0x05C, 16, 8⟩
def UE_INFO_SYNDROME : Fld := ⟨0x05C, 8, 5⟩
def UE_INFO_ADDR_HI : Fld := ⟨0x05C, 0, 4⟩
def UE_EVEN : Fld := ⟨0x060, 2, 1⟩
def UE_ODD : Fld := ⟨0x060, 1, 1⟩
def CE : Fld := ⟨0x060, 0, 1⟩
def ARM : Fld := ⟨0x064, 31, 1⟩
def PATTERN : Fld := ⟨0x064, 8, 5⟩
def LANE : Fld := ⟨0x064, 0, 3⟩

/-- The field table of the page type (R273). -/
def rows : List Row :=
  [⟨0x040, 1, 0, 1, 2, .ro, 0⟩,
   ⟨0x040, 1, 0, 0, 1, .ro, 0⟩,
   ⟨0x044, 1, 0, 0, 32, .rwh, 0⟩,
   ⟨0x048, 1, 0, 0, 32, .rwh, 0⟩,
   ⟨0x04C, 1, 0, 0, 32, .rwh, 0⟩,
   ⟨0x050, 1, 0, 0, 32, .ro, 0⟩,
   ⟨0x054, 1, 0, 31, 1, .w1c, 0⟩,
   ⟨0x054, 1, 0, 8, 5, .ro, 0⟩,
   ⟨0x054, 1, 0, 0, 4, .ro, 0⟩,
   ⟨0x058, 1, 0, 0, 32, .ro, 0⟩,
   ⟨0x05C, 1, 0, 31, 1, .w1c, 0⟩,
   ⟨0x05C, 1, 0, 16, 8, .ro, 0⟩,
   ⟨0x05C, 1, 0, 8, 5, .ro, 0⟩,
   ⟨0x05C, 1, 0, 0, 4, .ro, 0⟩,
   ⟨0x060, 1, 0, 2, 1, .w1c, 0⟩,
   ⟨0x060, 1, 0, 1, 1, .w1c, 0⟩,
   ⟨0x060, 1, 0, 0, 1, .w1c, 0⟩,
   ⟨0x064, 1, 0, 31, 1, .rwh, 0⟩,
   ⟨0x064, 1, 0, 8, 5, .rw, 0⟩,
   ⟨0x064, 1, 0, 0, 3, .rw, 0⟩]

end Reg.MEMCTL

namespace Reg.POOL

def NOBUF_WAIT : Fld := ⟨0x040, 0, 16⟩
def APPLY : Fld := ⟨0x044, 0, 1⟩
def CONFIGURED : Fld := ⟨0x048, 0, 1⟩
def SAT_PIN : Fld := ⟨0x04C, 3, 1⟩
def LOST_HANDLE : Fld := ⟨0x04C, 2, 1⟩
def CFG_REFUSED : Fld := ⟨0x04C, 1, 1⟩
def CFG_DONE : Fld := ⟨0x04C, 0, 1⟩
def COUNT (i : Nat) : Fld := ⟨0x050 + 4 * i, 0, 24⟩
def FREE (i : Nat) : Fld := ⟨0x068 + 4 * i, 0, 24⟩
def CLASS : Fld := ⟨0x080, 8, 3⟩
def OWNER : Fld := ⟨0x080, 0, 7⟩
def RESERVE : Fld := ⟨0x084, 0, 24⟩
def OCC : Fld := ⟨0x088, 0, 24⟩
def UNDERFLOW : Fld := ⟨0x08C, 1, 1⟩
def HOST_MANAGED : Fld := ⟨0x08C, 0, 1⟩
def ALLOCS : Fld := ⟨0x090, 0, 32⟩
def FREES : Fld := ⟨0x094, 0, 32⟩
def FALLBACKS : Fld := ⟨0x098, 0, 32⟩
def NOBUFS : Fld := ⟨0x09C, 0, 32⟩
def SAT_PINNED : Fld := ⟨0x0A0, 0, 32⟩
def LOST_HANDLES : Fld := ⟨0x0A4, 0, 32⟩

/-- The field table of the page type (R274). -/
def rows : List Row :=
  [⟨0x040, 1, 0, 0, 16, .rw, 0x3e8⟩,
   ⟨0x044, 1, 0, 0, 1, .w1p, 0⟩,
   ⟨0x048, 1, 0, 0, 1, .ro, 0⟩,
   ⟨0x04C, 1, 0, 3, 1, .w1c, 0⟩,
   ⟨0x04C, 1, 0, 2, 1, .w1c, 0⟩,
   ⟨0x04C, 1, 0, 1, 1, .w1c, 0⟩,
   ⟨0x04C, 1, 0, 0, 1, .w1c, 0⟩,
   ⟨0x050, 1, 0, 0, 24, .rw, 1048576⟩,
   ⟨0x054, 1, 0, 0, 24, .rw, 262144⟩,
   ⟨0x058, 1, 0, 0, 24, .rw, 65536⟩,
   ⟨0x05C, 1, 0, 0, 24, .rw, 16384⟩,
   ⟨0x060, 1, 0, 0, 24, .rw, 20480⟩,
   ⟨0x064, 1, 0, 0, 24, .rw, 3072⟩,
   ⟨0x068, 6, 4, 0, 24, .ro, 0⟩,
   ⟨0x080, 1, 0, 8, 3, .rw, 0⟩,
   ⟨0x080, 1, 0, 0, 7, .rw, 0⟩,
   ⟨0x084, 1, 0, 0, 24, .rw, 0⟩,
   ⟨0x088, 1, 0, 0, 24, .ro, 0⟩,
   ⟨0x08C, 1, 0, 1, 1, .w1c, 0⟩,
   ⟨0x08C, 1, 0, 0, 1, .rw, 0⟩,
   ⟨0x090, 1, 0, 0, 32, .rwh, 0⟩,
   ⟨0x094, 1, 0, 0, 32, .rwh, 0⟩,
   ⟨0x098, 1, 0, 0, 32, .rwh, 0⟩,
   ⟨0x09C, 1, 0, 0, 32, .rwh, 0⟩] ++
  [⟨0x0A0, 1, 0, 0, 32, .rwh, 0⟩,
   ⟨0x0A4, 1, 0, 0, 32, .rwh, 0⟩]

end Reg.POOL

namespace Reg.VALIDMAP

def READY : Fld := ⟨0x040, 31, 1⟩
def VALID_PAGES : Fld := ⟨0x040, 0, 25⟩
def VM_CLR_BASE_PAGE : Fld := ⟨0x044, 0, 24⟩
def COUNT : Fld := ⟨0x048, 0, 25⟩
def BUSY : Fld := ⟨0x04C, 1, 1⟩
def GO : Fld := ⟨0x04C, 0, 1⟩
def PAGE_SEL_PAGE : Fld := ⟨0x050, 0, 24⟩
def FILL_PENDING : Fld := ⟨0x054, 1, 1⟩
def VALID : Fld := ⟨0x054, 0, 1⟩
def ZERO_READS : Fld := ⟨0x058, 0, 32⟩
def FILLS : Fld := ⟨0x05C, 0, 32⟩
def CLR_DONE : Fld := ⟨0x060, 0, 1⟩

/-- The field table of the page type (R275). -/
def rows : List Row :=
  [⟨0x040, 1, 0, 31, 1, .ro, 0⟩,
   ⟨0x040, 1, 0, 0, 25, .ro, 0⟩,
   ⟨0x044, 1, 0, 0, 24, .rw, 0⟩,
   ⟨0x048, 1, 0, 0, 25, .rw, 0⟩,
   ⟨0x04C, 1, 0, 1, 1, .ro, 0⟩,
   ⟨0x04C, 1, 0, 0, 1, .w1p, 0⟩,
   ⟨0x050, 1, 0, 0, 24, .rw, 0⟩,
   ⟨0x054, 1, 0, 1, 1, .ro, 0⟩,
   ⟨0x054, 1, 0, 0, 1, .ro, 0⟩,
   ⟨0x058, 1, 0, 0, 32, .rwh, 0⟩,
   ⟨0x05C, 1, 0, 0, 32, .rwh, 0⟩,
   ⟨0x060, 1, 0, 0, 1, .w1c, 0⟩]

end Reg.VALIDMAP

namespace Reg.LANEFE

def SHADOW : Fld := ⟨0x040, 11, 1⟩
def EQ_MU : Fld := ⟨0x040, 8, 3⟩
def TAP : Fld := ⟨0x044, 12, 4⟩
def SET : Fld := ⟨0x044, 10, 2⟩
def ZONE : Fld := ⟨0x044, 8, 2⟩
def LANE : Fld := ⟨0x044, 0, 4⟩
def COEF : Fld := ⟨0x048, 0, 12⟩
def BIAS (i : Nat) : Fld := ⟨0x080 + 32 * i, 16, 8⟩
def ENABLE (i : Nat) : Fld := ⟨0x080 + 32 * i, 15, 1⟩
def TERM (i : Nat) : Fld := ⟨0x080 + 32 * i, 12, 3⟩
def CTLE_FREQ (i : Nat) : Fld := ⟨0x080 + 32 * i, 9, 3⟩
def CTLE_BOOST (i : Nat) : Fld := ⟨0x080 + 32 * i, 4, 5⟩
def GAIN_BASE (i : Nat) : Fld := ⟨0x084 + 32 * i, 24, 7⟩
def TARGET (i : Nat) : Fld := ⟨0x084 + 32 * i, 16, 7⟩
def OFFSET (i : Nat) : Fld := ⟨0x084 + 32 * i, 8, 6⟩
def GAIN (i : Nat) : Fld := ⟨0x084 + 32 * i, 0, 7⟩
def DROPOUT (i : Nat) : Fld := ⟨0x088 + 32 * i, 31, 1⟩
def SYNC_LOCK (i : Nat) : Fld := ⟨0x088 + 32 * i, 30, 1⟩
def HEALTH (i : Nat) : Fld := ⟨0x088 + 32 * i, 28, 2⟩
def SNR (i : Nat) : Fld := ⟨0x088 + 32 * i, 16, 8⟩
def FREQ_OFS (i : Nat) : Fld := ⟨0x088 + 32 * i, 0, 16⟩
def SEGMENTS (i : Nat) : Fld := ⟨0x08C + 32 * i, 0, 32⟩
def FIRST_CNT (i : Nat) : Fld := ⟨0x090 + 32 * i, 0, 32⟩
def FREEWHEEL_CNT (i : Nat) : Fld := ⟨0x094 + 32 * i, 0, 32⟩
def ALT_CNT (i : Nat) : Fld := ⟨0x098 + 32 * i, 0, 32⟩
def HDR_FAIL_CNT (i : Nat) : Fld := ⟨0x09C + 32 * i, 0, 32⟩

/-- The field table of the page type (R229). -/
def rows : List Row :=
  [⟨0x040, 1, 0, 11, 1, .rw, 1⟩,
   ⟨0x040, 1, 0, 8, 3, .rw, 4⟩,
   ⟨0x044, 1, 0, 12, 4, .rw, 0⟩,
   ⟨0x044, 1, 0, 10, 2, .rw, 0⟩,
   ⟨0x044, 1, 0, 8, 2, .rw, 0⟩,
   ⟨0x044, 1, 0, 0, 4, .rw, 0⟩,
   ⟨0x048, 1, 0, 0, 12, .rwh, 0⟩,
   ⟨0x080, 16, 32, 16, 8, .rw, 0x50⟩,
   ⟨0x080, 16, 32, 15, 1, .rw, 1⟩,
   ⟨0x080, 16, 32, 12, 3, .rw, 3⟩,
   ⟨0x080, 16, 32, 9, 3, .rwh, 6⟩,
   ⟨0x080, 16, 32, 4, 5, .rwh, 0xc⟩,
   ⟨0x084, 16, 32, 24, 7, .ro, 0x7f⟩,
   ⟨0x084, 16, 32, 16, 7, .rw, 0x30⟩,
   ⟨0x084, 16, 32, 8, 6, .rwh, 0⟩,
   ⟨0x084, 16, 32, 0, 7, .rwh, 0x28⟩,
   ⟨0x088, 16, 32, 31, 1, .ro, 0⟩,
   ⟨0x088, 16, 32, 30, 1, .ro, 0⟩,
   ⟨0x088, 16, 32, 28, 2, .rwh, 0⟩,
   ⟨0x088, 16, 32, 16, 8, .ro, 0⟩,
   ⟨0x088, 16, 32, 0, 16, .ro, 0⟩,
   ⟨0x08C, 16, 32, 0, 32, .rwh, 0⟩,
   ⟨0x090, 16, 32, 0, 32, .rwh, 0⟩,
   ⟨0x094, 16, 32, 0, 32, .rwh, 0⟩] ++
  [⟨0x098, 16, 32, 0, 32, .rwh, 0⟩,
   ⟨0x09C, 16, 32, 0, 32, .rwh, 0⟩]

end Reg.LANEFE

namespace Reg.DETECT

def WINDOW : Fld := ⟨0x040, 8, 6⟩
def THRESH : Fld := ⟨0x040, 0, 4⟩
def G1 (i : Nat) : Fld := ⟨0x060 + 8 * i, 16, 12⟩
def G2 (i : Nat) : Fld := ⟨0x060 + 8 * i, 0, 12⟩
def G3 (i : Nat) : Fld := ⟨0x064 + 8 * i, 16, 12⟩
def NP (i : Nat) : Fld := ⟨0x064 + 8 * i, 0, 1⟩
def BUFFERS : Fld := ⟨0x090, 4, 5⟩
def ACTIVE : Fld := ⟨0x090, 0, 1⟩
def SEG_DROP : Fld := ⟨0x094, 2, 1⟩
def SYNC_LOST : Fld := ⟨0x094, 1, 1⟩
def HDR_FAIL : Fld := ⟨0x094, 0, 1⟩
def SPOKE_SYNC : Fld := ⟨0x098, 16, 1⟩
def HUNTING : Fld := ⟨0x098, 8, 7⟩
def LOCKED : Fld := ⟨0x098, 0, 7⟩
def DROPOUTS : Fld := ⟨0x09C, 0, 32⟩
def LANE : Fld := ⟨0x0A0, 0, 6⟩
def SKEW : Fld := ⟨0x0A4, 0, 11⟩
def ENTRY : Fld := ⟨0x0B0, 24, 4⟩
def WORD : Fld := ⟨0x0B0, 0, 9⟩
def MAP_DATA : Fld := ⟨0x0B4, 0, 32⟩
def VERIFY : Fld := ⟨0x0B8, 1, 1⟩
def ENABLE : Fld := ⟨0x0B8, 0, 1⟩
def GAIN_RISE : Fld := ⟨0x0BC, 8, 8⟩
def SNR_FLOOR : Fld := ⟨0x0BC, 0, 8⟩

/-- The field table of the page type (R230). -/
def rows : List Row :=
  [⟨0x040, 1, 0, 8, 6, .rw, 0x18⟩,
   ⟨0x040, 1, 0, 0, 4, .rw, 6⟩,
   ⟨0x060, 1, 0, 16, 12, .rw, 768⟩,
   ⟨0x068, 1, 0, 16, 12, .rw, 1024⟩,
   ⟨0x070, 1, 0, 16, 12, .rw, 512⟩,
   ⟨0x078, 1, 0, 16, 12, .rw, 1024⟩,
   ⟨0x060, 1, 0, 0, 12, .rw, 128⟩,
   ⟨0x068, 1, 0, 0, 12, .rw, 0⟩,
   ⟨0x070, 1, 0, 0, 12, .rw, 3840⟩,
   ⟨0x078, 1, 0, 0, 12, .rw, 3072⟩,
   ⟨0x064, 1, 0, 16, 12, .rw, 3968⟩,
   ⟨0x06C, 1, 0, 16, 12, .rw, 0⟩,
   ⟨0x074, 1, 0, 16, 12, .rw, 3840⟩,
   ⟨0x07C, 1, 0, 16, 12, .rw, 3072⟩,
   ⟨0x064, 1, 0, 0, 1, .rw, 1⟩,
   ⟨0x06C, 1, 0, 0, 1, .rw, 0⟩,
   ⟨0x074, 1, 0, 0, 1, .rw, 1⟩,
   ⟨0x07C, 1, 0, 0, 1, .rw, 0⟩,
   ⟨0x090, 1, 0, 4, 5, .ro, 0⟩,
   ⟨0x090, 1, 0, 0, 1, .ro, 0⟩,
   ⟨0x094, 1, 0, 2, 1, .w1c, 0⟩,
   ⟨0x094, 1, 0, 1, 1, .w1c, 0⟩,
   ⟨0x094, 1, 0, 0, 1, .w1c, 0⟩,
   ⟨0x098, 1, 0, 16, 1, .ro, 0⟩] ++
  [⟨0x098, 1, 0, 8, 7, .ro, 0⟩,
   ⟨0x098, 1, 0, 0, 7, .ro, 0⟩,
   ⟨0x09C, 1, 0, 0, 32, .rwh, 0⟩,
   ⟨0x0A0, 1, 0, 0, 6, .rw, 0⟩,
   ⟨0x0A4, 1, 0, 0, 11, .ro, 0⟩,
   ⟨0x0B0, 1, 0, 24, 4, .rw, 0⟩,
   ⟨0x0B0, 1, 0, 0, 9, .rw, 0⟩,
   ⟨0x0B4, 1, 0, 0, 32, .ro, 0⟩,
   ⟨0x0B8, 1, 0, 1, 1, .rw, 0⟩,
   ⟨0x0B8, 1, 0, 0, 1, .rw, 1⟩,
   ⟨0x0BC, 1, 0, 8, 8, .rw, 0x18⟩,
   ⟨0x0BC, 1, 0, 0, 8, .rw, 0x28⟩]

end Reg.DETECT

namespace Reg.DECODE

def INLINE_ITERS : Fld := ⟨0x040, 0, 8⟩
def ACTIVE : Fld := ⟨0x044, 8, 1⟩
def LAST_ITERS : Fld := ⟨0x044, 0, 8⟩
def SEGS_DECODED : Fld := ⟨0x048, 0, 32⟩
def CONV_CNT : Fld := ⟨0x04C, 0, 32⟩
def NONCONV_CNT : Fld := ⟨0x050, 0, 32⟩
def ITER_SUM : Fld := ⟨0x054, 0, 32⟩
def ABANDONED : Fld := ⟨0x058, 1, 1⟩
def NONCONV : Fld := ⟨0x058, 0, 1⟩

/-- The field table of the page type (R231). -/
def rows : List Row :=
  [⟨0x040, 1, 0, 0, 8, .rw, 0xc⟩,
   ⟨0x044, 1, 0, 8, 1, .ro, 0⟩,
   ⟨0x044, 1, 0, 0, 8, .ro, 0⟩,
   ⟨0x048, 1, 0, 0, 32, .rwh, 0⟩,
   ⟨0x04C, 1, 0, 0, 32, .rwh, 0⟩,
   ⟨0x050, 1, 0, 0, 32, .rwh, 0⟩,
   ⟨0x054, 1, 0, 0, 32, .rwh, 0⟩,
   ⟨0x058, 1, 0, 1, 1, .w1c, 0⟩,
   ⟨0x058, 1, 0, 0, 1, .w1c, 0⟩]

end Reg.DECODE

namespace Reg.VERIFY

def LLR_FLOOR : Fld := ⟨0x040, 8, 8⟩
def ITERS_LIMIT : Fld := ⟨0x040, 0, 8⟩
def RELEASE_HEADROOM : Fld := ⟨0x044, 0, 8⟩
def SEG_PASS : Fld := ⟨0x048, 0, 32⟩
def SEG_LOW : Fld := ⟨0x04C, 0, 32⟩
def SEG_FAIL : Fld := ⟨0x050, 0, 32⟩
def SHEETS_SETTLED : Fld := ⟨0x054, 0, 32⟩
def VFY_SHEET : Fld := ⟨0x058, 0, 32⟩
def SETTLED : Fld := ⟨0x05C, 8, 1⟩
def OFF5C_HEADROOM : Fld := ⟨0x05C, 0, 8⟩
def DROPPED : Fld := ⟨0x060, 2, 1⟩
def UNSETTLED : Fld := ⟨0x060, 1, 1⟩
def SEG_FAIL_EVT : Fld := ⟨0x060, 0, 1⟩
def CH_FAIL_3 (i : Nat) : Fld := ⟨0x080 + 4 * i, 24, 8⟩
def CH_FAIL_2 (i : Nat) : Fld := ⟨0x080 + 4 * i, 16, 8⟩
def CH_FAIL_1 (i : Nat) : Fld := ⟨0x080 + 4 * i, 8, 8⟩
def CH_FAIL_0 (i : Nat) : Fld := ⟨0x080 + 4 * i, 0, 8⟩
def SUSPECT_ITERS : Fld := ⟨0x200, 8, 8⟩
def ERR_LIMIT : Fld := ⟨0x200, 0, 8⟩
def C2_LAST_SHEET : Fld := ⟨0x204, 0, 32⟩
def FAILED_CW : Fld := ⟨0x208, 20, 12⟩
def ERASED_ROWS : Fld := ⟨0x208, 8, 12⟩
def OFF208_HEADROOM : Fld := ⟨0x208, 0, 8⟩
def MAX_ERRORS : Fld := ⟨0x20C, 0, 8⟩
def C2_SHEETS : Fld := ⟨0x210, 0, 32⟩
def C2_FAILED_SHEETS : Fld := ⟨0x214, 0, 32⟩
def C1_MISCORR_ROWS : Fld := ⟨0x218, 0, 32⟩
def C3_RECON : Fld := ⟨0x21C, 0, 32⟩
def C3_FAILED : Fld := ⟨0x220, 0, 32⟩
def C3_FAIL : Fld := ⟨0x224, 3, 1⟩
def C3_DONE : Fld := ⟨0x224, 2, 1⟩
def C1_MISCORR : Fld := ⟨0x224, 1, 1⟩
def C2_FAIL : Fld := ⟨0x224, 0, 1⟩

/-- The field table of the page type (R102, R164). -/
def rows : List Row :=
  [⟨0x040, 1, 0, 8, 8, .rw, 0x18⟩,
   ⟨0x040, 1, 0, 0, 8, .rw, 6⟩,
   ⟨0x044, 1, 0, 0, 8, .rw, 0x40⟩,
   ⟨0x048, 1, 0, 0, 32, .rwh, 0⟩,
   ⟨0x04C, 1, 0, 0, 32, .rwh, 0⟩,
   ⟨0x050, 1, 0, 0, 32, .rwh, 0⟩,
   ⟨0x054, 1, 0, 0, 32, .rwh, 0⟩,
   ⟨0x058, 1, 0, 0, 32, .ro, 0⟩,
   ⟨0x05C, 1, 0, 8, 1, .ro, 0⟩,
   ⟨0x05C, 1, 0, 0, 8, .ro, 0⟩,
   ⟨0x060, 1, 0, 2, 1, .w1c, 0⟩,
   ⟨0x060, 1, 0, 1, 1, .w1c, 0⟩,
   ⟨0x060, 1, 0, 0, 1, .w1c, 0⟩,
   ⟨0x080, 16, 4, 24, 8, .rwh, 0⟩,
   ⟨0x080, 16, 4, 16, 8, .rwh, 0⟩,
   ⟨0x080, 16, 4, 8, 8, .rwh, 0⟩,
   ⟨0x080, 16, 4, 0, 8, .rwh, 0⟩,
   ⟨0x200, 1, 0, 8, 8, .rw, 0xa⟩,
   ⟨0x200, 1, 0, 0, 8, .rw, 0x50⟩,
   ⟨0x204, 1, 0, 0, 32, .ro, 0⟩,
   ⟨0x208, 1, 0, 20, 12, .ro, 0⟩,
   ⟨0x208, 1, 0, 8, 12, .ro, 0⟩,
   ⟨0x208, 1, 0, 0, 8, .ro, 0⟩,
   ⟨0x20C, 1, 0, 0, 8, .ro, 0⟩] ++
  [⟨0x210, 1, 0, 0, 32, .rwh, 0⟩,
   ⟨0x214, 1, 0, 0, 32, .rwh, 0⟩,
   ⟨0x218, 1, 0, 0, 32, .rwh, 0⟩,
   ⟨0x21C, 1, 0, 0, 32, .rwh, 0⟩,
   ⟨0x220, 1, 0, 0, 32, .rwh, 0⟩,
   ⟨0x224, 1, 0, 3, 1, .w1c, 0⟩,
   ⟨0x224, 1, 0, 2, 1, .w1c, 0⟩,
   ⟨0x224, 1, 0, 1, 1, .w1c, 0⟩,
   ⟨0x224, 1, 0, 0, 1, .w1c, 0⟩]

end Reg.VERIFY

namespace Reg.WRITER

def PAD_MIN : Fld := ⟨0x040, 8, 4⟩
def DEAD_MAX : Fld := ⟨0x040, 4, 4⟩
def REWRITE_BUDGET : Fld := ⟨0x040, 0, 4⟩
def HALTED : Fld := ⟨0x044, 23, 1⟩
def INHIBIT : Fld := ⟨0x044, 22, 1⟩
def WRITING : Fld := ⟨0x044, 21, 1⟩
def BAND : Fld := ⟨0x044, 18, 3⟩
def DEAD_COUNT : Fld := ⟨0x044, 0, 7⟩
def CAUSE : Fld := ⟨0x048, 0, 3⟩
def HALT_SHEET : Fld := ⟨0x04C, 0, 32⟩
def DEAD_MAP_LO : Fld := ⟨0x050, 0, 32⟩
def DEAD_MAP_HI : Fld := ⟨0x054, 0, 32⟩
def SEG_REWRITES : Fld := ⟨0x058, 0, 32⟩
def SHEET_COPIES : Fld := ⟨0x05C, 0, 32⟩
def CUT_SEGMENTS : Fld := ⟨0x060, 0, 32⟩
def PADDED_SHEETS : Fld := ⟨0x064, 0, 32⟩
def HEAD_TEMP_STALE : Fld := ⟨0x068, 6, 1⟩
def BAND_CHANGE : Fld := ⟨0x068, 5, 1⟩
def STARVE_STOP : Fld := ⟨0x068, 4, 1⟩
def HALT : Fld := ⟨0x068, 3, 1⟩
def COPY : Fld := ⟨0x068, 2, 1⟩
def DEAD_NEW : Fld := ⟨0x068, 1, 1⟩
def INHIBIT_EVT : Fld := ⟨0x068, 0, 1⟩
def ENTRIES : Fld := ⟨0x06C, 16, 12⟩
def INDEX_ROWS : Fld := ⟨0x06C, 0, 5⟩
def PACK_SHEET : Fld := ⟨0x070, 0, 32⟩
def COMMIT_SHEET : Fld := ⟨0x074, 0, 32⟩
def HEAD_TEMP : Fld := ⟨0x078, 0, 16⟩
def PRECOMP (i : Nat) : Fld := ⟨0x080 + 4 * i, 20, 6⟩
def OS_DUR (i : Nat) : Fld := ⟨0x080 + 4 * i, 16, 4⟩
def OS_AMP (i : Nat) : Fld := ⟨0x080 + 4 * i, 8, 8⟩
def WCUR (i : Nat) : Fld := ⟨0x080 + 4 * i, 0, 8⟩
def WM_HIGH : Fld := ⟨0x0C0, 16, 16⟩
def WM_LOW : Fld := ⟨0x0C0, 0, 16⟩
def BELOW_LOW : Fld := ⟨0x0C4, 17, 1⟩
def PACE : Fld := ⟨0x0C4, 16, 1⟩
def FILL_MIB : Fld := ⟨0x0C4, 0, 16⟩
def LOW_CROSS : Fld := ⟨0x0C8, 1, 1⟩
def HIGH_CROSS : Fld := ⟨0x0C8, 0, 1⟩
def C3_BLOCK : Fld := ⟨0x200, 0, 25⟩
def DAMAGED_REAMS : Fld := ⟨0x204, 8, 4⟩
def PARITY_PHASE : Fld := ⟨0x204, 7, 1⟩
def NEXT_POS : Fld := ⟨0x204, 0, 7⟩
def C2ENC_CNT : Fld := ⟨0x208, 0, 32⟩
def ACC_UNCORR : Fld := ⟨0x20C, 1, 1⟩
def BLOCK_CLOSED : Fld := ⟨0x20C, 0, 1⟩
def DAMAGE_BLOCK : Fld := ⟨0x210, 2, 25⟩
def DAMAGE_REAM : Fld := ⟨0x210, 0, 2⟩

/-- The field table of the page type (R101, R163, R51). -/
def rows : List Row :=
  [⟨0x040, 1, 0, 8, 4, .rw, 2⟩,
   ⟨0x040, 1, 0, 4, 4, .rw, 2⟩,
   ⟨0x040, 1, 0, 0, 4, .rw, 4⟩,
   ⟨0x044, 1, 0, 23, 1, .ro, 0⟩,
   ⟨0x044, 1, 0, 22, 1, .ro, 0⟩,
   ⟨0x044, 1, 0, 21, 1, .ro, 0⟩,
   ⟨0x044, 1, 0, 18, 3, .ro, 3⟩,
   ⟨0x044, 1, 0, 0, 7, .ro, 0⟩,
   ⟨0x048, 1, 0, 0, 3, .ro, 0⟩,
   ⟨0x04C, 1, 0, 0, 32, .ro, 0⟩,
   ⟨0x050, 1, 0, 0, 32, .w1c, 0⟩,
   ⟨0x054, 1, 0, 0, 32, .w1c, 0⟩,
   ⟨0x058, 1, 0, 0, 32, .rwh, 0⟩,
   ⟨0x05C, 1, 0, 0, 32, .rwh, 0⟩,
   ⟨0x060, 1, 0, 0, 32, .rwh, 0⟩,
   ⟨0x064, 1, 0, 0, 32, .rwh, 0⟩,
   ⟨0x068, 1, 0, 6, 1, .w1c, 0⟩,
   ⟨0x068, 1, 0, 5, 1, .w1c, 0⟩,
   ⟨0x068, 1, 0, 4, 1, .w1c, 0⟩,
   ⟨0x068, 1, 0, 3, 1, .w1c, 0⟩,
   ⟨0x068, 1, 0, 2, 1, .w1c, 0⟩,
   ⟨0x068, 1, 0, 1, 1, .w1c, 0⟩,
   ⟨0x068, 1, 0, 0, 1, .w1c, 0⟩,
   ⟨0x06C, 1, 0, 16, 12, .ro, 0⟩] ++
  [⟨0x06C, 1, 0, 0, 5, .ro, 2⟩,
   ⟨0x070, 1, 0, 0, 32, .ro, 0⟩,
   ⟨0x074, 1, 0, 0, 32, .ro, 0xffffffff⟩,
   ⟨0x078, 1, 0, 0, 16, .ro, 0⟩,
   ⟨0x080, 1, 0, 20, 6, .rw, 10⟩,
   ⟨0x084, 1, 0, 20, 6, .rw, 10⟩,
   ⟨0x088, 1, 0, 20, 6, .rw, 9⟩,
   ⟨0x08C, 1, 0, 20, 6, .rw, 9⟩,
   ⟨0x090, 1, 0, 20, 6, .rw, 8⟩,
   ⟨0x094, 1, 0, 20, 6, .rw, 8⟩,
   ⟨0x098, 1, 0, 20, 6, .rw, 7⟩,
   ⟨0x09C, 1, 0, 20, 6, .rw, 7⟩,
   ⟨0x080, 1, 0, 16, 4, .rw, 6⟩,
   ⟨0x084, 1, 0, 16, 4, .rw, 6⟩,
   ⟨0x088, 1, 0, 16, 4, .rw, 6⟩,
   ⟨0x08C, 1, 0, 16, 4, .rw, 5⟩,
   ⟨0x090, 1, 0, 16, 4, .rw, 5⟩,
   ⟨0x094, 1, 0, 16, 4, .rw, 5⟩,
   ⟨0x098, 1, 0, 16, 4, .rw, 4⟩,
   ⟨0x09C, 1, 0, 16, 4, .rw, 4⟩,
   ⟨0x080, 1, 0, 8, 8, .rw, 24⟩,
   ⟨0x084, 1, 0, 8, 8, .rw, 24⟩,
   ⟨0x088, 1, 0, 8, 8, .rw, 22⟩,
   ⟨0x08C, 1, 0, 8, 8, .rw, 22⟩] ++
  [⟨0x090, 1, 0, 8, 8, .rw, 20⟩,
   ⟨0x094, 1, 0, 8, 8, .rw, 20⟩,
   ⟨0x098, 1, 0, 8, 8, .rw, 18⟩,
   ⟨0x09C, 1, 0, 8, 8, .rw, 18⟩,
   ⟨0x080, 1, 0, 0, 8, .rw, 128⟩,
   ⟨0x084, 1, 0, 0, 8, .rw, 124⟩,
   ⟨0x088, 1, 0, 0, 8, .rw, 120⟩,
   ⟨0x08C, 1, 0, 0, 8, .rw, 116⟩,
   ⟨0x090, 1, 0, 0, 8, .rw, 113⟩,
   ⟨0x094, 1, 0, 0, 8, .rw, 110⟩,
   ⟨0x098, 1, 0, 0, 8, .rw, 106⟩,
   ⟨0x09C, 1, 0, 0, 8, .rw, 102⟩,
   ⟨0x0C0, 1, 0, 16, 16, .rw, 0x800⟩,
   ⟨0x0C0, 1, 0, 0, 16, .rw, 0x200⟩,
   ⟨0x0C4, 1, 0, 17, 1, .ro, 1⟩,
   ⟨0x0C4, 1, 0, 16, 1, .ro, 0⟩,
   ⟨0x0C4, 1, 0, 0, 16, .ro, 0⟩,
   ⟨0x0C8, 1, 0, 1, 1, .w1c, 0⟩,
   ⟨0x0C8, 1, 0, 0, 1, .w1c, 0⟩,
   ⟨0x200, 1, 0, 0, 25, .ro, 0⟩,
   ⟨0x204, 1, 0, 8, 4, .ro, 0⟩,
   ⟨0x204, 1, 0, 7, 1, .ro, 0⟩,
   ⟨0x204, 1, 0, 0, 7, .ro, 0⟩,
   ⟨0x208, 1, 0, 0, 32, .rwh, 0⟩] ++
  [⟨0x20C, 1, 0, 1, 1, .w1c, 0⟩,
   ⟨0x20C, 1, 0, 0, 1, .w1c, 0⟩,
   ⟨0x210, 1, 0, 2, 25, .ro, 0⟩,
   ⟨0x210, 1, 0, 0, 2, .ro, 0⟩]

end Reg.WRITER

namespace Reg.SERVO

def CROSSOVER_HZ : Fld := ⟨0x040, 16, 11⟩
def LEAD_RATIO : Fld := ⟨0x040, 8, 8⟩
def INT_CORNER : Fld := ⟨0x040, 0, 8⟩
def NOTCH0_FREQ : Fld := ⟨0x044, 8, 12⟩
def NOTCH0_Q : Fld := ⟨0x044, 0, 8⟩
def NOTCH1_FREQ : Fld := ⟨0x048, 8, 12⟩
def NOTCH1_Q : Fld := ⟨0x048, 0, 8⟩
def TF_OFFSET : Fld := ⟨0x04C, 0, 8⟩
def VALID : Fld := ⟨0x050, 31, 1⟩
def READERS : Fld := ⟨0x050, 16, 4⟩
def PES : Fld := ⟨0x050, 0, 16⟩
def PES_RMS : Fld := ⟨0x054, 0, 16⟩
def TPW_LO : Fld := ⟨0x058, 0, 32⟩
def TPW_HI : Fld := ⟨0x05C, 0, 4⟩
def VEL : Fld := ⟨0x060, 0, 16⟩
def TW_ERR : Fld := ⟨0x064, 0, 16⟩
def TRIM (i : Nat) : Fld := ⟨0x068 + 4 * i, 0, 16⟩
def WORD_CRC : Fld := ⟨0x078, 4, 1⟩
def LOST : Fld := ⟨0x078, 3, 1⟩
def INVALID : Fld := ⟨0x078, 2, 1⟩
def PES_OVER : Fld := ⟨0x078, 1, 1⟩
def BAND_MISMATCH : Fld := ⟨0x078, 0, 1⟩
def PES_OVER_CNT : Fld := ⟨0x07C, 0, 32⟩

/-- The field table of the page type (R198). -/
def rows : List Row :=
  [⟨0x040, 1, 0, 16, 11, .rw, 0x258⟩,
   ⟨0x040, 1, 0, 8, 8, .rw, 0x60⟩,
   ⟨0x040, 1, 0, 0, 8, .rw, 0x14⟩,
   ⟨0x044, 1, 0, 8, 12, .rw, 0⟩,
   ⟨0x044, 1, 0, 0, 8, .rw, 0x10⟩,
   ⟨0x048, 1, 0, 8, 12, .rw, 0⟩,
   ⟨0x048, 1, 0, 0, 8, .rw, 0x10⟩,
   ⟨0x04C, 1, 0, 0, 8, .rw, 0⟩,
   ⟨0x050, 1, 0, 31, 1, .ro, 0⟩,
   ⟨0x050, 1, 0, 16, 4, .ro, 0⟩,
   ⟨0x050, 1, 0, 0, 16, .ro, 0⟩,
   ⟨0x054, 1, 0, 0, 16, .ro, 0⟩,
   ⟨0x058, 1, 0, 0, 32, .ro, 0⟩,
   ⟨0x05C, 1, 0, 0, 4, .ro, 0⟩,
   ⟨0x060, 1, 0, 0, 16, .ro, 0⟩,
   ⟨0x064, 1, 0, 0, 16, .ro, 0⟩,
   ⟨0x068, 4, 4, 0, 16, .rwh, 0⟩,
   ⟨0x078, 1, 0, 4, 1, .w1c, 0⟩,
   ⟨0x078, 1, 0, 3, 1, .w1c, 0⟩,
   ⟨0x078, 1, 0, 2, 1, .w1c, 0⟩,
   ⟨0x078, 1, 0, 1, 1, .w1c, 0⟩,
   ⟨0x078, 1, 0, 0, 1, .w1c, 0⟩,
   ⟨0x07C, 1, 0, 0, 32, .rwh, 0⟩]

end Reg.SERVO

namespace Reg.MOTION

def TENSION_SET : Fld := ⟨0x040, 0, 11⟩
def STATE : Fld := ⟨0x044, 29, 3⟩
def DIR : Fld := ⟨0x044, 28, 1⟩
def TENSION : Fld := ⟨0x044, 0, 11⟩
def SUPPLY_R : Fld := ⟨0x048, 16, 16⟩
def TAKEUP_R : Fld := ⟨0x048, 0, 16⟩
def TAPE_TEMP : Fld := ⟨0x04C, 16, 16⟩
def RH : Fld := ⟨0x04C, 0, 16⟩
def ENV_HOLD : Fld := ⟨0x050, 1, 1⟩
def ENV_OK : Fld := ⟨0x050, 0, 1⟩
def REFUSE : Fld := ⟨0x054, 16, 8⟩
def CM_DAMAGE : Fld := ⟨0x054, 8, 2⟩
def PHASE : Fld := ⟨0x054, 4, 4⟩
def CART_STATE : Fld := ⟨0x054, 0, 4⟩
def TENSION_FAULT : Fld := ⟨0x058, 5, 1⟩
def CTRL_STOP : Fld := ⟨0x058, 4, 1⟩
def ENV_OUT : Fld := ⟨0x058, 3, 1⟩
def LOAD_DONE : Fld := ⟨0x058, 2, 1⟩
def REFUSED : Fld := ⟨0x058, 1, 1⟩
def REPOSITION : Fld := ⟨0x058, 0, 1⟩
def TENSION_FAULTS : Fld := ⟨0x05C, 0, 32⟩
def REPOSITIONS : Fld := ⟨0x060, 0, 32⟩

/-- The field table of the page type (R199). -/
def rows : List Row :=
  [⟨0x040, 1, 0, 0, 11, .rwh, 0x352⟩,
   ⟨0x044, 1, 0, 29, 3, .ro, 0⟩,
   ⟨0x044, 1, 0, 28, 1, .ro, 1⟩,
   ⟨0x044, 1, 0, 0, 11, .ro, 0⟩,
   ⟨0x048, 1, 0, 16, 16, .ro, 0⟩,
   ⟨0x048, 1, 0, 0, 16, .ro, 0⟩,
   ⟨0x04C, 1, 0, 16, 16, .ro, 0⟩,
   ⟨0x04C, 1, 0, 0, 16, .ro, 0⟩,
   ⟨0x050, 1, 0, 1, 1, .ro, 0⟩,
   ⟨0x050, 1, 0, 0, 1, .ro, 0⟩,
   ⟨0x054, 1, 0, 16, 8, .ro, 0⟩,
   ⟨0x054, 1, 0, 8, 2, .ro, 0⟩,
   ⟨0x054, 1, 0, 4, 4, .ro, 0⟩,
   ⟨0x054, 1, 0, 0, 4, .ro, 0⟩,
   ⟨0x058, 1, 0, 5, 1, .w1c, 0⟩,
   ⟨0x058, 1, 0, 4, 1, .w1c, 0⟩,
   ⟨0x058, 1, 0, 3, 1, .w1c, 0⟩,
   ⟨0x058, 1, 0, 2, 1, .w1c, 0⟩,
   ⟨0x058, 1, 0, 1, 1, .w1c, 0⟩,
   ⟨0x058, 1, 0, 0, 1, .w1c, 0⟩,
   ⟨0x05C, 1, 0, 0, 32, .rwh, 0⟩,
   ⟨0x060, 1, 0, 0, 32, .rwh, 0⟩]

end Reg.MOTION

namespace Reg.DERAILLEUR

def COG_LIMIT : Fld := ⟨0x040, 16, 4⟩
def COG_REQ : Fld := ⟨0x040, 12, 4⟩
def SHIFT_DWELL : Fld := ⟨0x040, 0, 12⟩
def RA_HIGH : Fld := ⟨0x044, 16, 16⟩
def RA_LOW : Fld := ⟨0x044, 0, 16⟩
def RA_LIMIT : Fld := ⟨0x048, 0, 16⟩
def CUR_COG : Fld := ⟨0x04C, 28, 4⟩
def TARGET_COG : Fld := ⟨0x04C, 24, 4⟩
def CAP_COG : Fld := ⟨0x04C, 20, 4⟩
def THROTTLE_COG : Fld := ⟨0x04C, 16, 4⟩
def TILE_COG : Fld := ⟨0x04C, 12, 4⟩
def SHIFTING : Fld := ⟨0x04C, 11, 1⟩
def DWELL : Fld := ⟨0x04C, 10, 1⟩
def RA_FILL_MIB : Fld := ⟨0x050, 0, 16⟩
def SHIFTS : Fld := ⟨0x054, 0, 32⟩
def CAP_DROP : Fld := ⟨0x058, 3, 1⟩
def DOWNSHIFT : Fld := ⟨0x058, 2, 1⟩
def UPSHIFT : Fld := ⟨0x058, 1, 1⟩
def READ_STOP : Fld := ⟨0x058, 0, 1⟩

/-- The field table of the page type (R200). -/
def rows : List Row :=
  [⟨0x040, 1, 0, 16, 4, .rw, 1⟩,
   ⟨0x040, 1, 0, 12, 4, .rw, 1⟩,
   ⟨0x040, 1, 0, 0, 12, .rw, 0x1f4⟩,
   ⟨0x044, 1, 0, 16, 16, .rw, 0x400⟩,
   ⟨0x044, 1, 0, 0, 16, .rw, 0x100⟩,
   ⟨0x048, 1, 0, 0, 16, .rw, 0x1000⟩,
   ⟨0x04C, 1, 0, 28, 4, .ro, 0⟩,
   ⟨0x04C, 1, 0, 24, 4, .ro, 0⟩,
   ⟨0x04C, 1, 0, 20, 4, .ro, 1⟩,
   ⟨0x04C, 1, 0, 16, 4, .ro, 1⟩,
   ⟨0x04C, 1, 0, 12, 4, .ro, 1⟩,
   ⟨0x04C, 1, 0, 11, 1, .ro, 0⟩,
   ⟨0x04C, 1, 0, 10, 1, .ro, 0⟩,
   ⟨0x050, 1, 0, 0, 16, .ro, 0⟩,
   ⟨0x054, 1, 0, 0, 32, .rwh, 0⟩,
   ⟨0x058, 1, 0, 3, 1, .w1c, 0⟩,
   ⟨0x058, 1, 0, 2, 1, .w1c, 0⟩,
   ⟨0x058, 1, 0, 1, 1, .w1c, 0⟩,
   ⟨0x058, 1, 0, 0, 1, .w1c, 0⟩]

end Reg.DERAILLEUR

namespace Reg.SAMPLEHOLD

def C3_MODE : Fld := ⟨0x040, 16, 1⟩
def RUNG_EN : Fld := ⟨0x040, 0, 10⟩
def REHUNT_SPAN : Fld := ⟨0x044, 16, 3⟩
def ALT_ITERS : Fld := ⟨0x044, 8, 8⟩
def REPLAY_ITERS : Fld := ⟨0x044, 0, 8⟩
def RELAX_LLR : Fld := ⟨0x048, 24, 8⟩
def OFFSETS : Fld := ⟨0x048, 16, 4⟩
def LOW_COG : Fld := ⟨0x048, 12, 4⟩
def LOW_TRIES : Fld := ⟨0x048, 8, 2⟩
def REREAD_TRIES : Fld := ⟨0x048, 0, 2⟩
def HOST_WAIT : Fld := ⟨0x04C, 16, 16⟩
def LADDER_BUDGET : Fld := ⟨0x04C, 0, 16⟩
def ACTIVE : Fld := ⟨0x050, 31, 1⟩
def WAIT_HOST : Fld := ⟨0x050, 30, 1⟩
def RAW_HELD : Fld := ⟨0x050, 29, 1⟩
def RUNG : Fld := ⟨0x050, 20, 4⟩
def PART : Fld := ⟨0x050, 16, 2⟩
def QUEUED : Fld := ⟨0x050, 0, 8⟩
def LADDER_SHEET : Fld := ⟨0x054, 0, 32⟩
def PINNED : Fld := ⟨0x058, 16, 6⟩
def HELD : Fld := ⟨0x058, 0, 6⟩
def GO : Fld := ⟨0x05C, 4, 1⟩
def NEXT : Fld := ⟨0x05C, 0, 4⟩
def C3_NOBUF : Fld := ⟨0x060, 6, 1⟩
def HOLD_FULL : Fld := ⟨0x060, 5, 1⟩
def WAIT_HOST_EVT : Fld := ⟨0x060, 4, 1⟩
def RAW_READY : Fld := ⟨0x060, 3, 1⟩
def UNREADABLE : Fld := ⟨0x060, 2, 1⟩
def RESOLVED : Fld := ⟨0x060, 1, 1⟩
def ENTERED : Fld := ⟨0x060, 0, 1⟩
def UNREAD_SHEETS : Fld := ⟨0x064, 0, 32⟩
def HOLD_MISSED : Fld := ⟨0x068, 0, 32⟩
def LAST_UNREAD : Fld := ⟨0x06C, 0, 32⟩
def RESOLVED_RUNG_k (i : Nat) : Fld := ⟨0x070 + 4 * i, 0, 32⟩
def RAW_DELIVERED : Fld := ⟨0x090, 0, 32⟩
def LOST_OBJ_LO : Fld := ⟨0x094, 0, 32⟩
def LOST_OBJ_HI : Fld := ⟨0x098, 0, 16⟩
def RECORD : Fld := ⟨0x0A0, 16, 5⟩
def WORD : Fld := ⟨0x0A0, 0, 14⟩
def CAP_DATA : Fld := ⟨0x0A4, 0, 32⟩

/-- The field table of the page type (R248). -/
def rows : List Row :=
  [⟨0x040, 1, 0, 16, 1, .rw, 0⟩,
   ⟨0x040, 1, 0, 0, 10, .rw, 0x3ff⟩,
   ⟨0x044, 1, 0, 16, 3, .rw, 4⟩,
   ⟨0x044, 1, 0, 8, 8, .rw, 0x28⟩,
   ⟨0x044, 1, 0, 0, 8, .rw, 0x28⟩,
   ⟨0x048, 1, 0, 24, 8, .rw, 0x40⟩,
   ⟨0x048, 1, 0, 16, 4, .rw, 0xf⟩,
   ⟨0x048, 1, 0, 12, 4, .rw, 8⟩,
   ⟨0x048, 1, 0, 8, 2, .rw, 3⟩,
   ⟨0x048, 1, 0, 0, 2, .rw, 2⟩,
   ⟨0x04C, 1, 0, 16, 16, .rw, 0⟩,
   ⟨0x04C, 1, 0, 0, 16, .rw, 0x258⟩,
   ⟨0x050, 1, 0, 31, 1, .ro, 0⟩,
   ⟨0x050, 1, 0, 30, 1, .ro, 0⟩,
   ⟨0x050, 1, 0, 29, 1, .ro, 0⟩,
   ⟨0x050, 1, 0, 20, 4, .ro, 0⟩,
   ⟨0x050, 1, 0, 16, 2, .ro, 0⟩,
   ⟨0x050, 1, 0, 0, 8, .ro, 0⟩,
   ⟨0x054, 1, 0, 0, 32, .ro, 0⟩,
   ⟨0x058, 1, 0, 16, 6, .ro, 0⟩,
   ⟨0x058, 1, 0, 0, 6, .ro, 0⟩,
   ⟨0x05C, 1, 0, 4, 1, .w1p, 0⟩,
   ⟨0x05C, 1, 0, 0, 4, .wo, 0⟩,
   ⟨0x060, 1, 0, 6, 1, .w1c, 0⟩] ++
  [⟨0x060, 1, 0, 5, 1, .w1c, 0⟩,
   ⟨0x060, 1, 0, 4, 1, .w1c, 0⟩,
   ⟨0x060, 1, 0, 3, 1, .w1c, 0⟩,
   ⟨0x060, 1, 0, 2, 1, .w1c, 0⟩,
   ⟨0x060, 1, 0, 1, 1, .w1c, 0⟩,
   ⟨0x060, 1, 0, 0, 1, .w1c, 0⟩,
   ⟨0x064, 1, 0, 0, 32, .rwh, 0⟩,
   ⟨0x068, 1, 0, 0, 32, .rwh, 0⟩,
   ⟨0x06C, 1, 0, 0, 32, .ro, 0xffffffff⟩,
   ⟨0x070, 8, 4, 0, 32, .rwh, 0⟩,
   ⟨0x090, 1, 0, 0, 32, .rwh, 0⟩,
   ⟨0x094, 1, 0, 0, 32, .ro, 0⟩,
   ⟨0x098, 1, 0, 0, 16, .ro, 0⟩,
   ⟨0x0A0, 1, 0, 16, 5, .rw, 0⟩,
   ⟨0x0A0, 1, 0, 0, 14, .rw, 0⟩,
   ⟨0x0A4, 1, 0, 0, 32, .ro, 0⟩]

end Reg.SAMPLEHOLD

namespace Reg.LINK

def SILENT : Fld := ⟨0x040, 3, 1⟩
def ECHO_LOST : Fld := ⟨0x040, 2, 1⟩
def CAD_ON : Fld := ⟨0x040, 1, 1⟩
def RX_LOCK : Fld := ⟨0x040, 0, 1⟩
def ECHO_DELAY : Fld := ⟨0x044, 0, 16⟩
def RX_FRAMES : Fld := ⟨0x048, 0, 32⟩
def RX_BAD : Fld := ⟨0x04C, 0, 32⟩
def TX_FRAMES : Fld := ⟨0x050, 0, 32⟩
def CM_RETRY : Fld := ⟨0x054, 0, 32⟩
def SILENT_EVT : Fld := ⟨0x058, 2, 1⟩
def ECHO_EVT : Fld := ⟨0x058, 1, 1⟩
def BAD_FRAME : Fld := ⟨0x058, 0, 1⟩

/-- The field table of the page type (R201). -/
def rows : List Row :=
  [⟨0x040, 1, 0, 3, 1, .ro, 0⟩,
   ⟨0x040, 1, 0, 2, 1, .ro, 0⟩,
   ⟨0x040, 1, 0, 1, 1, .ro, 0⟩,
   ⟨0x040, 1, 0, 0, 1, .ro, 0⟩,
   ⟨0x044, 1, 0, 0, 16, .ro, 0⟩,
   ⟨0x048, 1, 0, 0, 32, .rwh, 0⟩,
   ⟨0x04C, 1, 0, 0, 32, .rwh, 0⟩,
   ⟨0x050, 1, 0, 0, 32, .rwh, 0⟩,
   ⟨0x054, 1, 0, 0, 32, .rwh, 0⟩,
   ⟨0x058, 1, 0, 2, 1, .w1c, 0⟩,
   ⟨0x058, 1, 0, 1, 1, .w1c, 0⟩,
   ⟨0x058, 1, 0, 0, 1, .w1c, 0⟩]

end Reg.LINK

/-- The fields of a page type from offset 0x040 upward. -/
def PageTy.rows : PageTy → List Row
  | .IDENT => Reg.IDENT.rows
  | .FELT => Reg.FELT.rows
  | .THERMAL => Reg.THERMAL.rows
  | .POWER => Reg.POWER.rows
  | .TIMEBASE => Reg.TIMEBASE.rows
  | .MGMT => Reg.MGMT.rows
  | .KEYSTORE => Reg.KEYSTORE.rows
  | .PROTECT => Reg.PROTECT.rows
  | .ALARM => Reg.ALARM.rows
  | .BOOT => Reg.BOOT.rows
  | .RINGS => Reg.RINGS.rows
  | .DMA => Reg.DMA.rows
  | .PCIE => Reg.PCIE.rows
  | .MSIX => Reg.MSIX.rows
  | .COMP => Reg.COMP.rows
  | .DECOMP => Reg.DECOMP.rows
  | .CRYPT => Reg.CRYPT.rows
  | .MEMCTL => Reg.MEMCTL.rows
  | .POOL => Reg.POOL.rows
  | .VALIDMAP => Reg.VALIDMAP.rows
  | .LANEFE => Reg.LANEFE.rows
  | .DETECT => Reg.DETECT.rows
  | .DECODE => Reg.DECODE.rows
  | .VERIFY => Reg.VERIFY.rows
  | .WRITER => Reg.WRITER.rows
  | .SERVO => Reg.SERVO.rows
  | .MOTION => Reg.MOTION.rows
  | .DERAILLEUR => Reg.DERAILLEUR.rows
  | .SAMPLEHOLD => Reg.SAMPLEHOLD.rows
  | .LINK => Reg.LINK.rows

/-- Block page `p` of region index `x` is listed in the page index (R432) with this type and instance number. -/
def pageTy (x p : Nat) : Option (PageTy × Nat) :=
  if x = 0 then (if p = 0 then some (.IDENT, 0) else if p = 1 then some (.FELT, 0) else none)
  else if x = 1 then
    (if p = 0 then some (.THERMAL, 0) else if p = 1 then some (.POWER, 0) else if p = 2 then some (.TIMEBASE, 0)
     else if p < 7 then some (.MGMT, p - 3) else none)
  else if x = 2 then
    (if p = 0 then some (.KEYSTORE, 0) else if p = 1 then some (.PROTECT, 0) else if p = 2 then some (.ALARM, 0)
     else if p = 3 then some (.BOOT, 0) else none)
  else if x = 3 then
    (if p < 8 then some (.RINGS, p) else if p < 0xC then some (.DMA, p - 8) else if p < 0xE then some (.PCIE, p - 0xC)
     else if p < 0x10 then some (.MSIX, p - 0xE) else none)
  else if x = 4 then
    (if p < 0x11 then some (.COMP, p) else if p < 0x20 then none else if p < 0x31 then some (.DECOMP, p - 0x20)
     else if p < 0x40 then none else if p < 0x42 then some (.CRYPT, p - 0x40) else none)
  else if x = 5 then
    (if p < 4 then some (.MEMCTL, p) else if p = 4 then some (.POOL, 0) else if p = 5 then some (.VALIDMAP, 0) else none)
  else if 8 ≤ x ∧ x < 16 then
    (if p < 4 then some (.LANEFE, p) else if p < 0x10 then none else if p < 0x19 then some (.DETECT, p - 0x10)
     else if p < 0x20 then none else if p < 0x29 then some (.DECODE, p - 0x20) else if p < 0x30 then none
     else if p = 0x30 then some (.VERIFY, 0) else if p = 0x31 then some (.WRITER, 0) else if p = 0x32 then some (.SERVO, 0)
     else if p = 0x33 then some (.MOTION, 0) else if p = 0x34 then some (.DERAILLEUR, 0)
     else if p = 0x35 then some (.SAMPLEHOLD, 0) else if p = 0x36 then some (.LINK, 0) else none)
  else none

/-- A block page, numbered as the protection table numbers its PAGE entries (R345): region index × 256 + page. -/
abbrev PageId := Nat

/-- The type and instance of a block page; none for an absent page (R422). -/
def pageOf (pg : PageId) : Option (PageTy × Nat) := pageTy (pg / 256) (pg % 256)

/-- The field tables that apply to a page: the common header (R428), then the page type's own. -/
def pageRows (pg : PageId) : List Row :=
  match pageOf pg with
  | none => []
  | some (t, _) => Reg.HEADER.rows ++ t.rows

/-- The row of the field at (off, lo) of a list of rows. -/
def findRow (off lo : Nat) : List Row → Option Row
  | [] => none
  | r :: l => if r.holds off lo then some r else findRow off lo l

/-- What the field in slot `slot` of page `pg` holds at reset; 0 for a slot the tables do not name. -/
def fldReset (pg : PageId) (slot : Nat) : Nat :=
  match findRow (slot / 32) (slot % 32) (pageRows pg) with
  | none => 0
  | some r => r.rst

end Sys2Proof.Machine
end

