-- ==== Sys2Proof/Machine/State.lean ====
section
/-! DEFINITION. The state of the shelf formatter: plain data, holding everything the spec gives the block.

Every FIELD of every register page lives in `Dev.regs`, page by page (RegTab.lean names the fields); what the spec
describes beyond its registers (chains, gate FIFOs, sheets, rings, buffers, keys, cartridge memory requests, …) has a
structure of its own here. Sparse maps read as their default where they list nothing, so `State.reset` is small. -/

namespace Sys2Proof.Machine

/-! ### Stops -/

/-- Why a command stops the block: the undefined behaviours of R417 whose results lie in the transfer itself, so that nothing of the
command is left to carry out. Every one is SAFE: the manual gives no effect, so the model goes no further. -/
inductive Fault where
  /-- UB-1: a producer pushed a word while it held no credit (R36). Raised by CHAIN_PUSH and GATE_FIFO_WRITE. Safe. -/
  | pushWithoutCredit
  /-- UB-9: a doorbell write that moves an index backwards or past what its writer owns (R286). Raised by
  SQ_TAIL_DOORBELL and CQ_HEAD_DOORBELL. Safe. -/
  | doorbellOutOfRange
  deriving DecidableEq, Repr

/-- Why the model gives a command no meaning. -/
inductive Refusal where
  /-- The command has no meaning in the model yet; raised by `exec`'s refused arms only. Safe. -/
  | notModelled (mnemonic : String)
  deriving DecidableEq, Repr

/-! ### Chains and gate FIFOs (chapter 2) -/

/-- A chain (R31 to R45). `grant` is the grant in force since the chain's last reset, `grantReg` the value of
CH_CFG.GRANT. `latch` is a word the receiver has not acknowledged, with the copies already sent (R33): its credit is spent
when it is accepted. -/
structure Chain where
  depth : Nat
  grantReg : Nat
  grant : Nat
  cutThresh : Nat := 1
  /-- The words present, the consumer's end first; true marks the substitute word of R45. -/
  words : List (CoreWord × Bool) := []
  credits : Nat
  /-- Credits on their way back (R36). -/
  transit : Nat := 0
  /-- The producer has an item open. -/
  itemOpen : Bool := false
  /-- Where the search among the producing cells begins (R13), and the cell granted last, whose item is open. -/
  next : Nat := 0
  holder : Nat := 0
  latch : Option (CoreWord × Nat) := none
  /-- A pop waits (R42). -/
  popWaits : Bool := false
  /-- Words of the item at the consumer's end that the consumer has already popped (R38), and whether it has begun it. -/
  popped : Nat := 0
  begun : Bool := false
  /-- The region's substitute word waits for a credit (R45). -/
  closing : Bool := false
  flushBusy : Bool := false
  drain : Bool := false
  peak : Nat := 0
  flushDone : Bool := false
  drainSeen : Bool := false
  deriving DecidableEq, Repr

/-- A gate FIFO (R39 to R42). Pointers count modulo 64; `seen` are the two flip-flops, the one that is read first, of the
synchroniser that carries the self-timed side's pointer to the clocked side. -/
structure Gate where
  words : List CoreWord := []
  wptr : Nat := 0
  rptr : Nat := 0
  seen : Nat × Nat := (0, 0)
  /-- The word that a clocked writer holds for want of visible space (R41). -/
  held : Option CoreWord := none
  latch : Option (CoreWord × Nat) := none
  popWaits : Bool := false
  /-- Copies of the word at the output that the reader has received with bad parity (R33, R39). -/
  tries : Nat := 0
  /-- The reader has popped part of an item (R32). -/
  begun : Bool := false
  overrun : Bool := false
  deriving DecidableEq, Repr

/-! ### Commands of the rings (chapter 12) -/

/-- The opcode fields of a command (R314, R315). -/
inductive Op where
  | nop
  | write (more waitCommit anchorReq : Bool)
  | writeMark (waitCommit : Bool) (count : Nat)
  | sync
  | read (more : Bool)
  | locate (object part : Nat) (toEod : Bool) (hint : Nat)
  | space (count : Int) (unit : Nat)
  | readPosition
  | tapeStatus
  | closeSession
  | format (count : Nat) (wraps : List Nat)
  | unload
  | cancel
  | streamOpen (params : Nat)
  | streamSet (params : Nat)
  | streamClose
  | streamQuery
  | sheetWrite (content : List Byte)
  | sheetRead (source sheet mapAddr : Nat)
  | rawRelease
  | bufAlloc (size : Nat)
  | bufRef (handle : Nat)
  | bufRelease (handle : Nat)
  | bufLoad (handle offset : Nat) (data : List Byte)
  | bufStore (handle offset : Nat)
  | cmRead (offset : Nat)
  | cmWrite (offset : Nat) (data : List Byte)
  | takeover
  deriving DecidableEq, Repr

/-- A command as fetched: its header, its opcode fields and the domain of the function that its ring names. -/
structure Job where
  hdr : CmdHdr
  op : Op
  dom : Nat
  /-- The function of its ring when it was fetched (R300). -/
  fn : Nat := 0
  /-- Its place in the order of fetching. -/
  seq : Nat := 0
  /-- Host bytes that the command supplies: a record, a sheet. -/
  data : List Byte := []
  deriving DecidableEq, Repr

/-! ### Rings (chapter 11) -/

/-- A submission ring: the fields written (R300) and those latched at its last enable (R284). -/
structure Sq where
  wBaseLo : Nat := 0
  wBaseHi : Nat := 0
  wCq : Nat := 0
  wFunc : Nat := 0
  burst : Nat := 4
  creditReg : Nat := 0xFFF
  size : Nat := 0
  baseLo : Nat := 0
  baseHi : Nat := 0
  cq : Nat := 0
  func : Nat := 0
  head : Nat := 0
  tail : Nat := 0
  credits : Nat := 0
  outstanding : Nat := 0
  lastCid : Nat := 0
  bell : Nat := 0
  /-- Entries read by a fetch turn whose read has not completed (R289): the tail the turn sampled and its length. -/
  turns : List Nat := []
  /-- A command of this ring is held for want of a chest buffer, so fetching from the ring has stopped (R272). -/
  heldNobuf : Bool := false
  deriving DecidableEq, Repr

/-- A completion due (R292), before SQ_HEAD, CREDITS, P and TIMESTAMP are known. -/
structure Cpl where
  sq : Nat
  cid : Nat
  result : Nat
  residue : Nat
  status : Nat
  deriving DecidableEq, Repr

/-- A completion ring. -/
structure Cq where
  wBaseLo : Nat := 0
  wBaseHi : Nat := 0
  wFunc : Nat := 0
  irqEn : Bool := true
  vector : Nat := 0
  aggCount : Nat := 1
  aggTime : Nat := 0
  size : Nat := 0
  baseLo : Nat := 0
  baseHi : Nat := 0
  func : Nat := 0
  head : Nat := 0
  tail : Nat := 0
  phase : Bool := true
  pendingMsg : Nat := 0
  held : List Cpl := []
  bell : Nat := 0
  deriving DecidableEq, Repr

/-! ### What the block sends -/

/-- What leaves the block: completion entries, messages, data writes, control-link messages, write frames, read data
and management responses. `Dev.out` lists them, newest first. -/
inductive Out where
  | cplWrite (fn addr : Nat) (entry : List Byte)
  | msix (fn vector : Nat)
  | fetchRead (fn addr len : Nat)
  | dataRead (fn addr len : Nat)
  | dataWrite (fn addr : Nat) (relaxed : Bool) (data : List Byte)
  | ctl (n : Nat) (frame : List Byte)
  | frame (n lane : Nat) (blocks : List Nat)
  | readData (reader : Nat) (addr value : Nat)
  | unsupported (reader : Nat)
  | cfgReply (fn : Nat) (rrs : Bool)
  | spdm (code : Nat) (body : List Byte)
  | pldm (value : Int)
  | jtag (bits value : Nat)
  deriving DecidableEq, Repr

/-! ### A spoke's writing side (chapters 3, 4, 6) -/

/-- A verify verdict (R151). -/
inductive Verdict where
  | pass | low | fail | cut
  deriving DecidableEq, Repr

/-- A finished piece of an object's stored form in a chest buffer: handle, offset, stored bytes. -/
structure Piece where
  handle : Nat
  off : Nat
  len : Nat
  deriving DecidableEq, Repr

/-- An accepted object not yet wholly placed in sheets (R316, R135). -/
structure Obj where
  num : Nat
  mark : Bool
  stream : Nat
  anchor : Bool := false
  enc : Bool := false
  form : Nat := 0
  /-- The stored bytes not yet placed, in order. -/
  pieces : List Piece := []
  /-- The blocks of the stored form: (place of the header's first byte, IN_LEN) (R106). -/
  blocks : List (Nat × Nat) := []
  /-- Stored bytes already placed. -/
  done : Nat := 0
  /-- Every extent of the object has been finished by the press. -/
  ready : Bool := false
  /-- FIRST has been placed. -/
  begun : Bool := false
  charge : Nat := 16
  /-- Its plaintext was released by a zeroisation before it was encrypted (R371). -/
  dead : Bool := false
  /-- The sheet that holds its first entry, once placed. -/
  firstSheet : Nat := 0
  deriving DecidableEq, Repr

/-- An object wholly placed and not committed: its number, its stream, the first and last sheet that hold it. -/
structure Placed where
  num : Nat
  stream : Nat
  first : Nat
  last : Nat
  deriving DecidableEq, Repr

/-- A row as the sheet decoder holds it (R94, R95). -/
structure RowRec where
  converged : Bool
  suspect : Bool
  llr : Nat
  data : List Byte
  iters : Nat := 0
  freewheel : Bool := false
  altAlign : Bool := false
  gen : Nat := 0
  rwslot : Nat := 0
  /-- Taken as received by decode B of rung 4 (R240, R244). -/
  relaxed : Bool := false
  /-- Delivered under an in-line cap of 0, which forces the class SUSPECT (R98). -/
  forced : Bool := false
  deriving DecidableEq, Repr

/-- One writing of a sheet (R73): the first, or a whole-sheet copy. -/
structure Copy where
  gen : Nat
  wrap : Nat
  tpw : Nat := 0
  /-- The channels whose verdicts count for nothing on the copy, as a bit map: those marked dead when it began, and those whose mark
  was cleared since (R156). -/
  deadAtBegin : Nat := 0
  budget : Nat := 4
  /-- Waveform band the copy is written with (R145). -/
  band : Nat := 3
  postambled : Bool := false
  areaDone : Bool := false
  superseded : Bool := false
  /-- The copy's verify decode has begun (R157). -/
  decoded : Bool := false
  /-- Segments marked CUT, as 8 × row + RWSLOT. -/
  cuts : List Nat := []
  /-- Fill segments of the copy's area marked CUT, as 64 × place in the area + channel. -/
  fillCuts : List Nat := []
  /-- Verdicts given, newest first, as (8 × row + RWSLOT, verdict). -/
  verdicts : List (Nat × Verdict) := []
  /-- Rewrites placed, as rows, oldest first; the k-th of a row has RWSLOT k. -/
  rewrites : List Nat := []
  deriving DecidableEq, Repr

/-- A sheet the spoke holds (R135). `kind` is R61's. `body` is the user area of a close sheet; a ream parity sheet
names the accumulator buffer that holds its payload. -/
structure Sheet where
  num : Nat
  kind : Nat
  firstRecord : Nat := 0
  entries : List IdxEntry := []
  pieces : List Piece := []
  payloadEnd : Nat := 0
  early : Bool := false
  padded : Bool := false
  hostBuf : Option Nat := none
  body : List Byte := []
  accBuf : Option Nat := none
  idxBuf : Option Nat := none
  parBuf : Option Nat := none
  closed : Bool := false
  sealedF : Bool := false
  /-- A C2 accumulator bank is held for the sheet (R91). -/
  bank : Bool := false
  settled : Bool := false
  /-- The bytes of a sheet that settled while a copy of it was still due: its buffers have gone (R157, R158). -/
  kept : Option (List Byte) := none
  /-- A close sheet whose copy of GEN 3 met R154: it does not settle (R155). -/
  given : Bool := false
  copies : List Copy := []
  /-- Rows read back by the verify readers, first converged copy first (R95, R157). -/
  rows : SMap RowRec := []
  /-- Rows that came while a verify decode of the sheet was in progress, oldest first: they are held for its next one (R95). -/
  late : List (Nat × RowRec) := []
  deriving DecidableEq, Repr

/-- A rewrite candidate (R152), with its RWSLOT once placed (R72). -/
structure Cand where
  sheet : Nat
  gen : Nat
  row : Nat
  rwslot : Nat := 0
  deriving DecidableEq, Repr

/-- What a write serial lane is sending: a sheet slot, a rewrite area with its segments per channel, or the closing
pattern (R64, R71, R153). -/
inductive Stage where
  | slot (sheet gen : Nat)
  | area (r sheet gen : Nat) (segs : List Cand)
  | closing
  deriving DecidableEq, Repr

/-- Why a write run ends (R23, R153, R185). -/
inductive StopKind where
  | none | wrapEnd | starve | session | halt | env | noTile | inhibitLoss | quiesce
  deriving DecidableEq, Repr

/-- The verify decode in progress (R157): the sheet and the copy, DEAD_COUNT, ERR_LIMIT and RELEASE_HEADROOM when it began (R102,
R164). -/
structure VDec where
  sheet : Nat
  gen : Nat
  dead : Nat
  limit : Nat
  release : Nat
  deriving DecidableEq, Repr

/-- The writer and packer of a spoke beyond its registers. -/
structure Wr where
  /-- Every sheet the spoke holds, in the order of their making; a settled sheet stays as a stub until the session
  after it, so that late verdicts find it (R152). -/
  sheets : List Sheet := []
  openSheet : Option Nat := none
  /-- Closed sheets not yet sealed, in sealing order. -/
  closedQ : List Nat := []
  /-- Sealed sheets and copies ordered, as (SHEET, GEN), in slot order. -/
  dueQ : List (Nat × Nat) := []
  /-- The sheet slot in progress. -/
  slot : Option (Nat × Nat) := none
  /-- The slot before the one in progress, whose late candidates the next area may hold (R72). -/
  prevSlot : Option (Nat × Nat) := none
  /-- A slot has been judged to begin and waits for the rewrite area before it to end (R137). -/
  slotDue : Bool := false
  /-- The area after the slot in progress is being written: R and its segments. -/
  areaOn : Bool := false
  /-- That area is the run's last: the run ends with it (R153). -/
  ending : Bool := false
  settledTop : Option Nat := none
  wrap : Nat := 0
  slotsUsed : Nat := 0
  runUm : Nat := 0
  stop : StopKind := .none
  /-- A write run is in progress (R179). -/
  running : Bool := false
  /-- Rewrite candidates not yet placed, in the order their verdicts came (R152). -/
  cands : List Cand := []
  lane0 : List Stage := []
  lane1 : List Stage := []
  frame0 : Nat := 0
  frame1 : Nat := 0
  seq0 : Nat := 0
  seq1 : Nat := 0
  /-- TPW of the segment each lane is sending (R60). -/
  segTpw0 : Nat := 0
  segTpw1 : Nat := 0
  /-- Each lane's scrambler: its last 58 scrambled bits, the latest in bit 0 (R140). -/
  scr0 : Nat := 0
  scr1 : Nat := 0
  /-- Each lane is gated off until its next boundary (R148). -/
  gated0 : Bool := false
  gated1 : Bool := false
  /-- Ream accumulator buffers of the block in use: A0 and A1 of reams 0 to 3 (R93). -/
  accs : List Nat := []
  block : Option Nat := none
  /-- A waveform band waits to be sent in the next sheet preamble (R145). -/
  bandPending : Bool := false
  shock : Bool := false
  /-- SPn_WINH_N is low: writing is held off (R147). -/
  winh : Bool := false
  /-- Position error samples within threshold since the last one beyond it, to 4 (R148). -/
  pesGood : Nat := 4
  speedBad : Bool := false
  haltHold : Bool := false
  objs : List Obj := []
  placed : List Placed := []
  /-- Objects that failed after acceptance or were dropped: (number, STATUS code), for the next SYNC (R316, R317). -/
  failed : List (Nat × Nat) := []
  /-- The verify decode in progress. -/
  verifying : Option VDec := none
  /-- DEAD_MAX as the slot last begun took it (R163). -/
  deadMax : Nat := 2
  /-- A closed sheet waits for buffers, and packing with it (R93, R135, R272). -/
  nobuf : Bool := false
  /-- Bytes of the write buffer (chapter 2, Watermarks). -/
  fillBytes : Nat := 0
  /-- The hysteresis state of R46; a pair that is UB-5 leaves a free value in it. -/
  hyst : Bool := false
  /-- Reams whose accumulator read as uncorrectable, as 4 × block + ream (R93, R162). -/
  accFault : List Nat := []
  /-- The object whose placement closes the sheet that receives its last extent (R136). -/
  syncAt : Option Nat := none
  deriving DecidableEq, Repr

/-- The session and the partition of a spoke (R304, R78). -/
structure Sess where
  part : Nat := 0
  /-- A session is open (R304). -/
  isOpen : Bool := false
  /-- The end-of-data entry has been set invalid for this session (R83). -/
  eodInvalid : Bool := false
  session : Nat := 0
  /-- The object that the next object accepted takes. -/
  nextObj : Nat := 0
  /-- The next data sheet's number. -/
  nextSheet : Nat := 0
  lastData : Nat := 0xFFFFFFFF
  /-- The highest sheet number begun on tape in the partition. -/
  topSheet : Nat := 0
  /-- The last object number written to tape plus one. -/
  writtenObj : Nat := 0
  /-- A close is in progress, with its REASON (R78, R79). -/
  closing : Option Nat := none
  /-- A FORMAT's close sheets are being written, for the partition of this number. -/
  formatting : Bool := false
  /-- The session-break record last written in the partition, for the accumulators of the block it begins (R80, R93). -/
  sbRec : Option CloseRec := none
  /-- The close record's sheets have been built. -/
  closeBuilt : Bool := false
  sbSheet : Nat := 0
  eodFailed : Bool := false
  /-- The logical wrap and slot where the first end-of-data sheet lies. -/
  eodTpw : Nat := 0
  eodWrap : Nat := 0
  deriving DecidableEq, Repr

/-- What a cartridge memory transfer is for (R82, R83, R194, R332, R339). -/
inductive CmUse where
  | loadManufacture | loadFormatId | loadPartA | loadPartB | loadEod | loadUsage
  | eodInvalidate | eodValidate
  | fmtId | fmtPartFirst | fmtPartSecond | fmtEod
  | usage
  | hostRead (j : Job)
  | hostWrite (j : Job)
  deriving DecidableEq, Repr

/-- A cartridge memory transfer, divided into requests of at most 32 bytes (R339). -/
structure CmXfer where
  use : CmUse
  isWrite : Bool
  off : Nat
  len : Nat
  data : List Byte := []
  /-- Next byte to ask for. -/
  next : Nat := 0
  /-- Bytes done. -/
  done : Nat := 0
  deriving DecidableEq, Repr

/-- An outstanding CM_REQ (R193). -/
structure CmReq where
  tag : Nat
  off : Nat
  count : Nat
  resends : Nat := 0
  deriving DecidableEq, Repr

/-- The cartridge as the spoke knows it (R82, R194). -/
structure Cart where
  manufacture : List Byte := []
  formatId : List Byte := []
  partA : List Byte := []
  partB : List Byte := []
  generation : Nat := 0
  initialised : Bool := false
  parts : List PartDef := []
  eods : List EodEntry := []
  usage : Usage := {}
  deriving DecidableEq, Repr

/-- The servo, motion and link side of a spoke beyond its registers (chapter 7). -/
structure Drive where
  invalidRun : Nat := 0
  lost : Bool := false
  needTension : Bool := false
  /-- A reading below 100 mN has come, which no tension fault has answered yet (R177). -/
  tensionLow : Bool := false
  /-- Servo words being assembled from the lower and from the upper servo band (R167): the bits collected; none while no frame-0 mark has
  come. -/
  word : Option (List Bool) := none
  wordUp : Option (List Bool) := none
  /-- The last velocity sample, its frame time, and the time since then, in picoseconds (R171). -/
  lastVel : Int := 0
  lastTF : Nat := 0
  velGap : Nat := 0
  /-- Samples and their sum of each reader's error since the last calibration (R197). -/
  errSums : SMap (Nat × Int) := []
  /-- TPW of the current frame, all 36 bits (R168, R198). -/
  tpw : Nat := 0
  accHist : List Int := []
  /-- The frame N under the readers (R168), once a servo word has told it, and the band that word gave. -/
  frameNo : Option (Nat × Nat) := none
  /-- The last actuator position and reel currents sent (R173, R176, R398). -/
  lastAct : Nat := 0
  reelI : Nat × Nat := (0, 0)
  /-- Reel counts turned between the last two MOTION_STATs (R176). -/
  dSupply : Nat := 0
  dTakeup : Nat := 0
  /-- The tape runs up toward the next slot (R185). -/
  runUp : Bool := false
  /-- The latest environmental reading lies in the narrower window (R188). -/
  envInner : Bool := false
  pesHist : List Int := []
  fillAtDone : Nat := 0
  raFillAtDone : Nat := 0
  streaming : Bool := false
  reading : Bool := false
  tapeStopped : Bool := true
  parked : Bool := false
  turning : Bool := false
  ctrlStop : Bool := false
  /-- The derailleur's target cog, kept while the tape stands or turns (R184). -/
  tgtCog : Nat := 1
  /-- A move to (wrap, frame, cog) in progress (R187). -/
  target : Option (Nat × Nat × Nat) := none
  tensionWritten : Nat := 850
  supplyCount : Nat := 0
  takeupCount : Nat := 0
  txSeq : Nat := 0
  mechState : Nat := 0
  threaded : Bool := false
  cm : List CmXfer := []
  cmOut : List CmReq := []
  cmTag : Nat := 0
  unloadStep : Nat := 0
  /-- The step of a FORMAT in progress (R332): 1 to 4 its cartridge memory writes, 10 + p the sheets of partition p, 30 + p
  those sheets settled, 40 + p one of them cannot settle, 20 the end-of-data entries. -/
  formatStep : Nat := 0
  present : Bool := false
  /-- The tape lies where the next slot is written (R185). -/
  atWrite : Bool := false
  /-- The logical wrap that the head follows. -/
  head : Nat := 0
  /-- The latest MOTION_STAT, and the latest MECH_STAT, report a fault. -/
  reelFault : Bool := false
  mechFault : Bool := false
  deriving DecidableEq, Repr

/-! ### Streams -/

/-- A stream (R306, R329, R330). `params` are its 8 parameter bytes as a number; `next` a replacement that takes
effect at the stream's next record. -/
structure Stream where
  isOpen : Bool := false
  spoke : Nat := 0
  params : Nat := 0
  next : Option Nat := none
  /-- A record of the stream is open on its spoke (R318). -/
  recOpen : Bool := false
  /-- A record of the stream is suspended (R323). -/
  suspended : Bool := false
  /-- The stream ended by a zeroisation (R371) since the last SYNC. -/
  zeroised : Bool := false
  /-- The lead engine (R122). -/
  lead : Option Nat := none
  /-- The stream's next record is an anchor record for a reason of R116 other than the interval. -/
  anchorDue : Bool := true
  /-- Host bytes of the stream's records since the current anchor (R116). -/
  sinceAnchor : Nat := 0
  deriving DecidableEq, Repr

/-! ### The read channel (chapter 8) -/

/-- How a lane follows the layout (R213 to R217). -/
inductive LaneMode where
  | locked | hunt | gap
  deriving DecidableEq, Repr

/-- A lane's layout context: the identity and position that its next prediction gives, and in a rewrite area or not. -/
structure LaneCtx where
  mode : LaneMode := .gap
  sheet : Nat := 0
  gen : Nat := 0
  kind : Nat := 1
  pos : Nat := 0
  inArea : Bool := false
  /-- Consecutive predictions without a candidate. -/
  misses : Nat := 0
  skew : Int := 0
  /-- The lane's last header passed. -/
  passed : Bool := false
  /-- In the sheet copy in progress: a candidate was found, a header passed, GAIN stayed at 120 (R226). -/
  candSeen : Bool := false
  hdrSeen : Bool := false
  gain120 : Bool := true
  /-- A sheet has begun on the lane since the last locate. -/
  known : Bool := false
  /-- Its low tone has passed, and its first segment is still due (R216). -/
  first : Bool := false
  /-- The place of its alignment, in channel bits counted alike on every lane, and its last 16 offsets from the median (R217). -/
  place : Int := 0
  offsets : List Int := []
  /-- The AGC (R206), in intervals of 16 channel bits: those left of ACQUIRE; the last four; the sum and the count of those since
  TRACK's last step; those in a row that let HOLD end. -/
  acq : Nat := 32
  amps : List Nat := []
  ampSum : Nat := 0
  ampCount : Nat := 0
  good : Nat := 0
  /-- The timing loop (R209): intervals left of its acquisition; its frequency and its phase, in units of 2^−31 channel bit. -/
  loopAcq : Nat := 16
  freq : Int := 0
  phase : Int := 0
  /-- The CTLE_BOOST that the next sheet preamble brings into force (R207). -/
  boostDue : Option Nat := none
  /-- Ideal power and squared error summed over each of the last 16 converged segments (R223). -/
  snrs : List (Nat × Nat) := []
  deriving DecidableEq, Repr

/-- A segment assigned to a tile (R218): the identity that the context predicts, or a header that passed gives. -/
structure TileSeg where
  lane : Nat
  seg : SegId
  kind : Nat := 1
  inArea : Bool := false
  /-- Its last sample has arrived and a header passed. -/
  ready : Bool := false
  /-- It is the first after a low tone, searched for from the tone on (R216). -/
  first : Bool := false
  freewheel : Bool := false
  altAlign : Bool := false
  align : Int := 0
  /-- The in-line cap that applied when it was assigned (R219). -/
  cap : Nat := 12
  samples : List Int := []
  deriving DecidableEq, Repr

/-- A capture record of the sample hold (R222, R235). -/
structure CapRec where
  lane : Nat
  zone : Nat
  seg : SegId
  kind : Nat := 1
  align : Int
  /-- Its header failed, or its alignment was FREEWHEEL or ALT_ALIGN: rung 3 works on it (R239). -/
  rehunt : Bool
  freewheel : Bool := false
  altAlign : Bool := false
  samples : List Int
  pinned : Bool := false
  /-- It came after the last ladder decode. -/
  fresh : Bool := true
  /-- Replays done on it in the rung in progress. -/
  tried : Nat := 0
  /-- Its place in the order of arrival. -/
  stamp : Nat := 0
  deriving DecidableEq, Repr

/-- A sheet as the read path holds it (R94 to R97). -/
structure RSheet where
  num : Nat
  kind : Nat := 1
  gen : Nat := 0
  wrap : Nat := 0
  /-- Slot order in which its copies were met, and the cog it was read at. -/
  cog : Nat := 1
  rows : SMap RowRec := []
  /-- Its postamble and rewrite area have passed, and its first decode is due; its second decode is due (R97). -/
  passed : Bool := false
  again : Bool := false
  /-- ERR_LIMIT of the decode in progress (R102). -/
  limit : Nat := 80
  /-- The rows as the last decode left them, corrections applied (R244). -/
  fixed : SMap RowRec := []
  /-- Rows that came while a decode was in progress (R95). -/
  late : List (Nat × RowRec) := []
  /-- Decodes begun: 0, 1 or 2; one is in progress. -/
  decodes : Nat := 0
  busy : Bool := false
  /-- The final decode is done; it resolved the sheet. -/
  final : Bool := false
  resolved : Bool := false
  failed : List Nat := []
  allFailed : Bool := false
  /-- Erasures of the last decode. -/
  erased : Nat := 0
  /-- The 8 MiB buffer that holds the decoded sheet. -/
  buf : Option Nat := none
  /-- Its index has been used for the objects it holds; the host has received it. -/
  consumed : Bool := false
  unreadable : Bool := false
  /-- TOP_RUNG: the highest rung that the ladder ran on it (R244). -/
  top : Nat := 0
  deriving DecidableEq, Repr

/-- A quality map (R224). -/
structure QMap where
  sheet : Nat
  gen : Nat
  part : Nat
  wrap : Nat
  kind : Nat
  verify : Bool
  time : Nat := 0
  converged : Nat := 0
  hdrFailed : Nat := 0
  /-- Codes of the segments met, by row; an unlisted row reads 7. -/
  codes : SMap Nat := []
  deriving DecidableEq, Repr

/-- The limit fields as the rung in progress found them (R246): iterations of a replay and REHUNT_SPAN; RELAX_LLR; attempts, OFFSETS and LOW_COG. -/
structure RungLimits where
  iters : Nat := 0
  span : Nat := 0
  floor : Nat := 0
  tries : Nat := 0
  offsets : Nat := 0
  lowCog : Nat := 0
  deriving DecidableEq, Repr

/-- What the ladder is doing (R232 to R245): idle, a rung's replays, a decode, waiting for a re-read, for a rebuild, for
the host, at a boundary for the spoke's steward (R407). -/
inductive LadderPhase where
  | idle | replay | decode | relaxA | relaxB | reread | rebuild | waitHost | boundary
  deriving DecidableEq, Repr

/-- The ladder of a spoke. -/
structure Ladder where
  phase : LadderPhase := .idle
  sheet : Nat := 0
  rung : Nat := 0
  /-- Highest rung run; attempts made in the rung. -/
  top : Nat := 0
  attempt : Nat := 0
  /-- Rungs 1 to 4 run on the new records of a re-read of this rung. -/
  inner : Nat := 0
  lim : RungLimits := {}
  /-- A new row has converged since the last ladder decode (R233). -/
  gained : Bool := false
  /-- The rung was ordered by LADDER_STEP. -/
  stepped : Bool := false
  /-- The climb is the hardware's (R234), not the host's (R245). -/
  auto : Bool := true
  /-- The sheet is read for SHEET_READ: rungs 1 to 4 only (R336). -/
  only4 : Bool := false
  /-- A tape rung has run, so the read run is resumed after the ladder (R241). -/
  moved : Bool := false
  /-- The ladder ends at its next boundary (R246). -/
  abort : Bool := false
  startTime : Nat := 0
  /-- Sheets that wait, in slot order (R232). -/
  queue : List Nat := []
  /-- The replay in progress: tile and hold slot. -/
  replay : Option (Nat × Nat) := none
  /-- A tape rung's attempt, or the reading of a block for rung 8: 0 the tape comes to rest first, 1 the locate, 2 the
  reading, 3 the stop after it, 4 at rest. -/
  stage : Nat := 0
  /-- The member of the ream that rung 8 works on with rungs 1 to 4 (R242). -/
  member : Option Nat := none
  /-- Members that rung 8 reads for, and the buffers taken for them. -/
  wanted : List Nat := []
  bufs : List Nat := []
  /-- Settings to restore after an attempt: TF_OFFSET. -/
  savedTf : Nat := 0
  /-- CTLE_FREQ and CTLE_BOOST of the 64 lanes, to restore after an attempt of rung 7. -/
  savedCtle : List (Nat × Nat) := []
  /-- The codewords resolved by rung 4's decode A, kept for its decode B (R240). -/
  kept : Option RSheet := none
  /-- The raw sheet held by rung 9 (R243), with its part. -/
  raw : Option (RSheet × Nat) := none
  deriving DecidableEq, Repr

/-- The reading side of a spoke. -/
structure Rd where
  lanes : SMap LaneCtx := []
  tiles : SMap (List TileSeg) := []
  sheets : List RSheet := []
  hold : List (Nat × CapRec) := []
  holdStamp : Nat := 0
  maps : List QMap := []
  /-- Maps being built. -/
  openMaps : List QMap := []
  ladder : Ladder := {}
  /-- Segment positions in a row at which no header has passed on any lane (R217). -/
  noHeader : Nat := 0
  /-- Equaliser taps as (((lane × 4 + zone) × 4 + set) × 16 + tap); noise predictors trained, per lane, zone, set. -/
  taps : SMap Nat := []
  trained : SMap Bool := []
  /-- Saved front-end values per lane and zone (R208): GAIN, CTLE_FREQ, CTLE_BOOST. -/
  saved : SMap (Nat × Nat × Nat) := []
  zone : Nat := 2
  /-- Gain sums of the first 16 copies per lane and zone (R226): count and sum; baselines. -/
  gainSum : SMap (Nat × Nat) := []
  gainBase : SMap Nat := []
  /-- Consecutive copies in which a lane was weak (R226). -/
  weak : SMap Nat := []
  /-- Index rows seen since load: (block, FIRST_RECORD of its first data sheet decoded, that sheet) (R326). -/
  bounds : SMap (Nat × Nat) := []
  /-- The last object that ended in each data sheet whose index has been read (R247): sheet to object. -/
  ends : SMap Nat := []
  lostObj : Nat := 0
  /-- Segment positions of each lane since a header last passed on any (R217). -/
  dry : SMap Nat := []
  /-- The segment position of the latest header in a sheet (sheet, copy, position), and the alignments of its headers by lane (R217). -/
  posKey : Nat × Nat × Nat := (0, 0, 32)
  posPlaces : List (Nat × Int) := []
  /-- The sheet that has passed last in the run. -/
  lastPassed : Option Nat := none
  /-- The logical wrap being read, as the headers give it. -/
  wrap : Nat := 0
  /-- The next sheet that the read run is to take, in slot order. -/
  nextSheet : Nat := 0
  /-- Runs of sheet numbers that no slot holds, as [first, end) (R326). -/
  gaps : List (Nat × Nat) := []
  /-- A locate, a turnaround or a run-up for reading is under way, to this sheet. -/
  locating : Option Nat := none
  /-- The run ends, or pauses for the ladder, once the two slots after this sheet have passed (R97, R182, R241). -/
  stopAt : Option Nat := none
  /-- The run has stopped for want of room or a buffer and resumes under R182; it was for a buffer. -/
  stopped : Bool := false
  noBuf : Bool := false
  /-- The end of data has been met on tape (R80): its first end-of-data sheet. -/
  endAt : Option Nat := none
  deriving DecidableEq, Repr

/-! ### Delivery (R126 to R130, R322 to R325) -/

/-- Where a stored block of a record being read stands: waiting, in decryption, decrypted, in decoding, waiting for a
far reference, done. -/
inductive RBlkSt where
  | frame
  | ncf
  | coding (e : Nat)
  | waitFar (e : Nat)
  | done
  deriving DecidableEq, Repr

/-- A stored block of a record being read. -/
structure RBlk where
  bytes : List Byte
  first : Bool
  last : Bool
  st : RBlkSt
  /-- The engine that found it faulty, after its first decode (R130). -/
  failedOn : Option Nat := none
  eng : Nat := 0
  out : List Byte := []
  /-- Its tokens, once decoded, and how much of its output has been delivered (R127). -/
  toks : List TokSpan := []
  skip : Nat := 0
  /-- Found faulty twice (R130, R364). -/
  bad : Bool := false
  deriving DecidableEq, Repr

/-- What a READ in progress is doing: seeking the object's first entry, searching for its anchor (R325), decoding,
moving on to the stream's next record. -/
inductive RPhase where
  | seek | anchor | run | skip
  deriving DecidableEq, Repr

/-- A READ in progress or a suspended record (R322 to R325). -/
structure ReadSt where
  stream : Nat
  target : Nat
  /-- The record being decoded: below `target`, it is decoded for discard (R129). -/
  obj : Nat
  phase : RPhase := .seek
  /-- The sheet and the entry that the record goes on with. -/
  sheet : Nat := 0
  entry : Nat := 1
  /-- The anchor search's window (R325). -/
  lo : Nat := 0
  top : Nat := 0
  /-- The requested record's first entry; the last anchor entry met in the window. -/
  home : Nat × Nat := (0, 0)
  best : Option (Nat × Nat) := none
  /-- Stored bytes gathered and not yet cut into blocks. -/
  buf : List Byte := []
  enc : Bool := false
  /-- The IV counter of the record's last frame opened (R364). -/
  lastIv : Option Nat := none
  /-- The record's LAST entry has been gathered. -/
  whole : Bool := false
  /-- HOST_LENGTH of the entries gathered. -/
  total : Nat := 0
  blks : List RBlk := []
  /-- The first block of the record has been cut. -/
  begun : Bool := false
  /-- Host bytes of the record delivered so far. -/
  sent : Nat := 0
  /-- The stream's parameters as the READ began (R120), and whether it decodes with a decode set (R119). -/
  par : Nat := 0
  far : Bool := false
  /-- The transfer in progress: bytes left, its length, a later part to come (MORE). -/
  left : Nat := 0
  xfer : Nat := 0
  more : Bool := false
  /-- The transfer's part has been answered: the record is suspended (R323). -/
  suspended : Bool := false
  /-- The delivery ended at a fault: its status (R130, R364). -/
  fault : Option Nat := none
  /-- The transfer ended inside the record (R128). -/
  trunc : Bool := false
  /-- The decompressor that holds the first block for the next destination, and the token that the end of the destination cut (R127). -/
  susp : Option Nat := none
  mid : Option MidToken := none
  /-- The last block of the record has been delivered. -/
  ended : Bool := false
  /-- Stored bytes are delivered unchanged (R363). -/
  raw : Bool := false
  /-- The entries gathered hold NCF that host software supplied (FORM 1, R132). -/
  hostNcf : Bool := false
  deriving DecidableEq, Repr

/-- A LOCATE or SPACE in progress (R326, R327): the bounds of the search, its probe, the probes made; the objects still
to move over. -/
structure SeekSt where
  lo : Nat := 0
  hi : Nat := 0
  probe : Nat := 0
  tries : Nat := 0
  obj : Nat := 0
  left : Nat := 0
  /-- The hint is being tried. -/
  hinted : Bool := false
  /-- The target is found, and the tape moves ahead of it (R326). -/
  final : Bool := false
  /-- The sheet that the probe in progress stood for before later sheets replaced it; a sheet met whose index is lost. -/
  mid : Nat := 0
  lostAt : Option Nat := none
  deriving DecidableEq, Repr

/-- The closing of an unclosed partition (R414): the partition, the session's first sheet, the bounds of the search in slots
from there (`hi` holds the last data sheet met once the run is read), the probes made (99 while the entry is written, 100
while the close is written), the run being read, the sheet next due in it, the object after the last one ended in it. -/
structure Recov where
  part : Nat
  first : Nat
  lo : Nat
  hi : Nat
  tries : Nat := 0
  reading : Bool := false
  next : Nat := 0
  nextRec : Nat := 0
  deriving DecidableEq, Repr

/-! ### The press (chapter 5) -/

/-- Where a block of a record stands (R122, R124, R361): queued, in coding on an engine, coded and waiting for its
frame, or finished and waiting for its place in the output. -/
inductive BlkSt where
  | queued
  | coding (e : Nat)
  | toCrypt
  | finished
  deriving DecidableEq, Repr

/-- A block of a record being compressed: its place in the host bytes, its far references as (offset, length,
fingerprint), its NCF bytes and its stored bytes once made. -/
structure PBlk where
  off : Nat
  len : Nat
  first : Bool
  last : Bool
  refs : List (Nat × Nat × Nat) := []
  st : BlkSt := .queued
  bytes : List Byte := []
  /-- The engine that coded it, and that engine's output class. -/
  eng : Nat := 0
  outClass : Nat := 4
  /-- Its place in the queue for coding (R122); its stored bytes already in the output (R124). -/
  seq : Nat := 0
  put : Nat := 0
  /-- The engine that abandoned it as damaged (R125). -/
  notOn : Option Nat := none
  deriving DecidableEq, Repr

/-- What becomes of a stream's encode set behind a record (R117, R119): it goes on, the next record begins a span in it, or it is
released. -/
inductive SetEnd where
  | keep | clear | release
  deriving DecidableEq, Repr

/-- A record in the press (R121 to R124). `src` is its landed host bytes. -/
structure PRec where
  stream : Nat
  spoke : Nat
  num : Option Nat := none
  /-- Its bytes are NCF that host software supplied (R103). -/
  ncf : Bool := false
  /-- A later part may come (R318). -/
  more : Bool := false
  started : Bool := false
  src : List Piece := []
  /-- Host bytes chunked so far; where the block being formed begins; its far references. -/
  pos : Nat := 0
  blkStart : Nat := 0
  refs : List (Nat × Nat × Nat) := []
  /-- The last block has been closed. -/
  cut : Bool := false
  anchor : Bool := false
  coding : Bool := true
  /-- It is chunked against the stream's encode set (R118), and what becomes of the set behind it. -/
  far : Bool := true
  fin : SetEnd := .keep
  startThresh : Nat := 4
  enc : Bool := false
  slot : Nat := 0
  blks : List PBlk := []
  /-- Blocks of the record closed so far, and stored bytes of its blocks placed in the output. -/
  nblk : Nat := 0
  outLen : Nat := 0
  /-- A record whose WRITE failed after acceptance. -/
  dead : Bool := false
  deriving DecidableEq, Repr

/-- An encode or decode set (R119): the stream bound, its index and history. -/
structure PSet where
  stream : Option Nat := none
  ck : Chunker := {}
  /-- Decoded host bytes of the span, oldest first (decode sets only). -/
  hist : List Byte := []
  /-- Chest buffers that hold the history. -/
  bufs : List Nat := []
  /-- The record last decoded in stream order: spoke, partition, object (decode sets only, R129). -/
  last : Option (Nat × Nat × Nat) := none
  /-- When it was last used. -/
  stamp : Nat := 0
  deriving DecidableEq, Repr

/-! ### KEEP (chapter 13) -/

/-- A key slot (R358). -/
structure KeySlot where
  loaded : Bool := false
  key : List Byte := []
  keyId : Nat := 0
  ivFixed : Nat := 0
  ivCount : Nat := 0
  kekUsed : Nat := 0
  zeroised : Bool := false
  deriving DecidableEq, Repr

/-- A load in progress in KEYSTORE (R358): a slot load holds the KEK's bytes as KEY_GO found them. -/
inductive KsLoad where
  | kek (k : Nat) (ct : List Byte)
  | key (slot kek : Nat) (kekBytes ct : List Byte) (keyId ivFixed : Nat)
  deriving DecidableEq, Repr

/-- KEEP's own memories: keys, the protection table live and staged, the ledger. -/
structure Keep where
  slots : SMap KeySlot := []
  /-- The four key-encryption keys, empty when not loaded. -/
  keks : SMap (List Byte) := []
  ksLoad : Option KsLoad := none
  /-- A zeroisation met the load in progress (R372). -/
  ksCancelled : Bool := false
  prot : SMap Nat := []
  staged : SMap Nat := []
  seq : Nat := 0
  ledger : List Byte := []
  /-- Violations per domain (R375). -/
  domViol : SMap Nat := []
  /-- Tamper conditions that last (R369). -/
  tamperNow : Nat := 0
  /-- ALARM_EVT.ZEROISED was set by a zeroisation of all keys (R449). -/
  zeroAll : Bool := false
  deriving DecidableEq, Repr

/-! ### Boot and firmware (R353 to R357) -/

/-- What an image slot of the flash holds (R353): bytes the manual does not give, by their index (0 and 1: as the module
was made, in slots A and B; above: after a write that did not end well), or an image written. -/
inductive Slot where
  | unknown (k : Nat)
  | image (bytes : List Byte)
  deriving DecidableEq, Repr

/-- The flash slots, the images in the banks and the update in progress. -/
structure Boot where
  slotA : Slot := .unknown 0
  slotB : Slot := .unknown 1
  /-- The images in the active and the inactive banks; none: words of zeros (R262). -/
  active : Option (List Byte) := none
  staged : Option (List Byte) := none
  /-- The slots that the two images came from. -/
  activeSlot : Nat := 0
  stagedSlot : Nat := 0
  /-- The bytes received, and the slot opened, by the update in progress. -/
  recv : List Byte := []
  openSlot : Nat := 0
  deriving DecidableEq, Repr

/-! ### Temperature and power (chapter 14) -/

/-- An on-die sensor: readings of the last second with their times, newest first; samples in a row with one raw reading;
the extremes of its twin meanwhile; samples in a row of disagreement; its calibration band (R384, R390). -/
structure Sens where
  hist : List (Nat × Int) := []
  /-- Samples in a row without a change of the reading, and the range of its twin's readings meanwhile, empty when the bounds are crossed. -/
  same : Nat := 0
  twinLo : Int := 1
  twinHi : Int := 0
  band : Option Nat := none
  cause : Nat := 0
  /-- Since when its rise has been above 2.0 °C at every evaluation of R381. -/
  hotSince : Option Nat := none
  deriving DecidableEq, Repr

/-- THERMAL and POWER beyond their registers. -/
structure Therm where
  sens : SMap Sens := []
  /-- Samples in a row in which the twins 2i and 2i + 1 disagreed (R384). -/
  disagree : SMap Nat := []
  /-- The four latest values of T, newest first (R380). -/
  lastT : List Int := []
  /-- Since when no sensor's rise has been above 2.0 °C at an evaluation of R381. -/
  calmSince : Option Nat := none
  /-- DRAM devices: (reading, reads in a row without one) (R388). -/
  dram : SMap (Option Int × Nat) := []
  /-- VSTBY is up; P12V is good; the main rails are up. -/
  stby : Bool := false
  p12 : Bool := false
  mains : Bool := false
  /-- The module is down after a trip, a brown-out, a rail fault. -/
  tripped : Bool := false
  brown : Bool := false
  railFault : Bool := false
  /-- Since when the restart conditions of R387 have held. -/
  coolSince : Option Nat := none
  /-- The step whose setting the core supply was last sent to (R26), and the step whose cog cap is out. -/
  supply : Nat := 0
  capStep : Nat := 0
  /-- The steps of R408 completed since the last power-on or module reset. -/
  steps : List Nat := []
  deriving DecidableEq, Repr

/-! ### Faults and stewards (chapter 15) -/

/-- A block's damage record (R403): the times of its damaged units, newest first. -/
structure Retire where
  times : List Nat := []
  deriving DecidableEq, Repr

/-- A steward (R407, R420): state 0 to 3, active bank, the times of its watchdog expiries, newest first. -/
structure Stw where
  state : Nat := 0
  bank : Nat := 0
  expiries : List Nat := []
  deriving DecidableEq, Repr

/-! ### Endpoints (chapter 11) -/

/-- An endpoint: PERST# asserted, the link has been up since its release, the endpoint answers configuration requests
(R278); the heartbeat window running as (beat, length in ms) (R296); VF Enable set. -/
structure Endpt where
  perst : Bool := true
  wasUp : Bool := false
  ready : Bool := false
  beat : Option (Nat × Nat) := none
  vfOn : Bool := false
  /-- The submission ring that the round-robin served last (R289). -/
  served : Option Nat := none
  /-- The Device Control registers of its configuration space (R279). -/
  ctl : PciCtl := {}
  deriving DecidableEq, Repr

/-- An instruction of the test access port (R452). -/
inductive TapInstr where
  | bypass | idcode | sample | extest | clamp | highz
  deriving DecidableEq, Repr

/-- The test access port (R452): the instruction in force, IDCODE after a reset of the port, and the boundary register. -/
structure Tap where
  instr : TapInstr := .idcode
  boundary : Nat := 0
  deriving DecidableEq, Repr

/-! ### A spoke -/

/-- Everything a spoke holds beyond its register pages. -/
structure Spoke where
  wr : Wr := {}
  rd : Rd := {}
  sess : Sess := {}
  drv : Drive := {}
  cart : Cart := {}
  /-- Position (R304): partition and object. -/
  posPart : Nat := 0
  posObj : Nat := 0
  /-- The command in progress that later commands wait for (R308), and those that wait, oldest first. -/
  cur : Option Job := none
  curStep : Nat := 0
  waiting : List Job := []
  /-- WRITE and WRITE_MARK commands that complete at commitment (R320): the job and the last object it covers. -/
  commitWaits : List (Job × Nat × Nat) := []
  /-- The chest bytes that the WRITE or SHEET_WRITE in progress lands in (R316), one reference each. -/
  landBufs : List Piece := []
  recStream : Option Nat := none
  /-- Objects committed while a SYNC covers them (R162). -/
  syncCover : List Placed := []
  rdst : Option ReadSt := none
  seek : SeekSt := {}
  recov : Option Recov := none
  /-- The endpoint through which the session's first write was fetched (R412). -/
  owner : Nat := 0
  /-- A host-loss hold is due once the session has closed (R412). -/
  hostLost : Bool := false
  /-- The landing of the command in progress waits for a buffer (R272). -/
  noBuf : Bool := false
  /-- The place in the order of fetching that the last failure of an accepted object found (R309). -/
  failSeq : Nat := 0
  deriving DecidableEq, Repr

/-! ### Buffers (chapter 10) -/

/-- An allocated handle's descriptor (R264). -/
structure Desc where
  count : Nat := 0
  owner : Nat := 0
  deriving DecidableEq, Repr

/-- The pool manager. `freed` are handles returned, head first; `fresh` how many handles of the class have never been
issued; `lost` handles withdrawn (R270). -/
structure Pool where
  counts : List Nat := [0, 0, 0, 0, 0, 0]
  freed : SMap (List Nat) := []
  issued : SMap Nat := []
  desc : SMap Desc := []
  lost : List Nat := []
  /-- Handles at COUNT 0 whose free waits for zero-fills of their pages (R261, R269), oldest first. -/
  dying : List Nat := []
  occ : SMap Nat := []
  reserve : SMap Nat := []
  hostManaged : SMap Bool := []
  underflow : SMap Bool := []
  configured : Bool := false
  applying : Option (List Nat) := none
  /-- References that a domain holds on a handle, as 2^24 × domain + handle (UB-3). -/
  domRefs : SMap Nat := []
  /-- Requests that wait for the pool's configuration (R265), oldest first: (owner, size). -/
  waits : List (Nat × Nat) := []
  deriving DecidableEq, Repr

/-- A deficit round-robin among the classes B to E (R14): the credit of each in bytes, the class whose turn it is, from 0 for B, and
whether it has had its turn's credit. -/
structure Arb where
  deficit : List Nat := [0, 0, 0, 0]
  turn : Nat := 0
  mid : Bool := false
  deriving DecidableEq, Repr

/-- The shared crossings (R14, R15): the items that wait for the felt, its arbiter, and the arbiter of each region's link. -/
structure Felt where
  waiting : List XItem := []
  arb : Arb := {}
  links : SMap Arb := []
  deriving DecidableEq, Repr

/-- A function of an endpoint (R279, R294). -/
structure Func where
  bme : Bool := false
  /-- Requests that wait for Bus Master Enable, in order. -/
  held : List Out := []
  deriving DecidableEq, Repr

/-! ### The device -/

/-- The device beside its chains, gate FIFOs, fuses and pending commands. -/
structure Dev where
  /-- The timebase count in nanoseconds (R19). -/
  now : Nat := 0
  /-- The crystal is stable, so the timebase counts (R19). -/
  crystal : Bool := false
  /-- The next free value's index (the model's own counter, no state of the manual). -/
  free : Nat := 0
  regs : SMap (SMap Nat) := []
  /-- Latches of latch-making reads, per reader and latch (R425). -/
  latches : SMap (SMap Nat) := []
  out : List Out := []
  spokes : SMap Spoke := []
  streams : SMap Stream := []
  sqs : SMap Sq := []
  cqs : SMap Cq := []
  funcs : SMap Func := []
  vecMasked : SMap Bool := []
  vecPending : SMap Bool := []
  pool : Pool := {}
  /-- The chest's data bytes in canonical form; an unlisted byte reads 0 (R259, R260). -/
  chest : List Host.Cell := []
  /-- Check-bit patterns injected beside written bytes (R273), by byte address. -/
  chestBad : SMap Nat := []
  vmValid : SMap Bool := []
  vmFill : SMap Bool := []
  /-- Accesses that wait for the zero-fill of a page (R260), oldest first. -/
  memWaits : List MemAcc := []
  /-- The clear that runs: first page and pages, as VM_CLR_BASE and VM_CLR_COUNT gave them (R261). -/
  vmClr : Option (Nat × Nat) := none
  recs : List PRec := []
  /-- Blocks queued for coding so far (R122). -/
  blkSeq : Nat := 0
  encSets : SMap PSet := []
  decSets : SMap PSet := []
  /-- Host and NCF bytes counted per engine below one MiB, as (kind, engine) keys (R133, R134). -/
  byteCnt : SMap Nat := []
  keep : Keep := {}
  boot : Boot := {}
  /-- Blown security version fuses, 0 to 64 (R357): they survive everything. -/
  svnFuses : Nat := 0
  therm : Therm := {}
  retire : SMap Retire := []
  /-- Pages recorded as retired in the flash data area (R406). -/
  retireLog : List PageId := []
  stws : SMap Stw := []
  endpts : SMap Endpt := []
  tap : Tap := {}
  /-- HBX_SPLIT as sampled (R276) and MGMT_ADDR (R446). -/
  split : Bool := false
  mgmtAddr : Nat := 0
  /-- Where a block's next search among its requesters begins (R13), by page. -/
  grants : SMap Nat := []
  felt : Felt := {}
  /-- Pages changed while not quiesced, until they quiesce next (UB-4). -/
  ub4 : List PageId := []
  /-- Commands fetched and not completed, as (place in the order of fetching, ring). -/
  live : List (Nat × Nat) := []
  jobSeq : Nat := 0
  /-- Module commands that wait for a FENCE (R290) or for the pool's configuration, oldest first. -/
  modWaiting : List Job := []
  deriving DecidableEq, Repr

/-- The state of the block (the model's own division: what the rows of chapter 2 act on stands apart). -/
structure State where
  /-- The commands waiting, first in first out. -/
  pending : List Instr := []
  chains : SMap Chain := []
  gates : SMap Gate := []
  dev : Dev := {}
  deriving DecidableEq, Repr

/-- The block right after standby power-on (R400): every register at its reset value, nothing stored anywhere.
(DESIGN CHOICE, log entry 5.) -/
def State.reset : State := {}

end Sys2Proof.Machine
end

