-- ==== Sys2Proof/Machine/Ops.lean ====
section
/-! DEFINITION. The named operations every meaning is written in: register fields and events, spokes, what is sent,
the chest and its pool, completions and messages. -/

namespace Sys2Proof.Machine

/-! ### Pages -/

/-- Region index of spoke `n` (R421). -/
def spokeRegion (n : Nat) : Nat := 8 + n

def pgIdent : PageId := 0x000
def pgFelt : PageId := 0x001
def pgThermal : PageId := 0x100
def pgPower : PageId := 0x101
def pgTimebase : PageId := 0x102
/-- The first MGMT page, which carries the module group (R419), and the page of steward group `i` (R420). -/
def pgMgmt : PageId := 0x103
def pgMgmtI (i : Nat) : PageId := 0x103 + i
def pgKeystore : PageId := 0x200
def pgProtect : PageId := 0x201
def pgAlarm : PageId := 0x202
def pgBoot : PageId := 0x203
/-- The RINGS page of ring `q` (R282). -/
def pgRings (q : Nat) : PageId := 0x300 + q / 512
def pgDma (i : Nat) : PageId := 0x308 + i
def pgPcie (e : Nat) : PageId := 0x30C + e
def pgMsix (e : Nat) : PageId := 0x30E + e
def pgComp (i : Nat) : PageId := 0x400 + i
def pgDecomp (i : Nat) : PageId := 0x420 + i
def pgCrypt (i : Nat) : PageId := 0x440 + i
def pgMemctl (c : Nat) : PageId := 0x500 + c
def pgPool : PageId := 0x504
def pgVmap : PageId := 0x505
def pgLanefe (n i : Nat) : PageId := spokeRegion n * 256 + i
def pgDetect (n t : Nat) : PageId := spokeRegion n * 256 + 0x10 + t
def pgDecode (n t : Nat) : PageId := spokeRegion n * 256 + 0x20 + t
def pgVerify (n : Nat) : PageId := spokeRegion n * 256 + 0x30
def pgWriter (n : Nat) : PageId := spokeRegion n * 256 + 0x31
def pgServo (n : Nat) : PageId := spokeRegion n * 256 + 0x32
def pgMotion (n : Nat) : PageId := spokeRegion n * 256 + 0x33
def pgDr (n : Nat) : PageId := spokeRegion n * 256 + 0x34
def pgSh (n : Nat) : PageId := spokeRegion n * 256 + 0x35
def pgLink (n : Nat) : PageId := spokeRegion n * 256 + 0x36

/-! ### Register fields -/

/-- The fields of a page as held. -/
def Dev.page (d : Dev) (pg : PageId) : SMap Nat := mget (fun _ => []) d.regs pg

/-- What a field holds. -/
def Dev.fget (d : Dev) (pg : PageId) (f : Fld) : Nat := mget (fldReset pg) (d.page pg) f.slot

/-- A field written; the value is cut to the field's width. -/
def Dev.fset (d : Dev) (pg : PageId) (f : Fld) (v : Nat) : Dev :=
  { d with regs := mset (fun _ => []) d.regs pg (mset (fldReset pg) (d.page pg) f.slot (v % 2 ^ f.w)) }

/-- Is a one-bit field 1? -/
def Dev.fon (d : Dev) (pg : PageId) (f : Fld) : Bool := d.fget pg f != 0

/-- A counter raised by `k`, saturating at the field's largest value (R101). -/
def Dev.bump (d : Dev) (pg : PageId) (f : Fld) (k : Nat) : Dev :=
  d.fset pg f (satAdd (2 ^ f.w - 1) (d.fget pg f) k)

/-- An event bit set (a W1C bit or a status bit). -/
def Dev.ev (d : Dev) (pg : PageId) (f : Fld) : Dev := d.fset pg f 1

/-- A status bit cleared. -/
def Dev.clr (d : Dev) (pg : PageId) (f : Fld) : Dev := d.fset pg f 0

/-- A one-bit field written from a Bool. -/
def Dev.fput (d : Dev) (pg : PageId) (f : Fld) (b : Bool) : Dev := d.fset pg f (b2n b)

/-- Bit `i` of a field set, or cleared. -/
def Dev.bitPut (d : Dev) (pg : PageId) (f : Fld) (i : Nat) (b : Bool) : Dev := d.fset pg f (putBit (d.fget pg f) i b)

/-- Every field of a page back to its reset value. -/
def Dev.resetPage (d : Dev) (pg : PageId) : Dev := { d with regs := mdel pg d.regs }

/-- Every page of a region back to its reset values. -/
def Dev.resetRegion (d : Dev) (x : Nat) : Dev := { d with regs := d.regs.filter (fun p => p.1 / 256 != x) }

/-! ### Error events (R399) -/

/-- TIME of ERR_FIRST: bits [33:10] of the timebase. -/
def Dev.errTime (d : Dev) : Nat := bitsOf d.now 10 24

/-- What an unmasked or forced event adds to ERR_CNT and ERR_FIRST. -/
def Dev.errCount (d : Dev) (pg : PageId) (bit : Nat) : Dev :=
  let d := d.bump pg Reg.HEADER.ERR_CNT 1
  if d.fon pg Reg.HEADER.FIRST_VALID then d
  else ((d.fset pg Reg.HEADER.FIRST_BIT bit).fset pg Reg.HEADER.FIRST_TIME d.errTime).ev pg Reg.HEADER.FIRST_VALID

/-- An error event of bit `bit` in page `pg` (R399): ERR_STAT always, ERR_CNT and ERR_FIRST unless masked. -/
def Dev.errEvent (d : Dev) (pg : PageId) (bit : Nat) : Dev :=
  let d := d.bitPut pg Reg.HEADER.ERR_STAT bit true
  if bitAt (d.fget pg Reg.HEADER.ERR_MASK) bit then d else d.errCount pg bit

/-- The ERR_STAT bits of R430. -/
def errReplay : Nat := 0
def errReplayExhaust : Nat := 1
def errMemCorr : Nat := 2
def errMemUncorr : Nat := 3
def errProt : Nat := 4
def errOwnerUnderflow : Nat := 5
def errTimeout : Nat := 6
def errDamaged : Nat := 7

/-- A work unit of a block completed, of the kind R398 gives for it (UNITS of R428). -/
def Dev.unit (d : Dev) (pg : PageId) : Dev := d.bump pg Reg.HEADER.UNITS 1

/-! ### Latches (R425)

`Dev.latches` holds, per latched register and per reader, what the last latch-making read left. -/

def latchNow : Nat := 0
def latchTpw (n : Nat) : Nat := 1 + n
def latchLost (n : Nat) : Nat := 16 + n
def latchIv : Nat := 24
def latchSeq : Nat := 32
/-- LEDGER_i. -/
def latchLedger (i : Nat) : Nat := 33 + i

/-- A latched register as reader `a` sees it: 0 before its first latch-making read. -/
def Dev.latched (d : Dev) (k a : Nat) : Nat := mget (fun _ => 0) (mget (fun _ => []) d.latches k) a

/-- A latch-making read of reader `a`. -/
def Dev.latch (d : Dev) (k a v : Nat) : Dev :=
  { d with latches := mmod (fun _ => []) d.latches k (fun m => mset (fun _ => 0) m a v) }

/-! ### Spokes, streams, outputs, free values -/

def Dev.sp (d : Dev) (n : Nat) : Spoke := mget (fun _ => {}) d.spokes n
def Dev.setSp (d : Dev) (n : Nat) (x : Spoke) : Dev := { d with spokes := mset (fun _ => {}) d.spokes n x }
def Dev.modSp (d : Dev) (n : Nat) (f : Spoke → Spoke) : Dev := d.setSp n (f (d.sp n))
/-- The writer, session, drive and cartridge of spoke `n`, changed. -/
def Dev.modWr (d : Dev) (n : Nat) (f : Wr → Wr) : Dev := d.modSp n (fun s => { s with wr := f s.wr })
def Dev.modSess (d : Dev) (n : Nat) (f : Sess → Sess) : Dev := d.modSp n (fun s => { s with sess := f s.sess })
def Dev.modDrv (d : Dev) (n : Nat) (f : Drive → Drive) : Dev := d.modSp n (fun s => { s with drv := f s.drv })
def Dev.modCart (d : Dev) (n : Nat) (f : Cart → Cart) : Dev := d.modSp n (fun s => { s with cart := f s.cart })

/-- Steward `i` (R407): chip stewards 0 to 3, the steward of spoke `n` is 4 + n. -/
def Dev.stw (d : Dev) (i : Nat) : Stw := mget (fun _ => {}) d.stws i
def Dev.modStw (d : Dev) (i : Nat) (f : Stw → Stw) : Dev := { d with stws := mmod (fun _ => {}) d.stws i f }

def Dev.stream (d : Dev) (i : Nat) : Stream := mget (fun _ => {}) d.streams i
def Dev.modStream (d : Dev) (i : Nat) (f : Stream → Stream) : Dev :=
  { d with streams := mmod (fun _ => {}) d.streams i f }

/-- Something leaves the block.
(DESIGN CHOICE, log entry 43.) -/
def Dev.emit (d : Dev) (o : Out) : Dev := { d with out := o :: d.out }

/-- A fresh free value: one the manual leaves undefined.
(DESIGN CHOICE, log entry 4.) -/
def Dev.freeVal (d : Dev) : Nat := Config.freeValue d.free
/-- The counter of free values advanced. -/
def Dev.nextFree (d : Dev) : Dev := { d with free := d.free + 1 }

/-- `n` bytes that the manual leaves undefined. -/
def freeBytes (v n : Nat) : List Byte := (List.range n).map (fun k => BitVec.ofNat 8 (v / 256 ^ k))

/-! ### Blocks: what they grant, what they take on (R13, R23, R417) -/

/-- The requester that a round-robin among `n` grants when its search begins at `ptr` (R13). -/
def rrPick (n ptr : Nat) (asks : Nat → Bool) : Option Nat := ((List.range n).map (fun k => (ptr + k) % n)).find? asks

/-- Where the block's next search begins. -/
def Dev.grantPtr (d : Dev) (pg : PageId) : Nat := mget (fun _ => 0) d.grants pg

/-- The block grants requester `i` of `n`: its next search begins behind it (R13). -/
def Dev.grant (d : Dev) (pg : PageId) (n i : Nat) : Dev := { d with grants := mset (fun _ => 0) d.grants pg ((i + 1) % n) }

/-- Was the block changed while it was not quiesced, and has it not quiesced since (UB-4)? Its work units are then undefined. -/
def Dev.unsettled (d : Dev) (pg : PageId) : Bool := d.ub4.contains pg

/-- The block is quiesced: what it does next is defined again. -/
def Dev.setQuiesced (d : Dev) (pg : PageId) : Dev := { d with ub4 := d.ub4.filter (· != pg) }.ev pg Reg.HEADER.QUIESCED

/-- The block is changed while it is not quiesced (UB-4). -/
def Dev.unsettle (d : Dev) (pg : PageId) : Dev := if d.ub4.contains pg then d else { d with ub4 := d.ub4 ++ [pg] }

/-- Does the block accept new work units? Asked to quiesce it accepts none (R23); one that streams goes on to the next sheet boundary. -/
def Dev.takesWork (d : Dev) (pg : PageId) : Bool :=
  !(d.fon pg Reg.HEADER.QUIESCE_REQ &&
    (d.fon pg Reg.HEADER.QUIESCED || !(decide (2048 ≤ pg) && (d.sp (pg / 256 - 8)).drv.streaming)))

/-! ### The valid map and the chest's bytes (R259 to R261) -/

/-- Is the page of the chest valid (R259)? -/
def Dev.pageValid (d : Dev) (p : Nat) : Bool := mget (fun _ => false) d.vmValid p

/-- A data byte of the chest: zero in an invalid page (R259).
(DEDUCED, log entry 6.) -/
def Dev.chestByte (d : Dev) (a : Nat) : Byte := if d.pageValid (a / 4096) then mget (fun _ => 0) d.chest a else 0

/-- `n` data bytes from address `a`. -/
def Dev.chestGet (d : Dev) : Nat → Nat → List Byte
  | _, 0 => []
  | a, n + 1 => d.chestByte a :: d.chestGet (a + 1) n

/-- A byte string stored in a byte map from address `a`. -/
def putBytes : List Host.Cell → Nat → List Byte → List Host.Cell
  | m, _, [] => m
  | m, a, b :: r => putBytes (mset (fun _ => 0) m a b) (a + 1) r

/-- Pages `p` to `p + k − 1` marked valid. -/
def markPages : SMap Bool → Nat → Nat → SMap Bool
  | m, _, 0 => m
  | m, p, k + 1 => markPages (mset (fun _ => false) m p true) (p + 1) k

/-- How many pages the `n` bytes from `a` touch. -/
def pagesOf (a n : Nat) : Nat := if n = 0 then 0 else (a + n - 1) / 4096 + 1 - a / 4096

/-- Bytes stored in the chest; the pages they touch are valid from then on, zero beside the bytes written (R260). -/
def Dev.chestPut (d : Dev) (a : Nat) (bs : List Byte) : Dev :=
  { d with chest := putBytes d.chest a bs, vmValid := markPages d.vmValid (a / 4096) (pagesOf a bs.length),
           chestBad := d.chestBad.filter (fun e => decide (e.1 < a) || decide (a + bs.length ≤ e.1)) }

/-- Pages `p` to `p + k − 1` made invalid (R261): their bits clear and their bytes are not read again. -/
def Dev.invalidate (d : Dev) (p k : Nat) : Dev :=
  { d with vmValid := d.vmValid.filter (fun e => decide (e.1 < p) || decide (p + k ≤ e.1)),
           chest := d.chest.filter (fun e => decide (e.1 < 4096 * p) || decide (4096 * (p + k) ≤ e.1)),
           chestBad := d.chestBad.filter (fun e => decide (e.1 < 4096 * p) || decide (4096 * (p + k) ≤ e.1)) }

/-! ### The pool (R263 to R272) -/

/-- Bytes of a buffer of class `c` (R263). -/
def classSize (c : Nat) : Nat := [4096, 16384, 65536, 262144, 1048576, 8388608].getD c 8388608

/-- The smallest class whose size is at least `n` bytes (R267). -/
def classFor (n : Nat) : Nat :=
  if n ≤ 4096 then 0 else if n ≤ 16384 then 1 else if n ≤ 65536 then 2 else if n ≤ 262144 then 3
  else if n ≤ 1048576 then 4 else 5

def Pool.count (p : Pool) (c : Nat) : Nat := p.counts.getD c 0

/-- Handles of the classes above `c`: where class `c`'s handles begin (R263). -/
def Pool.firstHandle (p : Pool) (c : Nat) : Nat := (p.counts.drop (c + 1)).foldl (· + ·) 0

/-- Where class `c` begins in the chest (R263). -/
def Pool.classBase (p : Pool) (c : Nat) : Nat :=
  ((List.range 6).filter (fun k => decide (c < k))).foldl (fun a k => a + p.count k * classSize k) 0

/-- The class of a handle, none for a handle that no class holds. -/
def Pool.classOf (p : Pool) (h : Nat) : Option Nat :=
  (List.range 6).find? (fun c => decide (p.firstHandle c ≤ h) && decide (h < p.firstHandle c + p.count c))

/-- The address and the size of a handle's buffer (R263). -/
def Pool.bufAddr (p : Pool) (h : Nat) : Nat :=
  match p.classOf h with
  | none => 0
  | some c => p.classBase c + (h - p.firstHandle c) * classSize c
def Pool.bufSize (p : Pool) (h : Nat) : Nat :=
  match p.classOf h with
  | none => 0
  | some c => classSize c

def Pool.descOf (p : Pool) (h : Nat) : Desc := mget (fun _ => {}) p.desc h
def Pool.freedOf (p : Pool) (c : Nat) : List Nat := mget (fun _ => []) p.freed c
def Pool.issuedOf (p : Pool) (c : Nat) : Nat := mget (fun _ => 0) p.issued c
/-- Free buffers of a class (CLASS_FREE). -/
def Pool.freeCount (p : Pool) (c : Nat) : Nat := (p.freedOf c).length + (p.count c - p.issuedOf c)
/-- The reserve of owner `o` in class `c` (R266). -/
def reserveReset (k : Nat) : Nat :=
  let o := k / 8
  let c := k % 8
  if o < 8 then (if c = 5 then 40 else if c = 4 then 16 else if c = 2 then 16 else 0)
  else if o = 8 ∧ c = 4 then 4096 else 0
def Pool.reserveOf (p : Pool) (o c : Nat) : Nat := mget reserveReset p.reserve (8 * o + c)
def Pool.occOf (p : Pool) (o c : Nat) : Nat := mget (fun _ => 0) p.occ (8 * o + c)
/-- The owners of R266. -/
def owners : List Nat := (List.range 9) ++ ((List.range 64).map (· + 16))
/-- Reserves of the other owners in class `c` that their occupancy does not meet. -/
def Pool.unmet (p : Pool) (o c : Nat) : Nat :=
  ((owners.filter (· != o)).map (fun q => p.reserveOf q c - p.occOf q c)).foldl (· + ·) 0
/-- may_take of R267. -/
def Pool.mayTake (p : Pool) (o c : Nat) : Bool :=
  if p.freeCount c = 0 then false
  else if p.occOf o c < p.reserveOf o c then true
  else decide (p.unmet o c < p.freeCount c)
/-- The first class from `c` upward that may_take allows. -/
def Pool.pickClass (p : Pool) (o c : Nat) : Option Nat :=
  ((List.range 6).drop c).find? (fun k => p.mayTake o k)
/-- The handle that class `c` issues next: the head of its free list.
(DESIGN CHOICE, log entry 29.) -/
def Pool.nextHandle (p : Pool) (c : Nat) : Nat :=
  match p.freedOf c with
  | h :: _ => h
  | [] => p.firstHandle c + p.issuedOf c
/-- The free list of class `c` without its head. -/
def Pool.popFree (p : Pool) (c : Nat) : Pool :=
  match p.freedOf c with
  | _ :: r => { p with freed := mset (fun _ => []) p.freed c r }
  | [] => { p with issued := mset (fun _ => 0) p.issued c (p.issuedOf c + 1) }
/-- Handle `h` of class `c` given to owner `o` with one reference. -/
def Pool.give (p : Pool) (o c h : Nat) : Pool :=
  { p with desc := mset (fun _ => {}) p.desc h ⟨1, o⟩, occ := mset (fun _ => 0) p.occ (8 * o + c) (p.occOf o c + 1) }

/-- A descriptor word as R264 lays it out. -/
def Pool.descWord (p : Pool) (h : Nat) : Nat :=
  let x := p.descOf h
  if 0 < x.count then 2 ^ 24 * x.count + x.owner
  else
    match p.classOf h with
    | none => 0
    | some c =>
      let next (k : Nat) : Nat := if k < p.firstHandle c + p.count c then k else 0xFFFFFF
      match (p.freedOf c).dropWhile (· != h) with
      | _ :: k :: _ => k
      | [_] => next (p.firstHandle c + p.issuedOf c)
      | [] => next (h + 1)

/-- Is the handle free: COUNT 0, and not withdrawn (R264, R270)? -/
def Pool.isFree (p : Pool) (h : Nat) : Bool := (p.descOf h).count == 0 && !p.lost.contains h

/-- An allocation (R267): the buffer granted, or none for NOBUF. Before the pool is configured nothing is granted. -/
def Dev.alloc (d : Dev) (o size : Nat) : Dev × Option Nat :=
  if !d.pool.configured || d.pool.applying.isSome then (d, none)
  else if 8388608 < size then (d.bump pgPool Reg.POOL.NOBUFS 1, none)
  else
    match d.pool.pickClass o (classFor size) with
    | none => (d.bump pgPool Reg.POOL.NOBUFS 1, none)
    | some c =>
      let h := d.pool.nextHandle c
      let d := { d with pool := (d.pool.popFree c).give o c h }
      let d := (d.bump pgPool Reg.POOL.ALLOCS 1).unit pgPool
      (if c = classFor size then d else d.bump pgPool Reg.POOL.FALLBACKS 1, some h)

/-- `k` buffers of `size` bytes for owner `o`, and the device that holds them; none when the pool answers NOBUF for
one of them (the caller then keeps the device as it was). -/
def Dev.allocN (d : Dev) (o size : Nat) : Nat → Dev × Option (List Nat)
  | 0 => (d, some [])
  | k + 1 =>
    match d.alloc o size with
    | (d1, none) => (d1, none)
    | (d1, some h) =>
      match d1.allocN o size k with
      | (d2, none) => (d2, none)
      | (d2, some hs) => (d2, some (h :: hs))

/-- Has one of the buffer's pages a zero-fill pending (R260)? -/
def Dev.bufFilling (d : Dev) (h : Nat) : Bool :=
  let p := d.pool.bufAddr h / 4096
  d.vmFill.any (fun e => decide (p ≤ e.1) && decide (e.1 < p + d.pool.bufSize h / 4096))

/-- A buffer freed (R269): its pages invalid, the buffer at the head of its class's free list, its owner's occupancy
lower; an occupancy already 0 stays 0 and is flagged (R270). -/
def Dev.freeBuf (d : Dev) (h : Nat) : Dev :=
  match d.pool.classOf h with
  | none => d
  | some c =>
    let o := (d.pool.descOf h).owner
    let under := d.pool.occOf o c == 0
    let p := { d.pool with desc := mdel h d.pool.desc,
                           freed := mset (fun _ => []) d.pool.freed c (h :: d.pool.freedOf c),
                           occ := mset (fun _ => 0) d.pool.occ (8 * o + c) (d.pool.occOf o c - 1),
                           domRefs := d.pool.domRefs.filter (fun e => e.1 % 2 ^ 24 != h) }
    let d := d.invalidate (d.pool.bufAddr h / 4096) (classSize c / 4096)
    let d := { d with pool := if under then { p with underflow := mset (fun _ => false) p.underflow o true } else p }
    let d := if under then d.errEvent pgPool errOwnerUnderflow else d
    d.bump pgPool Reg.POOL.FREES 1

/-- One reference added (R269): 255 is permanent, and is counted once when it is reached. -/
def Dev.incRef (d : Dev) (h : Nat) : Dev :=
  let x := d.pool.descOf h
  if x.count = 0 ∨ x.count = 255 then d
  else
    let d := d.unit pgPool
    let d := { d with pool := { d.pool with desc := mset (fun _ => {}) d.pool.desc h ⟨x.count + 1, x.owner⟩ } }
    if x.count = 254 then (d.bump pgPool Reg.POOL.SAT_PINNED 1).ev pgPool Reg.POOL.SAT_PIN else d

/-- The last reference is gone (R269): the buffer is freed, once no page of it has a zero-fill pending, since none is cleared before (R261). -/
def Dev.lastRef (d : Dev) (h : Nat) : Dev :=
  if d.bufFilling h then
    { d with pool := { d.pool with desc := mset (fun _ => {}) d.pool.desc h ⟨0, (d.pool.descOf h).owner⟩, dying := d.pool.dying ++ [h] } }
  else d.freeBuf h

/-- The frees that no zero-fill holds up any more complete. -/
def Dev.freeDying (d : Dev) : Dev :=
  let due := d.pool.dying.filter (fun h => !d.bufFilling h)
  due.foldl Dev.freeBuf { d with pool := { d.pool with dying := d.pool.dying.filter d.bufFilling } }

/-- One reference removed (R269); a handle not allocated is left alone. -/
def Dev.decRef (d : Dev) (h : Nat) : Dev :=
  let x := d.pool.descOf h
  if x.count = 0 ∨ x.count = 255 then d
  else if x.count = 1 then (d.unit pgPool).lastRef h
  else { d.unit pgPool with pool := { d.pool with desc := mset (fun _ => {}) d.pool.desc h ⟨x.count - 1, x.owner⟩ } }

/-- UB-2 and UB-8 reach the free list of the buffer's class (R417): it holds handles of the class that nothing tells, an allocated one
among them maybe.
(DESIGN CHOICE, log entry 17.) -/
def Dev.wildFree (d : Dev) (h : Nat) : Dev :=
  match d.pool.classOf h with
  | none => d
  | some c =>
    let p := d.pool
    let l := ((Config.freeHandles d.free).take (p.count c)).map (fun x => p.firstHandle c + x % p.count c)
    { d.nextFree with pool := { p with freed := mset (fun _ => []) p.freed c l, issued := mset (fun _ => 0) p.issued c (p.count c) } }

/-- References on a list of handles removed. -/
def Dev.decRefs (d : Dev) (hs : List Nat) : Dev := hs.foldl Dev.decRef d

/-! ### Functions, messages and completions (R279, R292 to R295) -/

def Dev.func (d : Dev) (f : Nat) : Func := mget (fun _ => {}) d.funcs f
def Dev.modFunc (d : Dev) (f : Nat) (g : Func → Func) : Dev := { d with funcs := mmod (fun _ => {}) d.funcs f g }
def Dev.sq (d : Dev) (q : Nat) : Sq := mget (fun _ => {}) d.sqs q
def Dev.modSq (d : Dev) (q : Nat) (g : Sq → Sq) : Dev := { d with sqs := mmod (fun _ => {}) d.sqs q g }
def Dev.cq (d : Dev) (q : Nat) : Cq := mget (fun _ => {}) d.cqs q
def Dev.modCq (d : Dev) (q : Nat) (g : Cq → Cq) : Dev := { d with cqs := mmod (fun _ => {}) d.cqs q g }


/-- Entries of a ring of a SIZE code (R283); 0 when disabled. -/
def ringEntries (size : Nat) : Nat := if size = 0 then 0 else 2 ^ (min size 9 + 3)

/-- The endpoint of a FUNC value (R300). -/
def funcEp (f : Nat) : Nat := f / 64

/-- `k` more bytes on the counter `f` of page `pg`, which counts whole MiB; the remainder is kept under `key`. -/
def Dev.countMib (d : Dev) (pg : PageId) (f : Fld) (key k : Nat) : Dev :=
  let x := mget (fun _ => 0) d.byteCnt key + k
  ({ d with byteCnt := mset (fun _ => 0) d.byteCnt key (x % 1048576) }).bump pg f (x / 1048576)

/-- The DMA instance that serves an endpoint's reads (0) or writes (1) (R303). -/
def dmaOf (e i : Nat) : Nat := 2 * e + i

/-- `k` bytes moved for function `f` by its endpoint's DMA; a transfer that meets Bus Master Enable 0 has waited (R303). -/
def Dev.moved (d : Dev) (f k : Nat) (write : Bool) : Dev :=
  let i := dmaOf (funcEp f) (b2n write)
  let d := (d.countMib (pgDma i) Reg.DMA.MIB (160 + i) k).unit (pgDma i)
  if (d.func f).bme then d else d.ev (pgDma i) Reg.DMA.BME_STALL

/-- The bytes of a request, and whether it writes. -/
def Out.dma : Out → Nat × Bool
  | .cplWrite _ _ l => (l.length, true)
  | .msix _ _ => (4, true)
  | .dataWrite _ _ _ l => (l.length, true)
  | .fetchRead _ _ n | .dataRead _ _ n => (n, false)
  | _ => (0, false)

/-- The state of an endpoint. -/
def Dev.ep (d : Dev) (e : Nat) : Endpt := mget (fun _ => {}) d.endpts e

/-- A transfer of `len` bytes cut into requests of at most `max` bytes that cross no 4 KiB boundary (R279): their addresses and lengths. -/
def readPieces : Nat → Nat → Nat → Nat → List (Nat × Nat)
  | 0, _, _, _ => []
  | f + 1, max, a, len =>
    if len = 0 then []
    else
      let k := min len (min max (4096 - a % 4096))
      (a, k) :: readPieces f max (a + k) (len - k)

/-- A request as the link carries it (R279): reads within Max Read Request Size, data writes within Max Payload Size, those with the
relaxed-ordering attribute where it is enabled. -/
def Out.pieces (c : PciCtl) : Out → List Out
  | .fetchRead f a n => (readPieces (n + 1) c.readReq a n).map (fun p => .fetchRead f p.1 p.2)
  | .dataRead f a n => (readPieces (n + 1) c.readReq a n).map (fun p => .dataRead f p.1 p.2)
  | .dataWrite f a _ l => (readPieces (l.length + 1) c.payload a l.length).map (fun p => .dataWrite f p.1 c.relaxed ((l.drop (p.1 - a)).take p.2))
  | o => [o]

/-- A transfer of function `f` is issued, or held in order while its Bus Master Enable is 0 (R279). -/
def Dev.issue (d : Dev) (f : Nat) (o : Out) : Dev :=
  let os := o.pieces (d.ep (funcEp f)).ctl
  let d := d.moved f o.dma.1 o.dma.2
  if (d.func f).bme then os.foldl Dev.emit d else d.modFunc f (fun x => { x with held := x.held ++ os })

/-- Vectors of the function (R294), as in force. -/
def Dev.vectorsOf (d : Dev) (f : Nat) : Nat :=
  if f % 64 = 0 then d.fget (pgMsix (funcEp f)) Reg.MSIX.PF_VECTORS else d.fget (pgMsix (funcEp f)) Reg.MSIX.VF_VECTORS

/-- EVT_RING and a RINGS_EVT bit of ring `q`. -/
def Dev.ringEvt (d : Dev) (q : Nat) (f : Fld) : Dev :=
  (d.ev (pgRings q) f).fset (pgRings q) Reg.RINGS.EVT_RING_RING (q % 512)

/-- An MSI-X message of a completion ring is due (R294): sent, held pending by its mask, or impossible. -/
def Dev.sendMsg (d : Dev) (q : Nat) : Dev :=
  let c := d.cq q
  let f := c.func
  if d.vectorsOf f ≤ c.vector then d.ringEvt q Reg.RINGS.BAD_VECTOR
  else if mget (fun _ => true) d.vecMasked (2048 * f + c.vector) then
    { d with vecPending := mset (fun _ => false) d.vecPending (2048 * f + c.vector) true }.bump
      (pgMsix (funcEp f)) Reg.MSIX.MASKED 1
  else (d.issue f (.msix f c.vector)).bump (pgMsix (funcEp f)) Reg.MSIX.MSGS 1

/-- An entry has been posted on ring `q` (R295): PENDING rises, and a message goes out when it reaches AGG_COUNT or
AGG_TIME is 0. With IRQ_EN 0 none is sent. -/
def Dev.aggregate (d : Dev) (q : Nat) : Dev :=
  let c := d.cq q
  let p := c.pendingMsg + 1
  if c.irqEn && (decide (max c.aggCount 1 ≤ p) || c.aggTime == 0) then
    (d.modCq q (fun x => { x with pendingMsg := 0 })).sendMsg q
  else d.modCq q (fun x => { x with pendingMsg := p % 4096 })

/-- Credits after one credit has returned to a ring (R288). -/
def Sq.credited (s : Sq) : Sq :=
  let s := { s with outstanding := s.outstanding - 1 }
  let grant := min s.creditReg (ringEntries s.size - 1)
  if s.credits + s.outstanding < grant then { s with credits := s.credits + 1 } else s

/-- The 32 bytes of a completion entry (R292). -/
def cplBytes (c : Cpl) (sqHead credits : Nat) (phase : Bool) (time : Nat) : List Byte :=
  bytesLE 8 c.result ++ bytesLE 4 c.residue ++ bytesLE 2 (sqHead % 4096) ++ bytesLE 2 (c.sq % 4096) ++ bytesLE 2 c.cid ++
  bytesLE 2 c.status ++ bytesLE 2 (credits % 4096) ++ bytesLE 1 (b2n phase) ++ bytesLE 1 0 ++ bytesLE 8 time

/-- A completion written at TAIL of its ring (R293); its credit returns first, so CREDITS reports it. -/
def Dev.postCpl (d : Dev) (q : Nat) (c : Cpl) : Dev :=
  let d := d.modSq c.sq (fun s => { s.credited with lastCid := c.cid })
  let r := d.cq q
  let s := d.sq c.sq
  let n := ringEntries r.size
  let d := d.issue r.func (.cplWrite r.func (2 ^ 32 * r.baseHi + r.baseLo * 32 + 32 * r.tail)
    (cplBytes c s.head s.credits r.phase d.now))
  let t := (r.tail + 1) % n
  let d := d.modCq q (fun x => { x with tail := t, phase := if t = 0 then !x.phase else x.phase })
  ((d.bump (pgRings q) Reg.RINGS.POSTED 1).unit (pgRings q)).aggregate q

/-- Entries in use on a completion ring. -/
def Cq.used (c : Cq) : Nat := (c.tail + ringEntries c.size - c.head) % ringEntries c.size

/-- Is the ring full: does it hold N − 1 entries (R293)? -/
def Cq.full (c : Cq) : Bool := decide (ringEntries c.size ≤ c.used + 1)

/-- A completion dropped (R284, R287): its credit returns and it is counted. -/
def Dev.dropCpl (d : Dev) (q : Nat) (c : Cpl) : Dev :=
  let d := d.modSq c.sq (fun s => { s.credited with lastCid := c.cid })
  (d.bump (pgRings q) Reg.RINGS.DROPPED 1).ringEvt q Reg.RINGS.CPL_DROPPED

/-- A completion is due (R293): dropped if its ring is disabled, held while the ring is full, posted otherwise. -/
def Dev.deliverCpl (d : Dev) (c : Cpl) : Dev :=
  let q := (d.sq c.sq).cq
  let r := d.cq q
  if r.size = 0 then d.dropCpl q c
  else if r.full || !r.held.isEmpty then
    (d.modCq q (fun x => { x with held := x.held ++ [c] })).ringEvt q Reg.RINGS.CQ_FULL
  else d.postCpl q c

/-! ### Status codes (R312) -/

def stSuccess : Nat := 0x00
def stInvalidOpcode : Nat := 0x01
def stInvalidField : Nat := 0x02
def stProtection : Nat := 0x03
def stNotReady : Nat := 0x04
def stSequence : Nat := 0x05
def stNotAtEnd : Nat := 0x06
def stHostMemory : Nat := 0x07
def stOutOfBuffer : Nat := 0x08
def stAborted : Nat := 0x09
def stFenced : Nat := 0x0A
def stTapeMark : Nat := 0x10
def stEndOfData : Nat := 0x11
def stBeginning : Nat := 0x12
def stPartitionFull : Nat := 0x13
def stWrongStream : Nat := 0x14
def stBlank : Nat := 0x15
def stWriteError : Nat := 0x20
def stNcfRefused : Nat := 0x21
def stInputUncorrectable : Nat := 0x22
def stDataCheck : Nat := 0x30
def stUnreadable : Nat := 0x31
def stCmError : Nat := 0x32
def stKeyZeroised : Nat := 0x33
def stKeyUnavailable : Nat := 0x34
def stTakeoverRefused : Nat := 0x40

/-- Is the status in the error group (R312)? -/
def stIsError (c : Nat) : Bool := !(c == 0 || (decide (0x10 ≤ c) && decide (c ≤ 0x15)))

end Sys2Proof.Machine
end

