-- ==== Sys2Proof/Machine/Sheets.lean ====
section
/-! DEFINITION. Sheets as a spoke holds them: their bytes, their C2 decoding, the ream accumulators, and what the
channels carry of them on tape (chapters 3, 4 and 6). -/

namespace Sys2Proof.Machine

/-! ### The bytes of a sheet -/

/-- The stored bytes of a list of pieces, from the chest. -/
def Dev.piecesBytes (d : Dev) : List Piece → List Byte
  | [] => []
  | p :: r => d.chestGet (d.pool.bufAddr p.handle + p.off) p.len ++ d.piecesBytes r

/-- The index of a sheet (R67): every byte of the index rows after the last entry is 0. -/
def Sheet.index (s : Sheet) : List Byte :=
  takePad 0 (4096 * indexRows s.entries.length)
    (indexBytes (sheetFlags s.early s.padded s.hostBuf.isSome) s.payloadEnd s.firstRecord s.entries)

/-- Rows 0 to 1,887 of a sheet as one byte string; bytes past its end are 0 (R65, R70). -/
def Dev.sheetPayload (d : Dev) (s : Sheet) : List Byte :=
  match s.kept, s.hostBuf, s.accBuf with
  | some l, _, _ => l
  | none, some h, _ => d.chestGet (d.pool.bufAddr h) payloadBytes
  | none, none, some h => d.chestGet (d.pool.bufAddr h) payloadBytes
  | none, none, none => s.index ++ (d.piecesBytes s.pieces ++ s.body)

/-- Row `r` of a payload. -/
def payloadRow (p : List Byte) (r : Nat) : List Byte := takePad 0 4096 (p.drop (4096 * r))

/-- Row `r` of a sheet, parity rows included (R65, R90). -/
def Dev.sheetRow (d : Dev) (s : Sheet) (r : Nat) : List Byte :=
  let p := d.sheetPayload s
  if r < payloadRows then payloadRow p r else c2ParityRow (payloadRow p) (r - payloadRows)

/-! ### The ream accumulators (R93) -/

/-- A byte string exclusive-ored into the chest from address `a`, each byte through `f`; zero bytes add nothing. -/
def Dev.xorInto (d : Dev) (f : Byte → Byte) : Nat → List Byte → Dev
  | _, [] => d
  | a, b :: r => (if b = 0 then d else d.chestPut a [d.chestByte a ^^^ f b]).xorInto f (a + 1) r

/-- Accumulator A`i` of ream `r`. -/
def Wr.acc (w : Wr) (r i : Nat) : Nat := w.accs.getD (2 * r + i) 0

/-- Data member `m` of ream `r` added to both accumulators (R93, step 2). Adding it again removes it (R160). -/
def Dev.accAdd (d : Dev) (n r m : Nat) (payload : List Byte) : Dev :=
  let w := (d.sp n).wr
  let d1 := d.xorInto id (d.pool.bufAddr (w.acc r 0)) payload
  d1.xorInto (c3Scale m) (d.pool.bufAddr (w.acc r 1)) payload

/-- Data member `m` of ream `r` taken out of the parity that its accumulators have already become (R160): both forms are linear. -/
def Dev.parityDrop (d : Dev) (b30 b31 m : Nat) (payload : List Byte) : Dev :=
  let d1 := d.xorInto (fun x => c3Parity30 x (c3Scale m x)) (d.pool.bufAddr b30) payload
  d1.xorInto (fun x => c3Parity31 x (c3Scale m x)) (d.pool.bufAddr b31) payload

/-- The byte places of two buffers that hold anything. -/
def Dev.heldPlaces (d : Dev) (a0 a1 : Nat) : List Nat :=
  (d.chest.filter (fun e => decide (a0 ≤ e.1) && decide (e.1 < a0 + payloadBytes))).map (fun e => e.1 - a0) ++
  (d.chest.filter (fun e => decide (a1 ≤ e.1) && decide (e.1 < a1 + payloadBytes))).map (fun e => e.1 - a1)

/-- Parity formed in place for one ream (R93 step 3, R158): member 30 in A1, member 31 in A0. -/
def Dev.formParity (d : Dev) (n r : Nat) : Dev :=
  let w := (d.sp n).wr
  let a0 := d.pool.bufAddr (w.acc r 0)
  let a1 := d.pool.bufAddr (w.acc r 1)
  (d.heldPlaces a0 a1).foldl (fun e b =>
    let x0 := d.chestByte (a0 + b)
    let x1 := d.chestByte (a1 + b)
    (e.chestPut (a1 + b) [c3Parity30 x0 x1]).chestPut (a0 + b) [c3Parity31 x0 x1]) d

/-! ### C2 decoding of the rows held (R94 to R96) -/

/-- The erasure classes of R94. -/
inductive RowClass where
  | good | suspect | erased | missing
  deriving DecidableEq, Repr

/-- The class of row `r`. A row delivered under an in-line cap of 0 is SUSPECT, converged or not (R98). -/
def rowClass (rows : SMap RowRec) (r : Nat) : RowClass :=
  match rows.find? (fun e => e.1 == r) with
  | none => .missing
  | some (_, x) => if x.suspect then .suspect else if x.converged then .good else .erased

/-- The code of a class in the erasure map (R94). -/
def RowClass.code : RowClass → Nat
  | .good => 0 | .suspect => 1 | .erased => 2 | .missing => 3

/-- A copy of a row arrives (R95): the first converged copy stays; until one has come, the highest MEAN_ABS_LLR does,
and the first of equal ones. -/
def addRow (rows : SMap RowRec) (r : Nat) (x : RowRec) : SMap RowRec :=
  match rows.find? (fun e => e.1 == r) with
  | none => mins r x rows
  | some (_, y) =>
    if y.converged then rows
    else if x.converged || decide (y.llr < x.llr) then mins r x (mdel r rows) else rows

/-- What decoding a sheet gives (R96): failed codewords (every one when `allFailed`), the headroom, the largest e, the
rows as corrected, and the GOOD or SUSPECT rows that a correction changed. -/
structure SheetDecode where
  allFailed : Bool
  failed : List Nat
  headroom : Nat
  maxErrors : Nat
  rows : SMap RowRec
  changed : List Nat
  erased : Nat
  deriving DecidableEq, Repr

/-- Codewords that failed. -/
def SheetDecode.failedCw (x : SheetDecode) : Nat := if x.allFailed then 2048 else x.failed.length

/-- Is the sheet resolved (R96)? -/
def SheetDecode.resolved (x : SheetDecode) : Bool := !x.allFailed && x.failed.isEmpty

/-- Byte `i` of a row replaced. -/
def setByte (l : List Byte) (i : Nat) (b : Byte) : List Byte := (takePad 0 (max l.length (i + 1)) l).set i b

/-- Symbol `w` of a row exclusive-ored with `v`. -/
def xorSymbol (l : List Byte) (w v : Nat) : List Byte :=
  let s := rowSymbol l w ^^^ v
  setByte (setByte l (2 * w) (BitVec.ofNat 8 (s / 256))) (2 * w + 1) (BitVec.ofNat 8 s)

/-- One codeword decoded and its corrections applied. -/
def decodeWord (limit : Nat) (era : List Nat) (acc : SheetDecode) (w : Nat) : SheetDecode :=
  let rx := (acc.rows.map (fun e => (e.1, rowSymbol e.2.data w))).filter (fun p => p.2 != 0)
  match c2DecodeWord limit era rx with
  | none => { acc with failed := acc.failed ++ [w] }
  | some (fix, e) =>
    let fix := fix.filter (fun p => p.2 != 0)
    let rows := fix.foldl (fun rs p =>
      match rs.find? (fun e => e.1 == p.1) with
      | none => mins p.1 { converged := false, suspect := false, llr := 0, data := xorSymbol [] w p.2 } rs
      | some (_, x) => mins p.1 { x with data := xorSymbol x.data w p.2 } (mdel p.1 rs)) acc.rows
    { acc with rows := rows, maxErrors := max acc.maxErrors e,
               headroom := min acc.headroom (160 - (2 * e + era.length)),
               changed := acc.changed ++ ((fix.map (·.1)).filter (fun r => !era.contains r && !acc.changed.contains r)) }

/-- The number of codewords that hold anything: those past it are zero codewords, which decode to themselves while the
erasures are within 160. -/
def usedWords (rows : SMap RowRec) : Nat := (rows.foldl (fun a e => max a e.2.data.length) 0 + 1) / 2

/-- C2 over a sheet's rows with the erased rows `era` (R96). -/
def c2Sheet (rows : SMap RowRec) (era : List Nat) (limit : Nat) : SheetDecode :=
  let base : SheetDecode := { allFailed := false, failed := [], headroom := 160 - era.length, maxErrors := 0,
                              rows := rows, changed := [], erased := era.length }
  if 160 < era.length then { base with allFailed := true, headroom := 0 }
  else
    let x := (List.range (min 2048 (usedWords rows))).foldl (decodeWord limit era) base
    if x.failed.isEmpty then x else { x with headroom := 0 }

/-- The erasures of an in-line decode: ERASED and MISSING rows (R96). -/
def inlineErasures (rows : SMap RowRec) : List Nat :=
  (List.range 2048).filter (fun r => match rowClass rows r with | .erased | .missing => true | _ => false)

/-! ### What a channel carries -/

/-- The 64 bits of place `k` of a bit string. -/
def chunk64 (l : List Bool) (k : Nat) : Nat := ofBitsMsb ((l.drop (64 * k)).take 64)

/-- The tone 0b1100 and the low tone 0b1111_0000, 64 bits of each (R64). -/
def tone64 : Nat := 0xCCCCCCCCCCCCCCCC
def lowTone64 : Nat := 0xF0F0F0F0F0F0F0F0

/-- The 37,056 bits of a segment (R59, R66): sync mark, scrambled header, scrambled codeword. -/
def segmentBitsOf (h : SegHeader) (c p : Nat) (row : List Byte) : List Bool :=
  syncMark ++ scrambleHeader c h.bits ++ scrambleCodeword h.sheet c p (c1Encode row)

/-- Frames of a sheet slot, of a rewrite area with `r` segment slots, of a segment (R141). -/
def slotFrames : Nat := 16 + 32 * 579 + 4
def areaFrames (r : Nat) : Nat := 8 + r * 579 + 4

end Sys2Proof.Machine
end

