-- ==== Sys2Proof/Machine/Sets.lean ====
section
/-! DEFINITION. The press's encode and decode sets (R117, R119) and its lead engines (R122), as the records in the press use them. -/

namespace Sys2Proof.Machine

/-! ### Sets (R119) -/

def Dev.encSet (d : Dev) (i : Nat) : PSet := mget (fun _ => {}) d.encSets i
def Dev.modEnc (d : Dev) (i : Nat) (f : PSet → PSet) : Dev := { d with encSets := mmod (fun _ => {}) d.encSets i f }
def Dev.decSet (d : Dev) (i : Nat) : PSet := mget (fun _ => {}) d.decSets i
def Dev.modDec (d : Dev) (i : Nat) (f : PSet → PSet) : Dev := { d with decSets := mmod (fun _ => {}) d.decSets i f }

/-- The encode set bound to a stream. -/
def Dev.encOf (d : Dev) (st : Nat) : Option Nat := (List.range 16).find? (fun i => (d.encSet i).stream == some st)
/-- The decode set bound to a stream. -/
def Dev.decOf (d : Dev) (st : Nat) : Option Nat := (List.range 16).find? (fun i => (d.decSet i).stream == some st)

/-- The encode set of a stream released (R119): what is still in the press goes on without far references. -/
def Dev.releaseEnc (d : Dev) (st : Nat) : Dev :=
  match d.encOf st with
  | none => d
  | some i =>
    let off (r : PRec) : PRec := if r.stream = st then { r with far := false, fin := .keep } else r
    { d.modEnc i (fun _ => {}) with recs := d.recs.map off }

/-- The decode set of a stream released, with the buffers of its history (R119, R130). -/
def Dev.releaseDec (d : Dev) (st : Nat) : Dev :=
  match d.decOf st with
  | none => d
  | some i => (d.decRefs (d.decSet i).bufs).modDec i (fun _ => {})

/-- A read that used the stream's decode set ended inside a record: no record follows in it (R129). -/
def Dev.spoilDec (d : Dev) (st : Nat) : Dev :=
  match d.decOf st with
  | none => d
  | some i => d.modDec i (fun s => { s with last := none })

/-- The tape in spoke `n` is another one, or its numbers begin anew: no decode set has just decoded anything there (R129). -/
def Dev.spoilSpoke (d : Dev) (n : Nat) : Dev :=
  (List.range 16).foldl (fun e i => e.modDec i (fun s => { s with last := s.last.filter (fun p => p.1 != n) })) d

/-- The end of a record for its stream's encode set. -/
def Dev.setEnd (d : Dev) (st : Nat) (x : SetEnd) : Dev :=
  match x with
  | .keep => d
  | .clear => (match d.encOf st with | some i => d.modEnc i (fun s => { s with ck := {} }) | none => d)
  | .release => d.releaseEnc st

/-- The index of the last record of a list that satisfies `f`. -/
def lastRec (f : PRec → Bool) (l : List PRec) : Option Nat :=
  ((List.range l.length).filter (fun i => match l[i]? with | some r => f r | none => false)).getLast?

/-- What becomes of a stream's encode set when what has been accepted so far is chunked (R117: in stream order): at once where the
fingerprint unit has done with every record of the stream, otherwise behind the last of them. -/
def Dev.setAfter (d : Dev) (st : Nat) (x : SetEnd) : Dev :=
  match lastRec (fun r => r.stream == st && r.far && !r.cut) d.recs with
  | none => d.setEnd st x
  | some i => { d with recs := d.recs.modify i (fun r => { r with fin := x }) }

/-- A record of an anchor begins a span in its stream's set (R117), or binds the lowest-numbered free set where the stream holds none
(R119). Which free set is taken the manual does not say.
(DESIGN CHOICE, log entry 29.) -/
def Dev.anchorEnc (d : Dev) (st : Nat) : Dev :=
  match d.encOf st with
  | some _ => d.setAfter st .clear
  | none =>
    match (List.range 16).find? (fun i => (d.encSet i).stream.isNone) with
    | none => d
    | some i => d.modEnc i (fun _ => { stream := some st })

/-! ### Lead engines (R122) -/

/-- A stream stops leading. -/
def Dev.dropLead (d : Dev) (st : Nat) : Dev :=
  match (d.stream st).lead with
  | none => d
  | some e => (d.modStream st (fun s => { s with lead := none })).fset (pgComp e) Reg.COMP.LEAD_STREAMS
      (d.fget (pgComp e) Reg.COMP.LEAD_STREAMS - 1)

/-- The session of spoke `n` is over: its streams' encode sets are released (R119), and they write no more, so none has a lead engine
(R122).
(DEDUCED, log entry 24.) -/
def Dev.writersDone (d : Dev) (n : Nat) : Dev :=
  ((d.streams.filter (fun p => p.2.spoke == n)).map (·.1)).foldl (fun e st => (e.releaseEnc st).dropLead st) d

/-- Does the fingerprint unit of engine `e` hold work: a record started and not wholly chunked of a stream that it leads? -/
def Dev.fpHolds (d : Dev) (e : Nat) : Bool := d.recs.any (fun r => r.started && !r.cut && !r.ncf && (d.stream r.stream).lead == some e)

/-- FP_BUSY of engine `e` shows it (R133). -/
def Dev.fpShow (d : Dev) (e : Nat) : Dev := d.fput (pgComp e) Reg.COMP.FP_BUSY (d.fpHolds e)

/-- FP_BUSY of every engine. -/
def Dev.fpShowAll (d : Dev) : Dev := (List.range 17).foldl Dev.fpShow d

/-- Records leave the press: the sets go on as though they had been chunked, and the fingerprint units no longer hold them. -/
def Dev.recsGone (d : Dev) (gone : List PRec) : Dev := (gone.foldl (fun e r => e.setEnd r.stream r.fin) d).fpShowAll

end Sys2Proof.Machine
end

