-- ==== Sys2Proof/Machine/Motion.lean ====
section
/-! DEFINITION. A spoke's motion: control-link messages, write inhibit, the cogs and the derailleur (R178 to R184),
the write buffer's watermarks (R46, R47), controlled stops and the ends of runs (R176, R185). -/

namespace Sys2Proof.Machine

/-! ### The control link -/

/-- Is spoke `n` fenced (R401)? -/
def Dev.fenced (d : Dev) (n : Nat) : Bool := bitAt (d.fget pgMgmt Reg.MGMT.FENCED) n

/-- The CRC-16 of the control link (R191). -/
def crc16 (l : List Byte) : Nat := crcBits 16 0x1021 0xFFFF (bytesBits l)

/-- A frame of the control link after its comma (R191): TYPE, SEQ, LEN, payload, CRC. -/
def linkFrame (type seq : Nat) (payload : List Byte) : List Byte :=
  let l := bytesBE 1 type ++ bytesBE 1 seq ++ bytesBE 1 payload.length ++ payload
  l ++ bytesBE 2 (crc16 l)

/-- Is a received frame well formed (R191): its CRC holds, LEN is at most 64 and tells its length, and the transport sends its TYPE? -/
def linkFrameOk (l : List Byte) : Bool :=
  let len := (byteAt l 2).toNat
  decide (len ≤ 64) && l.length == len + 5 && natBE (l.drop (l.length - 2)) == crc16 (l.take (l.length - 2)) &&
  [0x81, 0x82, 0x83, 0x84, 0x85].contains (byteAt l 0).toNat

/-- A message down the control link (R191, R192): SEQ counts frames, TX_FRAMES counts them too. A fenced spoke sends none
(R401). -/
def Dev.ctl (d : Dev) (n type : Nat) (payload : List Byte) : Dev :=
  let s := (d.sp n).drv.txSeq
  if d.fenced n then d
  else (((d.emit (.ctl n (linkFrame type s payload))).modDrv n (fun x => { x with txSeq := (s + 1) % 256 })).bump
    (pgLink n) Reg.LINK.TX_FRAMES 1).unit (pgLink n)

/-- A MECH message with operation `op` (R192). When operations 0x04 to 0x06 are sent no rule says: the model sends none.
(DESIGN CHOICE, log entry 33.) -/
def Dev.mech (d : Dev) (n op : Nat) : Dev := d.ctl n 0x05 (bytesBE 1 op)

/-- The head goes to logical wrap `l` (R57, R186): its direction, and between bands the coarse positioner moves, 2,029.2 µm
per band. -/
def Dev.headTo (d : Dev) (n l : Nat) : Dev :=
  let b := bandOfWrap l
  let old := bandOfWrap (d.sp n).drv.head
  let d := (d.fput (pgMotion n) Reg.MOTION.DIR (wrapForward l)).modDrv n (fun x => { x with head := l })
  if old = b then d else d.ctl n 0x03 (bytesBE 2 ((20292 * b) / 10))

/-- The PREAMP message that carries waveform band `k` (R192, SUB 0x01). -/
def Dev.preampBand (d : Dev) (n k : Nat) : Dev :=
  let pg := pgWriter n
  d.ctl n 0x04 (bytesBE 1 1 ++ bytesBE 1 (d.fget pg (Reg.WRITER.WCUR k)) ++ bytesBE 1 (d.fget pg (Reg.WRITER.OS_AMP k)) ++
    bytesBE 1 (d.fget pg (Reg.WRITER.OS_DUR k)) ++ bytesBE 1 (d.fget pg (Reg.WRITER.PRECOMP k)))

/-! ### Fence, mode and tiles -/

/-- The mode in force of a page (R23). -/
def Dev.mode (d : Dev) (pg : PageId) : Nat := d.fget pg Reg.HEADER.MODE_IN_FORCE

/-- Is the block of a page in service: neither retired nor disabled (R405, R429)? -/
def Dev.serviceable (d : Dev) (pg : PageId) : Bool := !d.fon pg Reg.HEADER.RETIRED && d.fon pg Reg.HEADER.ENABLE

/-- Is tile `t` of spoke `n`, a DETECT and DECODE pair, serviceable (R27)? -/
def Dev.tileOk (d : Dev) (n t : Nat) : Bool := d.serviceable (pgDetect n t) && d.serviceable (pgDecode n t)

/-- Serviceable tiles of a spoke. -/
def Dev.tiles (d : Dev) (n : Nat) : Nat := ((List.range 9).filter (d.tileOk n)).length

/-! ### Cogs (R178, R180, R200) -/

/-- A cog field as it acts: 0 as 1, 13 to 15 as 12 (R200). -/
def cogEff (c : Nat) : Nat := if c = 0 then 1 else min c 12

/-- The speed of a cog in mm/s (R178). -/
def cogSpeed (c : Nat) : Nat := [0, 4500, 4050, 3600, 3200, 2850, 2500, 2200, 1900, 1650, 1400, 1200, 1000].getD c 1000

/-- The highest cog of a throttle step (R24). -/
def stepCog (s : Nat) : Nat := [1, 2, 3, 4, 6, 8, 10, 12].getD s 12

/-- The tile cap of `k` serviceable tiles (R28); 0 when streaming is refused. -/
def tileCog (k : Nat) : Nat := [0, 0, 12, 9, 7, 6, 4, 3].getD k 1

/-- The cap in force: the slowest of the throttle cap, the tile cap and COG_LIMIT (R180). -/
def Dev.capOf (d : Dev) (n : Nat) : Nat :=
  let t := tileCog (d.tiles n)
  max (max (cogEff (d.fget (pgDr n) Reg.DERAILLEUR.THROTTLE_COG)) (if t = 0 then 12 else t))
    (cogEff (d.fget (pgDr n) Reg.DERAILLEUR.COG_LIMIT))

/-- The target at which a run starts: the cap, or in host-assisted speed selection the slower of COG_REQ and the cap
(R181, R183). -/
def Dev.startCog (d : Dev) (n : Nat) : Nat :=
  if d.mode (pgDr n) = 1 then max (cogEff (d.fget (pgDr n) Reg.DERAILLEUR.COG_REQ)) (d.capOf n) else d.capOf n

/-- A shift to cog `t` begins, or one in progress is re-planned (R180); while the tape does not stream the target is
recorded for the next run-up (R184). -/
def Dev.shiftTo (d : Dev) (n t : Nat) : Dev :=
  let d := d.modDrv n (fun x => { x with tgtCog := t })
  if (d.sp n).drv.streaming then
    ((d.fset (pgDr n) Reg.DERAILLEUR.TARGET_COG t).ev (pgDr n) Reg.DERAILLEUR.SHIFTING).fset (pgMotion n) Reg.MOTION.STATE 1
  else d

/-- The watermark rule's wish (R181, R182): 1 slower, −1 faster, 0 hold. -/
def shiftWish (down up : Bool) (target cap : Nat) : Int :=
  if down && decide (target < 12) then 1 else if up && decide (cap < target) then -1 else 0

/-- The derailleur's inputs of the run in progress (R181, R182): downshift and upshift conditions. -/
def Dev.shiftInputs (d : Dev) (n : Nat) : Bool × Bool :=
  let x := (d.sp n).drv
  if x.reading then
    let f := d.fget (pgDr n) Reg.DERAILLEUR.RA_FILL_MIB
    (decide (d.fget (pgDr n) Reg.DERAILLEUR.RA_HIGH ≤ f) && decide (x.raFillAtDone ≤ f),
     decide (f < d.fget (pgDr n) Reg.DERAILLEUR.RA_LOW) && decide (f ≤ x.raFillAtDone))
  else
    let f := d.fget (pgWriter n) Reg.WRITER.FILL_MIB
    (d.fon (pgWriter n) Reg.WRITER.BELOW_LOW && decide (f ≤ x.fillAtDone),
     decide (d.fget (pgWriter n) Reg.WRITER.WM_HIGH ≤ f) && decide (x.fillAtDone ≤ f))

/-- Is the pair that governs the run UB-5 (R46, R182)? -/
def Dev.pairBroken (d : Dev) (n : Nat) : Bool :=
  if (d.sp n).drv.reading then decide (d.fget (pgDr n) Reg.DERAILLEUR.RA_HIGH ≤ d.fget (pgDr n) Reg.DERAILLEUR.RA_LOW)
  else decide (d.fget (pgWriter n) Reg.WRITER.WM_HIGH ≤ d.fget (pgWriter n) Reg.WRITER.WM_LOW)

/-- A free cog choice within the cap: what UB-5, and UB-4 on the derailleur, leave undefined (R417).
(DESIGN CHOICE, log entry 18.) -/
def Dev.freeCog (d : Dev) (n : Nat) : Nat := let cap := d.capOf n; cap + d.freeVal % (13 - cap)

/-- The derailleur rule evaluated (R181, R182). -/
def Dev.drEval (d : Dev) (n : Nat) : Dev :=
  let pg := pgDr n
  let t := d.fget pg Reg.DERAILLEUR.TARGET_COG
  if !(d.sp n).drv.streaming || d.mode pg == 1 || d.fon pg Reg.DERAILLEUR.SHIFTING || d.fon pg Reg.DERAILLEUR.DWELL then d
  else if d.pairBroken n || d.unsettled pg then
    let c := d.freeCog n
    if c = t then d.nextFree else d.nextFree.shiftTo n c
  else
    let w := shiftWish (d.shiftInputs n).1 (d.shiftInputs n).2 t (d.capOf n)
    if w = 1 then (d.shiftTo n (t + 1)).ev pg Reg.DERAILLEUR.DOWNSHIFT
    else if w = -1 then (d.shiftTo n (t - 1)).ev pg Reg.DERAILLEUR.UPSHIFT
    else d

/-! ### Watermarks and PACE (R46, R47) -/

/-- The write buffer's fill in whole MiB, saturating. -/
def fillMib (bytes : Nat) : Nat := min 65535 (bytes / 1048576)

/-- The rule of R46: the new hysteresis state. -/
def paceRule (fill high low : Nat) (old : Bool) : Bool :=
  if high ≤ fill then true else if fill < low then false else old

/-- What PACE[n] shows (R47): 1 while fenced, else the hysteresis state. -/
def Dev.paceShown (d : Dev) (n : Nat) : Bool := d.fenced n || (d.sp n).wr.hyst

/-- The level of PACE[n] in WM_STAT. -/
def Dev.paceOut (d : Dev) (n : Nat) : Dev := d.fput (pgWriter n) Reg.WRITER.PACE (d.paceShown n)

/-- The hysteresis state set, with the crossing events (R47). -/
def Dev.setHyst (d : Dev) (n : Nat) (new : Bool) : Dev :=
  let old := (d.sp n).wr.hyst
  let d := d.modWr n (fun w => { w with hyst := new })
  if new && !old then d.ev (pgWriter n) Reg.WRITER.HIGH_CROSS
  else if old && !new then d.ev (pgWriter n) Reg.WRITER.LOW_CROSS else d

/-- A pair that is UB-5 leaves the hysteresis state, and so the pin, a free value (R46, R417).
(DESIGN CHOICE, log entry 18.) -/
def Dev.hystFree (d : Dev) (n : Nat) : Dev := d.nextFree.setHyst n (d.freeVal % 2 == 1)

/-- The pair evaluated on a change of FILL_MIB (R46). -/
def Dev.pairEval (d : Dev) (n fill : Nat) : Dev :=
  let pg := pgWriter n
  let low := d.fget pg Reg.WRITER.WM_LOW
  let high := d.fget pg Reg.WRITER.WM_HIGH
  let d := d.fput pg Reg.WRITER.BELOW_LOW (decide (fill < low))
  if high ≤ low then d.hystFree n
  else d.setHyst n (paceRule fill high low (d.sp n).wr.hyst)

/-- The bytes of the write buffer set to `b`: the pair and the derailleur are evaluated when FILL_MIB changes. -/
def Dev.setFill (d : Dev) (n b : Nat) : Dev :=
  let pg := pgWriter n
  let old := d.fget pg Reg.WRITER.FILL_MIB
  let d := d.modWr n (fun w => { w with fillBytes := b })
  if fillMib b = old then d
  else (((d.fset pg Reg.WRITER.FILL_MIB (fillMib b)).pairEval n (fillMib b)).paceOut n).drEval n

/-- WM_CFG has been written: a pair that is UB-5 now is so at once (R46), and the derailleur has a new input (R181). -/
def Dev.pairWritten (d : Dev) (n : Nat) : Dev :=
  let pg := pgWriter n
  let d := if d.fget pg Reg.WRITER.WM_HIGH ≤ d.fget pg Reg.WRITER.WM_LOW then (d.hystFree n).paceOut n else d
  d.drEval n

/-! ### Write inhibit (R147, R148) -/

/-- Does a condition of R147 hold? -/
def Dev.holdCond (d : Dev) (n : Nat) : Bool :=
  let w := (d.sp n).wr
  w.pesGood == 0 || w.shock || w.speedBad || d.fenced n || w.haltHold

/-- Writing is held off while a condition of R147 holds: SPn_WINH_N goes low by the hardwired path. -/
def Dev.evalHold (d : Dev) (n : Nat) : Dev :=
  if d.holdCond n && !(d.sp n).wr.winh then
    ((d.modWr n (fun w => { w with winh := true, gated0 := true, gated1 := true })).ev (pgWriter n) Reg.WRITER.INHIBIT).ev (pgWriter n) Reg.WRITER.INHIBIT_EVT
  else d

/-! ### Stops -/

/-- MOTION's state (R199). -/
def Dev.setMotion (d : Dev) (n st : Nat) : Dev := d.fset (pgMotion n) Reg.MOTION.STATE st

/-- The spoke no longer streams: CUR_COG and TARGET_COG read 0 (R179, R200). -/
def Dev.endStream (d : Dev) (n : Nat) : Dev :=
  let pg := pgDr n
  (((d.modDrv n (fun x => { x with streaming := false, reading := false })).clr pg Reg.DERAILLEUR.CUR_COG).clr pg
    Reg.DERAILLEUR.TARGET_COG).clr pg Reg.DERAILLEUR.SHIFTING |>.clr pg Reg.DERAILLEUR.DWELL

/-- The spoke streams at cog `c`, from a run-up (R179, R181). -/
def Dev.beginStream (d : Dev) (n c : Nat) (reading : Bool) : Dev :=
  let pg := pgDr n
  let f := d.fget (pgWriter n) Reg.WRITER.FILL_MIB
  let r := d.fget pg Reg.DERAILLEUR.RA_FILL_MIB
  let d := d.modDrv n (fun x => { x with streaming := true, reading := reading, tapeStopped := false, parked := false,
                                         turning := false, ctrlStop := false, atWrite := !reading, tgtCog := c, fillAtDone := f, raFillAtDone := r })
  ((d.fset pg Reg.DERAILLEUR.CUR_COG c).fset pg Reg.DERAILLEUR.TARGET_COG c).setMotion n 2

/-- A controlled stop (R176): tension held, writing gated off for its whole duration (R144). A tape at rest has no stop to make.
(DEDUCED, log entry 32.) -/
def Dev.controlledStop (d : Dev) (n : Nat) : Dev :=
  let d := (d.endStream n).modSp n (fun s => { s with rd := { s.rd with stopAt := none } })
  if (d.sp n).drv.tapeStopped then d
  else
  let d := d.modDrv n (fun x => { x with ctrlStop := true, turning := false, parked := false, runUp := false })
  let d := d.modWr n (fun w => { w with speedBad := true })
  ((d.setMotion n 6).ev (pgMotion n) Reg.MOTION.CTRL_STOP).evalHold n

/-- A controlled stop that breaks a write run (R153, R176): the slot in progress ends gated off, and no further slot begins.
(DEDUCED, log entry 32.) -/
def Dev.breakRun (d : Dev) (n : Nat) : Dev :=
  (d.modWr n (fun w => { w with stop := if w.running && w.stop == .none then .inhibitLoss else w.stop })).controlledStop n

/-- A read run ends as at a read stop (R182): the tape stops and is repositioned. -/
def Dev.readStop (d : Dev) (n : Nat) : Dev :=
  (d.controlledStop n).ev (pgDr n) Reg.DERAILLEUR.READ_STOP

/-- A read stop is due: the run goes on to the end of the sheet in progress, and over the two slots after it (R97, R182). -/
def Dev.readStopDue (d : Dev) (n : Nat) : Dev :=
  d.modSp n (fun s => { s with rd := { s.rd with stopAt := s.rd.stopAt.or (some s.rd.nextSheet) } })

/-- The caps of a spoke changed (R180): the cap is shown; a cap slower than the target moves the target at once; a tile
cap that forbids streaming ends the run as at a halt of R153. -/
def Dev.capEval (d : Dev) (n : Nat) : Dev :=
  let pg := pgDr n
  let d := (d.fset pg Reg.DERAILLEUR.TILE_COG (tileCog (d.tiles n))).fset pg Reg.DERAILLEUR.CAP_COG (d.capOf n)
  let x := (d.sp n).drv
  let d := if x.tgtCog < d.capOf n then
      let e := d.shiftTo n (d.capOf n)
      if x.streaming then e.ev pg Reg.DERAILLEUR.CAP_DROP else e
    else if d.mode pg == 1 && x.streaming && d.startCog n != x.tgtCog then d.shiftTo n (d.startCog n)
    else d.drEval n
  if tileCog (d.tiles n) = 0 && x.streaming then
    if x.reading then (d.readStopDue n).modSp n (fun s => { s with rd := { s.rd with stopped := true } })
    else d.modWr n (fun w => { w with stop := if w.stop = .none then .noTile else w.stop })
  else d

/-! ### Cartridge memory transfers (R193, R339) -/

/-- Requests of the transfer at the head that may be sent now: at most four outstanding. -/
def Dev.cmPump (d : Dev) (n : Nat) : Nat → Dev
  | 0 => d
  | k + 1 =>
    let x := (d.sp n).drv
    match x.cm with
    | [] => d
    | t :: rest =>
      if x.cmOut.length < 4 && t.next < t.len then
        let c := min 32 (t.len - t.next)
        let tag := x.cmTag
        let d := d.modDrv n (fun x => { x with cm := { t with next := t.next + c } :: rest, cmTag := (tag + 1) % 256,
                                               cmOut := x.cmOut ++ [⟨tag, t.next, c, 0⟩] })
        (d.ctl n 0x06 (bytesBE 1 tag ++ bytesBE 1 (b2n t.isWrite) ++ bytesBE 2 (t.off + t.next) ++ bytesBE 1 c ++
          (if t.isWrite then (t.data.drop t.next).take c else []))).cmPump n k
      else d

/-- A transfer queued; its requests are sent in their turn. -/
def Dev.cmStart (d : Dev) (n : Nat) (use : CmUse) (isWrite : Bool) (off len : Nat) (data : List Byte) : Dev :=
  let d := d.modDrv n (fun x => { x with cm := x.cm ++ [{ use := use, isWrite := isWrite, off := off, len := len, data := data }] })
  d.cmPump n 4

/-- The end-of-data table written, with partition `p`'s entry as given (R83). -/
def Dev.cmWriteEod (d : Dev) (n : Nat) (use : CmUse) (p : Nat) (e : EodEntry) : Dev :=
  let es := (takePad {} 4 (d.sp n).cart.eods).set p e
  let d := d.modCart n (fun c => { c with eods := es })
  d.cmStart n use true cmEod 512 (eodTableArea es)

/-- The usage area written (R196). -/
def Dev.cmWriteUsage (d : Dev) (n : Nat) : Dev :=
  d.cmStart n .usage true cmUsage 1024 (d.sp n).cart.usage.area

/-! ### Load and refusal (R194, R195) -/

/-- LOAD_STAT.PHASE. -/
def Dev.loadPhase (d : Dev) (n k : Nat) : Dev := d.fset (pgMotion n) Reg.MOTION.PHASE k
def Dev.phase (d : Dev) (n : Nat) : Nat := d.fget (pgMotion n) Reg.MOTION.PHASE
def Dev.setCart (d : Dev) (n k : Nat) : Dev := d.fset (pgMotion n) Reg.MOTION.CART_STATE k

/-- The cartridge is refused: unthreaded if it is threaded, and ejected. -/
def Dev.refuse (d : Dev) (n code : Nat) : Dev :=
  let pg := pgMotion n
  let d := ((((d.fset pg Reg.MOTION.REFUSE code).ev pg Reg.MOTION.REFUSED).setCart n 5).loadPhase n 0).modDrv n
    (fun x => { x with cm := [], cmOut := [], tapeStopped := true })
  let d := d.setMotion n 0
  if (d.sp n).drv.threaded then d.mech n 2 else d.mech n 3

end Sys2Proof.Machine
end

