-- ==== Sys2Proof/Machine/Complete.lean ====
section
/-! DEFINITION. Capacity (R334), completions with their qualifiers (R313), and the objects of a spoke that wait for
commitment (R159, R316, R320, R321). -/

namespace Sys2Proof.Machine

/-! ### Capacity (R81, R334) -/

/-- The partition in use: its first wrap and wrap count. -/
def Spoke.partDef (s : Spoke) : PartDef := s.cart.parts.getD s.sess.part ⟨0, 0⟩

/-- Is logical wrap `l` the last of the partition in use? -/
def Spoke.lastWrap (s : Spoke) (l : Nat) : Bool := l + 1 == s.partDef.firstWrap + s.partDef.wrapCount

/-- Slots of wrap `l` that can still take a data sheet after `used` slots and `run` micrometres (R58, R81). -/
def Spoke.wrapSlots (s : Spoke) (l used run : Nat) : Nat :=
  let z := zoneOfWrap l
  let u := bitsToUm z sheetBits
  let keep := if s.lastWrap l then 16 else 0
  min (slotsPerWrap z - keep - used) ((dataAreaEnd - dataAreaStart - run) / u - keep)

/-- The first sheet number not yet begun on tape. -/
def Spoke.firstUnbegun (s : Spoke) : Nat :=
  match (s.wr.dueQ.filter (fun p => p.2 == 0)).map (·.1) ++ s.wr.closedQ ++ s.wr.openSheet.toList with
  | k :: _ => k
  | [] => s.sess.nextSheet

/-- Sheets at positions 120 to 127 among `k` sheet numbers from `a`. -/
def parityAmong (a k : Nat) : Nat :=
  let f (x : Nat) := 8 * (x / 128) + (x % 128 - 120)
  f (a + k) - f a

/-- Data sheet slots left in the partition (R334). -/
def Spoke.slotsLeft (s : Spoke) : Nat :=
  let l := s.wr.wrap
  let rest := (List.range s.partDef.wrapCount).map (fun k =>
    let x := s.partDef.firstWrap + k
    if x < l then 0 else if x = l then s.wrapSlots x s.wr.slotsUsed s.wr.runUm else s.wrapSlots x 0 0)
  let slots := rest.foldl (· + ·) 0
  slots - parityAmong s.firstUnbegun slots

/-- The bytes placed in the open sheet. -/
def Wr.openBytes (w : Wr) : Nat :=
  match w.openSheet with
  | none => 0
  | some k => ((w.sheets.filter (fun s => s.num == k && s.copies.isEmpty)).map (·.payloadEnd)).foldl (· + ·) 0

/-- The charges of the objects accepted and not yet placed (R317). -/
def Wr.charges (w : Wr) : Nat := (w.objs.map (·.charge)).foldl (· + ·) 0

/-- The remaining bytes of R334. -/
def Spoke.bytesLeft (s : Spoke) : Nat := s.slotsLeft * 7725056 - s.wr.openBytes - s.wr.charges

/-! ### Completions -/

/-- Is an environmental hold on (R188)? -/
def Dev.envHold (d : Dev) (n : Nat) : Bool := d.fon (pgMotion n) Reg.MOTION.ENV_HOLD

/-- Is a cartridge loaded and ready (CART_STATE 3, R199)? -/
def Dev.cartState (d : Dev) (n : Nat) : Nat := d.fget (pgMotion n) Reg.MOTION.CART_STATE

/-- EARLY_WARNING: fewer than 1,024 data sheet slots left (R313). -/
def Dev.earlyWarning (d : Dev) (n : Nat) : Bool :=
  d.cartState n == 3 && (d.sp n).cart.initialised && decide ((d.sp n).slotsLeft < 1024)

/-- The qualifier bits of a completion of a command to `target` (R313), beside those its rule gives. -/
def Dev.qualifiers (d : Dev) (target : Nat) : Nat :=
  if target < 8 then 2 ^ 9 * b2n (d.envHold target) + 2 ^ 10 * b2n (d.earlyWarning target) + 2 ^ 11 * b2n (d.paceShown target)
  else 0

/-- The qualifiers that a rule gives: REDUCED_PROTECTION and TRUNCATED. -/
def qReduced : Nat := 2 ^ 8
def qTruncated : Nat := 2 ^ 12

/-- A command completes with CODE, RESULT and RESIDUE (R312, R314), and qualifiers `extra` of its own. -/
def Dev.completeX (d : Dev) (j : Job) (code result residue extra : Nat) : Dev :=
  { d with live := d.live.filter (fun p => p.1 != j.seq) }.deliverCpl ⟨j.hdr.sq, j.hdr.cid, result, min residue 0xFFFFFFFF, code + d.qualifiers j.hdr.target + extra⟩

/-- A command completes. -/
def Dev.complete (d : Dev) (j : Job) (code result residue : Nat) : Dev := d.completeX j code result residue 0

/-- A list of commands completes with one CODE. -/
def Dev.completeAll (d : Dev) (js : List Job) (code : Nat) : Dev := js.foldl (fun e j => e.complete j code 0 0) d

/-! ### Objects accepted and not committed -/

/-- Objects accepted, not yet committed and not failed, lowest first. -/
def Wr.uncommitted (w : Wr) : List Nat := w.placed.map (·.num) ++ w.objs.map (·.num)

/-- Is some object up to `k` not yet committed? -/
def Wr.waitsFor (w : Wr) (k : Nat) : Bool := w.uncommitted.any (fun o => decide (o ≤ k))

/-- The commands that wait for commitment of objects now all committed complete (R320). -/
def Dev.finishCommits (d : Dev) (n : Nat) : Dev :=
  let s := d.sp n
  let due := s.commitWaits.filter (fun p => !s.wr.waitsFor p.2.2)
  let d := d.modSp n (fun s => { s with commitWaits := s.commitWaits.filter (fun p => s.wr.waitsFor p.2.2) })
  due.foldl (fun e p => e.complete p.1 stSuccess p.2.1 0) d

/-- The lowest object that is not committed: among the failed and the waiting (R321). -/
def Spoke.lowestUncommitted (s : Spoke) : Nat :=
  (s.wr.failed.map (·.1) ++ s.wr.uncommitted).foldl min s.sess.nextObj

/-- The streams with an object in a ream whose accumulator read as uncorrectable lose C3 (R162): does a SYNC that
covers the placed objects carry REDUCED_PROTECTION? -/
def Wr.reduced (w : Wr) (covered : List Placed) : Bool :=
  covered.any (fun p => w.accFault.any (fun a =>
    (List.range (p.last + 1 - p.first)).any (fun k =>
      decide (sheetPos (p.first + k) < 120) && 4 * sheetBlock (p.first + k) + sheetReam (p.first + k) == a)))

end Sys2Proof.Machine
end

