-- ==== Sys2Proof/Machine/Write.lean ====
section
/-! DEFINITION. The writer of a spoke (chapters 3, 4 and 6): packing, sealing, sheet slots, rewrite areas, halts and
the close of a session. -/

namespace Sys2Proof.Machine

/-! ### Sheets held -/

/-- A sheet held, by its number. -/
def Wr.sheet? (w : Wr) (num : Nat) : Option Sheet := w.sheets.find? (fun s => s.num == num)

/-- A copy of a sheet held. -/
def Sheet.copy? (s : Sheet) (gen : Nat) : Option Copy := s.copies.find? (fun p => p.gen == gen)

/-- Are all verdicts of the copy in: one for every original and rewrite, or a CUT mark? -/
def Copy.verdictsIn (c : Copy) : Bool :=
  decide (2048 + c.rewrites.length ≤ c.verdicts.length + c.cuts.length)

/-- Has every verdict of the slot `cur` arrived (R153)? -/
def Wr.slotVerdictsIn (w : Wr) (cur : Nat × Nat) : Bool :=
  match (w.sheet? cur.1).bind (fun s => s.copy? cur.2) with
  | none => true
  | some c => c.verdictsIn

/-- A sheet held, changed. -/
def Wr.modSheet (w : Wr) (num : Nat) (f : Sheet → Sheet) : Wr :=
  { w with sheets := w.sheets.map (fun s => if s.num == num then f s else s) }

/-- C2 accumulator banks in use (R91). -/
def Wr.banksUsed (w : Wr) : Nat := (w.sheets.filter (·.bank)).length

/-- One entry per handle. -/
def dedup : List Nat → List Nat
  | [] => []
  | a :: r => if r.contains a then dedup r else a :: dedup r

/-- The buffers on which a sheet holds one reference each (R135, R158). -/
def Sheet.refs (s : Sheet) : List Nat :=
  dedup (s.pieces.map (·.handle)) ++ s.hostBuf.toList ++ s.accBuf.toList ++ s.idxBuf.toList ++ s.parBuf.toList

/-- PACK_SHEET, ENTRIES and INDEX_ROWS (R163). -/
def Dev.packRegs (d : Dev) (n : Nat) : Dev :=
  let s := d.sp n
  let pg := pgWriter n
  match s.wr.openSheet.bind s.wr.sheet? with
  | none => ((d.fset pg Reg.WRITER.PACK_SHEET s.sess.nextSheet).fset pg Reg.WRITER.ENTRIES 0).fset pg Reg.WRITER.INDEX_ROWS 2
  | some x => ((d.fset pg Reg.WRITER.PACK_SHEET x.num).fset pg Reg.WRITER.ENTRIES x.entries.length).fset pg
      Reg.WRITER.INDEX_ROWS (indexRows x.entries.length)

/-! ### Packing (R67 to R70, R135, R136) -/

/-- The first `k` bytes of a list of pieces, and the rest. -/
def splitPieces : List Piece → Nat → List Piece × List Piece
  | [], _ => ([], [])
  | p :: r, k =>
    if k = 0 then ([], p :: r)
    else if p.len ≤ k then ((p :: (splitPieces r (k - p.len)).1), (splitPieces r (k - p.len)).2)
    else ([{ p with len := k }], { p with off := p.off + k, len := p.len - k } :: r)

/-- Bytes of a list of pieces. -/
def piecesLen (l : List Piece) : Nat := (l.map (·.len)).foldl (· + ·) 0

/-- HOST_LENGTH of the stored bytes from `pos` to `pos + len` (R106): IN_LEN of the blocks whose header begins there. -/
def hostLenIn (blocks : List (Nat × Nat)) (pos len : Nat) : Nat :=
  ((blocks.filter (fun b => decide (pos ≤ b.1) && decide (b.1 < pos + len))).map (·.2)).foldl (· + ·) 0

/-- Where an extent must end so that its HOST_LENGTH stays within 32 bits (R69): before the block that would exceed it. -/
def hostFit : List (Nat × Nat) → Nat → Nat → Nat → Nat
  | [], _, len, _ => len
  | b :: r, pos, len, acc =>
    if b.1 < pos then hostFit r pos len acc
    else if pos + len ≤ b.1 then len
    else if 0xFFFFFFFF < acc + b.2 then b.1 - pos
    else hostFit r pos len (acc + b.2)

/-- A new open sheet whose first entry belongs to object `obj`. -/
def Dev.openNew (d : Dev) (n obj : Nat) : Dev :=
  let k := (d.sp n).sess.nextSheet
  let d := d.modWr n (fun w => { w with sheets := w.sheets ++ [{ num := k, kind := 1, firstRecord := obj, bank := true }],
                                        openSheet := some k })
  d.modSess n (fun s => { s with nextSheet := nextDataSheet k })

/-- An index buffer and a parity-row buffer for a sheet that has none yet (R135); none on NOBUF. -/
def Dev.takeSheetBufs (d : Dev) (n : Nat) (s : Sheet) : Option Dev :=
  if s.parBuf.isSome then some d
  else
    let r1 : Dev × Option (Option Nat) :=
      if s.hostBuf.isSome || s.accBuf.isSome then (d, some none)
      else match d.alloc n 65536 with
        | (d1, none) => (d1, none)
        | (d1, some h) => ((d1.chestPut (d1.pool.bufAddr h) s.index), some (some h))
    match r1 with
    | (_, none) => none
    | (d1, some idx) =>
      match d1.alloc n 1048576 with
      | (_, none) => none
      | (d2, some h) => some (d2.modWr n (fun w => w.modSheet s.num (fun s => { s with idxBuf := idx, parBuf := some h })))

/-- The pool has answered NOBUF to the spoke: packing stops until a closed sheet has its buffers (R93, R135, R272). -/
def Dev.packStops (d : Dev) (n : Nat) : Dev :=
  (d.bump pgPool Reg.POOL.NOBUFS 1).modWr n (fun w => { w with nobuf := true })

/-- The buffers of a sheet that has just closed, taken or waited for (R135). -/
def Dev.sheetClosed (d : Dev) (n k : Nat) : Dev :=
  match (d.sp n).wr.sheet? k with
  | none => d
  | some s =>
    match d.takeSheetBufs n s with
    | none => d.packStops n
    | some e => e

/-- The open sheet closed (R70, R135, R136): PADDED when the user area is not full, EARLY_CLOSE when the entry limit closed
it before. -/
def Dev.closeOpen (d : Dev) (n : Nat) (byLimit : Bool) : Dev :=
  match (d.sp n).wr.openSheet with
  | none => d
  | some k =>
    match (d.sp n).wr.sheet? k with
    | none => d
    | some s =>
      let padded := decide (s.payloadEnd < userArea (indexRows s.entries.length))
      let d := d.modWr n (fun w => { (w.modSheet k (fun s => { s with closed := true, padded := padded,
                                                                      early := byLimit && padded && s.entries.length == 4095 }))
                                     with openSheet := none, closedQ := w.closedQ ++ [k] })
      ((if padded then d.bump (pgWriter n) Reg.WRITER.PADDED_SHEETS 1 else d).packRegs n).sheetClosed n k

/-- Does the next entry of object `o` fit in sheet `s` (R70)? -/
def fits (o : Obj) (s : Sheet) : Bool :=
  if piecesLen o.pieces = 0 then roomForEmpty s.entries.length s.payloadEnd else roomFor s.entries.length s.payloadEnd

/-- The next entry of object `o`, for a sheet that has room for it: its stored length. -/
def entryLen (o : Obj) (s : Sheet) : Nat :=
  hostFit o.blocks o.done (min (piecesLen o.pieces) (userArea (indexRows (s.entries.length + 1)) - s.payloadEnd)) 0

/-- The entry itself (R68). -/
def entryOf (o : Obj) (s : Sheet) : IdxEntry :=
  let len := entryLen o s
  { mark := o.mark, first := !o.begun, last := len == piecesLen o.pieces, anchor := o.anchor && !o.begun, enc := o.enc,
    form := o.form, stream := o.stream, offset := s.payloadEnd, length := len,
    -- ciphertext from the host has no blocks that the device sees: its bytes count as they are stored (R106)
    hostLength := if o.form = 1 && o.enc && o.blocks.isEmpty then len else hostLenIn o.blocks o.done len }

/-- Object `o`, the oldest, gets its next entry in the open sheet `s`. A buffer split between two sheets carries one
reference for each; a buffer already in the sheet carries no second one. -/
def Dev.placeEntry (d : Dev) (n : Nat) (o : Obj) (s : Sheet) : Dev :=
  let e := entryOf o s
  let parts := splitPieces o.pieces e.length
  let held := s.pieces.map (·.handle)
  let newH := dedup ((parts.1.map (·.handle)).filter (fun h => !held.contains h))
  let keep := parts.2.map (·.handle)
  -- the object's own reference passes to the sheet unless a later piece still needs it
  let d := (newH.filter keep.contains).foldl Dev.incRef d
  let d := (dedup ((parts.1.map (·.handle)).filter (fun h => held.contains h && !keep.contains h))).foldl Dev.decRef d
  let first := if o.begun then o.firstSheet else s.num
  let o' : Obj := { o with pieces := parts.2, done := o.done + e.length, begun := true, firstSheet := first }
  let d := d.modWr n (fun w =>
    { (w.modSheet s.num (fun s => { s with entries := s.entries ++ [e], pieces := s.pieces ++ parts.1,
                                           payloadEnd := s.payloadEnd + e.length })) with
      objs := if e.last then w.objs.drop 1 else o' :: w.objs.drop 1,
      placed := if e.last then w.placed ++ [⟨o.num, o.stream, first, s.num⟩] else w.placed })
  let d := (d.setFill n ((d.sp n).wr.fillBytes - e.length)).packRegs n
  if e.last && (d.sp n).wr.syncAt == some o.num then
    (d.modWr n (fun w => { w with syncAt := none })).closeOpen n false
  else d

/-- The open sheet opened if a bank is free, and the entry placed in it. -/
def Dev.openAndPlace (d : Dev) (n : Nat) (o : Obj) : Dev :=
  if 2 ≤ (d.sp n).wr.banksUsed then d
  else
    let d := d.openNew n o.num
    match (d.sp n).wr.openSheet.bind (d.sp n).wr.sheet? with
    | none => d
    | some s => d.placeEntry n o s

/-- In a close, the sheet that has received the last entry to come closes too (R136). -/
def Dev.closeRest (d : Dev) (n : Nat) : Dev :=
  if (d.sp n).sess.closing.isSome && (d.sp n).wr.objs.isEmpty then d.closeOpen n false else d

/-- May the packer place an entry now: packing in hardware, neither halted nor fenced nor quiesced, no closed sheet waiting for
buffers (R23, R93, R135)? -/
def Dev.mayPack (d : Dev) (n : Nat) : Bool :=
  d.takesWork (pgWriter n) && d.mode (pgWriter n) != 1 && !d.fon (pgWriter n) Reg.WRITER.HALTED && !d.fenced n && !(d.sp n).wr.nobuf

/-- The packer places the next entry of the oldest object, once the press has finished its extents (R135). A sheet that
has no room for it is closed first (R70); while that one waits for its buffers nothing is placed. -/
def Dev.packPlace (d : Dev) (n : Nat) : Dev :=
  match (d.sp n).wr.objs with
  | [] => d
  | o :: _ =>
    if !o.ready || !d.mayPack n then d
    else
      let d := d.unit (pgWriter n)
      match (d.sp n).wr.openSheet.bind (d.sp n).wr.sheet? with
      | none => (d.openAndPlace n o).closeRest n
      | some s =>
        if fits o s then (d.placeEntry n o s).closeRest n
        else
          let d := d.closeOpen n true
          if (d.sp n).wr.nobuf then d else (d.openAndPlace n o).closeRest n

/-! ### Sealing (R91, R93) -/

/-- The eight accumulators of block `q` taken and cleared; a session-break sheet already on tape at its position 0 is
added again (R93: session-break sheets are data members where they stand). None on NOBUF. -/
def Dev.takeAccs (d : Dev) (n q : Nat) : Option Dev :=
  if (d.sp n).wr.block == some q && (d.sp n).wr.accs.length == 8 then some d
  else if (d.sp n).sess.sbRec.isNone && (d.sp n).sess.sbSheet == 128 * q && !(d.sp n).sess.closeBuilt then none
  else
    match d.allocN n 8388608 8 with
    | (_, none) => none
    | (d1, some hs) =>
      let d1 := d1.decRefs (d1.sp n).wr.accs
      let d1 := d1.modWr n (fun w => { w with accs := hs, block := some q })
      let pg := pgWriter n
      let d1 := ((d1.fset pg Reg.WRITER.C3_BLOCK q).clr pg Reg.WRITER.DAMAGED_REAMS).clr pg Reg.WRITER.NEXT_POS
      match (d1.sp n).sess.sbRec with
      | some r =>
        if (d1.sp n).sess.sbSheet = 128 * q ∧ !(d1.sp n).sess.closeBuilt then
          let x : Sheet := { num := 128 * q, kind := 3, firstRecord := r.nextRecord, payloadEnd := 64, padded := true, body := r.bytes }
          some ((d1.accAdd n 0 0 (d1.sheetPayload x)).fset pg Reg.WRITER.NEXT_POS 1)
        else some d1
      | none => some d1

/-- A ream parity sheet of block `q` at position `120 + i`: member 30 of reams 0 to 3, then member 31 (R75, R158). -/
def paritySheet (w : Wr) (q i : Nat) : Sheet :=
  { num := 128 * q + 120 + i, kind := 2, closed := true,
    accBuf := some (w.acc (i % 4) (if i < 4 then 1 else 0)) }

/-- Parity formed in every ream, and the block's eight parity sheets put in line to be sealed, before the sheets of the
next block (R93, R158). The accumulators are the parity sheets' buffers from here on. -/
def Dev.parityPhase (d : Dev) (n q : Nat) : Dev :=
  let d := [0, 1, 2, 3].foldl (fun e r => e.formParity n r) d
  let d := d.modWr n (fun w =>
    let ps := (List.range 8).map (paritySheet w q)
    { w with sheets := w.sheets ++ ps, closedQ := ps.map (·.num) ++ w.closedQ, accs := [] })
  (d.fset (pgWriter n) Reg.WRITER.NEXT_POS 120).ev (pgWriter n) Reg.WRITER.PARITY_PHASE

/-- What follows the sealing of sheet `s`: its position, the block's end, the parity phase. -/
def Dev.afterSeal (d : Dev) (n : Nat) (s : Sheet) : Dev :=
  let pg := pgWriter n
  let p := sheetPos s.num
  let d := d.fset pg Reg.WRITER.NEXT_POS ((p + 1) % 128)
  if p = 119 then d.parityPhase n (sheetBlock s.num)
  else if p = 127 then (d.clr pg Reg.WRITER.PARITY_PHASE).ev pg Reg.WRITER.BLOCK_CLOSED
  else d

/-- What the packer of a writer that was changed while it worked has made of a sheet is a free value (UB-4).
(DESIGN CHOICE, log entry 17.) -/
def Dev.packedFree (d : Dev) (n : Nat) (s : Sheet) : Dev × Sheet :=
  if !d.unsettled (pgWriter n) then (d, s)
  else
    let l := freeBytes d.freeVal payloadBytes
    (d.nextFree.modWr n (fun w => w.modSheet s.num (fun x => { x with kept := some l })), { s with kept := some l })

/-- The sheet sealed, with every buffer it needs granted. -/
def Dev.sealWith (d : Dev) (n : Nat) (s : Sheet) : Dev :=
  let p := d.packedFree n s
  let d := if s.kind = 2 then p.1 else p.1.accAdd n (sheetReam s.num) (sheetMember s.num) (p.1.sheetPayload p.2)
  let d := d.modWr n (fun w =>
    { (w.modSheet s.num (fun s => { s with sealedF := true, bank := true })) with
      closedQ := w.closedQ.filter (· != s.num), dueQ := w.dueQ ++ [(s.num, 0)], nobuf := false })
  (d.bump (pgWriter n) Reg.WRITER.C2ENC_CNT 1).afterSeal n s

/-- Is there a C2 bank for the sheet: the one it was packed in, or a free one (R91)? -/
def Wr.bankFor (w : Wr) (s : Sheet) : Bool := s.bank || decide (w.banksUsed < 2)

/-- The oldest closed sheet sealed (R91), if a bank is free and the pool grants its index and parity-row buffers and,
for the first sheet of a block, the eight accumulators; on NOBUF it stays closed and packing stops (R93, R272). -/
def Dev.sealNext (d : Dev) (n : Nat) : Dev :=
  match (d.sp n).wr.closedQ with
  | [] => d
  | k :: _ =>
    match (d.sp n).wr.sheet? k with
    | none => d
    | some s =>
      if !(d.sp n).wr.bankFor s then d
      else
        match (if s.kind = 2 then some d else d.takeAccs n (sheetBlock k)).bind (fun e => e.takeSheetBufs n s) with
        | none => d.packStops n
        | some e => e.sealWith n s

/-! ### Releases -/

/-- Every buffer of a sheet released: a settled or discarded sheet (R158, R160). Where a copy of it is still due, its bytes `keep` go
on with it (R157, R74).
(DESIGN CHOICE, log entry 47.) -/
def Dev.dropSheetRefs (d : Dev) (n num : Nat) (keep : Bool) : Dev :=
  match (d.sp n).wr.sheet? num with
  | none => d
  | some s =>
    let l := if keep then some (d.sheetPayload s) else none
    (d.decRefs s.refs).modWr n (fun w => w.modSheet num (fun s =>
      { s with pieces := [], hostBuf := none, accBuf := none, idxBuf := none, parBuf := none, kept := l,
               bank := s.bank && keep }))

/-- The C2 bank of a sheet freed: every parity row has entered the C1 encoder and stands in the parity-row buffer (R91,
R135). -/
def Dev.bankRelease (d : Dev) (n num : Nat) : Dev :=
  match (d.sp n).wr.sheet? num with
  | none => d
  | some s =>
    if !s.bank then d
    else
      let d := match s.parBuf with
        | none => d
        | some h => (List.range 160).foldl (fun e k => e.chestPut (d.pool.bufAddr h + 4096 * k) (d.sheetRow s (1888 + k))) d
      d.modWr n (fun w => w.modSheet num (fun s => { s with bank := false }))

/-! ### Objects dropped (R159, R160, R316, R317) -/

/-- A command that waits for commitment of one of the objects `os` completes with `code`; objects without such a command
are kept for the next SYNC. -/
def Dev.failObjects (d : Dev) (n code : Nat) (os : List Nat) : Dev :=
  let s := d.sp n
  let hit (p : Job × Nat × Nat) := os.any (fun o => decide (p.2.1 ≤ o) && decide (o ≤ p.2.2))
  let mine := s.commitWaits.filter hit
  let rest := os.filter (fun o => !s.commitWaits.any (fun p => decide (p.2.1 ≤ o) && decide (o ≤ p.2.2)))
  let d := d.modSp n (fun s => { s with commitWaits := s.commitWaits.filter (fun p => !hit p),
                                        failSeq := if os.isEmpty then s.failSeq else d.jobSeq,
                                        wr := { s.wr with failed := s.wr.failed ++ rest.map (fun o => (o, code)) } })
  mine.foldl (fun e p => e.complete p.1 code p.2.1 0) d

/-- The pieces of an object not placed are released. -/
def Dev.dropObj (d : Dev) (o : Obj) : Dev := d.decRefs (dedup (o.pieces.map (·.handle)))

/-- Has the sheet begun on tape? -/
def Wr.hasBegun (w : Wr) (num : Nat) : Bool :=
  match w.sheet? num with
  | none => true
  | some s => !s.copies.isEmpty

/-- The contribution of a sealed data sheet removed from the accumulators by adding it again (R160), also where they have become the
ream's parity since. -/
def Dev.unAdd (d : Dev) (n : Nat) (s : Sheet) : Dev :=
  let w := (d.sp n).wr
  let r := sheetReam s.num
  if !s.sealedF || s.kind != 1 then d
  else if w.block == some (sheetBlock s.num) && w.accs.length == 8 then d.accAdd n r (sheetMember s.num) (d.sheetPayload s)
  else
    match (w.sheet? (memberSheet (sheetBlock s.num) r 30)).bind (·.accBuf), (w.sheet? (memberSheet (sheetBlock s.num) r 31)).bind (·.accBuf) with
    | some a, some b => d.parityDrop a b (sheetMember s.num) (d.sheetPayload s)
    | _, _ => d

/-- Records leave the press unfinished: their landed bytes are released, and the engines that code their blocks are free. -/
def Dev.dropRecs (d : Dev) (f : PRec → Bool) : Dev :=
  let gone := d.recs.filter f
  let d := gone.foldl (fun e r => e.decRefs (dedup (r.src.map (·.handle)))) d
  let busy := (gone.map (fun r => r.blks.filterMap (fun b => match b.st with | .coding e => some e | _ => none))).flatten
  let d := busy.foldl (fun e k => e.clr (pgComp k) Reg.COMP.ACTIVE) d
  { d with recs := d.recs.filter (fun r => !f r) }.recsGone gone

/-- Has the press nothing to make of a record that ends here: no byte of it was supplied (R104), or every block supplied is placed? -/
def PRec.bare (r : PRec) : Bool := piecesLen r.src == 0 || (r.ncf && r.blks.isEmpty)

/-- The open record of a spoke ends at its last accepted byte (R412): no later part comes. A record stored as supplied is
whole then; one in the press is whole when the press has finished it. -/
def Dev.endRecord (d : Dev) (n : Nat) : Dev :=
  match (d.sp n).recStream with
  | none => d
  | some st =>
    let inPress (k : Nat) : Bool := d.recs.any (fun r => r.spoke == n && r.num == some k && !(r.more && r.bare))
    let d := d.modWr n (fun w => { w with objs := w.objs.map (fun o =>
      if o.stream == st && !o.ready && !o.dead && !inPress o.num then { o with ready := true } else o) })
    let d := d.dropRecs (fun r => r.stream == st && r.more && r.bare)
    let d : Dev := { d with recs := d.recs.map (fun (r : PRec) => if r.stream == st then { r with more := false, cut := r.cut || r.ncf } else r) }
    (d.modStream st (fun s => { s with recOpen := false })).modSp n (fun s => { s with recStream := none })

/-- Data sheets sealed, closed or open that have not begun are not written (R81, R160): their contributions leave the
accumulators, their numbers are absent, and every object not wholly in sheets begun fails with `code`. The end of data
falls to the object after the last one written. -/
def Dev.discardUnwritten (d : Dev) (n code : Nat) : Dev :=
  let w := (d.sp n).wr
  let gone := w.sheets.filter (fun s => s.kind == 1 && s.copies.isEmpty)
  let d := gone.foldl (fun e s => e.unAdd n s) d
  let d := gone.foldl (fun e s => e.dropSheetRefs n s.num false) d
  let d := w.objs.foldl Dev.dropObj d
  let lostP := w.placed.filter (fun p => !w.hasBegun p.last || gone.any (fun s => s.num == p.last))
  let lost := lostP.map (·.num) ++ w.objs.map (·.num)
  let isGone (k : Nat) := gone.any (fun s => s.num == k)
  let d := d.modWr n (fun w => { w with sheets := w.sheets.filter (fun s => !isGone s.num), openSheet := none,
                                        closedQ := w.closedQ.filter (fun k => !isGone k),
                                        dueQ := w.dueQ.filter (fun p => !isGone p.1),
                                        objs := [], placed := w.placed.filter (fun p => !lostP.contains p), syncAt := none,
                                        nobuf := false })
  let d := d.dropRecs (fun r => r.spoke == n && (match r.num with | some k => lost.contains k | none => false))
  let d := d.failObjects n code lost
  let d := d.modSess n (fun s => { s with nextObj := lost.foldl min s.nextObj })
  let d := d.modSp n (fun s => { s with posObj := if s.posPart = s.sess.part then min s.posObj s.sess.nextObj else s.posObj })
  (d.setFill n 0).packRegs n

/-! ### Halts (R159) -/

/-- Objects accepted and not committed complete with WRITE_ERROR, and a SYNC in progress with them. -/
def Dev.reportHalt (d : Dev) (n : Nat) : Dev :=
  let d := d.endRecord n
  let s := d.sp n
  let keyed := ((s.wr.placed.map (fun p => (p.num, p.stream)) ++ s.wr.objs.map (fun o => (o.num, o.stream))).filter
    (fun p => (d.stream p.2).zeroised)).map (·.1)
  let d := d.failObjects n stKeyZeroised keyed
  let d := d.failObjects n stWriteError (s.wr.uncommitted.filter (fun o => !keyed.contains o))
  match s.cur with
  | some j =>
    match j.op with
    | .sync => (d.modSp n (fun s => { s with cur := none, wr := { s.wr with failed := [] } })).complete j
        (if keyed.isEmpty then stWriteError else stKeyZeroised) s.lowestUncommitted 0
    | _ => d
  | none => d

/-- The slot in progress at a halt is finished before writing is held off (R153, R159). Where its postamble has been written, and its
area fixed, the closing pattern and the last area follow that area.
(DESIGN CHOICE, log entry 48.) -/
def Wr.haltAfter (w : Wr) : Wr :=
  let done : Bool := match w.slot.bind (fun p => (w.sheet? p.1).bind (fun s => s.copy? p.2)) with
    | some c => c.postambled
    | none => false
  let w := { w with stop := .halt, slotDue := false }
  if !done || w.ending || w.lane0.contains .closing || w.lane1.contains .closing then w
  else { w with lane0 := w.lane0 ++ [.closing], lane1 := w.lane1 ++ [.closing] }

/-- The spoke halts (R159) with CAUSE and HALT_SHEET: no further slot begins, the slot in progress is finished, and
writing is then held off. -/
def Dev.halt (d : Dev) (n cause sheet : Nat) : Dev :=
  if d.fon (pgWriter n) Reg.WRITER.HALTED then d
  else
    let pg := pgWriter n
    let d := (((d.ev pg Reg.WRITER.HALTED).ev pg Reg.WRITER.HALT).fset pg Reg.WRITER.CAUSE cause).fset pg
      Reg.WRITER.HALT_SHEET sheet
    let d := d.reportHalt n
    if (d.sp n).wr.slot.isSome then d.modWr n Wr.haltAfter
    else
      let d := d.modWr n (fun w => { w with haltHold := true, slotDue := false })
      if (d.sp n).drv.streaming && !(d.sp n).drv.reading then
        ((d.modWr n (fun w => { w with running := false })).modDrv n (fun x => { x with atWrite := false })).controlledStop n
      else d.evalHold n

/-! ### Closing a session (R78 to R81, R160) -/

/-- The close record that a sheet of the close carries (R79). -/
def Dev.closeRec (d : Dev) (n kind copy reason sb : Nat) : CloseRec :=
  let s := (d.sp n).sess
  { closeKind := kind, reason := reason, copy := copy, part := s.part, timebase := d.now, nextRecord := s.nextObj,
    lastDataSheet := s.lastData, session := s.session, sessionSheet := sb }

/-- The session-break sheet and the two end-of-data sheets at positions 0, 1 and 2 of the block whose first sheet is
`sb`, put in line to be sealed (R78). -/
def Dev.closeSheets (d : Dev) (n reason sb : Nat) : Dev :=
  let mk (k num : Nat) (r : CloseRec) : Sheet :=
    { num := num, kind := k, firstRecord := (d.sp n).sess.nextObj, payloadEnd := 64, padded := true, body := r.bytes, closed := true }
  let r0 := d.closeRec n 1 0 reason sb
  let new := [mk 3 sb r0, mk 4 (sb + 1) (d.closeRec n 2 0 reason sb), mk 4 (sb + 2) (d.closeRec n 2 1 reason sb)]
  let d := d.modWr n (fun w => { w with sheets := w.sheets ++ new, closedQ := w.closedQ ++ new.map (·.num) })
  d.modSess n (fun s => { s with closeBuilt := true, sbSheet := sb, sbRec := some r0, nextSheet := sb + 3 })

/-- Does a data sheet wait for its slot? -/
def Wr.dataDue (w : Wr) : Bool :=
  w.dueQ.any (fun p => p.2 == 0 && (match w.sheet? p.1 with | some s => s.kind == 1 | none => false))

/-- R78's steps 2 to 4 once every data sheet due has begun: the parity of the block begun, then the close sheets. -/
def Dev.advanceClose (d : Dev) (n : Nat) : Dev :=
  let s := d.sp n
  match s.sess.closing with
  | none => d
  | some reason =>
    if s.sess.closeBuilt || !s.wr.objs.isEmpty || s.wr.openSheet.isSome || !s.wr.closedQ.isEmpty || s.wr.dataDue then d
    else
      -- the highest sheet sealed to be written decides the block
      let top := (s.wr.dueQ.map (·.1)).foldl max s.sess.topSheet
      let q := sheetBlock top
      let sb := 128 * (q + 1)
      if sheetPos top < 120 then
        match d.takeAccs n q with
        | none => d.packStops n
        | some e => (e.parityPhase n q).closeSheets n reason sb
      else d.closeSheets n reason sb

/-- A session close begins (R78) with `reason`: the open sheet closes if it holds an entry; after a halt the sheets not
written are given up (R160). Nothing happens while a close is in progress or no session is open. -/
def Dev.beginClose (d : Dev) (n reason : Nat) : Dev :=
  let s := d.sp n
  if !s.sess.isOpen || s.sess.closing.isSome then d
  else
    let d := d.modSess n (fun s => { s with closing := some reason, closeBuilt := false, eodFailed := false })
    let d := if d.fon (pgWriter n) Reg.WRITER.HALTED then
        (d.discardUnwritten n stWriteError).modWr n (fun w => { w with haltHold := false, dueQ := w.dueQ.filter (fun p => p.2 == 0) })
      else d.closeOpen n false
    d.advanceClose n

/-- The partition is full at the next data sheet (R81, R317): the session closes with reason 0x04. -/
def Dev.partitionFull (d : Dev) (n : Nat) : Dev :=
  let d := d.closeOpen n false
  let d := d.discardUnwritten n stPartitionFull
  let d := d.modSess n (fun s => { s with closing := some (s.closing.getD 4), closeBuilt := s.closeBuilt })
  d.advanceClose n

/-- The session has closed (R78, R158, R331): HALTED clears, and CAUSE with it, the accumulators of the block begun by the close are
released, and the commands that wait for the close are answered.
(DESIGN CHOICE, log entry 29.) -/
def Dev.sessionClosed (d : Dev) (n : Nat) : Dev :=
  let pg := pgWriter n
  let d := d.decRefs (d.sp n).wr.accs
  let d := d.modWr n (fun w => { w with accs := [], block := none, haltHold := false, cands := [], failed := w.failed, nobuf := false })
  let d := d.modSess n (fun s => { s with isOpen := false, closing := none, closeBuilt := false, eodInvalid := false,
                                          formatting := false })
  ((d.clr pg Reg.WRITER.HALTED).clr pg Reg.WRITER.CAUSE).writersDone n

/-! ### Sheet slots (R137, R145, R152, R153) -/

/-- REWRITE_BUDGET and DEAD_MAX as the next slot begun takes them (R163). -/
def Dev.budget (d : Dev) (n : Nat) : Nat := min 4 (d.fget (pgWriter n) Reg.WRITER.REWRITE_BUDGET)
def Dev.deadMax (d : Dev) (n : Nat) : Nat := min 5 (d.fget (pgWriter n) Reg.WRITER.DEAD_MAX)

/-- The dead channels as one bit map. -/
def Dev.deadMap (d : Dev) (n : Nat) : Nat :=
  d.fget (pgWriter n) Reg.WRITER.DEAD_MAP_LO + 2 ^ 32 * d.fget (pgWriter n) Reg.WRITER.DEAD_MAP_HI

/-- The usage counters changed (R462). -/
def Dev.modUsage (d : Dev) (n : Nat) (f : Usage → Usage) : Dev := d.modCart n (fun c => { c with usage := f c.usage })

/-- What the beginning of a slot records of sheet `s` in the session: the highest sheet, the highest data sheet, the
place of end-of-data copy 0. -/
def Sess.begins (x : Sess) (s : Sheet) (gen wrap tpw : Nat) (done : List Placed) : Sess :=
  let x := { x with topSheet := max x.topSheet s.num,
                    lastData := if s.kind = 1 ∧ !s.entries.isEmpty then (if x.lastData = 0xFFFFFFFF then s.num else max x.lastData s.num)
                      else x.lastData,
                    writtenObj := (done.filter (fun p => decide (p.last ≤ s.num))).foldl (fun a p => max a (p.num + 1)) x.writtenObj }
  if s.kind = 4 ∧ gen = 0 ∧ s.num = x.sbSheet + 1 then { x with eodTpw := tpw, eodWrap := wrap } else x

/-- The sheet slot at the head of the line begins: its preamble carries a pending waveform band. -/
def Dev.beginSlot (d : Dev) (n : Nat) : Dev :=
  match (d.sp n).wr.dueQ with
  | [] => d
  | (k, g) :: rest =>
    match (d.sp n).wr.sheet? k with
    | none => d.modWr n (fun w => { w with dueQ := rest })
    | some s =>
      let pg := pgWriter n
      let w := (d.sp n).wr
      let band := d.fget pg Reg.WRITER.BAND
      let tpw := (d.sp n).drv.tpw
      let d := if w.bandPending then d.preampBand n band else d
      let cp : Copy := { gen := g, wrap := w.wrap, tpw := tpw, deadAtBegin := d.deadMap n, budget := d.budget n, band := band }
      let dead := d.deadMap n
      let d := d.modWr n (fun w =>
        { (w.modSheet k (fun s => { s with copies := s.copies ++ [{ cp with deadAtBegin := dead }] })) with
          dueQ := rest, slot := some (k, g), prevSlot := w.slot, slotDue := false, areaOn := false, bandPending := false,
          deadMax := d.deadMax n,
          slotsUsed := w.slotsUsed + 1, runUm := w.runUm + bitsToUm (zoneOfWrap w.wrap) sheetBits,
          lane0 := w.lane0 ++ [.slot k g], lane1 := w.lane1 ++ [.slot k g] })
      let d := d.modSess n (fun x => x.begins s g w.wrap tpw w.placed)
      let d := d.modUsage n (fun u => { u with sheetsWritten := u.sheetsWritten + 1,
                                               sheetCopies := u.sheetCopies + (if g = 0 then 0 else 1) })
      let d := if g = 0 then d else d.bump pg Reg.WRITER.SHEET_COPIES 1
      let d := if s.hostBuf.isSome && g == 0 then d.setFill n ((d.sp n).wr.fillBytes - payloadBytes) else d
      d.ev pg Reg.WRITER.WRITING

/-- A slot judged to begin begins, the area before it having ended. -/
def Dev.dueBegin (d : Dev) (n : Nat) : Dev := if (d.sp n).wr.slotDue then d.beginSlot n else d

/-- Case 1 of R137: the open sheet is full enough to be padded, closed and sealed. -/
def Dev.padCase (d : Dev) (n : Nat) : Bool :=
  d.mode (pgWriter n) != 1 &&
  match (d.sp n).wr.openSheet.bind (d.sp n).wr.sheet? with
  | none => false
  | some s => !s.entries.isEmpty && decide (d.fget (pgWriter n) Reg.WRITER.PAD_MIN * 524288 ≤ s.payloadEnd)

/-- Candidates that the area after slot `cur` may hold: of its own copy and of the slot before (R72). -/
def Wr.areaCands (w : Wr) (cur : Nat × Nat) : List Cand :=
  w.cands.filter (fun c => (c.sheet, c.gen) == cur || some (c.sheet, c.gen) == w.prevSlot)

/-- R of an area: the most rewrites that any channel places (R71). -/
def areaR (cs : List Cand) : Nat :=
  (List.range 64).foldl (fun a c => max a ((cs.filter (fun x => x.row % 64 == c)).length)) 0

/-- The length of an area of `r` segment slots, in micrometres; none is absent (R71). -/
def areaUm (z r : Nat) : Nat := if r = 0 then 0 else bitsToUm z (512 + r * segmentBits + 256)

/-- Micrometres of the wrap used before the next slot: the area that follows the slot in progress lies before it (R58, R71). -/
def Wr.ahead (w : Wr) : Nat :=
  w.runUm + (match w.slot with | some cur => areaUm (zoneOfWrap w.wrap) (areaR (w.areaCands cur)) | none => 0)

/-- Does the next slot's sheet fall in a slot that takes no data sheet (R81)? -/
def Spoke.nextReserved (s : Spoke) : Bool :=
  match s.wr.dueQ with
  | [] => false
  | (k, g) :: _ =>
    g == 0 && (match s.wr.sheet? k with | some x => x.kind == 1 | none => false) &&
    slotReserved (s.lastWrap s.wr.wrap) (zoneOfWrap s.wr.wrap) s.wr.slotsUsed s.wr.ahead

/-- Has the close in progress sheets still to come (R78)? -/
def Spoke.closeToCome (s : Spoke) : Bool :=
  !s.sess.closeBuilt || !s.wr.objs.isEmpty || s.wr.openSheet.isSome || !s.wr.closedQ.isEmpty

/-- What the spoke finds when a slot is due (R137): the device after a padding close or a partition-full close, and why
no slot begins, or none when one does. A writer asked to quiesce stops at this sheet boundary (R23). -/
def Dev.judgeSlot (d : Dev) (n : Nat) : Dev × StopKind :=
  let w := (d.sp n).wr
  if w.stop ≠ .none then (d, w.stop)
  else if d.fon (pgWriter n) Reg.HEADER.QUIESCE_REQ then (d, .quiesce)
  else if !slotAllowed (zoneOfWrap w.wrap) w.slotsUsed w.ahead then
    if (d.sp n).lastWrap w.wrap then
      if (d.sp n).sess.closing.isSome && !(w.dueQ.isEmpty && w.closedQ.isEmpty) then
        (d.halt n 4 ((w.dueQ.map (·.1)).headD 0), .halt)
      else (d, .session)
    else (d, .wrapEnd)
  else
    let d := if (d.sp n).wr.dueQ.isEmpty && d.padCase n then (d.closeOpen n false).sealNext n else d
    let d := if (d.sp n).nextReserved then (d.partitionFull n).sealNext n else d
    if !(d.sp n).wr.dueQ.isEmpty then (d, .none)
    else if (d.sp n).sess.closing.isSome && !(d.sp n).closeToCome then (d, .session)
    else (d.ev (pgWriter n) Reg.WRITER.STARVE_STOP, .starve)

/-- The rewrites of an area placed: each takes the next RWSLOT of its row. -/
def Wr.placeCands (w : Wr) (cs : List Cand) : Wr :=
  let w := cs.foldl (fun w c => w.modSheet c.sheet (fun s =>
    { s with copies := s.copies.map (fun p => if p.gen == c.gen then { p with rewrites := p.rewrites ++ [c.row] } else p) })) w
  { w with cands := w.cands.filter (fun c => !cs.any (fun x => x.sheet == c.sheet && x.gen == c.gen && x.row == c.row)) }

/-- The RWSLOT of the next rewrite of a row of a sheet copy (R72). -/
def Wr.nextRwslot (w : Wr) (c : Cand) : Nat :=
  match (w.sheet? c.sheet).bind (fun s => s.copies.find? (fun p => p.gen == c.gen)) with
  | none => 1
  | some p => 1 + (p.rewrites.filter (· == c.row)).length

/-- The area after slot `cur` fixed with its candidates (R71, R152); absent when R would be 0. Candidates that no area may hold any more
are left to the verify decode. -/
def Dev.fixArea (d : Dev) (n : Nat) (cur : Nat × Nat) : Dev :=
  let w := (d.sp n).wr
  let cs := (w.areaCands cur).map (fun c => { c with rwslot := w.nextRwslot c })
  let r := areaR cs
  let mark (w : Wr) := w.modSheet cur.1 (fun s =>
    { s with copies := s.copies.map (fun p => if p.gen == cur.2 then { p with areaDone := true } else p) })
  if cs.isEmpty then d.modWr n (fun w => { (mark w) with cands := [] })
  else
    let d := d.modWr n (fun w =>
      let w := mark (w.placeCands cs)
      { w with areaOn := true, cands := [], lane0 := w.lane0 ++ [.area r cur.1 cur.2 cs], lane1 := w.lane1 ++ [.area r cur.1 cur.2 cs],
               runUm := w.runUm + areaUm (zoneOfWrap w.wrap) r })
    let d := d.modUsage n (fun u => { u with segRewrites := u.segRewrites + cs.length })
    d.bump (pgWriter n) Reg.WRITER.SEG_REWRITES cs.length

/-- The slot's copy has its postamble. -/
def Wr.markPostamble (w : Wr) (cur : Nat × Nat) : Wr :=
  w.modSheet cur.1 (fun s =>
    { s with copies := s.copies.map (fun p => if p.gen == cur.2 then { p with postambled := true } else p) })

/-- Has the slot in progress been sent whole on both lanes, and has the moment of R137 not come yet? -/
def Wr.slotSent (w : Wr) : Bool :=
  w.lane0.isEmpty && w.lane1.isEmpty && !w.slotDue &&
  (match w.slot.bind (fun p => (w.sheet? p.1).bind (fun s => s.copy? p.2)) with
    | some c => !c.postambled
    | none => false)

/-- The last bit of a slot's postamble leaves (R137, R152, R153): the area is fixed and the next slot judged, or the
closing pattern goes on until the slot's verdicts are in.
(DESIGN CHOICE, log entry 30.) -/
def Dev.postambleEnd (d : Dev) (n : Nat) : Dev :=
  match (d.sp n).wr.slot with
  | none => d
  | some cur =>
    if !(d.sp n).wr.slotSent then d
    else
      let d := (d.modWr n (fun w => w.markPostamble cur)).bankRelease n cur.1
      let d := ((d.sealNext n).advanceClose n).sealNext n
      match d.judgeSlot n with
      | (d, .none) =>
        let d := d.fixArea n cur
        if (d.sp n).wr.areaOn then d.modWr n (fun w => { w with slotDue := true })
        else d.beginSlot n
      | (d, k) => d.modWr n (fun w => { w with stop := k, lane0 := w.lane0 ++ [.closing], lane1 := w.lane1 ++ [.closing] })

/-- A run's first slot (R137, R185, R186): the slot is judged as at a postamble. -/
def Dev.runBegins (d : Dev) (n : Nat) : Dev :=
  match (((d.sealNext n).modWr n (fun w => { w with slot := none, prevSlot := none })).judgeSlot n) with
  | (d, .none) => (d.modWr n (fun w => { w with running := true, slot := none, prevSlot := none })).beginSlot n
  | (d, _) => ((d.modWr n (fun w => { w with running := false, stop := .none })).endStream n).setMotion n 5

/-- The turnaround at the end of a wrap (R186): the next logical wrap, in the other direction. -/
def Dev.turnaround (d : Dev) (n : Nat) : Dev :=
  let l := (d.sp n).wr.wrap
  let d := d.modWr n (fun w => { w with wrap := l + 1, slotsUsed := 0, runUm := 0 })
  let d := d.modDrv n (fun x => { x with turning := true, streaming := false })
  (d.setMotion n 4).headTo n (l + 1)

/-- The run has ended: the tape stops and is parked (R185), turns round (R186), or is brought to a controlled stop. -/
def Dev.runEnds (d : Dev) (n : Nat) (k : StopKind) : Dev :=
  let d := d.modWr n (fun w => { w with slot := none, prevSlot := none, stop := .none, running := false, ending := false, areaOn := false,
                                        cands := [] })
  match k with
  | .wrapEnd => (d.endStream n).turnaround n
  | .halt => ((d.modWr n (fun w => { w with haltHold := true })).modDrv n (fun x => { x with atWrite := false })).controlledStop n
  | .noTile => (d.modDrv n (fun x => { x with atWrite := false })).controlledStop n
  | .inhibitLoss => d.modDrv n (fun x => { x with atWrite := false })
  | _ => (d.endStream n).setMotion n 5

/-- Every verdict of the last slot has arrived (R153): the closing pattern ends, and the final area, which holds all of that copy's
candidates, follows; the run ends with it, or with the pattern where R would be 0. The pattern has taken its length of tape too.
(DESIGN CHOICE, log entry 30.) -/
def Dev.closingDwellEnd (d : Dev) (n : Nat) : Dev :=
  let w := (d.sp n).wr
  match w.slot with
  | none => d
  | some cur =>
    if w.lane0 ≠ [.closing] || w.lane1 ≠ [.closing] || !w.slotVerdictsIn cur then d
    else
      let pattern := bitsToUm (zoneOfWrap w.wrap) (64 * max w.frame0 w.frame1)
      let d := d.modWr n (fun w => { w with lane0 := [], lane1 := [], frame0 := 0, frame1 := 0, runUm := w.runUm + pattern })
      let d := d.fixArea n cur
      if (d.sp n).wr.areaOn then d.modWr n (fun w => { w with ending := true }) else d.runEnds n w.stop

end Sys2Proof.Machine
end

