-- ==== Sys2Proof/Machine/Verify.lean ====
section
/-! DEFINITION. What the write serial lanes send (R140 to R142), the verify verdicts and rewrites (R149 to R156), and
the verify decode that settles a sheet (R157, R158). -/

namespace Sys2Proof.Machine

/-! ### Rewrite candidates and whole-sheet copies -/

/-- A copy of a sheet changed. -/
def Wr.modCopy (w : Wr) (num gen : Nat) (f : Copy → Copy) : Wr :=
  w.modSheet num (fun s => { s with copies := s.copies.map (fun p => if p.gen == gen then f p else p) })

/-- Is the sheet part of a session close (KIND 0x3 or 0x4)? -/
def Sheet.isClose (s : Sheet) : Bool := s.kind == 3 || s.kind == 4

/-- An end-of-data sheet cannot settle any more (R158): the end-of-data entry stays invalid, and the commands that wait
for the close are answered when `closeAnswer` runs. -/
def Dev.eodFails (d : Dev) (n : Nat) : Dev := d.modSess n (fun x => { x with eodFailed := true })

/-- A copy due takes its place in the line of slots: behind the copies ordered before it, ahead of every first writing (R73, R154). -/
def Wr.lineCopy (w : Wr) (p : Nat × Nat) : Wr :=
  { w with dueQ := w.dueQ.takeWhile (fun q => decide (0 < q.2)) ++ p :: w.dueQ.dropWhile (fun q => decide (0 < q.2)) }

/-- A whole-sheet copy ordered for copy `gen` of sheet `num` (R154): its candidates are dropped, the one that made the order (`cand`)
among them. Of GEN 3 no copy is ordered (R155): the spoke halts, and a close sheet is left as it stands. Nothing happens for a settled
sheet or a copy already replaced. -/
def Dev.orderCopy (d : Dev) (n num gen : Nat) (cand : Bool) : Dev :=
  match (d.sp n).wr.sheet? num with
  | none => d
  | some s =>
    match s.copy? gen with
    | none => d
    | some c =>
      if s.settled || c.superseded then d
      else if gen < 3 then
        let drop := cand || (d.sp n).wr.cands.any (fun x => x.sheet == num && x.gen == gen)
        let d := d.modWr n (fun w =>
          { (w.modCopy num gen (fun c => { c with superseded := true })) with
            cands := w.cands.filter (fun x => !(x.sheet == num && x.gen == gen)) })
        let d := if drop then d.ev (pgVerify n) Reg.VERIFY.DROPPED else d
        (d.modWr n (fun w => w.lineCopy (num, gen + 1))).ev (pgWriter n) Reg.WRITER.COPY
      else if s.isClose then d.modWr n (fun w => w.modSheet num (fun s => { s with given := true }))
      else d.halt n 2 num

/-- FAIL and CUT verdicts of a copy on a channel, originals and rewrites together (R154). -/
def Copy.badOn (c : Copy) (ch : Nat) : Nat :=
  (c.verdicts.filter (fun v => v.2 == .fail && (v.1 / 8) % 64 == ch)).length +
  (c.cuts.filter (fun v => (v / 8) % 64 == ch)).length

/-- Rewrites of a copy on a channel, placed and due (R154). -/
def Wr.rewritesOn (w : Wr) (num gen ch : Nat) (c : Copy) : Nat :=
  (c.rewrites.filter (fun r => r % 64 == ch)).length +
  (w.cands.filter (fun x => x.sheet == num && x.gen == gen && x.row % 64 == ch)).length

/-- Does the channel count for the copy: neither dead now nor when the copy began (R156)? -/
def Dev.chLive (d : Dev) (n ch : Nat) (c : Copy) : Bool := !bitAt (d.deadMap n) ch && !bitAt c.deadAtBegin ch

/-- A segment of a copy became a rewrite candidate (R152, R154): row `r` of copy `gen` of sheet `num`. -/
def Dev.candidate (d : Dev) (n num gen r : Nat) : Dev :=
  match (d.sp n).wr.sheet? num with
  | none => d
  | some s =>
    match s.copy? gen with
    | none => d
    | some c =>
      if s.settled || !d.chLive n (r % 64) c then d
      else if c.superseded then d.ev (pgVerify n) Reg.VERIFY.DROPPED
      else
        let d := if c.budget = 0 then d
          else if c.budget ≤ (d.sp n).wr.rewritesOn num gen (r % 64) c then d.orderCopy n num gen true
          else d.modWr n (fun w => { w with cands := w.cands ++ [{ sheet := num, gen := gen, row := r }] })
        if 8 < c.badOn (r % 64) then d.orderCopy n num gen true else d

/-! ### Dead channels (R156) -/

/-- DEAD_MAP and DEAD_COUNT with channel `ch` marked or cleared. -/
def Dev.markDead (d : Dev) (n ch : Nat) (b : Bool) : Dev :=
  let pg := pgWriter n
  let d := if ch < 32 then d.bitPut pg Reg.WRITER.DEAD_MAP_LO ch b else d.bitPut pg Reg.WRITER.DEAD_MAP_HI (ch - 32) b
  d.fset pg Reg.WRITER.DEAD_COUNT (onesIn 64 (d.deadMap n))

/-- Have all 32 original segments of the copy on the channel the verdict FAIL? -/
def Copy.allFail (c : Copy) (ch : Nat) : Bool :=
  (List.range 32).all (fun p => c.verdicts.contains (8 * (64 * p + ch), .fail))

/-- A channel becomes dead when the 32nd FAIL arrives (R156). -/
def Dev.deadCheck (d : Dev) (n num ch : Nat) (c : Copy) : Dev :=
  if bitAt (d.deadMap n) ch || bitAt c.deadAtBegin ch || !c.allFail ch then d
  else
    let pg := pgWriter n
    let drop := (d.sp n).wr.cands.any (fun x => x.row % 64 == ch)
    let d := d.modWr n (fun w => { w with cands := w.cands.filter (fun x => x.row % 64 != ch) })
    let d := if drop then d.ev (pgVerify n) Reg.VERIFY.DROPPED else d
    let d := (d.markDead n ch true).ev pg Reg.WRITER.DEAD_NEW
    let d := if d.fget (pgLanefe n (ch / 16)) (Reg.LANEFE.HEALTH (ch % 16)) = 0 then
        d.fset (pgLanefe n (ch / 16)) (Reg.LANEFE.HEALTH (ch % 16)) 3 else d
    let b := bandOfWrap c.wrap
    let d := d.modUsage n (fun u => { u with deadMarks := u.deadMarks.set b (u.deadMarks.getD b 0 + 1) })
    -- in a close after a halt the spoke stands halted already (R160)
    if (d.sp n).wr.deadMax < d.fget pg Reg.WRITER.DEAD_COUNT then d.halt n 1 num else d

/-! ### Verdicts (R151) -/

/-- The verdict on a segment read back (R151), not marked CUT; `cap0` says that the in-line iteration cap is 0. -/
def verdictOf (cap0 found headerOk idOk : Bool) (r : SegResult) (itersLimit llrFloor : Nat) : Verdict :=
  if !found || !headerOk || !idOk then .fail
  else if cap0 then (if r.freewheel || r.altAlign then .fail else .pass)
  else if !r.converged then .fail
  else if r.freewheel || r.altAlign || (itersLimit != 0 && decide (itersLimit ≤ r.iters)) ||
    (llrFloor != 0 && decide (r.llr < llrFloor)) then .low
  else .pass

/-- The counters of a verdict (R164): SEG_PASS, SEG_LOW or SEG_FAIL, CH_FAIL of its channel, saturating at 255. -/
def Dev.countVerdict (d : Dev) (n ch : Nat) (v : Verdict) : Dev :=
  let pg := pgVerify n
  match v with
  | .pass => d.bump pg Reg.VERIFY.SEG_PASS 1
  | .low => d.bump pg Reg.VERIFY.SEG_LOW 1
  | .fail =>
    let f := [Reg.VERIFY.CH_FAIL_0, Reg.VERIFY.CH_FAIL_1, Reg.VERIFY.CH_FAIL_2, Reg.VERIFY.CH_FAIL_3].getD (ch % 4)
      Reg.VERIFY.CH_FAIL_0
    ((d.bump pg Reg.VERIFY.SEG_FAIL 1).bump pg (f (ch / 4)) 1).ev pg Reg.VERIFY.SEG_FAIL_EVT
  | .cut => d

/-- The row that a verdict gives the sheet decoder (R157): PASS rows are GOOD, LOW rows SUSPECT, FAIL rows ERASED. Under an in-line cap
of 0 a row received is SUSPECT whatever its verdict, CONVERGED still chooses its content, and one not received is MISSING (R98). -/
def verdictRow (cap0 received : Bool) (v : Verdict) (r : SegResult) (data : List Byte) : Option RowRec :=
  if !cap0 then some { converged := v == .pass || v == .low, suspect := v == .low, llr := r.llr, data := data }
  else if received then some { converged := r.converged, suspect := true, llr := r.llr, data := data, forced := true }
  else none

/-- A row read back joins its sheet: at once, or for the next decode while one is in progress (R95). -/
def Wr.takeRow (w : Wr) (num row : Nat) (r : Option RowRec) : Wr :=
  match r with
  | none => w
  | some r =>
    if w.verifying.any (fun v => v.sheet == num) then w.modSheet num (fun s => { s with late := s.late ++ [(row, r)] })
    else w.modSheet num (fun s => { s with rows := addRow s.rows row r })

/-- A verdict on a segment of a copy recorded, and what follows (R152, R154, R156). -/
def Dev.takeVerdict (d : Dev) (n : Nat) (seg : SegId) (v : Verdict) (row : Option RowRec) : Dev :=
  match ((d.sp n).wr.sheet? seg.sheet).bind (fun s => s.copy? seg.gen) with
  | none => d
  | some c =>
    -- fill segments are verified and counted (R151)
    if seg.fill then (if c.fillCuts.contains seg.row then d else (d.countVerdict n (seg.row % 64) v).unit (pgVerify n))
    else if c.cuts.contains (8 * seg.row + seg.rwslot) then d
    else
      let d := (d.countVerdict n (seg.row % 64) v).unit (pgVerify n)
      let d := d.modWr n (fun w =>
        (w.modCopy seg.sheet seg.gen (fun c => { c with verdicts := (8 * seg.row + seg.rwslot, v) :: c.verdicts })).takeRow seg.sheet seg.row row)
      let d := if v = .pass then d else d.candidate n seg.sheet seg.gen seg.row
      match ((d.sp n).wr.sheet? seg.sheet).bind (fun s => s.copy? seg.gen) with
      | none => d
      | some c => if v = .fail then d.deadCheck n seg.sheet (seg.row % 64) c else d

/-! ### Frames (R140 to R142, R149) -/

/-- Frames of a stage; none for the closing pattern, which goes on until it is ended. -/
def Stage.frames : Stage → Option Nat
  | .slot _ _ => some slotFrames
  | .area r _ _ _ => some (areaFrames r)
  | .closing => none

/-- The segment frame that frame `f` of a stage carries: (index of the segment in the stage, frame in it). -/
def Stage.segAt (s : Stage) (f : Nat) : Option (Nat × Nat) :=
  match s with
  | .slot _ _ => if f < 16 then none else if (f - 16) / 579 < 32 then some ((f - 16) / 579, (f - 16) % 579) else none
  | .area r _ _ _ => if f < 8 then none else if (f - 8) / 579 < r then some ((f - 8) / 579, (f - 8) % 579) else none
  | .closing => none

/-- The header of a segment on tape (R60). -/
def headerOf (kind sheet row gen rwslot : Nat) (wrap part tpw : Nat) : SegHeader :=
  { kind := kind, sheet := sheet, row := row, wrap := wrap, part := part, gen := gen, zone := zoneOfWrap wrap,
    rwslot := rwslot, tpw := tpw }

/-- The segment that channel `ch` carries as number `i` of a stage: header, scrambling position and row (R65, R71). -/
def Dev.segmentOn (d : Dev) (n ch tpw : Nat) (st : Stage) (i : Nat) : SegHeader × Nat × List Byte :=
  let s := d.sp n
  let hdr (kind sheet row gen rw : Nat) := headerOf kind sheet row gen rw s.wr.wrap s.sess.part tpw
  let rowOf (num r : Nat) := match s.wr.sheet? num with | none => [] | some x => d.sheetRow x r
  let kindOf (num : Nat) := match s.wr.sheet? num with | none => 1 | some x => x.kind
  match st with
  | .slot num gen => (hdr (kindOf num) num (64 * i + ch) gen 0, i, rowOf num (64 * i + ch))
  | .area _ num gen segs =>
    match (segs.filter (fun c => c.row % 64 == ch))[i]? with
    | some c => (hdr (kindOf c.sheet) c.sheet c.row c.gen c.rwslot, c.row / 64, rowOf c.sheet c.row)
    | none => (hdr 5 num ch gen 0, 0, List.replicate 4096 0)
  | .closing => (hdr 5 0 ch 0 0, 0, [])

/-- The 64 bits that channel `ch` writes in frame `f` of a stage. -/
def Dev.frameWord (d : Dev) (n ch tpw : Nat) (st : Stage) (f : Nat) : Nat :=
  match st.segAt f with
  | some (i, k) => let x := d.segmentOn n ch tpw st i; chunk64 (segmentBitsOf x.1 ch x.2.1 x.2.2) k
  | none => match st with
    | .slot _ _ => if 14 ≤ f ∧ f < 16 then lowTone64 else tone64
    | _ => tone64

/-- The payload of a frame's control block (R141). -/
def ctrlBlock (seq phase : Nat) (winh : Bool) (gate : Nat) : Nat :=
  2 ^ 56 * 0x78 + 2 ^ 48 * (seq % 256) + 2 ^ 40 * (phase % 256) + 2 ^ 39 * b2n winh + gate % 2 ^ 32

/-- The payload of an idle control block (R141). -/
def idleBlock : Nat := 2 ^ 56 * 0x1E

/-- One payload bit through the self-synchronising scrambler x^58 + x^39 + 1 (R140): the bit sent is the bit given, exclusive-ored with
the bits sent 39 and 58 before it. -/
def scrambleBit (s : Nat) (b : Bool) : Nat × Bool :=
  let o := b != (bitAt s 38 != bitAt s 57)
  ((2 * s + b2n o) % 2 ^ 58, o)

/-- A payload's bits through the scrambler, first bit sent first. -/
def scrambleBits : Nat → List Bool → Nat × List Bool
  | s, [] => (s, [])
  | s, b :: r =>
    let x := scrambleBit s b
    let y := scrambleBits x.1 r
    (y.1, x.2 :: y.2)

/-- A 66-bit block (R140): its sync header, 0b10 for a control block and 0b01 for a data block, in bits 65 and 64, then the payload,
scrambled. -/
def lineBlock (s : Nat) (control : Bool) (payload : Nat) : Nat × Nat :=
  let x := scrambleBits s (bitsMsb 64 payload)
  (x.1, (if control then 2 else 1) * 2 ^ 64 + ofBitsMsb x.2)

/-- A run of data blocks. -/
def lineBlocks : Nat → List Nat → Nat × List Nat
  | s, [] => (s, [])
  | s, p :: r =>
    let x := lineBlock s false p
    let y := lineBlocks x.1 r
    (y.1, x.2 :: y.2)

/-- A control block and the data blocks after it. -/
def lineFrame (s ctrl : Nat) (words : List Nat) : Nat × List Nat :=
  let x := lineBlock s true ctrl
  let y := lineBlocks x.1 words
  (y.1, x.2 :: y.2)

/-- A segment of the stage is CUT on channel `ch` (R149): marked once, counted, and queued for rewrite; a fill segment is never
rewritten (R151). -/
def Dev.cutOn (d : Dev) (n ch : Nat) (st : Stage) (i : Nat) : Dev :=
  let h := (d.segmentOn n ch 0 st i).1
  match ((d.sp n).wr.sheet? h.sheet).bind (fun s => s.copy? h.gen) with
  | none => d
  | some c =>
    if h.kind = 5 then
      if c.fillCuts.contains (64 * i + ch) then d
      else (d.modWr n (fun w => w.modCopy h.sheet h.gen (fun c => { c with fillCuts := (64 * i + ch) :: c.fillCuts }))).bump
        (pgWriter n) Reg.WRITER.CUT_SEGMENTS 1
    else
      let key := 8 * h.row + h.rwslot
      if c.cuts.contains key then d
      else
        let d := d.modWr n (fun w =>
          (w.modCopy h.sheet h.gen (fun c => { c with cuts := key :: c.cuts })).takeRow h.sheet h.row
            (some { converged := false, suspect := false, llr := 0, data := [] }))
        (d.bump (pgWriter n) Reg.WRITER.CUT_SEGMENTS 1).candidate n h.sheet h.gen h.row

/-- Every segment that lane `lane` is sending is CUT. -/
def Dev.cutLane (d : Dev) (n lane : Nat) (st : Stage) (f : Nat) : Dev :=
  match st.segAt f with
  | none => d
  | some (i, _) => (List.range 32).foldl (fun e k => e.cutOn n (32 * lane + k) st i) d

def Wr.lane (w : Wr) (l : Nat) : List Stage := if l = 0 then w.lane0 else w.lane1
def Wr.frame (w : Wr) (l : Nat) : Nat := if l = 0 then w.frame0 else w.frame1
def Wr.seq (w : Wr) (l : Nat) : Nat := if l = 0 then w.seq0 else w.seq1
def Wr.segTpw (w : Wr) (l : Nat) : Nat := if l = 0 then w.segTpw0 else w.segTpw1
def Wr.scr (w : Wr) (l : Nat) : Nat := if l = 0 then w.scr0 else w.scr1
def Wr.gated (w : Wr) (l : Nat) : Bool := if l = 0 then w.gated0 else w.gated1
/-- A lane's scrambler and gate set. -/
def Wr.setLine (w : Wr) (l scr : Nat) (gated : Bool) : Wr :=
  if l = 0 then { w with scr0 := scr, gated0 := gated } else { w with scr1 := scr, gated1 := gated }
/-- A lane's line of stages, frame index, SEQ and segment TPW set. -/
def Wr.setLane (w : Wr) (l : Nat) (st : List Stage) (f seq tpw : Nat) : Wr :=
  if l = 0 then { w with lane0 := st, frame0 := f, seq0 := seq, segTpw0 := tpw }
  else { w with lane1 := st, frame1 := f, seq1 := seq, segTpw1 := tpw }

/-- Have both lanes left the area, so that a slot judged to begin begins? -/
def Wr.areaOver (w : Wr) : Bool := w.lane0.isEmpty && w.lane1.isEmpty

/-- Have both lanes sent position 30 of the slot (R91)? -/
def Wr.pastBank (w : Wr) : Bool :=
  match w.lane0, w.lane1 with
  | .slot _ _ :: _, .slot _ _ :: _ => decide (16 + 31 * 579 ≤ w.frame0) && decide (16 + 31 * 579 ≤ w.frame1)
  | _, _ => false

/-- Does frame `f` of a stage begin a segment, a rewrite slot, a preamble or a postamble (R148)? -/
def Stage.bounds (s : Stage) (f : Nat) : Bool :=
  f == 0 || (match s.segAt f with | some (_, k) => k == 0 | none => false) ||
  (match s with | .slot _ _ => f == 16 + 32 * 579 | .area r _ _ _ => f == 8 + r * 579 | .closing => false)

/-- Does a lane carry a sheet slot? -/
def Wr.inSlot (w : Wr) : Bool :=
  (w.lane0 ++ w.lane1).any (fun s => match s with | .slot _ _ => true | _ => false)

/-- The lane's cursor moved past frame `f` of its stage, and what that ends: the bank's use, the slot, an area, the run. -/
def Dev.frameSent (d : Dev) (n lane : Nat) (st : Stage) (rest : List Stage) (f seq tpw : Nat) : Dev :=
  let beyond := match st.frames with | none => false | some k => decide (k ≤ f + 1)
  let d := d.modWr n (fun w => w.setLane lane (if beyond then rest else st :: rest) (if beyond then 0 else f + 1) seq tpw)
  let d := if (d.sp n).wr.pastBank then
      match (d.sp n).wr.slot with | none => d | some cur => d.bankRelease n cur.1
    else d
  let d := if (d.sp n).wr.inSlot then d else d.clr (pgWriter n) Reg.WRITER.WRITING
  if !(d.sp n).wr.areaOver then d
  else if (d.sp n).wr.ending then d.runEnds n (d.sp n).wr.stop
  else (d.modWr n (fun w => { w with areaOn := false })).dueBegin n

/-- How many segments frame `f` of a stage ends on a lane. -/
def Stage.endsAt (s : Stage) (lane f : Nat) : Nat :=
  match s.segAt f with
  | some (i, 578) => match s with
    | .slot _ _ => 32
    | .area _ _ _ segs => ((List.range 32).filter (fun k => decide (i < (segs.filter (fun c => c.row % 64 == 32 * lane + k)).length))).length
    | .closing => 0
  | _ => 0

/-- TPW of the segments that frame `f` of a stage carries on a lane: taken as a segment begins (R60). -/
def Dev.tpwAt (d : Dev) (n lane : Nat) (st : Stage) (f : Nat) : Nat :=
  match st.segAt f with
  | some (_, 0) => (d.sp n).drv.tpw
  | _ => (d.sp n).wr.segTpw lane

/-- One frame on a lane (R140 to R142): GATE and WINH follow the hold of R147, and after it the next boundary (R148); segments written
while gated off are CUT. A lane with nothing to write carries an idle control block. -/
def Dev.writeFrame (d : Dev) (n lane phase : Nat) : Dev :=
  let w := (d.sp n).wr
  match w.lane lane with
  | [] =>
    let x := lineFrame (w.scr lane) idleBlock []
    (d.modWr n (fun w => w.setLine lane x.1 w.winh)).emit (.frame n lane x.2)
  | st :: rest =>
    let f := w.frame lane
    let tpw := d.tpwAt n lane st f
    let words := (List.range 32).map (fun k => d.frameWord n (32 * lane + k) tpw st f)
    let off := w.winh || (w.gated lane && !st.bounds f)
    let x := lineFrame (w.scr lane) (ctrlBlock (w.seq lane) phase off (if off then 0 else 0xFFFFFFFF)) words
    let d := (d.modWr n (fun w => w.setLine lane x.1 off)).emit (.frame n lane x.2)
    let d := (if off then d.cutLane n lane st f else d).bump (pgWriter n) Reg.HEADER.UNITS (st.endsAt lane f)
    d.frameSent n lane st rest f ((w.seq lane + 1) % 256) tpw

/-! ### Settling (R157, R158, R161) -/

/-- COMMIT_SHEET (R163): the highest sheet at or below which every sheet held has settled. -/
def settledPrefix : List Sheet → Nat → Option Nat → Option Nat
  | [], _, top => top
  | s :: r, fuel, top => if s.settled then settledPrefix r fuel (some s.num) else top

/-- Sheets in ascending number. -/
def sortSheets : List Sheet → List Sheet
  | [] => []
  | s :: r => let l := sortSheets r; (l.filter (fun x => decide (x.num < s.num))) ++ s :: (l.filter (fun x => decide (s.num ≤ x.num)))

/-- COMMIT_SHEET brought up to date. -/
def Dev.commitReg (d : Dev) (n : Nat) : Dev :=
  let w := (d.sp n).wr
  match settledPrefix (sortSheets w.sheets) 0 w.settledTop with
  | none => d
  | some k => (d.modWr n (fun w => { w with settledTop := some k })).fset (pgWriter n) Reg.WRITER.COMMIT_SHEET k

/-- Do all data sheets from `a` to `b` that the spoke holds stand settled? -/
def Wr.allSettled (w : Wr) (a b : Nat) : Bool :=
  w.sheets.all (fun s => s.settled || s.kind != 1 || decide (s.num < a) || decide (b < s.num))

/-- The placed objects that are committed: the longest prefix that lies wholly in settled sheets (R159). -/
def committedPrefix (w : Wr) : List Placed → List Placed
  | [] => []
  | p :: r => if w.allSettled p.first p.last then p :: committedPrefix w r else []

/-- Objects committed (R159), the commands that waited for them answered (R320), and a SYNC's coverage noted (R162). -/
def Dev.commitEval (d : Dev) (n : Nat) : Dev :=
  let s := d.sp n
  let done := committedPrefix s.wr s.wr.placed
  let syncing : Bool := match s.cur with | some j => j.op == .sync | none => false
  let d := d.modSp n (fun s => { s with wr := { s.wr with placed := s.wr.placed.drop done.length },
                                        syncCover := if syncing then s.syncCover ++ done else s.syncCover })
  d.finishCommits n

/-- Is a copy of the sheet still due, or being written? -/
def Wr.stillNeeded (w : Wr) (num : Nat) : Bool :=
  w.dueQ.any (fun p => p.1 == num) || (match w.slot with | some (k, g) => k == num && decide (0 < g) | none => false)

/-- The end-of-data entry set valid when both end-of-data sheets have settled (R83, R158). -/
def Dev.eodCheck (d : Dev) (n : Nat) : Dev :=
  let s := d.sp n
  let sb := s.sess.sbSheet
  let ok (k : Nat) := match s.wr.sheet? k with | some x => x.settled | none => false
  if s.sess.closing.isSome && s.sess.closeBuilt && ok (sb + 1) && ok (sb + 2) && !s.sess.eodFailed then
    let e : EodEntry := { valid := true, wrap := s.sess.eodWrap, sheet := sb + 1, tpw := s.sess.eodTpw,
                          nextRecord := s.sess.nextObj, session := s.sess.session }
    if s.sess.formatting then
      (d.modCart n (fun c => { c with eods := (takePad {} 4 c.eods).set s.sess.part e })).modDrv n (fun x =>
        { x with formatStep := 30 + s.sess.part })
    else d.cmWriteEod n .eodValidate s.sess.part e
  else d

/-- A sheet settles (R157, R158). -/
def Dev.settle (d : Dev) (n num : Nat) : Dev :=
  let kind := match (d.sp n).wr.sheet? num with | some s => s.kind | none => 0
  let d := d.modWr n (fun w =>
    { (w.modSheet num (fun s => { s with settled := true })) with cands := w.cands.filter (fun c => c.sheet != num) })
  let d := d.dropSheetRefs n num ((d.sp n).wr.stillNeeded num)
  let d := d.bump (pgVerify n) Reg.VERIFY.SHEETS_SETTLED 1
  let d := (d.commitReg n).commitEval n
  if kind = 4 then d.eodCheck n else d

/-- The headroom that a verify decode asks for (R157): D is the dead count when it began. -/
def settleHeadroom (release dead : Nat) : Nat := min (min release 160) (160 - 32 * dead)

/-- A verify decode begins (R157): once the copy's area has passed and its verdicts are in, one decode for each copy. It keeps the
settings it began with (R102, R164). -/
def Dev.verifyStart (d : Dev) (n num gen : Nat) : Dev :=
  match ((d.sp n).wr.sheet? num).bind (fun s => s.copy? gen) with
  | none => d
  | some c =>
    if c.areaDone && c.verdictsIn && !c.decoded && (d.sp n).wr.verifying.isNone && d.takesWork (pgVerify n) then
      let v : VDec := { sheet := num, gen := gen, dead := d.fget (pgWriter n) Reg.WRITER.DEAD_COUNT,
                        limit := min 80 (d.fget (pgVerify n) Reg.VERIFY.ERR_LIMIT), release := d.fget (pgVerify n) Reg.VERIFY.RELEASE_HEADROOM }
      d.modWr n (fun w => { (w.modCopy num gen (fun c => { c with decoded := true })) with verifying := some v })
    else d

/-- The verify decode is over: the rows held meanwhile join the sheet (R95). -/
def Wr.verifyOver (w : Wr) (num : Nat) : Wr :=
  { w with verifying := none }.modSheet num (fun s =>
    { s with rows := s.late.foldl (fun (m : SMap RowRec) (p : Nat × RowRec) => addRow m p.1 p.2) s.rows, late := [] })

/-- GOOD and SUSPECT rows that a decode changed are counted (R96). -/
def Dev.miscorr (d : Dev) (n k : Nat) : Dev :=
  if k = 0 then d else (d.bump (pgVerify n) Reg.VERIFY.C1_MISCORR_ROWS k).ev (pgVerify n) Reg.VERIFY.C1_MISCORR

/-- What a verify decode of a sheet that has not settled leads to (R155, R157, R158): the sheet settles; a copy is ordered; or a close
sheet given up fails with the decode of its last copy. -/
def Dev.verifyEnds (d : Dev) (n : Nat) (v : VDec) (s : Sheet) (ok : Bool) : Dev :=
  if ok && !s.given then d.settle n v.sheet
  else
    let d := d.ev (pgVerify n) Reg.VERIFY.UNSETTLED
    if s.isClose && v.gen == 3 then (if s.kind = 4 then d.eodFails n else d) else d.orderCopy n v.sheet v.gen false

/-- What a decode worked on after a change of VERIFY while it was not quiesced comes to (UB-4): a free result, of free bytes.
(DESIGN CHOICE, log entry 18.) -/
def SheetDecode.free (x : SheetDecode) (v : Nat) : SheetDecode :=
  { x with allFailed := v % 2 == 1, failed := [], headroom := v / 2 % 209, maxErrors := v / 512 % 105,
           rows := x.rows.map (fun p => (p.1, { p.2 with data := freeBytes (v / 65536 + p.1) 4096 })) }

/-- A C2 decode of a sheet's rows in VERIFY (R94, R95). -/
def Dev.decodeSheet (d : Dev) (n : Nat) (rows : SMap RowRec) (era : List Nat) (limit : Nat) : Dev × SheetDecode :=
  let x := c2Sheet rows era limit
  if d.unsettled (pgVerify n) then (d.nextFree, x.free d.freeVal) else (d, x)

/-- A verify decode completes (R157). A sheet that has settled before does not settle again: SETTLED reads 0 then, and nothing is
ordered.
(DESIGN CHOICE, log entry 29.) -/
def Dev.verifyDone (d : Dev) (n : Nat) : Dev :=
  match (d.sp n).wr.verifying with
  | none => d
  | some v =>
    let d := d.unit (pgVerify n)
    match (d.sp n).wr.sheet? v.sheet with
    | none => d.modWr n (fun w => w.verifyOver v.sheet)
    | some s =>
      let pg := pgVerify n
      let y := d.decodeSheet n s.rows (inlineErasures s.rows) v.limit
      let d := y.1
      let x := y.2
      let ok := x.resolved && decide (settleHeadroom v.release v.dead ≤ x.headroom)
      let d := (d.modWr n (fun w => w.verifyOver v.sheet)).miscorr n x.changed.length
      let d := ((d.fset pg Reg.VERIFY.VFY_SHEET v.sheet).fput pg Reg.VERIFY.SETTLED (ok && !s.settled && !s.given)).fset pg
        Reg.VERIFY.OFF5C_HEADROOM x.headroom
      if s.settled then d else d.verifyEnds n v s ok

end Sys2Proof.Machine
end

