-- ==== Sys2Proof/Machine/Servo.lean ====
section
/-! DEFINITION. Servo (R166 to R175): position, velocity and servo words from the frames that pass the readers; reels
(R176); the waveform band (R145) and the environmental window (R188). -/

namespace Sys2Proof.Machine

/-! ### Lateral position (R169 to R172) -/

/-- Lateral offset in nanometres of one stripe pair (R169): `base` is 28,000 for A–B and 20,000 for C–D. The quotient is
rounded down (the manual states no rounding).
(DEDUCED, log entry 41.) -/
def pairOffset (base : Int) (tP tF : Nat) : Int := ((base * tF - 96000 * tP) * 1000000) / (210209 * tF)

/-- t_P of the C–D pairs of stripes 1 and 4 (R169). -/
def cdTimes (r : ReaderFrame) : List Nat :=
  [(r.d.getD 0 0 - r.c.getD 0 0).natAbs, (r.d.getD 3 0 - r.c.getD 3 0).natAbs]

/-- The eight estimates of a reader. -/
def estimates (r : ReaderFrame) : List Int :=
  r.ab.map (fun t => pairOffset 28000 t r.tF) ++ (cdTimes r).map (fun t => pairOffset 20000 t r.tF)

/-- The mean of a list of values, rounded down.
(DEDUCED, log entry 41.) -/
def meanInt (l : List Int) : Int := if l.isEmpty then 0 else l.foldl (· + ·) 0 / (l.length : Int)

/-- A reader's frame is valid when all 20 stripes are found and its eight estimates lie within 0.50 µm (R170). -/
def readerValid (r : ReaderFrame) : Bool :=
  let e := estimates r
  r.found && decide (0 < r.tF) && decide (r.ab.length = 6) && decide (r.c.length = 4) && decide (r.d.length = 4) &&
  decide (e.foldl max (e.headD 0) - e.foldl min (e.headD 0) ≤ 500)

/-- The track-follow offset in force, in half nanometres (R175): 9 per unit of the clamped code, 0 while writing. -/
def tfOffset (code : Nat) (writing : Bool) : Int := if writing then 0 else 9 * clampInt (-64) 63 (ofField 8 code)

/-- A reader's target in nanometres (R172). -/
def readerTarget (j : Nat) (trim offset : Int) : Int := 900 * (trackSlot (j % 32) : Int) - 13950 + trim + offset / 2

/-- The frame's validity per reader, as READERS holds it. -/
def readersMask (rs : List ReaderFrame) : Nat :=
  (List.range 4).foldl (fun a r => a + 2 ^ r * b2n (match rs[r]? with | some x => readerValid x | none => false)) 0

/-- A position sample is valid when at least one reader on each servo band is (R170). -/
def sampleValid (mask : Nat) : Bool := (bitAt mask 0 || bitAt mask 1) && (bitAt mask 2 || bitAt mask 3)

/-- The errors of the valid readers among `ids` (R172). -/
def Dev.readerErrors (d : Dev) (n : Nat) (rs : List ReaderFrame) (ids : List Nat) : List Int :=
  let pg := pgServo n
  let off := tfOffset (d.fget pg Reg.SERVO.TF_OFFSET) (d.fon (pgWriter n) Reg.WRITER.WRITING)
  (ids.filterMap (fun r => match rs[r]? with
    | some x => if readerValid x then
        some (meanInt (estimates x) - readerTarget ((d.sp n).drv.head) (ofField 16 (d.fget pg (Reg.SERVO.TRIM r))) off)
      else none
    | none => none))

/-- A burst's displacement (R166): the sign of the mean offset of stripes 2 and 3 from the places that stripes 1 and 4 give them on the
grid, read from when the four passed. -/
def displaced (forward : Bool) (t : List Int) : Bool :=
  let mid := t.getD 1 0 + t.getD 2 0
  let ends := t.getD 0 0 + t.getD 3 0
  if forward then decide (ends < mid) else decide (mid < ends)

/-- The word bit and the frame-0 mark of a servo band (R166), as the lowest-numbered valid reader among `ids` gives them; a frame in which
none is valid adds nothing to the word.
(DESIGN CHOICE, log entry 41.) -/
def bandMark (forward : Bool) (rs : List ReaderFrame) (ids : List Nat) : Option (Bool × Bool) :=
  ((ids.filterMap (fun r => rs[r]?)).find? readerValid).map (fun x => (displaced forward x.c, displaced forward x.d))

/-- Velocity in mm/s (R171): 96 µm over t_F, averaged over the valid readers, positive in forward motion.
(DEDUCED, log entry 41.) -/
def frameVelocity (rs : List ReaderFrame) (forward : Bool) : Int :=
  let v := meanInt ((rs.filter readerValid).map (fun r => (96000000000 : Int) / r.tF))
  if forward then v else -v

/-- The integer square root's loop: the largest `r` with `r² ≤ x`, bit by bit. -/
def sqrtBits : Nat → Nat → Nat → Nat
  | 0, r, _ => r
  | b + 1, r, x => if (r + 2 ^ b) * (r + 2 ^ b) ≤ x then sqrtBits b (r + 2 ^ b) x else sqrtBits b r x

/-- PES_RMS over the samples kept. -/
def rmsOf (l : List Int) : Nat :=
  if l.isEmpty then 0 else sqrtBits 16 0 (((l.map (fun x => (x * x).toNat)).foldl (· + ·) 0) / l.length)

/-- Is the speed or the acceleration outside R144: 0.98 to 4.59 m/s, 2.2 m/s²? -/
def speedOutside (v a : Int) : Bool := decide (v.natAbs < 980) || decide (4590 < v.natAbs) || decide (2200 < a.natAbs)

/-! ### Servo words (R166 to R168) -/

/-- Does a servo word's CHECK hold (R167)? -/
def wordOk (w : List Bool) : Bool := crcBits 8 0x31 0xFF (w.take 28) == ofBitsMsb (w.drop 28)

/-- TPW of frame `N` in servo band `b` (R168). -/
def tpwOf (N b : Nat) : Nat := 2 ^ 13 * (N / 36) + 2 ^ 10 * (b % 8) + 2 ^ 4 * (N % 36)

/-- What the word decoder does with one frame (R167): the bits collected so far (in frame order), a word completed, and
whether a word was discarded for a second mark. Forward, a word begins with its mark; in reverse it ends with it. -/
def wordStep (forward : Bool) (acc : Option (List Bool)) (bit mark : Bool) : Option (List Bool) × Option (List Bool) × Bool :=
  if forward then
    if mark then (some [bit], none, match acc with | some l => decide (0 < l.length) | none => false)
    else match acc with
      | none => (none, none, false)
      | some l => if l.length = 35 then (none, some (l ++ [bit]), false) else (some (l ++ [bit]), none, false)
  else
    if mark then match acc with
      | none => (some [], none, false)
      | some l => if l.length = 35 then (some [], some (bit :: l), false) else (some [], none, true)
    else match acc with
      | none => (none, none, false)
      | some l => if l.length = 35 then (none, none, false) else (some (bit :: l), none, false)

/-- The frame number moved by one frame in the direction of motion. -/
def frameNext (forward : Bool) (x : Nat × Nat) : Nat × Nat := (if forward then x.1 + 1 else x.1 - 1, x.2)

/-- TPW of the frame under the readers. -/
def Dev.putTpw (d : Dev) (n : Nat) : Dev :=
  match (d.sp n).drv.frameNo with
  | none => d
  | some (N, b) => (d.modDrv n (fun x => { x with tpw := tpwOf N b })).fset (pgServo n) Reg.SERVO.TPW_LO (tpwOf N b)

/-- BAND of a word from the band `b` differs (R195, R198): a cartridge that loads is refused. -/
def Dev.bandDiffers (d : Dev) (n b band : Nat) : Dev :=
  if band = b then d
  else
    let d := d.ev (pgServo n) Reg.SERVO.BAND_MISMATCH
    if d.cartState n = 2 then d.refuse n 4 else d

/-- The word decoder of one servo band on one frame: the bits collected, the word completed if its CHECK holds. -/
def Dev.wordIn (d : Dev) (n : Nat) (forward : Bool) (acc : Option (List Bool)) (m : Option (Bool × Bool)) :
    Dev × Option (List Bool) × Option (List Bool) :=
  match m with
  | none => (d, acc, none)
  | some (bit, mark) =>
    let r := wordStep forward acc bit mark
    let bad := r.2.2 || (match r.2.1 with | some w => !wordOk w | none => false)
    (if bad then d.ev (pgServo n) Reg.SERVO.WORD_CRC else d, r.1, r.2.1.filter wordOk)

/-- BAND of a word. -/
def wordBand (w : List Bool) : Nat := ofBitsMsb ((w.drop 23).take 3)

/-- The servo word decoders on one frame (R167): the lower band's words place the frame, and both bands' BAND is checked. -/
def Dev.servoWord (d : Dev) (n : Nat) (forward : Bool) (low up : Option (Bool × Bool)) : Dev :=
  let b := bandOfWrap (d.sp n).drv.head
  let x := d.wordIn n forward (d.sp n).drv.word low
  let y := x.1.wordIn n forward (d.sp n).drv.wordUp up
  let d := y.1.modDrv n (fun z => { z with word := x.2.1, wordUp := y.2.1, frameNo := z.frameNo.map (frameNext forward) })
  let d := match x.2.2 with
    | none => d
    | some w => (d.modDrv n (fun z => { z with
        frameNo := some (36 * ofBitsMsb (w.take 23) + (if forward then 35 else 0), wordBand w) })).bandDiffers n b (wordBand w)
  let d := match y.2.2 with
    | none => d
    | some w => d.bandDiffers n (b + 1) (wordBand w)
  d.putTpw n

/-! ### The track-follow compensator (R174, R198) -/

/-- CROSSOVER_HZ as it acts, in its units of 2 Hz. -/
def crossoverEff (c : Nat) : Nat := if c = 0 then 0x258 else max 100 (min 1000 c)
/-- LEAD_RATIO as it acts. -/
def leadEff (r : Nat) : Nat := max 16 r
/-- A notch's Q as it acts. -/
def notchQEff (q : Nat) : Nat := if q = 0 then 8 else q

/-- A notch in a frame that took `tF` picoseconds: none where it is disabled, or above 0.45 times the frame rate. -/
def notchIn (freq q tF : Nat) : Option (Nat × Nat) :=
  if freq = 0 ∨ 45 * 1000000000000 < 400 * freq * tF then none else some (4 * freq, notchQEff q)

/-- The compensator re-discretised for a frame that took `tF` picoseconds: its crossover is the lower of CROSSOVER_HZ and one eighth of
the frame rate. -/
def Dev.compensator (d : Dev) (n tF : Nat) : Compensator :=
  let f := d.fget (pgServo n)
  let c := min (2000 * crossoverEff (f Reg.SERVO.CROSSOVER_HZ)) (1000000000000000 / (8 * max tF 1))
  { crossover := c, lead := leadEff (f Reg.SERVO.LEAD_RATIO), corner := c * f Reg.SERVO.INT_CORNER / 100,
    notches := (notchIn (f Reg.SERVO.NOTCH0_FREQ) (f Reg.SERVO.NOTCH0_Q) tF).toList ++
      (notchIn (f Reg.SERVO.NOTCH1_FREQ) (f Reg.SERVO.NOTCH1_Q) tF).toList }

/-- The ACT message of a sample (R173, R192): the output of the compensator in force on it. -/
def Dev.act (d : Dev) (n : Nat) (pes : Int) (tF : Nat) : Dev :=
  let v := Config.compensate (d.compensator n tF) pes d.free % 65536
  (d.nextFree.modDrv n (fun x => { x with lastAct := v })).ctl n 0x01 (bytesBE 2 v ++ bytesBE 1 0)

/-- The ACT message of an invalid sample holds the last command (R170). -/
def Dev.actHold (d : Dev) (n : Nat) : Dev := d.ctl n 0x01 (bytesBE 2 (d.sp n).drv.lastAct ++ bytesBE 1 1)

/-- An invalid sample (R170). -/
def Dev.invalidSample (d : Dev) (n : Nat) : Dev :=
  let pg := pgServo n
  let d := d.modDrv n (fun x => { x with invalidRun := x.invalidRun + 1 })
  let d := d.modWr n (fun w => { w with pesGood := 0 })
  (((d.clr pg Reg.SERVO.VALID).ev pg Reg.SERVO.INVALID).evalHold n).actHold n

/-- The mean t_F of a frame's valid readers, in picoseconds. -/
def frameTime (rs : List ReaderFrame) : Nat := (meanInt ((rs.filter readerValid).map (fun r => (r.tF : Int)))).toNat

/-- The velocity, the acceleration and their test (R144, R171): a frame with any valid reader is a velocity sample. The time of a frame
without one is taken as that of the last sample.
(DEDUCED, log entry 41.) -/
def Dev.velocity (d : Dev) (n : Nat) (rs : List ReaderFrame) : Dev :=
  let x := (d.sp n).drv
  if !rs.any readerValid then d.modDrv n (fun y => { y with velGap := y.velGap + y.lastTF })
  else
    let v := frameVelocity rs (d.fon (pgMotion n) Reg.MOTION.DIR)
    let tF := frameTime rs
    let a := (v - x.lastVel) * 1000000000000 / (max (x.velGap + tF) 1 : Nat)
    let h := (a :: x.accHist).take 8
    let d := d.modDrv n (fun y => { y with lastVel := v, lastTF := tF, velGap := 0, accHist := h })
    let d := d.modWr n (fun w => { w with speedBad := speedOutside v (meanInt h) || x.ctrlStop })
    d.fset (pgServo n) Reg.SERVO.VEL (toField 16 v)

/-- The valid readers' errors gathered for calibration (R197). -/
def Dev.gatherErrors (d : Dev) (n : Nat) (rs : List ReaderFrame) : Dev :=
  (List.range 4).foldl (fun (e : Dev) r =>
    match d.readerErrors n rs [r] with
    | [x] => e.modDrv n (fun y => { y with errSums := mmod (fun _ => (0, 0)) y.errSums r (fun s => (s.1 + 1, s.2 + x)) })
    | _ => e) d

/-- A valid sample (R172): position error, width error, threshold, RMS. Of a frame worked on after a change of the block while it was not
quiesced the position error is free (UB-4).
(DESIGN CHOICE, log entry 18.) -/
def Dev.validSample (d : Dev) (n : Nat) (rs : List ReaderFrame) : Dev :=
  let pg := pgServo n
  let free := d.unsettled pg
  let pes := if free then ofField 16 d.freeVal else meanInt (d.readerErrors n rs [0, 1, 2, 3])
  let tw := meanInt (d.readerErrors n rs [2, 3]) - meanInt (d.readerErrors n rs [0, 1])
  let beyond := decide (90 < pes.natAbs)
  let hist := (pes :: (d.sp n).drv.pesHist).take 4096
  let d := (if free then d.nextFree else d).gatherErrors n rs
  let d := d.modDrv n (fun x => { x with invalidRun := 0, pesHist := hist })
  let d := d.modWr n (fun w => { w with pesGood := if beyond then 0 else min 4 (w.pesGood + 1) })
  let d := (((d.ev pg Reg.SERVO.VALID).fset pg Reg.SERVO.PES (toField 16 pes)).fset pg Reg.SERVO.PES_RMS (rmsOf hist)).fset pg
    Reg.SERVO.TW_ERR (toField 16 tw)
  let d := if beyond then (d.ev pg Reg.SERVO.PES_OVER).bump pg Reg.SERVO.PES_OVER_CNT 1 else d
  (d.evalHold n).act n pes (frameTime rs)

/-- Has a frame of wrap `l` left the data area at its end (R58, R168)? -/
def pastEdge (l N : Nat) : Bool := if wrapForward l then decide (12750000 ≤ N) else decide (N ≤ 125000)

/-- A read run turns round at the end of a wrap (R186): the tape stops, the head moves to the next logical wrap, and the run goes on there
after the run-up. At the end of the partition's last wrap it ends.
(DEDUCED, log entry 32.) -/
def Dev.readTurn (d : Dev) (n : Nat) : Dev :=
  let s := d.sp n
  match s.drv.frameNo with
  | none => d
  | some (N, _) =>
    if !(s.drv.streaming && s.drv.reading && pastEdge s.drv.head N) then d
    else if s.drv.head + 1 < s.partDef.firstWrap + s.partDef.wrapCount then
      let d := (d.endStream n).modSp n (fun s => { s with drv := { s.drv with turning := true },
                                                          rd := { s.rd with locating := some s.rd.nextSheet } })
      (d.setMotion n 4).headTo n (s.drv.head + 1)
    else d.controlledStop n

/-- What the readers time in a frame, put together reader by reader (R169). -/
def ReaderFrame.join (ts : List ReaderTimes) (cs ds : List (List Int)) : List ReaderFrame :=
  List.zipWith (fun t x => { found := t.found, tF := t.tF, ab := t.ab, c := x.1, d := x.2 }) ts (cs.zip ds)

/-- A servo frame passes the readers (R166 to R175). -/
def Dev.servoFrame (d : Dev) (n : Nat) (rs : List ReaderFrame) : Dev :=
  let m := readersMask rs
  let forward := d.fon (pgMotion n) Reg.MOTION.DIR
  let d := ((d.fset (pgServo n) Reg.SERVO.READERS m).unit (pgServo n)).velocity n rs
  let d := if sampleValid m then d.validSample n rs else d.invalidSample n
  (d.servoWord n forward (bandMark forward rs [0, 1]) (bandMark forward rs [2, 3])).readTurn n

/-- Servo is lost (R170) after 16 consecutive invalid samples: a controlled stop, and re-acquisition to come. -/
def Dev.servoLost (d : Dev) (n : Nat) : Dev :=
  if (d.sp n).drv.invalidRun < 16 || (d.sp n).drv.lost then d
  else
    ((d.modDrv n (fun x => { x with lost := true, word := none, wordUp := none, frameNo := none })).ev (pgServo n)
      Reg.SERVO.LOST).breakRun n

/-! ### Reels (R176) and the cadence echo (R190, R201) -/

/-- The last cadence-to-echo delay of a cycle, in ns: ECHO_DELAY; an echo within 200 ns ends its loss. Which command tells it is the
model's choice.
(DESIGN CHOICE, log entry 3.) -/
def Dev.echoSeen (d : Dev) (n : Nat) (echo : Option Nat) : Dev :=
  match echo with
  | none => d
  | some e =>
    if !d.fon (pgLink n) Reg.LINK.CAD_ON then d
    else
      let d := d.fset (pgLink n) Reg.LINK.ECHO_DELAY (min 65535 e)
      if e ≤ 200 then d.clr (pgLink n) Reg.LINK.ECHO_LOST else d

/-- A reel's radius in 0.01 mm (R176): tape velocity over angular velocity, from `delta` counts of 4,096 a turn in one
100 µs cycle.
(DEDUCED, log entry 41.) -/
def reelRadius (v : Int) (delta : Nat) : Nat := min 65535 (v.natAbs * 40960000 / (6283185 * max delta 1))

/-- The velocity in mm/s that a reel's tachometer gives, from its radius in 0.01 mm (R176).
(DEDUCED, log entry 41.) -/
def tachVelocity (radius delta : Nat) : Int := (radius * delta * 6283185 / 40960000 : Nat)

/-- The velocity that the reels are held to: the servo's when servo is valid, else that of the take-up reel's tachometer, of the supply
reel's when the take-up reel stands.
(DEDUCED, log entry 41.) -/
def Dev.reelVelocity (d : Dev) (n : Nat) : Int :=
  let x := (d.sp n).drv
  let r (f : Fld) := d.fget (pgMotion n) f
  if d.fon (pgServo n) Reg.SERVO.VALID then x.lastVel
  else if x.dTakeup = 0 then tachVelocity (r Reg.MOTION.SUPPLY_R) x.dSupply else tachVelocity (r Reg.MOTION.TAKEUP_R) x.dTakeup

/-- One REEL message. -/
def Dev.reelSend (d : Dev) (n i1 i2 : Nat) : Dev :=
  (d.modDrv n (fun x => { x with reelI := (i1, i2) })).ctl n 0x02 (bytesBE 2 i1 ++ bytesBE 2 i2)

/-- A 10 kHz cycle: radius estimates, and one REEL message. The currents are free values: R176 states what the loop
holds and no law for it. In step 4 of an unload (R196) they are 0, which releases the tension, and step 5 begins.
(DESIGN CHOICE, log entry 12.) -/
def Dev.reelCycle (d : Dev) (n : Nat) (echo : Option Nat) : Dev :=
  let x := (d.sp n).drv
  let pg := pgMotion n
  let v := d.reelVelocity n
  let d := if x.dSupply = 0 then d else d.fset pg Reg.MOTION.SUPPLY_R (reelRadius v x.dSupply)
  let d := if x.dTakeup = 0 then d else d.fset pg Reg.MOTION.TAKEUP_R (reelRadius v x.dTakeup)
  let d := (d.unit pg).echoSeen n echo
  if x.unloadStep = 4 then
    ((d.modDrv n (fun x => { x with needTension := true, unloadStep := 5 })).reelSend n 0 0).mech n 2
  else d.nextFree.nextFree.reelSend n (d.freeVal % 65536) (d.nextFree.freeVal % 65536)

/-- TENSION_SET as it acts (R199). -/
def tensionEff (x : Nat) : Nat := max 300 (min 1500 x)

/-- Does a tension reading lie more than 30 % from TENSION_SET as it acts (R177)? -/
def tensionOff (set reading : Nat) : Bool := decide (10 * reading < 7 * tensionEff set) || decide (13 * tensionEff set < 10 * reading)

/-- Do the readings make a tension fault (R177): one below 100 mN has come, or the latest lies more than 30 % from TENSION_SET? That it has
done so for 5 ms the command says. -/
def Dev.tensionBad (d : Dev) (n : Nat) : Bool :=
  (d.sp n).drv.tensionLow || tensionOff (d.fget (pgMotion n) Reg.MOTION.TENSION_SET) (d.fget (pgMotion n) Reg.MOTION.TENSION)

/-- A tension fault (R177). -/
def Dev.tensionFault (d : Dev) (n : Nat) : Dev :=
  let pg := pgMotion n
  if !d.tensionBad n then d
  else
    let d := (d.ev pg Reg.MOTION.TENSION_FAULT).bump pg Reg.MOTION.TENSION_FAULTS 1
    (d.modDrv n (fun x => { x with needTension := true, tensionLow := false })).breakRun n

/-! ### The waveform band (R145, R146) -/

/-- Lower bound of band `b` in 1/16 °C; band 0 has none. -/
def bandLow (b : Nat) : Int := [-100000, 240, 320, 400, 480, 560, 640, 800].getD b 800

/-- The band after a reading: rising to each band whose lower bound is reached, falling while the reading lies 1.0 °C or
more below the lower bound of the band in force. -/
def bandStep (t : Int) : Nat → Nat → Nat
  | 0, b => b
  | k + 1, b =>
    if b < 7 ∧ bandLow (b + 1) ≤ t then bandStep t k (b + 1)
    else if 0 < b ∧ t ≤ bandLow b - 16 then bandStep t k (b - 1)
    else b

/-- A head temperature reading (R145). -/
def Dev.headReading (d : Dev) (n : Nat) (t : Int) : Dev :=
  let pg := pgWriter n
  let b := d.fget pg Reg.WRITER.BAND
  let b' := bandStep t 8 b
  let d := d.fset pg Reg.WRITER.HEAD_TEMP (toField 16 t)
  if b' = b then d
  else ((d.fset pg Reg.WRITER.BAND b').ev pg Reg.WRITER.BAND_CHANGE).modWr n (fun w => { w with bandPending := true })

/-! ### The environmental window (R188) -/

/-- Does a reading lie in the window (1/16 °C, 0.01 %)? -/
def envInside (t : Int) (rh : Nat) : Bool := decide (160 ≤ t) && decide (t ≤ 720) && decide (2000 ≤ rh) && decide (rh ≤ 8000)
/-- And in the narrower one that ends a hold? -/
def envInsideInner (t : Int) (rh : Nat) : Bool := decide (192 ≤ t) && decide (t ≤ 688) && decide (2200 ≤ rh) && decide (rh ≤ 7800)

/-- Does the window gate writing on the spoke? Not in host-assisted calibration. -/
def Dev.envGates (d : Dev) (n : Nat) : Bool := d.mode (pgServo n) != 1

/-- An environmental hold placed during a write run. -/
def Dev.envHoldBegin (d : Dev) (n : Nat) : Dev :=
  if !d.envGates n || !(d.sp n).wr.running || d.envHold n then d
  else
    ((d.ev (pgMotion n) Reg.MOTION.ENV_HOLD).ev (pgMotion n) Reg.MOTION.ENV_OUT).modWr n (fun w =>
      { w with stop := if w.stop = .none then .env else w.stop })

end Sys2Proof.Machine
end

