-- ==== Sys2Proof/Machine/Keep.lean ====
section
/-! DEFINITION. The protection table, the ledger and the key slots (spec chapter 13), and frames on tape (R361, R364). -/

namespace Sys2Proof.Machine

/-! ### The protection table (R345) -/

def kFunc : Nat := 0
def kPage : Nat := 1
def kSq : Nat := 2
def kCq : Nat := 3
def kStream : Nat := 4
def kPool : Nat := 5
def kKeyslot : Nat := 6

/-- Entries of a kind. -/
def kindCount (k : Nat) : Nat := [128, 4096, 4096, 4096, 4096, 80, 256].getD k 0

/-- Where a kind begins in the table image. -/
def kindBase (k : Nat) : Nat := [0, 128, 4224, 8320, 12416, 16512, 16592, 16848].getD k 16848

/-- The domain that entry `i` of a kind names in a table; 0 past the end of the kind. -/
def protOf (t : SMap Nat) (kind i : Nat) : Nat :=
  if i < kindCount kind then mget (fun _ => 0) t (kindBase kind + i) else 0

/-- The live table's entry. -/
def Dev.prot (d : Dev) (kind i : Nat) : Nat := protOf d.keep.prot kind i

/-- KEEP changed. -/
def Dev.modKeep (d : Dev) (f : Keep → Keep) : Dev := { d with keep := f d.keep }

/-- The table image: 16,848 bytes (R345). -/
def protImage (t : SMap Nat) : List Byte := (List.range 16848).map (fun i => BitVec.ofNat 8 (mget (fun _ => 0) t i))

/-- The domain of a function (R344) and of an accessor (R343). -/
def Dev.funcDomain (d : Dev) (f : Nat) : Nat := d.prot kFunc f
def Dev.domainOf (d : Dev) (a : Accessor) : Nat :=
  match a with
  | .fw _ => 1
  | .fn _ _ => d.funcDomain a.num

/-- Does domain `dom` own entry `i` of a kind (R343)? Domains 0 and 1 own everything. -/
def Dev.owns (d : Dev) (dom kind i : Nat) : Bool := decide (dom ≤ 1) || d.prot kind i == dom

/-- Is domain `dom` fenced (R368)? -/
def Dev.domFenced (d : Dev) (dom : Nat) : Bool :=
  if dom < 32 then bitAt (d.fget pgAlarm Reg.ALARM.FENCE_LO) dom else bitAt (d.fget pgAlarm Reg.ALARM.FENCE_HI) (dom - 32)

/-- The ledger's next value (R349). -/
def ledgerStep (l : List Byte) (seq : Nat) (t : SMap Nat) : List Byte :=
  Config.sha512 (l ++ bytesBE 8 seq ++ Config.sha512 (protImage t))

/-- KEEP's memories as the fills of R262 leave them: every entry names domain 0, SEQ is 0, no key is held. -/
def Dev.keepFill (d : Dev) : Dev :=
  d.modKeep (fun k => { ledger := ledgerStep (List.replicate 64 0) 0 [], tamperNow := k.tamperNow })

/-! ### Key slots (R358, R360) -/

/-- A slot emptied: its key bytes are overwritten with 0, what else it holds stays (R358, R370).
(DEDUCED, log entry 36.) -/
def KeySlot.emptied (s : KeySlot) : KeySlot := { s with loaded := false, key := List.replicate 32 0 }

def Dev.slot (d : Dev) (s : Nat) : KeySlot := mget (fun _ => {}) d.keep.slots s
def Dev.modSlot (d : Dev) (s : Nat) (f : KeySlot → KeySlot) : Dev :=
  d.modKeep (fun k => { k with slots := mmod (fun _ => {}) k.slots s f })

/-- ENC_MODE and KEY_SLOT of stream parameters held as their 8 bytes, byte 24 lowest (R329). -/
def parEnc (p : Nat) : Nat := bitsOf p 16 2
def parSlot (p : Nat) : Nat := bitsOf p 24 8

/-- Is the slot bound by an open stream with ENC_MODE 1? -/
def Dev.slotBound (d : Dev) (s : Nat) : Bool :=
  d.streams.any (fun e => e.2.isOpen && (e.2.params :: e.2.next.toList).any (fun p => parEnc p == 1 && parSlot p == s))

/-! ### Frames (R361, R364) -/

/-- The 32 header bytes of a frame. -/
def frameHeader (first last : Bool) (ctLen : Nat) (s : KeySlot) : List Byte :=
  [0xE5, 0x10, BitVec.ofNat 8 (128 * b2n first + 64 * b2n last), 0] ++ bytesBE 4 ctLen ++ bytesBE 8 s.keyId ++
  bytesBE 4 s.ivFixed ++ bytesBE 4 0 ++ bytesBE 8 s.ivCount

/-- The 96-bit IV of a frame. -/
def frameIv (ivFixed ivCount : Nat) : List Byte := bytesBE 4 ivFixed ++ bytesBE 8 ivCount

/-- One block encrypted as a frame under a slot (R361). -/
def makeFrame (s : KeySlot) (first last : Bool) (block : List Byte) : List Byte :=
  let h := frameHeader first last block.length s
  h ++ Config.gcmEncrypt s.key (frameIv s.ivFixed s.ivCount) h block

/-- Why a frame fails (R364). -/
inductive FrameFault where
  | form | keyId | tag
  deriving DecidableEq, Repr

/-- The IV counter that a frame carries. -/
def frameCounter (l : List Byte) : Nat := natBE ((l.drop 24).take 8)

/-- A frame checked and decrypted (R364): `first` and `last` tell its place in the record. The frames of a record take rising counters
(R361): one whose counter is not above that of the frame before it is not the next.
(DEDUCED, log entry 36.) -/
def openFrame (s : KeySlot) (first last : Bool) (prev : Option Nat) (l : List Byte) : Except FrameFault (List Byte) :=
  let ctLen := natBE ((l.drop 4).take 4)
  let flags := (byteAt l 2).toNat
  if byteAt l 0 ≠ 0xE5 ∨ byteAt l 1 ≠ 0x10 ∨ ctLen < 16 ∨ 1048592 < ctLen ∨ l.length < 48 + ctLen ∨
     bitAt flags 7 ≠ first ∨ bitAt flags 6 ≠ last ∨ prev.any (fun p => decide (frameCounter l ≤ p)) then .error .form
  else if natBE ((l.drop 8).take 8) ≠ s.keyId then .error .keyId
  else
    match Config.gcmDecrypt s.key (frameIv (natBE ((l.drop 16).take 4)) (frameCounter l)) (l.take 32)
        ((l.drop 32).take ctLen) ((l.drop (32 + ctLen)).take 16) with
    | none => .error .tag
    | some p => .ok p

end Sys2Proof.Machine
end

