-- ==== Sys2Proof/Machine/Press.lean ====
section
/-! DEFINITION. The press on the write side (R103 to R125, R132, R361): records, the lead engine's fingerprint unit,
blocks, frames, and the output that becomes an object's stored form. -/

namespace Sys2Proof.Machine

/-! ### Stream parameters (R120, R329) -/

def parNcf (p : Nat) : Bool := bitAt p 0
def parCoding (p : Nat) : Bool := bitAt p 1
def parFar (p : Nat) : Bool := bitAt p 2
def parInterval (p : Nat) : Nat := bitsOf p 4 4
def parThresh (p : Nat) : Nat := bitsOf p 8 8
/-- The defaults of R120 with ENC_MODE 0. -/
def parDefault : Nat := 0x0496
/-- Parameters as they act: byte 31 bit 0 takes the defaults. -/
def parEff (p : Nat) : Nat := if bitAt p 56 then parDefault else p % 2 ^ 32
/-- Does the stream pass stored bytes through: host-supplied NCF, or ciphertext, for which the press acts as if NCF_SOURCE were 1
(R103)? -/
def parStored (p : Nat) : Bool := parNcf p || parEnc p == 2
/-- The anchor interval in host bytes (R120); 0 makes every record an anchor record. -/
def anchorBytes (k : Nat) : Nat := if k = 0 then 0 else 2 ^ (min k 9 - 1) * 1048576

/-! ### Records -/

/-- Bytes of a record landed so far. -/
def PRec.len (r : PRec) : Nat := piecesLen r.src

/-- The place of a stream's record with `k` later: the index in `recs` of the oldest record that satisfies `f`. -/
def findRec (f : PRec → Bool) : List PRec → Option Nat
  | [] => none
  | r :: t => if f r then some 0 else (findRec f t).map (· + 1)

/-- Record number `i` changed. -/
def Dev.modRec (d : Dev) (i : Nat) (f : PRec → PRec) : Dev := { d with recs := d.recs.modify i f }

/-- Is the next record of the stream an anchor record (R116)? `req` is the write command's anchor request. -/
def Dev.isAnchor (d : Dev) (st : Nat) (req : Bool) : Bool :=
  let s := d.stream st
  let p := s.params
  s.anchorDue || !parFar p || parInterval p == 0 || (d.encOf st).isNone ||
  (if parStored p then req else decide (anchorBytes (parInterval p) ≤ s.sinceAnchor))

/-- The parameters of a stream's next record come into force (R120); a change of NCF_SOURCE, FAR_ENABLE or
ANCHOR_INTERVAL makes it an anchor record (R116), and FAR_ENABLE becoming 0 releases the encode set (R119), behind the records that
were accepted before. -/
def Dev.latchParams (d : Dev) (st : Nat) : Dev :=
  let s := d.stream st
  match s.next with
  | none => d
  | some p =>
    let changed := parStored p != parStored s.params || parFar p != parFar s.params || parInterval p != parInterval s.params
    let d := d.modStream st (fun s => { s with params := p, next := none, anchorDue := s.anchorDue || changed })
    if parFar p then d else d.setAfter st .release

/-- A record of the stream begins (R116, R120): its parameters come into force; the answer says whether it is an anchor
record, for which the stream's index begins anew. -/
def Dev.recordStarts (d : Dev) (st : Nat) (req : Bool) : Dev × Bool :=
  let d := d.latchParams st
  let a := d.isAnchor st req
  let d := if a then d.modStream st (fun s => { s with anchorDue := false, sinceAnchor := 0 }) else d
  (if a && parFar (d.stream st).params then d.anchorEnc st else d, a)

/-! ### The lead engine (R122) -/

/-- COMP instances in service. -/
def Dev.comps (d : Dev) : List Nat := (List.range 17).filter (fun e => d.serviceable (pgComp e))

/-- The serviceable engine that leads the fewest streams, if it leads fewer than 8; among equals the lowest-numbered, which the manual
leaves open.
(DESIGN CHOICE, log entry 29.) -/
def Dev.pickLead (d : Dev) : Option Nat :=
  let l := d.comps.filter (fun e => decide (d.fget (pgComp e) Reg.COMP.LEAD_STREAMS < 8))
  l.foldl (fun a e => match a with
    | none => some e
    | some b => if d.fget (pgComp e) Reg.COMP.LEAD_STREAMS < d.fget (pgComp b) Reg.COMP.LEAD_STREAMS then some e else some b) none

/-- A stream takes a lead engine, if one leads fewer than 8 streams. -/
def Dev.takeLead (d : Dev) (st : Nat) : Dev :=
  match (d.stream st).lead with
  | some _ => d
  | none =>
    match d.pickLead with
    | none => d
    | some e => (d.modStream st (fun s => { s with lead := some e })).bump (pgComp e) Reg.COMP.LEAD_STREAMS 1

/-- Has enough of a record landed for its compression to begin (R121): START_THRESH KiB, or the whole record? A START_THRESH of 0 waits
for the whole record. -/
def PRec.mayStart (r : PRec) : Bool :=
  (!r.more && r.num.isSome) || (r.startThresh != 0 && decide (1024 * r.startThresh ≤ r.len))

/-- Compression of a stream's oldest record not yet started begins (R121), once the stream has a lead engine; a record stored as
supplied is not compressed (R103). -/
def Dev.compressStart (d : Dev) (st : Nat) : Dev :=
  match findRec (fun r => r.stream == st && !r.started && !r.cut) d.recs with
  | none => d
  | some i =>
    if !(d.recs.getD i { stream := 0, spoke := 0 }).mayStart then d
    else
      let d := d.takeLead st
      match (d.stream st).lead with
      | none => d
      | some e => (d.modRec i (fun r => { r with started := true })).fpShow e

/-! ### Chunks and blocks (R104, R108, R114 to R118) -/

/-- A block of a record closed, with its place in the queue for coding. -/
def PRec.closeBlock (r : PRec) (seq endPos : Nat) (last : Bool) : PRec :=
  { r with blks := r.blks ++ [{ off := r.blkStart, len := endPos - r.blkStart, first := r.nblk == 0, last := last, refs := r.refs, seq := seq }],
           nblk := r.nblk + 1, blkStart := endPos, refs := [], cut := last }

/-- A far reference for the chunk, if R118 allows one: (fingerprint present, chunk ends at a boundary). -/
def Dev.farRef (d : Dev) (r : PRec) (start : Nat) (bs : List Byte) (boundary : Bool) : Bool :=
  r.far && boundary &&
  match d.encOf r.stream with
  | none => false
  | some i => (fpFind (fpReach (d.encSet i).ck.idx start) (fingerprint bs)).isSome

/-- The stream's index after a chunk that begins at `start` of the span (R117); EVICT in the lead engine's page. -/
def Dev.indexChunk (d : Dev) (st : Nat) (bs : List Byte) (boundary : Bool) : Dev :=
  match d.encOf st with
  | none => d
  | some i =>
    let c := (d.encSet i).ck
    let idx := fpReach c.idx c.span
    let x := if boundary then fpInsert idx ⟨fingerprint bs, c.span, bs.length⟩ else (idx, false)
    let d := d.modEnc i (fun s => { s with ck := { idx := x.1, part := [], span := c.span + bs.length } })
    match x.2, (d.stream st).lead with
    | true, some e => d.ev (pgComp e) Reg.COMP.EVICT
    | _, _ => d

/-- The record whose last block has been closed leaves the fingerprint unit: the stream's set goes on behind it. -/
def Dev.recChunked (d : Dev) (i : Nat) : Dev :=
  let r := d.recs.getD i { stream := 0, spoke := 0 }
  let d := (d.setEnd r.stream r.fin).modRec i (fun r => { r with fin := .keep })
  match (d.stream r.stream).lead with | some e => d.fpShow e | none => d

/-- One chunk `bs` of record `i` processed: a block that cannot hold it is closed before it; a block of exactly
1,048,576 bytes is closed after it; the record's end closes the last block. -/
def Dev.takeChunk (d : Dev) (i : Nat) (bs : List Byte) (boundary atEnd : Bool) : Dev :=
  let r := d.recs.getD i { stream := 0, spoke := 0 }
  let span := match d.encOf r.stream with | some k => (d.encSet k).ck.span | none => 0
  let ref := d.farRef r span bs boundary
  let d := if r.far then d.indexChunk r.stream bs boundary else d
  let q := d.blkSeq
  let d := { d with blkSeq := q + 2 }.modRec i (fun r =>
    let r := if 1048576 < r.pos + bs.length - r.blkStart then r.closeBlock q r.pos false else r
    let r := { r with refs := if ref then r.refs ++ [(r.pos - r.blkStart, bs.length, fingerprint bs)] else r.refs,
                      pos := r.pos + bs.length }
    if atEnd then r.closeBlock (q + 1) r.pos true
    else if r.pos - r.blkStart = 1048576 then r.closeBlock (q + 1) r.pos false else r)
  if atEnd then d.recChunked i else d

/-- The lead engine's fingerprint unit takes the next chunk of the stream's oldest record (R122). Bytes that end before
a boundary wait for more, unless the record is whole; a record that ends with no further byte ends in an empty block
(R108). -/
def Dev.fingerprintStep (d : Dev) (st : Nat) : Dev :=
  match findRec (fun r => r.stream == st && r.started && !r.cut) d.recs with
  | none => d
  | some i =>
    let r := d.recs.getD i { stream := 0, spoke := 0 }
    let whole := !r.more && r.num.isSome
    let bytes := (d.piecesBytes r.src).drop r.pos
    if bytes.isEmpty then
      if whole then ({ d with blkSeq := d.blkSeq + 1 }.modRec i (fun r => r.closeBlock d.blkSeq r.pos true)).recChunked i else d
    else
      match chunkAt bytes 0 0 with
      | (n, true) => d.takeChunk i (bytes.take n) true (whole && n == bytes.length)
      | (_, false) => if whole then d.takeChunk i bytes false true else d

/-! ### Coding (R109, R122 to R124) -/

/-- Blocks of a stream in coding. -/
def Dev.inCoding (d : Dev) (st : Nat) : Nat :=
  ((d.recs.filter (fun r => r.stream == st)).map (fun r => (r.blks.filter (fun b => match b.st with | .coding _ => true | _ => false)).length)).foldl
    (· + ·) 0

/-- The first block of a list that satisfies `f`. -/
def findBlk (f : PBlk → Bool) : List PBlk → Option Nat
  | [] => none
  | b :: t => if f b then some 0 else (findBlk f t).map (· + 1)

/-- The oldest record with a block that satisfies `f`, and that block's place. -/
def findRecBlk (g : PRec → Bool) (f : PBlk → Bool) : List PRec → Option (Nat × Nat)
  | [] => none
  | r :: t => match (if g r then findBlk f r.blks else none) with
    | some k => some (0, k)
    | none => (findRecBlk g f t).map (fun p => (p.1 + 1, p.2))

/-- Block `k` of record `i` changed. -/
def Dev.modBlk (d : Dev) (i k : Nat) (f : PBlk → PBlk) : Dev := d.modRec i (fun r => { r with blks := r.blks.modify k f })

/-- The block at a place. -/
def Dev.blk (d : Dev) (i k : Nat) : PBlk :=
  (d.recs.getD i { stream := 0, spoke := 0 }).blks.getD k { off := 0, len := 0, first := false, last := false }

/-- Engine `e` is free to code or decode. -/
def Dev.compFree (d : Dev) (e : Nat) : Bool :=
  d.serviceable (pgComp e) && !d.fon (pgComp e) Reg.COMP.ACTIVE && !d.fon (pgComp e) Reg.COMP.WAIT_BUF &&
  !d.fon (pgComp e) Reg.HEADER.QUIESCE_REQ

/-- The blocks that engine `e` may take, as (place in the queue, record, block): those queued of streams with fewer than 4 blocks in
coding, but for one that it has abandoned (R122, R125). -/
def Dev.codable (d : Dev) (e : Nat) : List (Nat × Nat × Nat) :=
  ((List.range d.recs.length).map (fun i =>
    match d.recs[i]? with
    | none => []
    | some r => if d.inCoding r.stream < 4 then
        (List.range r.blks.length).filterMap (fun k => match r.blks[k]? with
          | some b => if b.st == .queued && b.notOn != some e then some (b.seq, i, k) else none
          | none => none)
      else [])).flatten

/-- The oldest of them. -/
def oldestBlk : List (Nat × Nat × Nat) → Option (Nat × Nat)
  | [] => none
  | x :: r => some (r.foldl (fun a b => if b.1 < a.1 then b else a) x).2

/-- A free compressor takes the oldest queued block of any stream with fewer than 4 blocks in coding (R122). -/
def Dev.blockDispatch (d : Dev) (e : Nat) : Dev :=
  if !d.compFree e then d
  else
    match oldestBlk (d.codable e) with
    | none => d
    | some (i, k) => (d.modBlk i k (fun b => { b with st := .coding e, eng := e })).ev (pgComp e) Reg.COMP.ACTIVE

/-- OUT_CLASS as it acts (R133). -/
def outClassEff (c : Nat) : Nat := min c 5

/-- Does a coded body stand for the block's host bytes under R105 and R110 to R113, with exactly the far references decided for it
(R118), and with a near match only where the engine makes any (MATCH_DEPTH 0 is literals only, R133)? Which of the bodies that do so
an engine makes the manual leaves to its hash and its code builder (R123).
(DESIGN CHOICE, log entry 25.) -/
def bodyOk (near : Bool) (host body : List Byte) (refs : List (Nat × Nat × Nat)) : Bool :=
  let far (fp : Nat) (out : List Byte) : Option (List Byte × Nat) :=
    (refs.find? (fun r => r.1 == out.length && r.2.2 == fp)).map (fun r => ((host.drop r.1).take r.2.1, 0))
  decide (129 ≤ body.length) &&
  match decodeBody far body host.length with
  | .ok x => x.out.reverse == host && x.fars.map (·.start) == refs.map (·.1) && decide (x.rest.length < 8) && x.rest.all (· == false) &&
      (near || x.toks.all (fun t => match t.copy with | some (.near, _) => false | _ => true))
  | .error _ => false

/-- The NCF bytes of a block (R107 to R109), and whether it is coded: the coded form `body` only where the stream codes, it stands for
the block and it is smaller than the raw one. -/
def blockBytes (coding near : Bool) (b : PBlk) (host body : List Byte) : List Byte × Bool :=
  let keep := coding && decide (body.length < host.length) && bodyOk near host body b.refs
  let mk (type : Nat) (body : List Byte) (far : Bool) : List Byte :=
    NcfHeader.bytes { type := type, first := b.first, last := b.last, farUsed := far, inLen := host.length,
                      bodyLen := body.length, check := ncfCheck host } ++ body
  if host.isEmpty then (mk 0 [] false, false)
  else if keep then (mk 1 body (!b.refs.isEmpty), true)
  else (mk 2 host false, false)

/-! ### The output (R124, R106) -/

/-- Object `num` of spoke `n` changed. -/
def Dev.modObj (d : Dev) (n num : Nat) (f : Obj → Obj) : Dev :=
  d.modWr n (fun w => { w with objs := w.objs.map (fun o => if o.num == num then f o else o) })

/-- Bytes appended to a list of pieces: the last buffer is filled to its size, then buffers of class `c` are taken for the compressor
group; on NOBUF what is left over, and the buffers already filled stay (R124). -/
def Dev.appendOut (d : Dev) (c : Nat) : Nat → List Piece → List Byte → Dev × List Piece × List Byte
  | 0, ps, bs => (d, ps, bs)
  | k + 1, ps, bs =>
    if bs.isEmpty then (d, ps, [])
    else
      let room := match ps.getLast? with | some p => d.pool.bufSize p.handle - (p.off + p.len) | none => 0
      match ps.getLast?, decide (0 < room) with
      | some p, true =>
        let m := min room bs.length
        let d := d.chestPut (d.pool.bufAddr p.handle + p.off + p.len) (bs.take m)
        d.appendOut c k (ps.dropLast ++ [{ p with len := p.len + m }]) (bs.drop m)
      | _, _ =>
        match d.alloc 8 (classSize c) with
        | (d, none) => (d, ps, bs)
        | (d, some h) => d.appendOut c k (ps ++ [⟨h, 0, 0⟩]) bs

/-- Where the header of a block stands in its stored bytes: behind the frame's own 32 bytes when it is encrypted (R106, R361). -/
def PRec.headAt (r : PRec) : Nat := if r.enc then 32 else 0

/-- The first finished block of record `i` put into its object's stored form; on NOBUF its engine waits for the next buffer (R124). -/
def Dev.flushOne (d : Dev) (i : Nat) : Dev :=
  let r := d.recs.getD i { stream := 0, spoke := 0 }
  match r.num, r.blks with
  | some num, b :: rest =>
    if b.st ≠ .finished then d
    else
      match (d.sp r.spoke).wr.objs.find? (fun o => o.num == num) with
      | none => d.modRec i (fun r => { r with blks := rest })
      | some o =>
        let left := b.bytes.drop b.put
        let (d, ps, unput) := d.appendOut b.outClass (left.length + 2) o.pieces left
        let k := left.length - unput.length
        let d := d.modRec i (fun r => { r with
          blks := if unput.isEmpty then rest else { b with put := b.put + k } :: rest, outLen := r.outLen + k })
        let start := if b.put = 0 ∧ 0 < k then [(r.outLen + r.headAt, b.len)] else []
        let d := d.modObj r.spoke num (fun o => { o with
          pieces := ps, blocks := o.blocks ++ start, ready := unput.isEmpty && rest.isEmpty && r.cut })
        let d := d.setFill r.spoke ((d.sp r.spoke).wr.fillBytes + k)
        if unput.isEmpty then d else (d.ev (pgComp b.eng) Reg.COMP.WAIT_BUF).ev (pgComp b.eng) Reg.COMP.NOBUF_WAIT
  | _, _ => d

/-- The last `k` bytes of a list of pieces taken off; the buffers that this empties. -/
def cutPieces : Nat → List Piece → List Piece × List Nat
  | _, [] => ([], [])
  | k, p :: r =>
    let x := cutPieces k r
    let gone := k - (piecesLen r - piecesLen x.1)
    if x.1.isEmpty then (if p.len ≤ gone then ([], p.handle :: x.2) else ([{ p with len := p.len - gone }], x.2)) else (p :: x.1, x.2)

/-- The output written for block `k` of record `i`, of which only a part is placed, is released (R125). -/
def Dev.unput (d : Dev) (i k : Nat) : Dev :=
  let r := d.recs.getD i { stream := 0, spoke := 0 }
  let b := d.blk i k
  match r.num with
  | none => d
  | some num =>
    if b.put = 0 then d
    else
      match (d.sp r.spoke).wr.objs.find? (fun o => o.num == num) with
      | none => d
      | some o =>
        let x := cutPieces b.put o.pieces
        let d := (d.decRefs x.2).modObj r.spoke num (fun o => { o with pieces := x.1, blocks := o.blocks.dropLast })
        let d := d.modRec i (fun r => { r with outLen := r.outLen - b.put, blks := r.blks.modify k (fun b => { b with put := 0 }) })
        d.setFill r.spoke ((d.sp r.spoke).wr.fillBytes - b.put)

/-- A record whose blocks are all placed leaves the press, and its landed bytes are released. -/
def Dev.retireRec (d : Dev) (i : Nat) : Dev :=
  let r := d.recs.getD i { stream := 0, spoke := 0 }
  if r.cut && r.blks.isEmpty && r.num.isSome && !r.more then
    (d.decRefs (dedup (r.src.map (·.handle)))).modRec i (fun r => { r with src := [], dead := true })
  else d

/-- Finished blocks of record `i` put into the output in block order (R122). -/
def Dev.flushRec (d : Dev) (i : Nat) : Nat → Dev
  | 0 => d
  | k + 1 =>
    let d' := d.flushOne i
    if (d'.recs.getD i { stream := 0, spoke := 0 }).blks.length = (d.recs.getD i { stream := 0, spoke := 0 }).blks.length then d'
    else d'.flushRec i k

/-- The output of record `i` brought up to date, and records that have left the press dropped from its list. -/
def Dev.flush (d : Dev) (i : Nat) : Dev :=
  let d := (d.flushRec i ((d.recs.getD i { stream := 0, spoke := 0 }).blks.length)).retireRec i
  { d with recs := d.recs.filter (fun r => !r.dead) }

/-- Engine `e` finishes its block (R109): `body` is the coded body it made. A block that the engine works on after a change while it was
not quiesced is undefined (UB-4). -/
def Dev.blockCoded (d : Dev) (e : Nat) (body : List Byte) : Dev :=
  match findRecBlk (fun _ => true) (fun b => b.st == .coding e) d.recs with
  | none => d
  | some (i, k) =>
    let pg := pgComp e
    let r := d.recs.getD i { stream := 0, spoke := 0 }
    let b := d.blk i k
    let host := ((d.piecesBytes r.src).drop b.off).take b.len
    let x := blockBytes r.coding (d.fget pg Reg.COMP.MATCH_DEPTH != 0) b host body
    let y : Dev × List Byte := if d.unsettled pg then (d.nextFree, freeBytes d.freeVal (16 + d.freeVal % 1048577)) else (d, x.1)
    let d := ((y.1.clr pg Reg.COMP.ACTIVE).bump pg Reg.COMP.BLOCKS 1).unit pg
    let d := if x.2 || host.isEmpty then d else d.bump pg Reg.COMP.RAW_BLOCKS 1
    let d := match (d.stream r.stream).lead with
      | some l => if x.2 then d.bump (pgComp l) Reg.COMP.FAR_REFS b.refs.length else d
      | none => d
    let d := (d.countMib pg Reg.COMP.IN_MIB e host.length).countMib pg Reg.COMP.OUT_MIB (32 + e) y.2.length
    let c := outClassEff (d.fget pg Reg.COMP.OUT_CLASS)
    let d := d.modBlk i k (fun b => { b with st := if r.enc then .toCrypt else .finished, bytes := y.2, outClass := c })
    d.flush i

/-- A buffer has been released: an engine that waits for one retries (R124). -/
def Dev.compRetry (d : Dev) (e : Nat) : Dev :=
  if !d.fon (pgComp e) Reg.COMP.WAIT_BUF then d
  else
    match findRecBlk (fun r => match r.blks with | b :: _ => b.eng == e && b.st == .finished | [] => false) (fun _ => true) d.recs with
    | none => d.clr (pgComp e) Reg.COMP.WAIT_BUF
    | some (i, _) => (d.clr (pgComp e) Reg.COMP.WAIT_BUF).flush i

/-- The spoke whose block instance `c` encrypts next, with the block's place (R13, R361): the oldest of a spoke, the spokes in turn. -/
def Dev.toEncrypt (d : Dev) (c : Nat) : Option (Nat × Nat × Nat) :=
  let of (n : Nat) := findRecBlk (fun r => r.spoke == n) (fun b => b.st == .toCrypt) d.recs
  (rrPick 8 (d.grantPtr (pgCrypt c)) (fun n => (of n).isSome)).bind (fun n => (of n).map (fun p => (n, p.1, p.2)))

/-- PRESS.CRYPT encrypts the next block that waits for its frame (R361), on instance `c`. The slot's counter after
2^64 − 1 ends the stream that is answered, which the caller does. -/
def Dev.frameEncrypt (d : Dev) (c : Nat) : Dev × Option Nat :=
  let pg := pgCrypt c
  if !d.serviceable pg || !d.takesWork pg then (d, none)
  else
    match d.toEncrypt c with
    | none => (d, none)
    | some (n, i, k) =>
      let d := d.grant pg 8 n
      let r := d.recs.getD i { stream := 0, spoke := 0 }
      let s := d.slot r.slot
      let b := d.blk i k
      if 2 ^ 64 ≤ s.ivCount then (d.ev pg Reg.CRYPT.COUNTER_END, some r.stream)
      else
        let x : Dev × List Byte := if d.unsettled pg then (d.nextFree, freeBytes d.freeVal (48 + b.bytes.length))
          else (d, makeFrame s b.first b.last b.bytes)
        let d := x.1.modSlot r.slot (fun s => { s with ivCount := s.ivCount + 1 })
        let d := d.modBlk i k (fun b => { b with st := .finished, bytes := x.2 })
        (((d.bump pg Reg.CRYPT.FRAMES_ENC 1).unit pg).flush i, none)

end Sys2Proof.Machine
end

