-- ==== Sys2Proof/Machine/Channel.lean ====
section
/-! DEFINITION. The read channel of a spoke (spec chapter 8): lanes and their layout contexts, the header tries, tiles,
what a decoded segment delivers, telemetry, quality maps, head health, and the sample hold's keeping (R235). -/

namespace Sys2Proof.Machine

def Dev.modRd (d : Dev) (n : Nat) (f : Rd → Rd) : Dev := d.modSp n (fun s => { s with rd := f s.rd })
def Dev.rd (d : Dev) (n : Nat) : Rd := (d.sp n).rd

/-- The LANEFE page of read lane `l` (R202). -/
def lfe (n l : Nat) : PageId := pgLanefe n (l / 16)
/-- A PREAMP message that carries the bias of lane `l` (R192, R204). -/
def Dev.preampBias (d : Dev) (n l : Nat) : Dev :=
  d.ctl n 0x04 (bytesBE 1 2 ++ bytesBE 1 l ++ bytesBE 1 (d.fget (lfe n l) (Reg.LANEFE.BIAS (l % 16))))

/-- The DETECT page that holds the spoke-wide fields (R230), and the DECODE page of DEC_CFG (R231). -/
def pgDet0 (n : Nat) : PageId := pgDetect n 0
def pgDec0 (n : Nat) : PageId := pgDecode n 0


/-! ### Lanes -/

def Rd.lane (r : Rd) (l : Nat) : LaneCtx := mget (fun _ => {}) r.lanes l
def Dev.modLane (d : Dev) (n l : Nat) (f : LaneCtx → LaneCtx) : Dev :=
  d.modRd n (fun r => { r with lanes := mmod (fun _ => {}) r.lanes l f })

/-- The lanes of a mode. -/
def Rd.countMode (r : Rd) (m : LaneMode) : Nat := ((List.range 64).filter (fun l => (r.lane l).mode == m)).length

/-- HUNTING and LOCKED of SYNC_STAT (R230). -/
def Dev.syncStat (d : Dev) (n : Nat) : Dev :=
  (d.fset (pgDet0 n) Reg.DETECT.HUNTING ((d.rd n).countMode .hunt)).fset (pgDet0 n) Reg.DETECT.LOCKED ((d.rd n).countMode .locked)

/-- A lane's mode, with SYNC_LOCK. Gap search begins the AGC's and the timing loop's acquisition anew (R206, R209). -/
def Dev.laneMode (d : Dev) (n l : Nat) (m : LaneMode) : Dev :=
  ((d.modLane n l (fun c => if m = .gap ∧ c.mode ≠ .gap then { c with mode := m, acq := 32, ampSum := 0, ampCount := 0, loopAcq := 16 }
    else { c with mode := m })).fput (lfe n l) (Reg.LANEFE.SYNC_LOCK (l % 16)) (m == .locked)).syncStat n

/-! ### The AGC and the timing loop (R206, R209) -/

/-- TARGET as it acts (R204). -/
def agcTarget (t : Nat) : Nat := max 16 (min 100 t)

/-- GAIN one step toward the target: `have_` is what was measured, `want` the target for it. -/
def gainStep (gain have_ want : Nat) : Nat := if have_ < want then min 120 (gain + 1) else if want < have_ then gain - 1 else gain

/-- What 16 channel bits do to a lane's AGC (R206), with its target, HOLD or not, and GAIN: HOLD begins below 25 % of the target over 64
bits, and ends when 50 % has been reached for 64 bits. The comparison is made over as many bits as a step takes.
(DESIGN CHOICE, log entry 34.) -/
def agcStep (target : Nat) (x : LaneCtx × Bool × Nat) (o : LoopObs) : LaneCtx × Bool × Nat :=
  let (c, held, gain) := x
  let amps := (o.amp :: c.amps).take 4
  let mean := amps.foldl (· + ·) 0
  let full := amps.length == 4
  let c := { c with amps := amps }
  let acq := 0 < c.acq
  let c := { c with acq := c.acq - 1 }
  if held then
    if full && decide (32 * target ≤ mean) then
      (if 4 ≤ c.good + 1 then ({ c with good := 0, ampSum := 0, ampCount := 0 }, false, gain) else ({ c with good := c.good + 1 }, true, gain))
    else ({ c with good := 0 }, true, gain)
  else if full && decide (mean < 16 * target) then ({ c with good := 0 }, true, gain)
  else if acq then (c, false, gainStep gain o.amp (16 * target))
  else if 64 ≤ c.ampCount + 1 then ({ c with ampSum := 0, ampCount := 0 }, false, gainStep gain (c.ampSum + o.amp) (1024 * target))
  else ({ c with ampSum := c.ampSum + o.amp, ampCount := c.ampCount + 1 }, false, gain)

/-- The largest offset that the timing loop tracks, ±3.0 %, in its units. -/
def freqMax : Int := 64424509

/-- What 16 channel bits do to the timing loop (R209): gains 2^−4 and 2^−9 in acquisition, 2^−7 and 2^−15 in tracking; frozen in HOLD,
where the accumulator keeps its frequency. -/
def loopStep (held : Bool) (c : LaneCtx) (o : LoopObs) : LaneCtx :=
  let turn (x : Int) : Int := x % 2147483648
  let c := { c with loopAcq := c.loopAcq - 1 }
  if held then { c with phase := turn (c.phase + 16 * c.freq) }
  else
    let k : Int × Int := if 0 < c.loopAcq then (2048, 64) else (256, 1)
    let f := max (-freqMax) (min freqMax (c.freq + o.terr * k.2))
    { c with freq := f, phase := turn (c.phase + o.terr * k.1 + 16 * f) }

/-- Which of the interpolator's 64 phases is in use (R209). -/
def LaneCtx.tapPhase (c : LaneCtx) : Nat := (c.phase / 33554432).toNat

/-- FREQ_OFS, in ppm. -/
def LaneCtx.ppm (c : LaneCtx) : Int := c.freq * 1000000 / 2147483648

/-- The AGC and the timing loop of a lane over what its signal gives (R206, R209): GAIN is frozen in HOLD, and an entry to HOLD is
counted. -/
def Dev.loops (d : Dev) (n l : Nat) (obs : List LoopObs) : Dev :=
  let pg := lfe n l
  let i := l % 16
  let target := agcTarget (d.fget pg (Reg.LANEFE.TARGET i))
  let d := obs.foldl (fun (e : Dev) o =>
    let held := e.fon pg (Reg.LANEFE.DROPOUT i)
    let x := agcStep target ((e.rd n).lane l, held, min 120 (e.fget pg (Reg.LANEFE.GAIN i))) o
    let c := loopStep x.2.1 x.1 o
    let e := if x.2.1 && !held then e.bump (pgDet0 n) Reg.DETECT.DROPOUTS 1 else e
    let e := (e.fput pg (Reg.LANEFE.DROPOUT i) x.2.1).modLane n l (fun _ => { c with gain120 := c.gain120 && x.2.2 == 120 })
    if x.2.1 then e else e.fset pg (Reg.LANEFE.GAIN i) x.2.2) d
  d.fset pg (Reg.LANEFE.FREQ_OFS i) (toField 16 ((d.rd n).lane l).ppm)

/-! ### Tiles (R218) -/

def Rd.tileOf (r : Rd) (t : Nat) : List TileSeg := mget (fun _ => []) r.tiles t

/-- A tile's segments, with BUFFERS and ACTIVE. Number 9 stands for no tile: segments that found every tile full. -/
def Dev.setTile (d : Dev) (n t : Nat) (l : List TileSeg) : Dev :=
  let d := d.modRd n (fun r => { r with tiles := mset (fun _ => []) r.tiles t l })
  if t < 9 then
    (d.fset (pgDetect n t) Reg.DETECT.BUFFERS l.length).fput (pgDetect n t) Reg.DETECT.ACTIVE (l.any (·.ready))
  else d

/-- Does tile `t` take new segments (R23, R218): serviceable, and not quiescing? -/
def Dev.tileTakes (d : Dev) (n t : Nat) : Bool := d.tileOk n t && d.takesWork (pgDetect n t) && d.takesWork (pgDecode n t)

/-- The serviceable tile with the fewest segments, the lowest-numbered of equal ones; none when all hold 16. -/
def Dev.pickTile (d : Dev) (n : Nat) : Option Nat :=
  let load (t : Nat) := ((d.rd n).tileOf t).length
  let best := ((List.range 9).filter (d.tileTakes n)).foldl (fun a t => match a with
    | none => some t
    | some b => if load t < load b then some t else some b) none
  match best with
  | some t => if 16 ≤ load t then none else some t
  | none => none

/-- INLINE_ITERS as it acts (R231). -/
def Dev.inlineCap (d : Dev) (n : Nat) : Nat := min 12 (d.fget (pgDec0 n) Reg.DECODE.INLINE_ITERS)

/-- The middle of a list of numbers; between the two middle ones of an even count the manual leaves it open: a free value picks. -/
def medianOf (free : Nat) (l : List Int) : Int :=
  let s := l.foldl (fun (a : List Int) x => a.filter (fun y => decide (y ≤ x)) ++ [x] ++ a.filter (fun y => decide (x < y))) []
  let lo := s.getD ((s.length - 1) / 2) 0
  lo + (free % ((s.getD (s.length / 2) 0 - lo).toNat + 1) : Nat)

/-- The spoke's prediction (R217): the median, over the lanes whose last header passed, of alignment less skew. -/
def Dev.spokePlace (d : Dev) (n : Nat) : Int :=
  medianOf d.freeVal (((List.range 64).map (d.rd n).lane).filter (·.passed) |>.map (fun c => c.place - c.skew))

/-- A lane's observations, 16 channel bits at a time: the amplitude, and the timing errors found late less those found early (R206, R209). -/
def LoopObs.join (amp late early : List Nat) : List LoopObs :=
  List.zipWith (fun a x => { amp := a, terr := (x.1 : Int) - x.2 }) amp (late.zip early)

/-- A lane's prediction comes due (R218): the segment goes to a tile, or is dropped. A lane in hunt predicts from the spoke (R217). The
context moves to the next position; after the last position of a sheet the lane is in gap search (R216).
(DEDUCED, log entry 34.) -/
def Dev.segmentDue (d : Dev) (n l : Nat) (obs : List LoopObs) : Dev :=
  if !d.fon (lfe n l) (Reg.LANEFE.ENABLE (l % 16)) then d
  else
    let d := d.loops n l obs
    let c := (d.rd n).lane l
    if c.mode == .gap then d
    else
      let d := if c.mode == .hunt then d.nextFree.modLane n l (fun c => { c with place := d.spokePlace n + c.skew }) else d
      let s : TileSeg := { lane := l, seg := ⟨c.sheet, 64 * c.pos + l, c.gen, 0, false⟩, kind := c.kind, inArea := c.inArea,
                           first := c.first, cap := d.inlineCap n }
      let d := match d.pickTile n with
        | some t => d.setTile n t ((d.rd n).tileOf t ++ [s])
        | none => (List.range 9).foldl (fun e t => e.ev (pgDetect n t) Reg.DETECT.SEG_DROP)
            (d.setTile n 9 ((d.rd n).tileOf 9 ++ [s]))
      let d := d.modLane n l (fun c => { c with first := false })
      if c.inArea then d
      else if c.pos = 31 then (d.modLane n l (fun c => { c with pos := 0 })).laneMode n l .gap
      else d.modLane n l (fun c => { c with pos := c.pos + 1 })

/-! ### Header tries (R213) -/

/-- Does candidate `a` come before `b`: by distance, then by |k|, then by k? -/
def candBefore (a b : Int × Nat) : Bool :=
  decide (a.2 < b.2) || (a.2 == b.2 && (decide (a.1.natAbs < b.1.natAbs) || (a.1.natAbs == b.1.natAbs && decide (a.1 < b.1))))

def insCand (x : Int × Nat) : List (Int × Nat) → List (Int × Nat)
  | [] => [x]
  | y :: r => if candBefore x y then x :: y :: r else y :: insCand x r

/-- The candidates of a search, in the order of the tries: the offsets examined at which the distance measured, in `dist`, is at most
`thresh`. -/
def candsOf (examined : Int → Bool) (thresh : Nat) (dist : List (Int × Nat)) : List (Int × Nat) :=
  (dist.filter (fun p => examined p.1 && decide (p.2 ≤ thresh))).foldl (fun l x => insCand x l) []

/-- The alignments tried: the first two candidates, and the flywheel alignment 0. -/
def triesOf (cands : List (Int × Nat)) : List Int :=
  let t := (cands.take 2).map (·.1)
  if t.contains 0 then t else t ++ [0]

/-- The header found at an alignment on lane `l`, when it passes R63. `hdr` gives the 144 bits as read at each. -/
def headerAt (l : Nat) (hdr : List (Int × List Bool)) (k : Int) : Option SegHeader :=
  match hdr.find? (fun p => p.1 == k) with
  | none => none
  | some (_, b) =>
    let x := scrambleHeader l b
    if x.length = 144 && headerPasses x l then some (SegHeader.ofBits x) else none

/-- What the tries of R213 give: the header and the alignment used, or the alignment offered to the hold (R222);
FREEWHEEL, ALT_ALIGN, and whether the first candidate served. -/
structure Aligned where
  hdr : Option SegHeader
  ofs : Int
  freewheel : Bool
  altAlign : Bool
  first : Bool
  found : Bool
  deriving DecidableEq, Repr

def alignOf (l : Nat) (examined : Int → Bool) (thresh : Nat) (dist : List (Int × Nat)) (hdr : List (Int × List Bool)) : Aligned :=
  let cands := candsOf examined thresh dist
  match (triesOf cands).find? (fun k => (headerAt l hdr k).isSome) with
  | some k =>
    let fw := cands.isEmpty
    let isFirst := match cands with | p :: _ => p.1 == k | [] => false
    { hdr := headerAt l hdr k, ofs := k, freewheel := fw, altAlign := !isFirst && !fw, first := isFirst, found := !fw }
  | none => { hdr := none, ofs := match cands with | p :: _ => p.1 | [] => 0, freewheel := false, altAlign := false,
              first := false, found := !cands.isEmpty }

/-- THRESH as it acts (R230). -/
def Dev.thresh (d : Dev) (n : Nat) : Nat := min 12 (d.fget (pgDet0 n) Reg.DETECT.THRESH)

/-- The search for a segment (R213): within WINDOW, as it acts, of the prediction; for the first segment of a sheet up to 160 bits from
the detection of its low tone on (R216). -/
def Dev.searchOf (d : Dev) (n l : Nat) (first : Bool) (dist : List (Int × Nat)) (hdr : List (Int × List Bool)) : Aligned :=
  let window := min 24 (d.fget (pgDet0 n) Reg.DETECT.WINDOW)
  alignOf l (fun k => if first then decide (0 ≤ k) && decide (k ≤ 160) else decide (k.natAbs ≤ window)) (d.thresh n) dist hdr

/-- No search was made: the segment found every tile full (R218). -/
def unsearched : Aligned := { hdr := none, ofs := 0, freewheel := false, altAlign := false, first := false, found := true }

/-! ### The sample hold (R235) -/

/-- HELD and PINNED. -/
def Dev.holdRegs (d : Dev) (n : Nat) : Dev :=
  let h := (d.rd n).hold
  (d.fset (pgSh n) Reg.SAMPLEHOLD.HELD h.length).fset (pgSh n) Reg.SAMPLEHOLD.PINNED (h.filter (·.2.pinned)).length

/-- The lowest free slot of the hold. -/
def freeSlot (h : List (Nat × CapRec)) : Option Nat := (List.range 32).find? (fun i => !h.any (fun p => p.1 == i))

/-- A capture record is offered (R222): kept only while reading, with a free slot; otherwise counted as missed. -/
def Dev.offer (d : Dev) (n : Nat) (c : CapRec) : Dev :=
  if !(d.sp n).drv.reading then d
  else
    match freeSlot (d.rd n).hold with
    | none => (d.bump (pgSh n) Reg.SAMPLEHOLD.HOLD_MISSED 1).ev (pgSh n) Reg.SAMPLEHOLD.HOLD_FULL
    | some i =>
      let pin := (d.rd n).ladder.phase != .idle && (d.rd n).ladder.sheet == c.seg.sheet
      (d.modRd n (fun r => { r with hold := r.hold ++ [(i, { c with stamp := r.holdStamp, pinned := pin })],
                                    holdStamp := r.holdStamp + 1 })).holdRegs n

/-- Held records that satisfy `f` are released. -/
def Dev.unhold (d : Dev) (n : Nat) (f : CapRec → Bool) : Dev :=
  (d.modRd n (fun r => { r with hold := r.hold.filter (fun p => !f p.2) })).holdRegs n

/-! ### Rows for the sheet decoder (R94, R95, R222) -/

/-- The sheet as the read path holds it. -/
def Rd.sheet? (r : Rd) (num : Nat) : Option RSheet := r.sheets.find? (fun s => s.num == num)
def Dev.modSheetR (d : Dev) (n num : Nat) (f : RSheet → RSheet) : Dev :=
  d.modRd n (fun r => { r with sheets := r.sheets.map (fun s => if s.num == num then f s else s) })

/-- A sheet met for the first time is held from then on, in slot order. -/
def Dev.meetSheet (d : Dev) (n num kind gen : Nat) : Dev :=
  match (d.rd n).sheet? num with
  | some _ => d
  | none => d.modRd n (fun r => { r with sheets := r.sheets ++ [{ num := num, kind := kind, gen := gen, wrap := (d.rd n).wrap,
                                                                  cog := (d.sp n).drv.tgtCog }] })

/-- Is the sheet being read again by a rung (R233)? -/
def Rd.rereading (r : Rd) (num : Nat) : Bool := r.ladder.phase == .reread && r.ladder.sheet == num

/-- A copy of a row reaches the sheet decoder: held for the next decode while one runs, discarded after the final
decode unless a rung delivers it (R95, R97, R233). -/
def Dev.deliverRow (d : Dev) (n : Nat) (id : SegId) (kind : Nat) (x : RowRec) (byRung : Bool) : Dev :=
  if !(d.sp n).drv.reading && !byRung then d
  else
    let d := d.meetSheet n id.sheet kind id.gen
    match (d.rd n).sheet? id.sheet with
    | none => d
    | some s =>
      if s.final && !byRung && !(d.rd n).rereading id.sheet then d
      else
        let gain := x.converged && !(s.rows.any (fun p => p.1 == id.row && p.2.converged))
        let d := d.modSheetR n id.sheet (fun s =>
          if s.busy then { s with late := s.late ++ [(id.row, x)] } else { s with rows := addRow s.rows id.row x })
        let d := if gain && ((d.rd n).ladder.sheet == id.sheet) then d.modRd n (fun r => { r with ladder := { r.ladder with gained := true } }) else d
        if x.converged then d.unhold n (fun c => c.seg.sheet == id.sheet && c.seg.row == id.row) else d

/-! ### Quality maps (R224, R225) -/

/-- The class of a decoded segment. -/
def qualityClass (converged : Bool) (iters : Nat) : Nat :=
  if !converged then 6 else if iters ≤ 1 then 0 else if iters = 2 then 1 else if iters ≤ 4 then 2
  else if iters ≤ 8 then 3 else if iters ≤ 12 then 4 else 5

/-- Is a map being built for what passes now? -/
def Dev.mapOn (d : Dev) (n : Nat) : Bool :=
  d.fon (pgDet0 n) Reg.DETECT.ENABLE && ((d.sp n).drv.reading || d.fon (pgDet0 n) Reg.DETECT.VERIFY)

/-- The map of a copy as it begins. -/
def Dev.mapOf (d : Dev) (n sheet gen kind : Nat) : QMap :=
  let v := !(d.sp n).drv.reading
  { sheet := sheet, gen := gen, part := (d.sp n).sess.part, wrap := if v then (d.sp n).wr.wrap else (d.rd n).wrap, kind := kind, verify := v }

/-- An original segment's code entered in the map of its copy. -/
def Dev.mapCode (d : Dev) (n : Nat) (id : SegId) (kind code : Nat) : Dev :=
  if !d.mapOn n || id.rwslot != 0 then d
  else
    let v := !(d.sp n).drv.reading
    let d := if (d.rd n).openMaps.any (fun m => m.sheet == id.sheet && m.gen == id.gen && m.verify == v) then d
      else d.modRd n (fun r => { r with openMaps := r.openMaps ++ [d.mapOf n id.sheet id.gen kind] })
    d.modRd n (fun r => { r with openMaps := r.openMaps.map (fun m =>
      if m.sheet == id.sheet && m.gen == id.gen && m.verify == v then { m with codes := mset (fun _ => 7) m.codes id.row code }
      else m) })

/-- The copy's postamble has passed: its map closes, and the 16 latest are kept. A copy of which no segment came has one too. -/
def Dev.closeMap (d : Dev) (n num gen kind : Nat) : Dev :=
  match ((d.rd n).openMaps.find? (fun m => m.sheet == num && m.gen == gen)).or (if d.mapOn n then some (d.mapOf n num gen kind) else none) with
  | none => d
  | some m =>
    let conv := (m.codes.filter (fun p => decide (p.2 % 8 < 6))).length
    let met := (m.codes.filter (fun p => decide (p.2 % 8 < 7))).length
    d.modRd n (fun r => { r with
      openMaps := r.openMaps.filter (fun x => !(x.sheet == num && x.gen == gen && x.verify == m.verify)),
      maps := ({ m with time := d.now, converged := conv, hdrFailed := 2048 - met } :: r.maps).take 16 })

/-! ### Head health (R226) -/

/-- HEALTH of a lane raised to `h` when it is 0, or to 2 over 1: the class set stays otherwise. -/
def Dev.setHealth (d : Dev) (n l h : Nat) : Dev :=
  if d.fget (lfe n l) (Reg.LANEFE.HEALTH (l % 16)) = 0 then d.fset (lfe n l) (Reg.LANEFE.HEALTH (l % 16)) h else d

/-- GAIN_BASE of a lane in the zone in use; 0x7F while fewer than 16 copies have passed. -/
def Rd.baseOf (r : Rd) (l z : Nat) : Nat := mget (fun _ => 0x7F) r.gainBase (4 * l + z)

/-- A copy's end on lane `l`: the gain baseline, then the tests of READER_OPEN and READER_WEAK. Over which moments the mean GAIN of the
first 16 copies is taken the manual leaves open: GAIN counts once a copy, at its end.
(DESIGN CHOICE, log entry 29.) -/
def Dev.healthLane (d : Dev) (n others l : Nat) : Dev :=
  let pg := lfe n l
  let i := l % 16
  let z := (d.rd n).zone
  let c := (d.rd n).lane l
  let g := min 120 (d.fget pg (Reg.LANEFE.GAIN i))
  let acc := mget (fun _ => (0, 0)) (d.rd n).gainSum (4 * l + z)
  let d := if 16 ≤ acc.1 then d
    else
      let a := (acc.1 + 1, acc.2 + g)
      let d := d.modRd n (fun r => { r with gainSum := mset (fun _ => (0, 0)) r.gainSum (4 * l + z) a })
      if a.1 = 16 then
        (d.modRd n (fun r => { r with gainBase := mset (fun _ => 0x7F) r.gainBase (4 * l + z) (a.2 / 16) })).fset pg
          (Reg.LANEFE.GAIN_BASE i) (a.2 / 16)
      else d
  let rise := d.fget (pgDet0 n) Reg.DETECT.GAIN_RISE
  let floor := d.fget (pgDet0 n) Reg.DETECT.SNR_FLOOR
  let base := (d.rd n).baseOf l z
  let weakNow := (rise != 0 && base != 0x7F && decide (base + rise < g)) ||
    (floor != 0 && decide (d.fget pg (Reg.LANEFE.SNR i) < floor))
  let w := if weakNow then mget (fun _ => 0) (d.rd n).weak l + 1 else 0
  let d := d.modRd n (fun r => { r with weak := mset (fun _ => 0) r.weak l (min w 4) })
  let d := if c.gain120 && !c.candSeen && decide (32 ≤ others) then d.setHealth n l 2 else d
  let d := if 4 ≤ w then d.setHealth n l 1 else d
  d.modLane n l (fun c => { c with candSeen := false, hdrSeen := false, gain120 := true })

/-- The end of a sheet copy on every lane. -/
def Dev.healthCopy (d : Dev) (n : Nat) : Dev :=
  let passed := ((List.range 64).filter (fun l => ((d.rd n).lane l).hdrSeen)).length
  (List.range 64).foldl (fun e l => e.healthLane n (passed - b2n (((d.rd n).lane l).hdrSeen)) l) d

/-! ### A segment arrives (R213 to R217, R219) -/

/-- The unready segment of a lane that is oldest: its tile and its place there. -/
def Rd.arriving (r : Rd) (l : Nat) : Option Nat :=
  (List.range 10).find? (fun t => (r.tileOf t).any (fun s => s.lane == l && !s.ready))

/-- The first segment of lane `l` that is not ready, changed by `f`, which may drop it. -/
def updSeg (l : Nat) (f : TileSeg → Option TileSeg) : List TileSeg → List TileSeg
  | [] => []
  | s :: r => if s.lane == l && !s.ready then (f s).toList ++ r else s :: updSeg l f r

/-- The segment position whose headers have been gathered is over: with 32 or more, the skew of their lanes is measured and smoothed over
16 such positions, between the least and the greatest of the 16, for R217 gives no law of the smoothing.
(DESIGN CHOICE, log entry 12.) -/
def Dev.measureSkew (d : Dev) (n : Nat) : Dev :=
  let ps := (d.rd n).posPlaces
  if ps.length < 32 then d
  else
    let mid := medianOf d.freeVal (ps.map (·.2))
    ps.foldl (fun (e : Dev) p =>
      e.nextFree.modLane n p.1 (fun c =>
        let l := ((p.2 - mid) :: c.offsets).take 16
        let lo := l.foldl min (p.2 - mid)
        let hi := l.foldl max (p.2 - mid)
        { c with offsets := l, skew := max (-1024) (min 1023 (lo + (e.freeVal % ((hi - lo).toNat + 1) : Nat))) })) d.nextFree

/-- A header in a sheet has passed on lane `l` (R217): it counts toward the segment position that it names. -/
def Dev.placeSeen (d : Dev) (n l : Nat) (h : SegHeader) : Dev :=
  let key := (h.sheet, h.gen, h.row / 64)
  let d := if (d.rd n).posKey = key then d else (d.measureSkew n).modRd n (fun r => { r with posKey := key, posPlaces := [] })
  d.modRd n (fun r => { r with posPlaces := r.posPlaces.filter (fun p => p.1 != l) ++ [(l, (r.lane l).place)] })

/-- One segment position seen by one lane (R217): positions count from the last header that passed on any lane. -/
def Dev.positionSeen (d : Dev) (n l : Nat) (passed : Bool) : Dev :=
  d.modRd n (fun r =>
    if passed then { r with dry := [], noHeader := 0 }
    else
      let k := mget (fun _ => 0) r.dry l + 1
      { r with dry := mset (fun _ => 0) r.dry l k, noHeader := max r.noHeader k })

/-- The lane's counters for a segment position (R223, R229). -/
def Dev.laneCount (d : Dev) (n l : Nat) (a : Aligned) : Dev :=
  let pg := lfe n l
  let i := l % 16
  let d := d.bump pg (Reg.LANEFE.SEGMENTS i) 1
  let d := if a.hdr.isSome && a.first then d.bump pg (Reg.LANEFE.FIRST_CNT i) 1 else d
  let d := if a.hdr.isSome && a.freewheel then d.bump pg (Reg.LANEFE.FREEWHEEL_CNT i) 1 else d
  let d := if a.hdr.isSome && a.altAlign then d.bump pg (Reg.LANEFE.ALT_CNT i) 1 else d
  let d := if a.hdr.isNone then d.bump pg (Reg.LANEFE.HDR_FAIL_CNT i) 1 else d
  d.modLane n l (fun c => { c with candSeen := c.candSeen || a.found, hdrSeen := c.hdrSeen || a.hdr.isSome,
                                   passed := a.hdr.isSome, misses := if a.found then 0 else c.misses + 1 })

/-! ### Zones (R208) -/

/-- A wrap change into a band of another zone: every lane saves GAIN, CTLE_FREQ and CTLE_BOOST and takes those of the
zone it enters; taps and predictors are kept by zone. -/
def Dev.zoneChange (d : Dev) (n z : Nat) : Dev :=
  let z0 := (d.rd n).zone
  if z0 = z then d
  else
    let d := (List.range 64).foldl (fun e l =>
      let pg := lfe n l
      let i := l % 16
      let cur := (e.fget pg (Reg.LANEFE.GAIN i), e.fget pg (Reg.LANEFE.CTLE_FREQ i), e.fget pg (Reg.LANEFE.CTLE_BOOST i))
      let new := mget (fun _ => (0x28, 6, 0x0C)) (e.rd n).saved (4 * l + z)
      let e := e.modRd n (fun r => { r with saved := mset (fun _ => (0x28, 6, 0x0C)) r.saved (4 * l + z0) cur })
      (((e.fset pg (Reg.LANEFE.GAIN i) new.1).fset pg (Reg.LANEFE.CTLE_FREQ i) new.2.1).fset pg (Reg.LANEFE.CTLE_BOOST i) new.2.2).fset pg
        (Reg.LANEFE.GAIN_BASE i) ((e.rd n).baseOf l z)) d
    d.modRd n (fun r => { r with zone := z })

/-- The wrap under the read elements, as a header that passed gives it: a change takes the lanes to its zone, and a read run
has turned round (R186).
(DEDUCED, log entry 32.) -/
def Dev.noteWrap (d : Dev) (n w : Nat) : Dev :=
  if (d.rd n).wrap = w then d
  else
    let d := (d.modRd n (fun r => { r with wrap := w })).zoneChange n (zoneOfWrap w)
    if (d.sp n).drv.reading then d.headTo n w else d

/-- A header that passed governs (R215), found `ofs` bits from the prediction: the lane's context is rebased on it, with the segments of
the lane still to arrive between; past the last position of its sheet the lane is in gap search (R216). In hunt, the lane locks. -/
def Dev.rebase (d : Dev) (n l : Nat) (h : SegHeader) (ofs : Int) : Dev :=
  let ahead := ((List.range 10).map (fun t => (((d.rd n).tileOf t).filter (fun s => s.lane == l && !s.ready)).length)).foldl (· + ·) 0
  let area := h.kind == 5 || h.rwslot != 0
  let d := d.ev (pgDet0 n) Reg.DETECT.SPOKE_SYNC
  let d := if (d.sp n).drv.reading then d.noteWrap n h.wrap else d
  let pos := h.row / 64 + 1 + ahead
  let d := d.modLane n l (fun c => { c with place := c.place + ofs, misses := if c.mode == .hunt then 0 else c.misses })
  if area then (d.modLane n l (fun c => { c with inArea := true })).laneMode n l .locked
  else
    let d := (d.modLane n l (fun c => { c with sheet := h.sheet, gen := h.gen, kind := h.kind, pos := if pos < 32 then pos else 0,
                                               inArea := false, known := true })).placeSeen n l h
    d.laneMode n l (if pos < 32 then .locked else .gap)

/-- The row of a segment that gave no decisions (R214, R221), with the iterations spent on it: ERASED, but SUSPECT where the in-line cap
was 0, under which no row is ERASED (R98). -/
def blankRow (s : TileSeg) (iters : Nat) : RowRec :=
  { converged := false, suspect := false, llr := 0, data := [], iters := iters, gen := s.seg.gen, rwslot := s.seg.rwslot, forced := s.cap == 0 }

/-- A segment without a row of its own is handed on (R222): as the class `code` of the map, with the iterations spent; its samples are
offered to the hold, for the re-hunt of R239 where its header failed or its alignment was no first candidate. -/
def Dev.handBlank (d : Dev) (n : Nat) (s : TileSeg) (code iters : Nat) (ofs : Int) (noHdr fw alt : Bool) (samples : List Int) : Dev :=
  let d := d.mapCode n s.seg s.kind code
  if s.kind = 5 then d
  else
    let d := d.deliverRow n s.seg s.kind (blankRow s iters) false
    d.offer n { lane := s.lane, zone := (d.rd n).zone, seg := s.seg, kind := s.kind, align := ofs, rehunt := noHdr || fw || alt,
                freewheel := fw, altAlign := alt, samples := samples }

/-- A segment not decoded for a failed header or a full tile (R214, R218): in a sheet it is delivered as it stands; in a rewrite area,
where it has no identity, it is discarded, and the hold keeps nothing without one (R235).
(DEDUCED, log entry 34.) -/
def Dev.undecoded (d : Dev) (n : Nat) (s : TileSeg) (ofs : Int) (fw alt : Bool) (samples : List Int) : Dev :=
  if s.inArea then d else d.handBlank n s 7 0 ofs true fw alt samples

/-- The identity and kind that a header gives. -/
def SegHeader.id (h : SegHeader) : SegId := ⟨h.sheet, h.row, h.gen, h.rwslot, h.kind == 5⟩

/-- The last sample of a segment arrives (R219): the header tries; then it waits for its tile, or is not decoded. Of a segment that was
dropped (R218), numbered 9, no header is tried. -/
def Dev.arriveIn (d : Dev) (n l t : Nat) (a : Aligned) (samples : List Int) : Dev :=
  match ((d.rd n).tileOf t).find? (fun s => s.lane == l && !s.ready) with
  | none => d
  | some s =>
    let d := (d.laneCount n l a).positionSeen n l a.hdr.isSome
    match a.hdr with
    | some h =>
      let d := d.setTile n t (updSeg l (fun s =>
        some { s with ready := true, seg := h.id, kind := h.kind, inArea := h.kind == 5 || h.rwslot != 0,
                      freewheel := a.freewheel, altAlign := a.altAlign, align := a.ofs, samples := samples }) ((d.rd n).tileOf t))
      d.rebase n l h a.ofs
    | none =>
      let d := d.setTile n t (updSeg l (fun _ => none) ((d.rd n).tileOf t))
      let d := if t < 9 then d.ev (pgDetect n t) Reg.DETECT.HDR_FAIL else d
      d.undecoded n s a.ofs (!a.found) false samples

/-- May a header that passes in gap search begin or continue a rewrite area (R216): a fill or a rewrite, of the sheet just ended or of
the one before? -/
def gapFits (c : LaneCtx) (h : SegHeader) : Bool :=
  (h.kind == 5 || (decide (1 ≤ h.rwslot) && decide (h.rwslot ≤ 4))) && (h.sheet == c.sheet || h.sheet + 1 == c.sheet)

/-- A lane in gap search meets a rewrite segment (R216): the first offset, as they arrive, with a sync mark within THRESH whose header
passes and fits. -/
def Dev.gapSegment (d : Dev) (n l : Nat) (dist : List (Int × Nat)) (hdr : List (Int × List Bool)) (samples : List Int) : Dev :=
  let c := (d.rd n).lane l
  match (dist.filter (fun p => decide (p.2 ≤ d.thresh n))).findSome? (fun p =>
      (headerAt l hdr p.1).bind (fun h => if gapFits c h then some (p.1, h) else none)) with
  | none => d
  | some (k, h) =>
    let a : Aligned := { hdr := some h, ofs := k, freewheel := false, altAlign := false, first := true, found := true }
    match d.pickTile n with
    | none => ((List.range 9).foldl (fun e t => e.ev (pgDetect n t) Reg.DETECT.SEG_DROP) d).laneCount n l unsearched
    | some t =>
      let s : TileSeg := { lane := l, seg := h.id, kind := h.kind, inArea := true, ready := true, align := k, cap := d.inlineCap n,
                           samples := samples }
      ((d.laneCount n l a).setTile n t ((d.rd n).tileOf t ++ [s])).rebase n l h 0

/-- A segment's last sample arrives on lane `l` (R213 to R216). `tone`: the 48 decisions at the prediction are tone, so
that a segment slot of a rewrite area holds none and the lane enters gap search. -/
def Dev.segmentArrived (d : Dev) (n l : Nat) (dist : List (Int × Nat)) (hdr : List (Int × List Bool)) (tone : Bool)
    (samples : List Int) : Dev :=
  match (d.rd n).arriving l with
  | none => if ((d.rd n).lane l).mode == .gap then d.gapSegment n l dist hdr samples else d
  | some t =>
    let s := ((d.rd n).tileOf t).find? (fun s => s.lane == l && !s.ready)
    if tone && s.any (·.inArea) then
      ((d.setTile n t (updSeg l (fun _ => none) ((d.rd n).tileOf t))).modLane n l (fun c => { c with inArea := false })).laneMode n l .gap
    else d.arriveIn n l t (if t = 9 then unsearched else d.searchOf n l (s.any (·.first)) dist hdr) samples

/-! ### A tile finishes (R219 to R222) -/

/-- A tap of lane `l` in a zone and a set, signed, in units of 1/1,024 (R210). -/
def Rd.tap (r : Rd) (l z set k : Nat) : Int :=
  ofField 12 (mget (fun key => if key % 16 = 5 then 0x400 else 0) r.taps (((4 * l + z) * 4 + set) * 16 + k))

/-- The equaliser's output in units of 1/1,024 LSB (R210): its 16 taps on the last 16 samples, the newest first. -/
def equalise (taps window : List Int) : Int := (List.zipWith (· * ·) taps window).foldl (· + ·) 0

/-- The symbol of a channel bit (R210). -/
def symbolOf (b : Bool) : Int := if b then 1 else -1

/-- The ideal output of the target (1, g1, g2, g3), the g in units of 1/1,024, at the bits `a0` and the three before it (R210), in the
same units. -/
def idealOut (g : Int × Int × Int) (a0 a1 a2 a3 : Bool) : Int :=
  32 * (1024 * symbolOf a0 + g.1 * symbolOf a1 + g.2.1 * symbolOf a2 + g.2.2 * symbolOf a3)

/-- The samples that an equaliser with its main tap at 5 and a record that begins 4 bits early have taken in when the first codeword bit
comes out: 4 of the record, 5 of the filter, 192 of sync mark and header. -/
def lmsLead : Nat := 201

/-- The equaliser run over a segment (R210): for each bit with three before it the error, the ideal output, and the last 16 samples; `n` samples
have been taken in, the last 16 in `window`, the last three bits in `past`. -/
def equalised (taps : List Int) (g : Int × Int × Int) : Nat → List Int → List Bool → List Int → List Bool → List (Int × Int × List Int)
  | _, _, _, [], _ => []
  | n, window, past, x :: xs, bits =>
    let window := (x :: window).take 16
    if n < lmsLead then equalised taps g (n + 1) window past xs bits
    else
      match bits, past with
      | [], _ => []
      | b :: bs, a1 :: a2 :: a3 :: _ =>
        let y := idealOut g b a1 a2 a3
        (equalise taps window - y, y, window) :: equalised taps g (n + 1) window [b, a1, a2] xs bs
      | b :: bs, _ => equalised taps g (n + 1) window (b :: past) xs bs

/-- The sums of −e · sign(x) over the bits of a segment, tap by tap (R212). -/
def lmsSums (l : List (Int × Int × List Int)) : List Int :=
  l.foldl (fun sums p => List.zipWith (fun s w => s - p.1 * w.sign) sums p.2.2) (List.replicate 16 0)

/-- The target of a set (R229). -/
def Dev.targetOf (d : Dev) (n set : Nat) : Int × Int × Int :=
  let g (f : Fld) : Int := ofField 12 (d.fget (pgDet0 n) f)
  (g (Reg.DETECT.G1 set), g (Reg.DETECT.G2 set), g (Reg.DETECT.G3 set))

/-- A ratio of powers in units of 0.25 dB, rounded down, from 0 to 255 (R223): the largest `k` with 10^(k/40) times `err` at most `pow`.
(DEDUCED, log entry 41.) -/
def quarterDb (pow err : Nat) : Nat := ((List.range 255).takeWhile (fun k => decide (10 ^ (k + 1) * err ^ 40 ≤ pow ^ 40))).length

/-- LANE_STAT.SNR after a converged segment (R223): the ideal output power of set 0 over the mean-square error, each summed over the last 16
converged segments, for R223 does not say how they are smoothed.
(DESIGN CHOICE, log entry 12.) -/
def Dev.snrSeen (d : Dev) (n l : Nat) (samples : List Int) (bits : List Bool) : Dev :=
  let run := equalised ((List.range 16).map ((d.rd n).tap l (d.rd n).zone 0)) (d.targetOf n 0) 0 [] [] samples bits
  let sq (x : Int) : Nat := (x * x).toNat
  let h := ((run.foldl (fun a p => (a.1 + sq p.2.1, a.2 + sq p.1)) (0, 0)) :: ((d.rd n).lane l).snrs).take 16
  let tot := h.foldl (fun a p => (a.1 + p.1, a.2 + p.2)) (0, 0)
  (d.modLane n l (fun c => { c with snrs := h })).fset (lfe n l) (Reg.LANEFE.SNR (l % 16)) (quarterDb tot.1 tot.2)

/-- Set `set` of a lane adapted by sign-data least mean squares on a converged segment (R212): the error of R210 on the converged bits,
the step of EQ_MU (R229), applied when the segment is over. Of the result's last place the rounding is free, for the manual gives none.
(DESIGN CHOICE, log entry 12.) -/
def Dev.adaptSet (d : Dev) (n l set : Nat) (samples : List Int) (bits : List Bool) : Dev :=
  let z := (d.rd n).zone
  let taps := (List.range 16).map ((d.rd n).tap l z set)
  let sums := lmsSums (equalised taps (d.targetOf n set) 0 [] [] samples bits)
  let mu : Nat := d.fget (lfe n l) Reg.LANEFE.EQ_MU + 9
  (List.range 16).foldl (fun (e : Dev) k =>
    let s := sums.getD k 0
    let v := taps.getD k 0 + s / 2 ^ mu + (if s % 2 ^ mu = 0 then 0 else (e.freeVal % 2 : Nat))
    e.nextFree.modRd n (fun r => { r with
      taps := mset (fun key => if key % 16 = 5 then 0x400 else 0) r.taps (((4 * l + z) * 4 + set) * 16 + k)
        (toField 12 (max (-2048) (min 2047 v))) })) d

/-- Adaptation on a converged segment (R212): set 0; sets 1 to 3 and the noise predictors when shadowing and the tile has
no segment waiting. Whether one whose samples still stream in waits the manual leaves open: here it does. EQ_MU 0 freezes it.
(DESIGN CHOICE, log entry 34.) -/
def Dev.adapt (d : Dev) (n l t : Nat) (samples : List Int) (bits : List Bool) : Dev :=
  if d.fget (lfe n l) Reg.LANEFE.EQ_MU = 0 then d
  else
    let d := d.adaptSet n l 0 samples bits
    if d.fon (lfe n l) Reg.LANEFE.SHADOW && ((d.rd n).tileOf t).isEmpty then
      let d := [1, 2, 3].foldl (fun e s => e.adaptSet n l s samples bits) d
      let z := (d.rd n).zone
      let np := [0, 1, 2, 3].filter (fun s => d.fon (pgDet0 n) (Reg.DETECT.NP s))
      d.modRd n (fun r => { r with trained := np.foldl (fun m s => mset (fun _ => false) m ((4 * l + z) * 4 + s) true) r.trained })
    else d

/-- The DECODE counters of a tile for one segment (R231). -/
def Dev.tileCount (d : Dev) (n t : Nat) (res : SegResult) : Dev :=
  let pg := pgDecode n t
  let d := ((d.bump pg Reg.DECODE.SEGS_DECODED 1).bump pg Reg.DECODE.ITER_SUM res.iters).fset pg Reg.DECODE.LAST_ITERS res.iters
  let d := if res.converged then d.bump pg Reg.DECODE.CONV_CNT 1
    else (d.bump pg Reg.DECODE.NONCONV_CNT 1).ev pg Reg.DECODE.NONCONV
  (d.unit pg).unit (pgDetect n t)

/-- Bytes of a bit string, first bit most significant. -/
def packBits : Nat → List Bool → List Byte
  | 0, _ => []
  | k + 1, l => if l.isEmpty then [] else BitVec.ofNat 8 (ofBitsMsb (l.take 8)) :: packBits k (l.drop 8)

/-- The codeword that a tile's decisions spell for a segment (R215): descrambled with the sheet of its header and its position, a fill
segment with position 0. -/
def tileWord (o : TileOut) (seg : SegId) (lane : Nat) : List Bool :=
  scrambleCodeword seg.sheet lane (if seg.fill then 0 else seg.row / 64) o.bits

/-- What a tile reports of its decisions within a cap (R89, R219): CONVERGED tests the checks; ITERS is the cap where they do not hold,
and 0 under a cap of 0. -/
def tileResult (o : TileOut) (seg : SegId) (lane cap : Nat) (freewheel altAlign : Bool) : SegResult :=
  let conv := o.bits.length == 36864 && c1Check (tileWord o seg lane)
  { converged := conv, iters := if cap = 0 then 0 else if conv then max 1 (min o.iters cap) else cap, llr := min o.llr 255,
    freewheel := freewheel, altAlign := altAlign }

/-- The row bytes (R89): the hard decisions on c0 to c32,767. -/
def tileRow (o : TileOut) (seg : SegId) (lane : Nat) : List Byte := packBits 4096 ((tileWord o seg lane).take 32768)

/-- The row that a segment's result gives (R222). -/
def rowOf (s : TileSeg) (res : SegResult) (data : List Byte) : RowRec :=
  { converged := res.converged, suspect := false, llr := res.llr, data := data, iters := res.iters,
    freewheel := s.freewheel, altAlign := s.altAlign, gen := s.seg.gen, rwslot := s.seg.rwslot, forced := s.cap == 0 }

/-- Tile `t` finishes its oldest segment (R219): `o` is what the detector and the decoder make of the samples. A segment worked on
after a change of the tile, or of its lane's front end, while it was not quiesced comes to free decisions (UB-4).
(DESIGN CHOICE, log entry 18.) -/
def Dev.tileDone (d : Dev) (n t : Nat) (o : TileOut) : Dev :=
  match ((d.rd n).tileOf t).find? (·.ready) with
  | none => d
  | some s =>
    let x : Dev × TileOut := if d.unsettled (pgDetect n t) || d.unsettled (pgDecode n t) || d.unsettled (lfe n s.lane) then
        (d.nextFree, { o with bits := (List.range 36864).map (bitAt d.freeVal) }) else (d, o)
    let d := x.1
    let res := tileResult x.2 s.seg s.lane s.cap s.freewheel s.altAlign
    let d := d.setTile n t (((d.rd n).tileOf t).erase s)
    let d := d.tileCount n t res
    let d := if res.converged then (d.snrSeen n s.lane s.samples x.2.bits).adapt n s.lane t s.samples x.2.bits else d
    let d := d.mapCode n s.seg s.kind (qualityClass res.converged res.iters + 8 * b2n (s.freewheel || s.altAlign))
    if s.kind = 5 then d
    else
      let d := d.deliverRow n s.seg s.kind (rowOf s res (tileRow x.2 s.seg s.lane)) false
      if res.converged then d
      else d.offer n { lane := s.lane, zone := (d.rd n).zone, seg := s.seg, kind := s.kind, align := s.align,
                       rehunt := s.freewheel || s.altAlign,
                       freewheel := s.freewheel, altAlign := s.altAlign, samples := s.samples }

/-! ### Gap search, hunt, loss of sync (R216, R217) -/

/-- The sheet that a lane's low tone begins: that of the lanes which have a header in it (R213's context); where no lane has one the manual
leaves it open: the sheet after the one just ended, its first writing.
(DESIGN CHOICE, log entry 34.) -/
def Rd.toneSheet (r : Rd) (l : Nat) : LaneCtx :=
  let c := r.lane l
  match (List.range 64).find? (fun k => (r.lane k).mode == .locked && (r.lane k).passed && (r.lane k).sheet != c.sheet) with
  | some k => r.lane k
  | none => { c with sheet := if c.known then c.sheet + 1 else c.sheet, gen := 0 }

/-- A lane in gap search detects the low tone of a sheet preamble at a place: its first segment is searched for from there on. -/
def Dev.lowTone (d : Dev) (n l : Nat) (place : Int) : Dev :=
  if ((d.rd n).lane l).mode != .gap then d
  else
    let x := (d.rd n).toneSheet l
    (d.modLane n l (fun c =>
      { c with sheet := x.sheet, gen := x.gen, kind := x.kind, pos := 0, inArea := false, misses := 0,
               known := true, first := true, place := place })).laneMode n l .locked

/-- A lane whose search has found no candidate at 4 predictions in a row enters hunt. -/
def Dev.hunt (d : Dev) (n l : Nat) : Dev :=
  if ((d.rd n).lane l).mode == .locked && decide (4 ≤ ((d.rd n).lane l).misses) then d.laneMode n l .hunt else d

/-- Spoke sync is lost after 64 positions without a header: every lane enters gap search. -/
def Dev.syncLost (d : Dev) (n : Nat) : Dev :=
  if (d.rd n).noHeader < 64 then d
  else
    let d := (List.range 9).foldl (fun e t => e.ev (pgDetect n t) Reg.DETECT.SYNC_LOST) (d.clr (pgDet0 n) Reg.DETECT.SPOKE_SYNC)
    let d := (List.range 64).foldl (fun e l => e.laneMode n l .gap) d
    d.modRd n (fun r => { r with noHeader := 0, dry := [] })

/-! ### The CTLE's peak (R207) -/

/-- The CTLE peak code nearest to half the channel bit rate of cog `c` in zone `z`, the lower of two equally near (R207). -/
def ctleCode (z c : Nat) : Nat :=
  let hz := bitsPerMm z * cogSpeed c / 2
  let far (k : Nat) := if hz ≤ 15000000 * (k + 1) then 15000000 * (k + 1) - hz else hz - 15000000 * (k + 1)
  (List.range 8).foldl (fun a k => if far k < far a then k else a) 0

/-- CTLE_FREQ of every lane set for a cog. -/
def Dev.setCtleFreq (d : Dev) (n c : Nat) : Dev :=
  (List.range 64).foldl (fun e l => e.fset (lfe n l) (Reg.LANEFE.CTLE_FREQ (l % 16)) (ctleCode (e.rd n).zone c)) d

end Sys2Proof.Machine
end

