-- ==== Sys2Proof/Machine/Ladder.lean ====
section
/-! DEFINITION. The in-line decodes of a sheet (R94 to R98, R102) and the read recovery ladder (spec chapter 9): rungs 1 to
9, rebuilding from the ream (R99), host-assisted stepping, unreadable sheets.

The time-driven steps are commands: a replay starts and ends, a decode ends, the tape stops, a locate completes. What this
file decides is what each of them leads to. -/

namespace Sys2Proof.Machine

/-! ### Places on tape, and motion to them (R187) -/

/-- The wrap and slot at which sheet number `k` of a partition is expected when wraps from `l` on are filled in order. -/
def expectSlot : Nat → Nat → Nat → Nat × Nat
  | 0, l, k => (l, k)
  | f + 1, l, k =>
    let s := slotsPerWrap (zoneOfWrap l)
    if k < s then (l, k) else expectSlot f (l + 1) (k - s)

/-- Frame N at the beginning of a slot of a wrap (R53, R58, R168): frames lie 96 µm apart from 2.0 m on. -/
def slotFrame (l slot : Nat) : Nat :=
  let um := slot * bitsToUm (zoneOfWrap l) sheetBits
  if wrapForward l then (dataAreaStart - 2000000 + um) / 96 else (dataAreaEnd - 2000000 - um) / 96

/-- Where sheet `k` of the partition in use is expected: wrap and frame. -/
def Spoke.placeOf (s : Spoke) (k : Nat) : Nat × Nat :=
  let p := expectSlot s.partDef.wrapCount s.partDef.firstWrap k
  (p.1, slotFrame p.1 p.2)

/-- May the tape move: servo held, tension set, no fault of the transport, no fence? -/
def Dev.mayMove (d : Dev) (n : Nat) : Bool :=
  let x := (d.sp n).drv
  !x.lost && !x.needTension && !x.reelFault && !x.mechFault && !d.fenced n && d.cartState n != 5

/-- A move that waits begins once the tape, at rest, may move (R170, R177). DIR is that of the move where the frame under the readers is
known. -/
def Dev.moveOn (d : Dev) (n : Nat) : Dev :=
  let x := (d.sp n).drv
  match x.target with
  | none => d
  | some (_, f, _) =>
    if !x.tapeStopped || !d.mayMove n then d
    else
      let d := (d.modDrv n (fun x => { x with tapeStopped := false })).setMotion n 3
      match x.frameNo with
      | some (N, _) => d.fput (pgMotion n) Reg.MOTION.DIR (decide (N ≤ f))
      | none => d

/-- A locate of R187 begins: the tape moves with the writer gated and the read channel idle. A stop in progress ends first. -/
def Dev.locateTo (d : Dev) (n wrap frame cog : Nat) : Dev :=
  let d := d.endStream n
  let d := d.modDrv n (fun x => { x with target := some (wrap, frame, cog), tapeStopped := x.tapeStopped || !x.ctrlStop, parked := false,
                                         turning := false, runUp := false, atWrite := false })
  let d := (d.modWr n (fun w => { w with running := false })).headTo n wrap
  d.moveOn n

/-- A locate for reading from sheet `k`. -/
def Dev.readFrom (d : Dev) (n k cog : Nat) : Dev :=
  let p := (d.sp n).placeOf k
  (d.modRd n (fun r => { r with locating := some k, nextSheet := k, stopped := false, noBuf := false })).locateTo n p.1 p.2 cog

/-- The lanes at the beginning of a read run ahead of sheet `k`: in gap search, with no sheet begun (R216). Which sheet counts as the one
just ended before any has passed the manual leaves open: the sheet that the run begins at.
(DESIGN CHOICE, log entry 34.) -/
def Dev.lanesFrom (d : Dev) (n k : Nat) : Dev :=
  (List.range 64).foldl (fun e l =>
    (e.modLane n l (fun c => { c with sheet := k, gen := 0, kind := 1, pos := 0, inArea := false, misses := 0, known := false,
                                      passed := false })).laneMode n l .gap)
    (d.modRd n (fun r => { r with tiles := [], noHeader := 0, dry := [], posKey := (0, 0, 32), posPlaces := [], lastPassed := none }))

/-! ### Classes and decodes -/

/-- C2_CFG.SUSPECT_ITERS applied to the rows of a sheet (R94, R98). -/
def reclass (si : Nat) (rows : SMap RowRec) : SMap RowRec :=
  rows.map (fun p => (p.1, { p.2 with suspect := p.2.forced ||
    (p.2.converged && (p.2.freewheel || p.2.altAlign || (si != 0 && decide (si ≤ p.2.iters)))) }))

/-- ERR_LIMIT as it acts (R102). -/
def Dev.errLimit (d : Dev) (n : Nat) : Nat := min 80 (d.fget (pgVerify n) Reg.VERIFY.ERR_LIMIT)

/-- The rows of a sheet with the classes of the next decode. -/
def Dev.classedRows (d : Dev) (n : Nat) (s : RSheet) : SMap RowRec :=
  reclass (d.fget (pgVerify n) Reg.VERIFY.SUSPECT_ITERS) s.rows

/-- Rows 0 to 2,047 of a class. -/
def rowsOf (f : RowClass → Bool) (rows : SMap RowRec) : List Nat := (List.range 2048).filter (fun r => f (rowClass rows r))

/-- Is the row ERASED or MISSING? -/
def RowClass.gone : RowClass → Bool
  | .erased | .missing => true
  | _ => false

/-- A sheet after a decode. -/
def RSheet.decoded (s : RSheet) (x : SheetDecode) : RSheet :=
  { s with fixed := x.rows, failed := x.failed, allFailed := x.allFailed, erased := x.erased }

/-- FAILED_CW of a sheet's last decode. -/
def RSheet.failedCw (s : RSheet) : Nat := if s.allFailed then 2048 else s.failed.length

/-- Did codeword `w` fail in the last decode? -/
def RSheet.badWord (s : RSheet) (w : Nat) : Bool := s.allFailed || s.failed.contains w

/-! ### The index of a sheet as read (R67) -/

/-- Bytes `a` to `a + k − 1` of rows as decoded; bytes of rows not held are 0. -/
def rowBytes (rows : SMap RowRec) (a : Nat) : Nat → List Byte
  | 0 => []
  | k + 1 =>
    (match rows.find? (fun p => p.1 == a / 4096) with
      | none => 0
      | some (_, x) => byteAt x.data (a % 4096)) :: rowBytes rows (a + 1) k

/-- A sheet's index: its entry count, rows, PAYLOAD_END and FIRST_RECORD. -/
def RSheet.idxCount (s : RSheet) : Nat := natBE (rowBytes s.fixed 0 2)
def RSheet.idxRows (s : RSheet) : Nat := natBE (rowBytes s.fixed 2 1)
def RSheet.firstRecord (s : RSheet) : Nat := natBE (rowBytes s.fixed 8 6)
/-- Its entries; one that spells no TYPE or FORM of R68 ends the list. -/
def RSheet.entriesFrom (s : RSheet) : Nat → Nat → List IdxEntry
  | _, 0 => []
  | i, k + 1 =>
    match IdxEntry.ofBytes (rowBytes s.fixed (16 * (i + 1)) 16) with
    | none => []
    | some e => e :: s.entriesFrom (i + 1) k
def RSheet.entries (s : RSheet) : List IdxEntry := s.entriesFrom 0 (min 4095 s.idxCount)
/-- Can the index be used: is the sheet resolved, or is every index row GOOD or SUSPECT (R247, R326)? -/
def RSheet.indexOk (s : RSheet) : Bool :=
  s.resolved || ((rowClass s.rows 0).gone == false &&
    (List.range (max 1 (min s.idxRows 17))).all (fun r => (rowClass s.rows r).gone == false))
/-- The close record of a session-break or end-of-data sheet (R79). -/
def RSheet.closeRec (s : RSheet) : CloseRec := CloseRec.ofBytes (rowBytes s.fixed (4096 * max 2 s.idxRows) 64)
/-- The last object that ends in the sheet. -/
def RSheet.lastEnd (s : RSheet) : Option Nat :=
  let es := s.entries
  (((List.range es.length).filter (fun i => (es.getD i ⟨false, false, false, false, false, 0, 0, 0, 0, 0⟩).last)).getLast?).map
    (fun i => objectOfEntry s.firstRecord i es)

/-- What a readable index teaches the spoke (R247, R326): the block's bound and the last object ending in the sheet. -/
def Dev.learnIndex (d : Dev) (n : Nat) (s : RSheet) : Dev :=
  if s.kind != 1 || !s.indexOk then d
  else d.modRd n (fun r => { r with
    bounds := if r.bounds.any (fun p => p.1 == sheetBlock s.num) then r.bounds
      else mins (sheetBlock s.num) (s.firstRecord, s.num) r.bounds,
    ends := match s.lastEnd with
      | none => r.ends
      | some o => mins s.num o (mdel s.num r.ends) })

/-! ### Read-ahead (R182) -/

/-- Bytes of sheets decoded and not yet received by the host. -/
def Rd.raFill (r : Rd) : Nat := payloadBytes * (r.sheets.filter (fun s => s.buf.isSome && s.kind == 1 && !s.consumed)).length

/-- At cog 12 a read-ahead that has reached RA_LIMIT stops the run (R182, R200). -/
def Dev.raLimit (d : Dev) (n : Nat) : Dev :=
  let pg := pgDr n
  if (d.sp n).drv.streaming && (d.sp n).drv.reading && (d.rd n).ladder.stage != 2 && d.fget pg Reg.DERAILLEUR.CUR_COG == 12 &&
    decide (max (d.fget pg Reg.DERAILLEUR.RA_LIMIT) (d.fget pg Reg.DERAILLEUR.RA_HIGH) ≤ d.fget pg Reg.DERAILLEUR.RA_FILL_MIB) then
    (d.readStopDue n).modRd n (fun r => { r with stopped := true, noBuf := false })
  else d

/-- RA_FILL_MIB brought up to date; the derailleur is evaluated. -/
def Dev.raEval (d : Dev) (n : Nat) : Dev :=
  let pg := pgDr n
  let b := (d.rd n).raFill
  if fillMib b = d.fget pg Reg.DERAILLEUR.RA_FILL_MIB then d
  else
    ((d.fset pg Reg.DERAILLEUR.RA_FILL_MIB (fillMib b)).drEval n).raLimit n

/-- A sheet that the spoke no longer needs leaves the read path: its buffer is released. -/
def Dev.dropSheetR (d : Dev) (n num : Nat) : Dev :=
  match (d.rd n).sheet? num with
  | none => d
  | some s =>
    let d := match s.buf with | some h => d.decRef h | none => d
    (d.modRd n (fun r => { r with sheets := r.sheets.filter (fun x => x.num != num) })).raEval n

/-- A resolved sheet's rows put into an 8 MiB buffer of the spoke (R272); on NOBUF the run stops, and the sheet is read
again (R182). -/
def Dev.storeSheet (d : Dev) (n num : Nat) : Dev :=
  match (d.rd n).sheet? num with
  | none => d
  | some s =>
    if s.kind != 1 || s.buf.isSome then d
    else
      match d.alloc n 8388608 with
      | (d, none) =>
        let d := if (d.sp n).drv.streaming && (d.sp n).drv.reading then d.readStopDue n else d
        (d.dropSheetR n num).modRd n (fun r => { r with stopped := true, noBuf := true, nextSheet := min r.nextSheet num })
      | (d, some h) =>
        let a := d.pool.bufAddr h
        let d := (s.fixed.filter (fun p => decide (p.1 < payloadRows))).foldl (fun e p => e.chestPut (a + 4096 * p.1) (p.2.data.take 4096)) d
        (d.modSheetR n num (fun s => { s with buf := some h })).raEval n

/-! ### In-line decodes (R97) -/

/-- A decode of a sheet begins, with the settings in force. -/
def Dev.c2Begin (d : Dev) (n : Nat) (s : RSheet) : Dev :=
  d.modSheetR n s.num (fun s => { s with rows := d.classedRows n s, limit := d.errLimit n, decodes := s.decodes + 1,
                                         busy := true, passed := false, again := false })

/-- The decoder holds one sheet at a time: the next sheet due begins when it is free, and not quiescing (R23). -/
def Dev.c2Next (d : Dev) (n : Nat) : Dev :=
  if (d.rd n).sheets.any (·.busy) || !d.takesWork (pgVerify n) then d
  else
    match (d.rd n).sheets.find? (fun s => s.passed || s.again) with
    | none => d
    | some s => d.c2Begin n s

/-- The counters and status registers of a final decode (R96, R102). C1_MISCORR_ROWS counts at the final in-line decode, as it does at every
verify decode; a first decode that resolves nothing, and the ladder's decodes, do not count: the manual does not say which of them do.
(DESIGN CHOICE, log entry 29.) -/
def Dev.c2Regs (d : Dev) (n : Nat) (s : RSheet) (x : SheetDecode) : Dev :=
  let pg := pgVerify n
  let d := (((d.fset pg Reg.VERIFY.C2_LAST_SHEET s.num).fset pg Reg.VERIFY.FAILED_CW x.failedCw).fset pg
    Reg.VERIFY.ERASED_ROWS (rowsOf RowClass.gone s.rows).length).fset pg Reg.VERIFY.OFF208_HEADROOM x.headroom
  let d := (d.fset pg Reg.VERIFY.MAX_ERRORS x.maxErrors).bump pg Reg.VERIFY.C2_SHEETS 1
  let d := if x.changed.isEmpty then d
    else (d.bump pg Reg.VERIFY.C1_MISCORR_ROWS x.changed.length).ev pg Reg.VERIFY.C1_MISCORR
  if x.resolved then d else (d.bump pg Reg.VERIFY.C2_FAILED_SHEETS 1).ev pg Reg.VERIFY.C2_FAIL

/-- A sheet is resolved: its records are released, its index is known, and it goes to the chest. -/
def Dev.sheetResolved (d : Dev) (n num : Nat) : Dev :=
  let d := d.modSheetR n num (fun s => { s with final := true, resolved := true, unreadable := false })
  let d := d.unhold n (fun c => c.seg.sheet == num)
  let d := match (d.rd n).sheet? num with | some s => d.learnIndex n s | none => d
  d.storeSheet n num

/-- Rows that came during a decode join the sheet for its next one (R95). -/
def RSheet.takeLate (s : RSheet) : RSheet :=
  { s with rows := s.late.foldl (fun m p => addRow m p.1 p.2) s.rows, late := [] }

/-- An in-line decode completes: it is final when it resolves the sheet or was the second one. -/
def Dev.c2Done (d : Dev) (n : Nat) : Dev :=
  match (d.rd n).sheets.find? (·.busy) with
  | none => d
  | some s =>
    let y := d.decodeSheet n s.rows (inlineErasures s.rows) s.limit
    let d := y.1
    let x := y.2
    let d := (d.unit (pgVerify n)).modSheetR n s.num (fun s => { s.decoded x with busy := false })
    let fin := x.resolved || decide (2 ≤ s.decodes)
    let d := if fin then d.c2Regs n s x else d
    let d := if x.resolved then d.sheetResolved n s.num
      else if fin then
        let d := d.modSheetR n s.num (fun s => { s with final := true })
        match (d.rd n).sheet? s.num with | some t => d.learnIndex n t | none => d
      else d
    (d.modSheetR n s.num RSheet.takeLate).c2Next n

/-! ### The ladder's keeping -/

def Dev.modLad (d : Dev) (n : Nat) (f : Ladder → Ladder) : Dev := d.modRd n (fun r => { r with ladder := f r.ladder })
def Dev.lad (d : Dev) (n : Nat) : Ladder := (d.rd n).ladder

/-- Is a tape rung under way, with the tape run up, reading, or stopping after it (R241, R242)? -/
def Ladder.onTape (l : Ladder) : Bool := (l.phase == .reread || l.phase == .rebuild) && decide (1 ≤ l.stage) && decide (l.stage ≤ 3)

/-- The sheet that the rung in progress works on: the sheet in the ladder, or a member of its ream (R242). -/
def Ladder.work (l : Ladder) : Nat := l.member.getD l.sheet

/-- LADDER_STAT and LADDER_SHEET (R248). -/
def Dev.ladRegs (d : Dev) (n : Nat) : Dev :=
  let pg := pgSh n
  let l := d.lad n
  let d := (d.fput pg Reg.SAMPLEHOLD.ACTIVE (l.phase != .idle)).fput pg Reg.SAMPLEHOLD.WAIT_HOST (l.phase == .waitHost)
  let d := (d.fput pg Reg.SAMPLEHOLD.RAW_HELD l.raw.isSome).fset pg Reg.SAMPLEHOLD.QUEUED (min 255 l.queue.length)
  let d := d.fset pg Reg.SAMPLEHOLD.RUNG l.rung
  if l.phase == .idle then d
  else (d.fset pg Reg.SAMPLEHOLD.LADDER_SHEET l.sheet).fset pg Reg.SAMPLEHOLD.PART (d.sp n).sess.part

/-- The records of the sheet in the ladder pinned (R235). -/
def Dev.pinRecords (d : Dev) (n : Nat) : Dev :=
  (d.modRd n (fun r => { r with hold := r.hold.map (fun p => (p.1, { p.2 with pinned := r.ladder.phase != .idle && p.2.seg.sheet == r.ladder.sheet })) })).holdRegs n

/-- May rung `k` run: its bit in RUNG_EN, which does not apply to rungs that the host orders (R234, R245)? -/
def Dev.rungOn (d : Dev) (n k : Nat) : Bool :=
  ((d.lad n).stepped && !(d.lad n).auto) || bitAt (d.fget (pgSh n) Reg.SAMPLEHOLD.RUNG_EN) k

/-- Replays that rung `k` gives one record. -/
def RungLimits.triesIn (x : RungLimits) (k : Nat) : Nat :=
  if x.iters = 0 then 0 else if k = 1 then 1 else if k = 2 then 3 else 2 * x.span

/-- The shift of try `i` of rung 3: +1, −1, +2, −2, … -/
def shiftOf (i : Nat) : Int := if i % 2 = 0 then (i / 2 + 1 : Nat) else -((i / 2 + 1 : Nat) : Int)

/-- Is the row ERASED, so that a record of it is worked on? -/
def rowErased (rows : SMap RowRec) (r : Nat) : Bool :=
  match rows.find? (fun p => p.1 == r) with
  | none => false
  | some (_, x) => !x.converged && !x.forced

/-- Does rung `k` still have a replay to make on the record? On the records of a re-read only the new ones count. -/
def Dev.wantsReplay (d : Dev) (n k : Nat) (c : CapRec) : Bool :=
  let l := d.lad n
  c.seg.sheet == l.work && (l.inner == 0 || c.fresh) && (k != 3 || c.rehunt) && decide (c.tried < l.lim.triesIn k) &&
  (match (d.rd n).sheet? l.work with | some s => rowErased s.rows c.seg.row | none => false)

/-- The record that rung `k` replays next: the earliest to arrive. -/
def Dev.nextReplay (d : Dev) (n k : Nat) : Option (Nat × CapRec) :=
  ((d.rd n).hold.filter (fun p => d.wantsReplay n k p.2)).foldl (fun a p => match a with
    | none => some p
    | some b => if p.2.stamp < b.2.stamp then some p else some b) none

/-- The rung whose replays or decodes run: the inner one during a re-read's work. -/
def Ladder.inRung (l : Ladder) : Nat := if l.inner = 0 then l.rung else l.inner

/-- The rung begins: shown, and counted toward the highest rung run. -/
def Dev.rungBegins (d : Dev) (n k : Nat) (ph : LadderPhase) : Dev :=
  (d.modLad n (fun l => if l.inner = 0 then { l with rung := k, top := max l.top (min k 8), phase := ph, gained := false }
    else { l with inner := k, phase := ph, gained := false })).ladRegs n

/-! ### Rung 4 (R240) -/

/-- ERASED rows whose best copy reaches RELAX_LLR. -/
def relaxedRows (floor : Nat) (rows : SMap RowRec) : List Nat :=
  (rows.filter (fun p => rowClass rows p.1 == .erased && decide (floor ≤ p.2.llr))).map (·.1)

/-- Is decode A made; is decode B made? -/
def relaxA (rows : SMap RowRec) : Bool := rows.any (fun p => rowClass rows p.1 == .suspect)
def relaxB (floor : Nat) (rows : SMap RowRec) : Bool := floor != 0 && !(relaxedRows floor rows).isEmpty

/-- Symbol `w` of every row taken from `src`. -/
def takeWord (src : SMap RowRec) (dst : SMap RowRec) (w : Nat) : SMap RowRec :=
  src.foldl (fun rs p =>
    match rs.find? (fun e => e.1 == p.1) with
    | none => mins p.1 { p.2 with data := xorSymbol [] w (rowSymbol p.2.data w) } rs
    | some (_, y) => mins p.1 { y with data := xorSymbol y.data w (rowSymbol y.data w ^^^ rowSymbol p.2.data w) } (mdel p.1 rs)) dst

/-- Decode B after decode A: each codeword keeps the first result that it decodes. -/
def joinDecodes (a : RSheet) (b : SheetDecode) : SheetDecode :=
  if a.allFailed then b
  else if b.allFailed then { b with allFailed := false, failed := a.failed, rows := a.fixed }
  else { b with failed := a.failed.filter b.failed.contains,
                rows := (a.failed.filter (fun w => !b.failed.contains w)).foldl (takeWord b.rows) a.fixed }

/-! ### Motion of the ladder (R241, R242) -/

/-- Host-assisted calibration on the spoke (R197, R246)? -/
def Dev.hostCal (d : Dev) (n : Nat) : Bool := d.mode (pgServo n) == 1

/-- Attempts that rung `k` makes (R241). -/
def Dev.attemptsOf (d : Dev) (n k : Nat) : Nat :=
  let pg := pgSh n
  if k = 5 then d.fget pg Reg.SAMPLEHOLD.REREAD_TRIES
  else if k = 6 then (if d.hostCal n then 0 else onesIn 4 (d.fget pg Reg.SAMPLEHOLD.OFFSETS))
  else min (d.fget pg Reg.SAMPLEHOLD.LOW_TRIES) (if d.hostCal n then 1 else 3)

/-- TF_OFFSET of attempt `i` of rung 6: the i-th bit set in OFFSETS. -/
def offsetOf (bits i : Nat) : Int :=
  let set := (List.range 4).filter (bitAt bits)
  [16, -16, 32, -32].getD (set.getD i 0) 16

/-- The limits that rung `k`, begun now, goes by (R238 to R241, R246): those of the rung that it runs within stand. -/
def Dev.latchLimits (d : Dev) (n k : Nat) : Dev :=
  let pg := pgSh n
  let x := (d.lad n).lim
  let y : RungLimits :=
    if k ≤ 3 then { x with iters := min 40 (d.fget pg (if k = 2 then Reg.SAMPLEHOLD.ALT_ITERS else Reg.SAMPLEHOLD.REPLAY_ITERS)),
                           span := min 4 (d.fget pg Reg.SAMPLEHOLD.REHUNT_SPAN) }
    else if k = 4 then { x with floor := d.fget pg Reg.SAMPLEHOLD.RELAX_LLR }
    else { x with tries := d.attemptsOf n k, offsets := d.fget pg Reg.SAMPLEHOLD.OFFSETS, lowCog := d.fget pg Reg.SAMPLEHOLD.LOW_COG }
  d.modLad n (fun l => { l with lim := y })

/-- The cog of an attempt. -/
def Dev.attemptCog (d : Dev) (n : Nat) : Nat :=
  let c := match (d.rd n).sheet? (d.lad n).sheet with | some s => s.cog | none => 1
  if (d.lad n).rung = 7 then max (cogEff (d.lad n).lim.lowCog) (d.capOf n) else max (cogEff c) (d.capOf n)

/-- The tape runs up from the park toward a slot of wrap `w` (R185). -/
def Dev.runUpTo (d : Dev) (n w : Nat) : Dev :=
  ((d.modDrv n (fun x => { x with runUp := true, tapeStopped := false, parked := false })).setMotion n 1).headTo n w

/-- The tape moves to where the attempt, or the block of rung 8, begins: for a re-read it runs up from the park (R241), for a block a locate
takes it there. -/
def Dev.ladderMove (d : Dev) (n : Nat) : Dev :=
  let l := d.lad n
  let d := if l.rung = 6 then
      let old := d.fget (pgServo n) Reg.SERVO.TF_OFFSET
      (d.modLad n (fun l => { l with savedTf := old })).fset (pgServo n) Reg.SERVO.TF_OFFSET
        (toField 8 (offsetOf l.lim.offsets l.attempt))
    else d
  let k := if l.rung = 8 then 128 * sheetBlock l.sheet else l.sheet
  let p := (d.sp n).placeOf k
  let d := (d.modLad n (fun l => { l with stage := 1 })).modRd n (fun r => { r with locating := some k })
  if l.rung = 8 then d.locateTo n p.1 p.2 (d.capOf n) else d.runUpTo n p.1

/-- A tape rung's attempt is due: the read run ends, and the tape is parked, first (R241). -/
def Dev.ladderTape (d : Dev) (n : Nat) : Dev :=
  let d := d.modLad n (fun l => { l with moved := true, stage := 0 })
  let x := (d.sp n).drv
  if x.streaming then d.readStopDue n
  else if x.ctrlStop then d
  else if !x.tapeStopped && d.fget (pgMotion n) Reg.MOTION.STATE != 5 then
    ((d.modDrv n (fun x => { x with target := none })).modRd n (fun r => { r with locating := none })).controlledStop n
  else if x.parked && d.mayMove n then d.ladderMove n
  else if x.reelFault || x.mechFault then d
  else d.setMotion n 5

/-- The CTLE settings of an attempt of rung 7, written during the sheet preamble; the old ones are kept. -/
def Dev.ctleAttempt (d : Dev) (n : Nat) : Dev :=
  if (d.lad n).rung != 7 || d.hostCal n then d
  else
    let old := (List.range 64).map (fun l => (d.fget (lfe n l) (Reg.LANEFE.CTLE_FREQ (l % 16)), d.fget (lfe n l) (Reg.LANEFE.CTLE_BOOST (l % 16))))
    let step (b : Nat) := if (d.lad n).attempt = 1 then min 31 (b + 6) else if (d.lad n).attempt = 2 then b - 6 else b
    let d := (d.modLad n (fun l => { l with savedCtle := old })).setCtleFreq n (d.attemptCog n)
    (List.range 64).foldl (fun e l => e.fset (lfe n l) (Reg.LANEFE.CTLE_BOOST (l % 16)) (step (old.getD l (6, 12)).2)) d

/-- What an attempt changed is restored after its stop. -/
def Dev.attemptRestore (d : Dev) (n : Nat) : Dev :=
  let l := d.lad n
  let d := if l.rung = 6 then d.fset (pgServo n) Reg.SERVO.TF_OFFSET l.savedTf else d
  if l.savedCtle.isEmpty then d
  else
    ((List.range 64).foldl (fun e k =>
      let o := l.savedCtle.getD k (6, 12)
      (e.fset (lfe n k) (Reg.LANEFE.CTLE_FREQ (k % 16)) o.1).fset (lfe n k) (Reg.LANEFE.CTLE_BOOST (k % 16)) o.2) d).modLad n
      (fun l => { l with savedCtle := [] })

/-! ### Rung 8 (R99, R242) -/

/-- The numbers of the other members of the sheet's ream. -/
def otherMembers (num : Nat) : List Nat :=
  ((List.range 32).map (memberSheet (sheetBlock num) (sheetReam num))).filter (· != num)

/-- Is sheet number `k` skipped: does it lie in the run of numbers without a slot that ends where its block's parity begins (R76)? -/
def Rd.absent (r : Rd) (k : Nat) : Bool :=
  r.gaps.any (fun g => decide (g.1 ≤ k) && decide (k < g.2) && g.2 == 128 * sheetBlock k + 120)

/-- Members of the ream that the chest does not hold from the read. -/
def Dev.missingMembers (d : Dev) (n num : Nat) : List Nat :=
  (otherMembers num).filter (fun k => !((d.rd n).sheet? k).any (·.final) && !(d.rd n).absent k)

/-- A member's byte at row `r`, place `b`: as its final decode left it. -/
def memberByte (s : RSheet) (r b : Nat) : Nat :=
  match s.fixed.find? (fun p => p.1 == r) with
  | none => 0
  | some (_, x) => (byteAt x.data b).toNat

/-- The members as the rebuild sees them: those held, with their member numbers. The numbers skipped are absent members, known zeros
(R76), and left out; any other member not met could not be read, and is erased (R99). -/
def Dev.members (d : Dev) (n num : Nat) : List (Nat × Option RSheet) :=
  (List.range 32).filterMap (fun m =>
    match (d.rd n).sheet? (memberSheet (sheetBlock num) (sheetReam num) m) with
    | some s => some (m, some s)
    | none => if (d.rd n).absent (memberSheet (sheetBlock num) (sheetReam num) m) then none else some (m, none))

/-- Members erased in codeword `w`. -/
def erasedAt (ms : List (Nat × Option RSheet)) (w : Nat) : List Nat :=
  (ms.filter (fun p => match p.2 with | none => true | some s => s.badWord w)).map (·.1)

/-- Row `r` of member `m` rebuilt; none when a position or a check fails. -/
def rebuildRow (ms : List (Nat × Option RSheet)) (m r : Nat) : Option (List Byte) :=
  (List.range 4096).foldr (fun b acc =>
    let era := erasedAt ms (b / 2)
    let known := ms.filterMap (fun p => match p.2 with
      | none => none
      | some s => if era.contains p.1 then none else some (p.1, memberByte s r b))
    match acc, c3Solve m era known with
    | some l, some v => some (BitVec.ofNat 8 v :: l)
    | _, _ => none) (some [])

/-- Every rebuilt byte of a GOOD row equals that row's byte (R99). -/
def goodCheck (s : RSheet) (r : Nat) (row : List Byte) : Bool :=
  rowClass s.rows r != .good || (List.range 4096).all (fun b => memberByte s r b == (byteAt row b).toNat)

/-- The rebuild of sheet `num`: its rows 0 to 1,887, or none. Rows in which no member holds anything rebuild to zeros
wherever no codeword has more than two erasures. -/
def Dev.rebuild (d : Dev) (n num : Nat) : Option (SMap RowRec) :=
  match (d.rd n).sheet? num with
  | none => none
  | some s =>
    let ms := d.members n num
    let m := sheetMember num
    if !(List.range 2048).all (fun w => decide ((erasedAt ms w).length ≤ 2)) then none
    else
      let used := (List.range payloadRows).filter (fun r => ms.any (fun p => match p.2 with
        | none => false
        | some x => x.fixed.any (fun e => e.1 == r && !e.2.data.isEmpty)))
      used.foldl (fun acc r =>
        match acc, rebuildRow ms m r with
        | some rows, some row => if goodCheck s r row then
            some (rows ++ [(r, { converged := true, suspect := false, llr := 0, data := row })]) else none
        | _, _ => none) (some [])

/-! ### Leaving the ladder (R233, R243, R247) -/

/-- The ladder lets its sheet go, with its records (R235). -/
def Dev.ladderIdle (d : Dev) (n : Nat) : Dev :=
  let l := d.lad n
  let d := d.unhold n (fun c => c.seg.sheet == l.sheet)
  let d := (d.decRefs l.bufs).modSheetR n l.sheet (fun s => { s with top := l.top })
  (d.modLad n (fun l => { l with phase := .idle, inner := 0, member := none, wanted := [], bufs := [], replay := none, kept := none,
                                 gained := false, stage := 0, stepped := false, abort := false, only4 := false })).ladRegs n

/-- The usage counters of the ladder (R462). -/
def Dev.rungUsage (d : Dev) (n k : Nat) : Dev :=
  d.modUsage n (fun u => { u with rungs := u.rungs.set (k - 1) (u.rungs.getD (k - 1) 0 + 1) })

/-- LOST_OBJECT of an unreadable sheet (R247). -/
def Rd.lostOf (r : Rd) (s : RSheet) : Nat :=
  if s.indexOk && s.kind == 1 then s.firstRecord
  else
    match (r.ends.filter (fun p => decide (p.1 < s.num))).getLast? with
    | some (_, o) => o + 1
    | none => 0

/-- The sheet is declared unreadable. -/
def Dev.declareUnreadable (d : Dev) (n num : Nat) : Dev :=
  match (d.rd n).sheet? num with
  | none => d
  | some s =>
    let pg := pgSh n
    let lost := (d.rd n).lostOf s
    let d := d.modSheetR n num (fun s => { s with final := true, unreadable := true })
    let d := d.modRd n (fun r => { r with lostObj := lost })
    let d := d.modUsage n (fun u => { u with unread := u.unread + 1 })
    ((((d.bump pg Reg.SAMPLEHOLD.UNREAD_SHEETS 1).ev pg Reg.SAMPLEHOLD.UNREADABLE).fset pg Reg.SAMPLEHOLD.LAST_UNREAD num).fset pg
      Reg.SAMPLEHOLD.LOST_OBJ_LO lost)

/-- Rung 9 (R243): the sheet's rows and map are held for the host. -/
def Dev.holdRaw (d : Dev) (n : Nat) : Dev :=
  let l := d.lad n
  match (d.rd n).sheet? l.sheet with
  | none => d
  | some s =>
    ((d.modLad n (fun l => { l with raw := some ({ s with top := l.top }, (d.sp n).sess.part), rung := 9 })).ev (pgSh n)
      Reg.SAMPLEHOLD.RAW_READY).ladRegs n

/-! ### The climb (R234, R245) -/

/-- Does rung `k` have work now; if so the device with it begun. -/
def Dev.startRung (d : Dev) (n k : Nat) : Option Dev :=
  let d := d.latchLimits n k
  let l := d.lad n
  match (d.rd n).sheet? l.work with
  | none => none
  | some s =>
    if k ≤ 3 then
      let d := d.modRd n (fun r => { r with hold := r.hold.map (fun p => (p.1, { p.2 with tried := 0 })) })
      if (d.nextReplay n k).isSome then some (d.rungBegins n k .replay) else none
    else if k = 4 then
      let rows := d.classedRows n s
      let go (p : LadderPhase) := (d.modSheetR n s.num (fun s => { s with rows := rows, limit := d.errLimit n })).rungBegins n 4 p
      if relaxA rows then some (go .relaxA) else if relaxB l.lim.floor rows then some (go .relaxB) else none
    else if k ≤ 7 then
      if l.lim.tries = 0 || l.only4 then none
      else some (((d.rungBegins n k .reread).modLad n (fun l => { l with attempt := 0 })).ladderTape n)
    else if l.only4 || s.kind == 5 then none
    else
      let wanted := d.missingMembers n s.num
      match d.allocN n 8388608 wanted.length with
      | (_, none) => some (d.ev (pgSh n) Reg.SAMPLEHOLD.C3_NOBUF)
      | (e, some hs) =>
        let e := (e.rungBegins n 8 .rebuild).modLad n (fun l => { l with wanted := wanted, bufs := hs, stage := 4 })
        if wanted.isEmpty then some e else some (e.ladderTape n)

/-- The ladder ends without a resolution: rung 9 if it is enabled, then the sheet is unreadable (R234). -/
def Dev.ladderLost (d : Dev) (n : Nat) : Dev :=
  let l := d.lad n
  let d := if !l.only4 && bitAt (d.fget (pgSh n) Reg.SAMPLEHOLD.RUNG_EN) 9 then d.holdRaw n else d
  (d.declareUnreadable n l.sheet).ladderIdle n

/-- Is LADDER_BUDGET spent (R234, R246)? -/
def Dev.budgetSpent (d : Dev) (n : Nat) : Bool :=
  let b := d.fget (pgSh n) Reg.SAMPLEHOLD.LADDER_BUDGET
  b != 0 && d.mode (pgSh n) == 0 && decide (b * 100000000 ≤ d.now - (d.lad n).startTime)

/-- Rung 8 with NOBUF leaves the phase as it was: it was skipped. -/
def Dev.rungRuns (d : Dev) (n : Nat) : Bool :=
  match (d.lad n).phase with
  | .replay | .relaxA | .relaxB | .reread | .rebuild => true
  | _ => false

/-- The climb from rung `k` on: the first rung that is enabled and has work runs; after rung 8 the ladder ends. -/
def Dev.climb (d : Dev) (n : Nat) : Nat → Nat → Dev
  | 0, _ => d.ladderLost n
  | f + 1, k =>
    if 8 < k then d.ladderLost n
    else
      let skip := !d.rungOn n k || (k == 8 && d.fon (pgSh n) Reg.SAMPLEHOLD.C3_MODE)
      let d := d.modLad n (fun l => { l with phase := .idle })
      match (if skip then none else d.startRung n k) with
      | none => d.climb n f (k + 1)
      | some e => if e.rungRuns n then e else e.climb n f (k + 1)

/-- Rungs 1 to 4 on the new records of a re-read, or on a member of the ream, from rung `k` on: none when they are done. -/
def Dev.innerClimb (d : Dev) (n : Nat) : Nat → Nat → Option Dev
  | 0, _ => none
  | f + 1, k =>
    if 4 < k then none
    else
      let d := d.modLad n (fun l => { l with inner := k })
      match (if d.rungOn n k then d.startRung n k else none) with
      | none => d.innerClimb n f (k + 1)
      | some e => some e

/-- The host is waited for (R245). -/
def Dev.waitHost (d : Dev) (n : Nat) : Dev :=
  ((d.modLad n (fun l => { l with phase := .waitHost, stepped := false })).ev (pgSh n) Reg.SAMPLEHOLD.WAIT_HOST_EVT).ladRegs n

/-- A boundary of R234: a rung has ended without resolving the sheet. The sequencing waits for a steward that does not run
(R407). -/
def Dev.rungOver (d : Dev) (n : Nat) : Dev :=
  let l := d.lad n
  let d := d.modLad n (fun l => { l with inner := 0, member := none })
  if l.abort then d.ladderIdle n
  else if (d.stw (4 + n)).state != 0 then (d.modLad n (fun l => { l with phase := .boundary })).ladRegs n
  else if l.only4 then d.climb n 9 (l.rung + 1)
  else if l.stepped || (d.mode (pgSh n) == 1 && !l.auto) then d.waitHost n
  else if d.budgetSpent n then d.ladderLost n
  else d.climb n 9 (l.rung + 1)

/-- An attempt has ended without resolving the sheet: the next attempt, or the end of the rung. -/
def Dev.attemptOver (d : Dev) (n : Nat) : Dev :=
  let l := d.lad n
  let d := d.modLad n (fun l => { l with inner := 0, attempt := l.attempt + 1 })
  if l.abort then d.ladderIdle n
  else if l.lim.tries ≤ l.attempt + 1 then d.rungOver n
  else if !l.stepped && d.budgetSpent n then d.ladderLost n
  else (d.rungBegins n l.rung .reread).ladderTape n

/-- The next member of rung 8 that its in-line decodes left unresolved: rungs 1 to 4 work on it; then the rebuild. -/
def Dev.nextMember (d : Dev) (n : Nat) : Nat → Dev
  | 0 => (d.modLad n (fun l => { l with phase := .rebuild, inner := 0, member := none })).ladRegs n
  | f + 1 =>
    match (d.lad n).wanted with
    | [] => (d.modLad n (fun l => { l with phase := .rebuild, inner := 0, member := none })).ladRegs n
    | m :: rest =>
      let d := d.modLad n (fun l => { l with wanted := rest, member := some m, inner := 1 })
      match (d.rd n).sheet? m with
      | some s =>
        if s.resolved then d.nextMember n f
        else match d.innerClimb n 4 1 with
          | some e => e
          | none => d.nextMember n f
      | none => d.nextMember n f

/-- What follows a rung, inner or outer, that did not resolve the sheet it worked on. -/
def Dev.afterRung (d : Dev) (n : Nat) : Dev :=
  let l := d.lad n
  if l.inner = 0 then d.rungOver n
  else
    match d.innerClimb n 4 (l.inner + 1) with
    | some e => e
    | none => if l.member.isSome then d.nextMember n 32 else (d.modLad n (fun l => { l with inner := 0 })).attemptOver n

/-- The sheet in the ladder is resolved at a rung (R233). -/
def Dev.ladderResolved (d : Dev) (n : Nat) : Dev :=
  let l := d.lad n
  let k := l.inRung
  let d := ((d.bump (pgSh n) (Reg.SAMPLEHOLD.RESOLVED_RUNG_k (k - 1)) 1).ev (pgSh n) Reg.SAMPLEHOLD.RESOLVED).rungUsage n k
  let d := d.ladderIdle n
  d.sheetResolved n l.sheet

/-- After a ladder decode: the sheet leaves, a member is done, or the climb goes on. -/
def Dev.decodeOver (d : Dev) (n : Nat) : Dev :=
  let l := d.lad n
  match (d.rd n).sheet? l.work with
  | none => d.ladderIdle n
  | some s =>
    let ok := !s.allFailed && s.failed.isEmpty
    if !ok then d.afterRung n
    else if l.member.isSome then (d.modSheetR n l.work (fun s => { s with resolved := true, final := true })).nextMember n 32
    else d.ladderResolved n

/-- A sheet enters the ladder, or waits in slot order (R232). -/
def Dev.enterLadder (d : Dev) (n num : Nat) (only4 : Bool) : Dev :=
  let l := d.lad n
  if l.phase != .idle then
    if l.sheet == num || l.queue.contains num then d
    else (d.modLad n (fun l => { l with queue := (l.queue.filter (fun x => decide (x < num))) ++ [num] ++ (l.queue.filter (fun x => decide (num < x))) })).ladRegs n
  else
    let host := d.mode (pgSh n) == 1 && !only4
    let d := d.modLad n (fun l => { l with sheet := num, rung := 0, top := 0, inner := 0, attempt := 0, gained := false,
                                           stepped := false, auto := !host, only4 := only4, abort := false, member := none,
                                           startTime := d.now, phase := .decode, moved := l.moved, replay := none })
    let d := (((d.ev (pgSh n) Reg.SAMPLEHOLD.ENTERED).ladRegs n).pinRecords n)
    if host then d.waitHost n else d.climb n 9 1

/-- The ladder ends at its next boundary (R246); while it waits for the host, at once. Sheets in line are forgotten. -/
def Dev.ladderAbort (d : Dev) (n : Nat) : Dev :=
  let d := (d.modLad n (fun l => { l with queue := [] })).ladRegs n
  match (d.lad n).phase with
  | .idle => d
  | .waitHost | .boundary => d.ladderIdle n
  | _ => d.modLad n (fun l => { l with abort := true })

/-! ### The ladder's events -/

/-- A replay starts on tile `t` (R236). -/
def Dev.replayStart (d : Dev) (n t : Nat) : Dev :=
  let l := d.lad n
  if l.phase != .replay || l.replay.isSome || !d.tileTakes n t || !d.takesWork (pgSh n) || !((d.rd n).tileOf t).isEmpty ||
    (List.range 9).any (fun k => decide (8 < ((d.rd n).tileOf k).length)) then d
  else
    match d.nextReplay n l.inRung with
    | none => d
    | some (slot, _) => (d.modLad n (fun l => { l with replay := some (t, slot) })).ev (pgDetect n t) Reg.DETECT.ACTIVE

/-- What a replay in rung 3 makes of the header at its shift: skip it when it passes with another identity, or fails and the record lies
in no sheet (R239). -/
def skipShift (c : CapRec) (hdr : List Bool) : Bool :=
  match headerAt c.lane [(0, hdr)] 0 with
  | none => c.seg.rwslot != 0 || c.seg.fill
  | some h => h.id != c.seg

/-- A replay ends (R236, R238, R239): its result is a copy of the row. -/
def Dev.replayDone (d : Dev) (n : Nat) (o : TileOut) (hdr : List Bool) : Dev :=
  let l := d.lad n
  match l.replay with
  | none => d
  | some (t, slot) =>
    let d := ((d.modLad n (fun l => { l with replay := none })).clr (pgDetect n t) Reg.DETECT.ACTIVE).unit (pgSh n)
    match (d.rd n).hold.find? (fun p => p.1 == slot) with
    | none => d
    | some (_, c) =>
      let k := l.inRung
      let d := d.modRd n (fun r => { r with hold := r.hold.map (fun p => if p.1 == slot then (p.1, { p.2 with tried := p.2.tried + 1 }) else p) })
      let x : Dev × TileOut := if d.unsettled (pgSh n) || d.unsettled (pgDetect n t) || d.unsettled (pgDecode n t) then
          (d.nextFree, { o with bits := (List.range 36864).map (bitAt d.freeVal) }) else (d, o)
      let d := x.1
      let res := tileResult x.2 c.seg c.lane l.lim.iters (c.freewheel && k != 3) (c.altAlign || k == 3)
      let row : RowRec := { converged := res.converged, suspect := false, llr := res.llr, data := tileRow x.2 c.seg c.lane, iters := res.iters,
                            freewheel := res.freewheel, altAlign := res.altAlign, gen := c.seg.gen, rwslot := c.seg.rwslot }
      let d := if k = 3 && skipShift c hdr then d else (d.tileCount n t res).deliverRow n c.seg c.kind row true
      if (d.nextReplay n k).isSome then d
      else if (d.lad n).gained then
        let w := l.work
        (d.modSheetR n w (fun s => { s with rows := d.classedRows n s, limit := d.errLimit n })).modLad n (fun l => { l with phase := .decode })
      else d.afterRung n

/-- A ladder decode completes (R233, R240). -/
def Dev.ladderDecodeDone (d : Dev) (n : Nat) : Dev :=
  let l := d.lad n
  match (d.rd n).sheet? l.work with
  | none => d
  | some s =>
    match l.phase with
    | .decode =>
      let x := d.decodeSheet n s.rows (inlineErasures s.rows) s.limit
      let d := x.1.modSheetR n s.num (fun t => t.decoded x.2)
      if l.rung = 0 then d
      else if decide (5 ≤ l.rung) && l.rung != 8 && l.inner == 0 then
        -- the decode of a re-read: rungs 1 to 4 follow on its new records
        let ok := match (d.rd n).sheet? s.num with | some t => !t.allFailed && t.failed.isEmpty | none => false
        if ok then d.ladderResolved n
        else if l.abort then d.ladderIdle n
        else match (d.modLad n (fun l => { l with inner := 1 })).innerClimb n 4 1 with
          | some e => e
          | none => d.attemptOver n
      else d.decodeOver n
    | .relaxA =>
      let y := d.decodeSheet n s.rows (rowsOf (fun c => c != .good) s.rows) s.limit
      let d := y.1
      let x := y.2
      let d := d.modSheetR n s.num (fun t => t.decoded x)
      if !x.resolved && relaxB l.lim.floor s.rows then
        (d.modLad n (fun l => { l with phase := .relaxB, kept := (d.rd n).sheet? s.num })).ladRegs n
      else (d.modLad n (fun l => { l with phase := .decode })).decodeOver n
    | .relaxB =>
      let rel := relaxedRows l.lim.floor s.rows
      let y := d.decodeSheet n s.rows (rowsOf (fun c => c.gone) s.rows |>.filter (fun r => !rel.contains r)) s.limit
      let d := y.1
      let x := y.2
      let x := match l.kept with | none => x | some a => joinDecodes a x
      let d := d.modSheetR n s.num (fun t =>
        { t.decoded x with rows := t.rows.map (fun p => if rel.contains p.1 then (p.1, { p.2 with relaxed := true }) else p) })
      (d.modLad n (fun l => { l with phase := .decode, kept := none })).decodeOver n
    | _ => d

/-- The tape is parked (R185, R241) with the ladder in a tape rung. A run-up that was broken off is made again, unless the ladder is to end;
an attempt whose reading was broken off is over, with what it has read.
(DEDUCED, log entry 32.) -/
def Dev.ladderStopped (d : Dev) (n : Nat) : Dev :=
  let l := d.lad n
  match l.phase with
  | .reread =>
    if l.stage ≤ 1 then
      let d := if l.stage = 1 then d.attemptRestore n else d
      if l.abort then d.ladderIdle n else d.ladderMove n
    else if l.stage ≤ 3 then
      let d := d.attemptRestore n
      let d := d.modSheetR n l.sheet (fun s => { s.takeLate with limit := d.errLimit n })
      (d.modSheetR n l.sheet (fun s => { s with rows := d.classedRows n s })).modLad n (fun l => { l with phase := .decode, stage := 4 })
    else d
  | .rebuild =>
    if l.stage ≤ 1 then (if l.abort then d.ladderIdle n else d.ladderMove n)
    else if l.stage ≤ 3 then (d.modLad n (fun l => { l with stage := 4 })).nextMember n 32
    else d
  | _ => d

/-- The move of a tape rung has completed: reading begins at the attempt's cog. With a tile cap that forbids streaming (R28) the attempt
reads nothing, and is over. -/
def Dev.ladderArrived (d : Dev) (n : Nat) : Dev :=
  let l := d.lad n
  if (l.phase == .reread || l.phase == .rebuild) && l.stage == 1 then
    if tileCog (d.tiles n) = 0 then
      ((((d.modRd n (fun r => { r with locating := none })).modDrv n (fun x => { x with tapeStopped := true, parked := true })).setMotion n 0).modLad n
        (fun l => { l with stage := 3, gained := false })).ladderStopped n
    else
    let k := if l.rung = 8 then 128 * sheetBlock l.sheet else l.sheet
    let d := d.modRd n (fun r => { r with locating := none, hold := r.hold.map (fun p => (p.1, { p.2 with fresh := false })) })
    let d := ((d.beginStream n (if l.rung = 8 then d.capOf n else d.attemptCog n) true).lanesFrom n k).ctleAttempt n
    d.modLad n (fun l => { l with stage := 2, gained := false })
  else d

/-- The last sheet of the interleave block that rung 8 reads. -/
def Spoke.blockEnd (s : Spoke) (num : Nat) : Nat :=
  let e := 128 * sheetBlock num + 127
  if s.sess.isOpen then min e s.sess.topSheet else e

/-- The two slots after a sheet, and their rewrite areas, have passed (R97, R241): a read stop that waits for them is made; a re-read stops;
the reading of a block stops at its end; a sheet left unresolved by its first decode gets its second. -/
def Dev.secondDecode (d : Dev) (n num : Nat) : Dev :=
  let l := d.lad n
  let d := if (d.rd n).stopAt.any (fun k => decide (k ≤ num)) then d.readStop n else d
  if l.phase == .reread && l.stage == 2 && num == l.sheet then (d.controlledStop n).modLad n (fun l => { l with stage := 3 })
  else
    let d := match (d.rd n).sheet? num with
      | some s => if s.decodes = 1 && !s.final && !s.busy then (d.modSheetR n num (fun s => { s with again := true })).c2Next n else d
      | none => d
    if l.phase == .rebuild && l.stage == 2 && num == (d.sp n).blockEnd l.sheet then
      (d.controlledStop n).modLad n (fun l => { l with stage := 3 })
    else d

/-- The boosts that calibration has found come into force while the sheet preamble passes (R207). -/
def Dev.boostsDue (d : Dev) (n : Nat) : Dev :=
  (List.range 64).foldl (fun (e : Dev) l =>
    match ((e.rd n).lane l).boostDue with
    | none => e
    | some b => (e.fset (lfe n l) (Reg.LANEFE.CTLE_BOOST (l % 16)) b).modLane n l (fun c => { c with boostDue := none })) d

/-- A sheet's postamble and rewrite area have passed the readers (R97, R224, R226). -/
def Dev.sheetPassed (d : Dev) (n num gen kind : Nat) : Dev :=
  let d := ((d.closeMap n num gen kind).healthCopy n).boostsDue n
  -- the next preamble takes the CTLE peak of the target cog (R207)
  let d := if d.hostCal n || (d.stw (4 + n)).state != 0 || ((d.lad n).phase == .reread && (d.lad n).rung == 7) then d
    else d.setCtleFreq n (d.fget (pgDr n) Reg.DERAILLEUR.TARGET_COG)
  if !(d.sp n).drv.reading then d
  else
    let l := d.lad n
    let d := d.modUsage n (fun u => { u with sheetsRead := u.sheetsRead + 1 })
    let d := d.meetSheet n num kind gen
    let d := if l.phase == .reread then (if l.rung = 7 && !d.hostCal n then d.setCtleFreq n (d.fget (pgDr n) Reg.DERAILLEUR.CUR_COG) else d)
      else if l.phase == .rebuild then
        (match (d.rd n).lastPassed with
        | some a => if a + 1 < num then d.modRd n (fun r => { r with gaps := r.gaps ++ [(a + 1, num)] }) else d
        | none => d)
      else if ((d.rd n).stopped && (d.rd n).noBuf) || (d.rd n).stopAt.any (fun k => decide (k < num)) ||
        ((d.rd n).stopped && (d.rd n).stopAt.isNone) then d
      else d.modRd n (fun r => { r with nextSheet := max r.nextSheet (num + 1),
                                        gaps := if r.nextSheet < num then r.gaps ++ [(r.nextSheet, num)] else r.gaps })
    let d := d.modRd n (fun r => { r with lastPassed := some num })
    match (d.rd n).sheet? num with
    | some s => if s.decodes = 0 && !(d.rd n).rereading num then (d.modSheetR n num (fun s => { s with passed := true, kind := kind })).c2Next n else d
    | none => d

/-- A member rebuild completes (R99). -/
def Dev.c3Done (d : Dev) (n : Nat) : Dev :=
  let l := d.lad n
  if l.phase != .rebuild || l.stage != 4 || !l.wanted.isEmpty then d
  else
    let pg := pgVerify n
    match d.rebuild n l.sheet with
    | some rows =>
      let d := (d.ev pg Reg.VERIFY.C3_DONE).bump pg Reg.VERIFY.C3_RECON 1
      (d.modSheetR n l.sheet (fun s => { s with fixed := rows, failed := [], allFailed := false })).ladderResolved n
    | none => ((d.ev pg Reg.VERIFY.C3_FAIL).bump pg Reg.VERIFY.C3_FAILED 1).rungOver n

/-- LADDER_STEP with GO (R245): nothing while the ladder does not wait. -/
def Dev.ladderStep (d : Dev) (n next : Nat) : Dev :=
  let l := d.lad n
  if l.phase != .waitHost then d
  else if next = 0 then (d.modLad n (fun l => { l with auto := true, phase := .decode })).climb n 9 (l.top + 1)
  else if next ≤ 8 then
    let d := d.modLad n (fun l => { l with stepped := true, auto := false, rung := next, phase := .decode })
    match d.startRung n next with
    | some e => if e.rungRuns n then e else e.waitHost n
    | none => ((d.modLad n (fun l => { l with top := max l.top next })).waitHost n)
  else if next = 9 then ((d.holdRaw n).declareUnreadable n l.sheet).ladderIdle n
  else if next = 15 then (d.declareUnreadable n l.sheet).ladderIdle n
  else d

/-- WAIT_HOST has lasted HOST_WAIT ms: as for NEXT = 15. -/
def Dev.hostWaitExpiry (d : Dev) (n : Nat) : Dev :=
  if d.fget (pgSh n) Reg.SAMPLEHOLD.HOST_WAIT = 0 then d else d.ladderStep n 15

/-! ### The raw sheet and its erasure map (R243, R244) -/

/-- The word of row `r` in the erasure map. -/
def mapWord (s : RSheet) (r : Nat) : Nat :=
  match s.rows.find? (fun p => p.1 == r) with
  | none => RowClass.missing.code
  | some (_, x) =>
    2 ^ 26 * (x.rwslot % 8) + 2 ^ 24 * (x.gen % 4) + 2 ^ 16 * min x.llr 255 + 2 ^ 8 * min x.iters 255 + 16 * b2n x.relaxed +
    8 * b2n x.altAlign + 4 * b2n x.freewheel + (rowClass s.rows r).code

/-- CW_MAP. -/
def cwMap (s : RSheet) : List Byte :=
  (List.range 256).map (fun k => BitVec.ofNat 8 (((List.range 8).map (fun i => 2 ^ i * b2n (s.badWord (8 * k + i)))).foldl (· + ·) 0))

/-- The erasure map of a sheet of partition `part` (R244). -/
def erasureMap (s : RSheet) (part : Nat) : List Byte :=
  bytesLE 4 s.num ++ bytesLE 1 part ++ bytesLE 1 s.kind ++ bytesLE 1 s.top ++ bytesLE 1 0 ++ bytesLE 2 s.failedCw ++
  bytesLE 2 (rowsOf RowClass.gone s.rows).length ++ bytesLE 2 s.erased ++ List.replicate 50 0 ++ cwMap s ++
  ((List.range 2048).map (fun r => bytesLE 4 (mapWord s r))).flatten

/-- The raw rows, up to `k` bytes of the 8,388,608: as the last decode left them; a row not held reads zeros. -/
def rawRows (s : RSheet) (k : Nat) : List Byte :=
  ((List.range ((k + 4095) / 4096)).map (fun r => takePad 0 4096 (match s.fixed.find? (fun p => p.1 == r) with
    | none => []
    | some (_, x) => x.data))).flatten.take k

/-- The cartridge is gone (R235, R243): what the ladder changed is restored, and it ends with every record and the raw sheet released. -/
def Dev.ladderGone (d : Dev) (n : Nat) : Dev :=
  let d := if (d.lad n).onTape then d.attemptRestore n else d
  let d := if (d.lad n).phase == .idle then d else d.ladderIdle n
  ((d.modLad n (fun l => { l with raw := none, queue := [], moved := false })).unhold n (fun _ => true)).ladRegs n

/-- The raw sheet released. -/
def Dev.rawRelease (d : Dev) (n : Nat) : Dev := (d.modLad n (fun l => { l with raw := none })).ladRegs n

end Sys2Proof.Machine
end

