-- ==== Sys2Proof/Machine/Deliver.lean ====
section
/-! DEFINITION. Delivery of records on the read side: the current command's completion, sheets obtained from the read run,
entries of objects, blocks cut, decrypted and decoded in stream order, delivery, suspension, truncation and faults
(R126 to R130, R322 to R325, R363, R364). -/

namespace Sys2Proof.Machine

/-! ### The command in progress -/

/-- The spoke's command in progress completes. -/
def Dev.finish (d : Dev) (n code result residue extra : Nat) : Dev :=
  match (d.sp n).cur with
  | none => d
  | some j => (d.modSp n (fun s => { s with cur := none, curStep := 0 })).completeX j code result residue extra

/-- The end of data of partition `p` (R304). -/
def Spoke.eodOf (s : Spoke) (p : Nat) : Nat :=
  if s.sess.isOpen && s.sess.part == p then s.sess.nextObj else (s.cart.eods.getD p {}).nextRecord

/-- The position set to an object of the partition in use. -/
def Dev.setPos (d : Dev) (n obj : Nat) : Dev := d.modSp n (fun s => { s with posObj := obj })

/-- The elements of a buffer list up to its end (R291): LAST, or the element with which `dlen` bytes have been described; none when the list
describes no end. -/
def listUsed : Nat → List ListElem → Option (List ListElem)
  | _, [] => none
  | dlen, e :: l =>
    if e.next then (listUsed dlen l).map (e :: ·)
    else if e.last || decide (dlen ≤ e.len) then some [e]
    else (listUsed (dlen - e.len) l).map (e :: ·)

/-- The elements that describe a command's transfer, of the first 65,536. -/
def hdrList (h : CmdHdr) : Option (List ListElem) := listUsed h.dlen (h.list.take 65536)

/-- The host buffers of a command (R291): address and length. -/
def hostBufs (h : CmdHdr) : List (Nat × Nat) :=
  if h.dmode = 1 then [(h.dptr, h.dlen)]
  else if h.dmode = 2 then (((hdrList h).getD []).filter (fun e => !e.next)).map (fun e => (e.addr, e.len))
  else []

/-- The bytes of a command's transfer (R291). -/
def hdrLen (h : CmdHdr) : Nat :=
  if h.dmode = 0 then 0 else if h.dmode = 2 then min h.dlen ((hostBufs h).foldl (fun a b => a + b.2) 0) else h.dlen

/-- The parts of host buffers that `n` bytes from byte `off` of a transfer on lie in: address and length. -/
def bufParts : List (Nat × Nat) → Nat → Nat → List (Nat × Nat)
  | [], _, _ => []
  | (a, len) :: l, off, n =>
    if n = 0 then []
    else if len ≤ off then bufParts l (off - len) n
    else
      let k := min n (len - off)
      (a + off, k) :: bufParts l 0 (n - k)

/-- The reads that bring in a buffer list ahead of its data (R463): up to 16 elements at a time, from address `a` on; `k` counts those of the
read in the making. -/
def listReads : Nat → Nat → List ListElem → List (Nat × Nat)
  | a, k, [] => if k = 0 then [] else [(a, 16 * k)]
  | a, k, e :: l =>
    if e.next then (a, 16 * (k + 1)) :: listReads e.addr 0 l
    else if k = 15 then (a, 256) :: listReads (a + 256) 0 l
    else listReads a (k + 1) l

/-- Handle and offset of DPTR_MODE 3 (R291). -/
def hdrHandle (h : CmdHdr) : Nat := bitsOf h.dptr 0 24
def hdrOff (h : CmdHdr) : Nat := bitsOf h.dptr 32 24

/-- The length of a transfer to or from a chest buffer ends at the buffer's end. -/
def Dev.xferLen (d : Dev) (h : CmdHdr) : Nat :=
  if h.dmode = 3 then min h.dlen (d.pool.bufSize (hdrHandle h) - hdrOff h) else hdrLen h

/-- Bytes `bs` of a command's data put at `off` of its destination: a chest buffer, one host buffer, or the buffers of a
list, in order.
(DESIGN CHOICE, log entry 8.) -/
def Dev.toHost (d : Dev) (j : Job) (off : Nat) (bs : List Byte) : Dev :=
  if bs.isEmpty then d
  else if j.hdr.dmode = 3 then d.chestPut (d.pool.bufAddr (hdrHandle j.hdr) + hdrOff j.hdr + off) bs
  else
    ((bufParts (hostBufs j.hdr) off bs.length).foldl (fun (x : Dev × List Byte) p =>
      (x.1.issue j.fn (.dataWrite j.fn p.1 false (x.2.take p.2)), x.2.drop p.2)) (d, bs)).1

/-- `n` bytes of a command's data are read from the host's buffers. -/
def Dev.fromHost (d : Dev) (j : Job) (n : Nat) : Dev :=
  (bufParts (hostBufs j.hdr) 0 n).foldl (fun (e : Dev) p => e.issue j.fn (.dataRead j.fn p.1 p.2)) d

/-- A command's buffer list is read, ahead of its data (R463). -/
def Dev.listRead (d : Dev) (j : Job) : Dev :=
  if j.hdr.dmode = 2 ∧ j.hdr.dlen ≠ 0 then
    (listReads j.hdr.dptr 0 ((hdrList j.hdr).getD (j.hdr.list.take 65536))).foldl (fun (e : Dev) p => e.issue j.fn (.dataRead j.fn p.1 p.2)) d
  else d

/-! ### Sheets from the read run -/

/-- What asking for a sheet gives: wait for it; no slot holds it; its index, with all its rows or not; it is lost. -/
inductive Got where
  | wait
  | absent
  | sheet (s : RSheet)
  | lost (s : RSheet)
  deriving DecidableEq, Repr

/-- Does no slot hold sheet `k`, as the run has found (R326)? -/
def Rd.noSlot (r : Rd) (k : Nat) : Bool :=
  r.gaps.any (fun g => decide (g.1 ≤ k) && decide (k < g.2)) || (match r.endAt with | some e => decide (e < k) | none => false)

/-- Sheet `k` is wanted: given if it has been read and is resolved or unreadable; an unresolved one enters the ladder (R232), of the sheets
that are not data only the session-break sheet whose close record the spoke needs, or one that only rungs 1 to 4 are for; one not read is
read. -/
def Dev.obtain (d : Dev) (n k : Nat) (only4 : Bool) : Dev × Got :=
  let r := d.rd n
  match r.sheet? k with
  | some s =>
    if s.resolved || (s.final && s.kind != 1 && !only4 && (d.sp n).sess.sbSheet != k) then (d, .sheet s)
    else if s.unreadable then (d, if s.indexOk then .sheet s else .lost s)
    else if s.final then (d.enterLadder n k only4, .wait)
    else (d, .wait)
  | none =>
    if r.noSlot k then (d, .absent)
    else
      let x := (d.sp n).drv
      let near (a : Nat) := decide (a ≤ k) && decide (k ≤ a + 48)
      if r.ladder.phase != .idle || r.stopped then (d, .wait)
      else if x.streaming && x.reading && near r.nextSheet then (d, .wait)
      else if (match r.locating with | some a => near a | none => false) then (d, .wait)
      else (d.readFrom n k (d.startCog n), .wait)

/-- Where object `o` begins among the sheets held: sheet, entry number, entry. -/
def entryOfObj (s : RSheet) (o : Nat) : Option (Nat × IdxEntry) :=
  let es := s.entries
  ((List.range es.length).find? (fun i => match es[i]? with
    | some e => e.first && objectOfEntry s.firstRecord i es == o
    | none => false)).bind (fun i => (es[i]?).map (fun e => (i, e)))

def Rd.findObj (r : Rd) (o : Nat) : Option (Nat × Nat × IdxEntry) :=
  (r.sheets.filter (fun s => s.kind == 1 && s.final && s.indexOk)).findSome? (fun s =>
    (entryOfObj s o).map (fun p => (s.num, p.1, p.2)))

/-- The last object of which the sheet holds an entry. -/
def RSheet.lastObj (s : RSheet) : Nat := objectOfEntry s.firstRecord (s.entries.length - 1) s.entries

/-- Sheets that the position has passed leave the read path. -/
def Dev.dropBefore (d : Dev) (n k : Nat) : Dev :=
  (((d.rd n).sheets.filter (fun s => decide (s.num < k) && s.final)).map (·.num)).foldl (fun e m => e.dropSheetR n m) d

/-- Every sheet held is given up: another place, another partition. -/
def Dev.clearSheets (d : Dev) (n : Nat) : Dev :=
  let d := ((d.rd n).sheets.map (·.num)).foldl (fun e m => e.dropSheetR n m) d
  d.modRd n (fun r => { r with sheets := [] })

/-- Reading has ended for a cause after which it does not resume (R97): sheets decoded once get their second decode at once, with the
rows already received. -/
def Dev.decodeRest (d : Dev) (n : Nat) : Dev :=
  let due (s : RSheet) : RSheet := if s.decodes = 1 && !s.final && !s.busy then { s with again := true } else s
  (d.modRd n (fun r => { r with locating := if r.ladder.onTape then r.locating else none, stopped := false, stopAt := none,
                                sheets := r.sheets.map due })).c2Next n

/-- Reading ends for such a cause: the ladder ends (R246), and the tape comes to a stop; an attempt of a tape rung in progress is completed
first (R234). -/
def Dev.endReading (d : Dev) (n : Nat) : Dev :=
  let x := (d.sp n).drv
  let moving := !(d.lad n).onTape && ((x.streaming && x.reading) || ((x.runUp || x.turning) && (d.rd n).locating.isSome))
  let d := (d.ladderAbort n).decodeRest n
  if moving then d.controlledStop n else d

/-! ### Decode sets (R119, R129) -/

/-- The decode set for a read of stream `st` begun now: the one bound, a free one, or the least recently used that serves no
read in progress (R119). Which free set is taken, and which of equally old ones, the manual does not say: the lowest-numbered.
(DESIGN CHOICE, log entry 29.) -/
def Dev.bindDec (d : Dev) (st : Nat) : Dev :=
  match d.decOf st with
  | some i => d.modDec i (fun s => { s with stamp := d.now })
  | none =>
    let busy (i : Nat) : Bool := match (d.decSet i).stream with
      | none => false
      | some q => (List.range 8).any (fun n => match (d.sp n).rdst with | some r => r.stream == q | none => false)
    let free := (List.range 16).find? (fun i => (d.decSet i).stream.isNone)
    let lru := ((List.range 16).filter (fun i => !busy i)).foldl (fun a i => match a with
      | none => some i
      | some b => if (d.decSet i).stamp < (d.decSet b).stamp then some i else some b) none
    match free.or lru with
    | none => d
    | some i => (d.decRefs (d.decSet i).bufs).modDec i (fun _ => { stream := some st, stamp := d.now })

/-- Host bytes fed to the set's chunker and history (R126), which begin a record where `first` holds: the rule of R114 is restarted
there. The history's buffers belong to the compressor group (R266). -/
def Dev.feedDec (d : Dev) (st : Nat) (first : Bool) (bs : List Byte) : Dev :=
  match d.decOf st with
  | none => d
  | some i =>
    let d := if first then d.modDec i (fun s => { s with ck := s.ck.recordEnd }) else d
    let s := d.decSet i
    let hist := s.hist ++ bs
    let hist := hist.drop (hist.length - 268435456)
    let need := (hist.length + 1048575) / 1048576
    let r := if s.bufs.length < need then d.allocN 8 1048576 (need - s.bufs.length) else (d, some [])
    let d := r.1
    d.modDec i (fun s => { s with ck := Chunker.feed (bs.length + 1) s.ck bs, hist := hist, bufs := s.bufs ++ (r.2.getD []) })

/-- The chunk that a far reference names, and its place in the span, with `out` of its block produced so far, newest first (R117, R118);
`first` says that the block begins its record. -/
def PSet.lookup (s : PSet) (first : Bool) (fp : Nat) (out : List Byte) : Option (List Byte × Nat) :=
  let c := Chunker.feed (out.length + 1) (if first then s.ck.recordEnd else s.ck) out.reverse
  match fpFind (fpReach c.idx c.span) fp with
  | none => none
  | some e =>
    let all := s.hist ++ out.reverse
    let base := c.span - all.length
    if e.pos < base then none else some ((all.drop (e.pos - base)).take e.len, e.pos)

/-! ### A read in progress -/

def Dev.rs (d : Dev) (n : Nat) : Option ReadSt := (d.sp n).rdst
def Dev.modRs (d : Dev) (n : Nat) (f : ReadSt → ReadSt) : Dev := d.modSp n (fun s => { s with rdst := s.rdst.map f })

/-- The parameters with which a read of a stream that begins now is made (R120): those of its next record. -/
def Dev.readPar (d : Dev) (st : Nat) : Nat := parEff ((d.stream st).next.getD (d.stream st).params)

/-- The decode set that the read uses, if it uses one (R119). -/
def Dev.setOf (d : Dev) (r : ReadSt) : Option PSet := if r.far then (d.decOf r.stream).map d.decSet else none

/-- The engine that holds a block: the block is in decoding, waits for a chunk, or is decoded and not yet delivered. -/
def RBlk.engine (b : RBlk) : Option Nat :=
  match b.st with
  | .coding e | .waitFar e => some e
  | .done => if b.bad then none else some b.eng
  | _ => none

/-- An engine holds no block any more. -/
def Dev.engineFree (d : Dev) (e : Nat) : Dev :=
  let pg := pgDecomp e
  ((d.clr pg Reg.DECOMP.ACTIVE).clr pg Reg.DECOMP.WAIT_FAR).clr pg Reg.DECOMP.SUSPENDED

/-- The engines that hold blocks of the read are free. -/
def Dev.enginesFree (d : Dev) (n : Nat) : Dev :=
  match d.rs n with
  | none => d
  | some r => (r.blks.filterMap RBlk.engine).foldl Dev.engineFree d

/-- Is the record in progress decoded for discard: it precedes the one asked for (R129), or the transfer has ended (R128)? -/
def ReadSt.discards (r : ReadSt) : Bool := r.obj != r.target || r.trunc

/-- Host bytes of the record come out of engine `e`, none for bytes that pass unchanged: delivered as far as the transfer goes, and
counted (R134). The answer is what the transfer has no room for. -/
def Dev.deliver (d : Dev) (n : Nat) (e : Option Nat) (bs : List Byte) : Dev × List Byte :=
  match d.rs n, (if (d.rs n).any (·.discards) then none else (d.sp n).cur) with
  | some _, none =>
    (match e with | some e => d.countMib (pgDecomp e) Reg.DECOMP.DISCARD_MIB (128 + e) bs.length | none => d, [])
  | some r, some j =>
    let k := min r.left bs.length
    let d := (d.toHost j (r.xfer - r.left) (bs.take k)).modRs n (fun r => { r with left := r.left - k, sent := r.sent + k })
    (match e with | some e => d.countMib (pgDecomp e) Reg.DECOMP.OUT_MIB (96 + e) k | none => d, bs.drop k)
  | _, _ => (d, [])

/-- The transfer has ended inside the record, and no later part comes: the record is truncated, and `rest` of it is decoded for discard
(R128). -/
def Dev.truncate (d : Dev) (n : Nat) (e : Option Nat) (rest : Nat) : Dev :=
  let d := d.modRs n (fun r => { r with trunc := true })
  match e with
  | none => d
  | some e => (d.ev (pgDecomp e) Reg.DECOMP.TRUNCATED).countMib (pgDecomp e) Reg.DECOMP.DISCARD_MIB (128 + e) rest

/-! ### Entries and blocks -/

/-- The record's next entry gathered, when its sheet is at hand: its stored bytes join the buffer. None: wait. The flag
of the pair says that the sheet is lost. -/
def Dev.gather (d : Dev) (n : Nat) (r : ReadSt) : Dev × Option Bool :=
  match d.obtain n r.sheet false with
  | (d, .wait) => (d, none)
  | (d, .absent) => (d.modRs n (fun r => { r with sheet := nextDataSheet r.sheet, entry := 0 }), some false)
  | (d, .lost _) => (d, some true)
  | (d, .sheet s) =>
    if s.kind != 1 then (d.modRs n (fun r => { r with sheet := r.sheet + 1, entry := 0 }), some false)
    else if !s.resolved then (d, some true)
    else
      match s.entries[r.entry]? with
      | none =>
        ((d.modSheetR n s.num (fun s => { s with consumed := true })).raEval n |>.modRs n
          (fun r => { r with sheet := nextDataSheet r.sheet, entry := 0 }), some false)
      | some e =>
        let a := match s.buf with | some h => d.pool.bufAddr h | none => 0
        let bs := d.chestGet (a + 4096 * s.idxRows + e.offset) e.length
        (d.modRs n (fun r => { r with buf := r.buf ++ bs, enc := e.enc, hostNcf := e.form == 1, whole := e.last, total := r.total + (if r.raw then e.length else e.hostLength),
                                      entry := r.entry + 1 }), some false)

/-- The next stored block cut from the gathered bytes: an NCF block, or a frame of an encrypted record; bytes that spell no
block header are one block that will be found faulty. None: more bytes must be gathered. -/
def ReadSt.cutBlock (r : ReadSt) : Option (RBlk × List Byte) :=
  let short (k : Nat) : Option (RBlk × List Byte) :=
    if r.buf.length < k then
      (if r.whole && !r.buf.isEmpty then some ({ bytes := r.buf, first := !r.begun, last := true, st := if r.enc then .frame else .ncf }, []) else none)
    else none
  if r.enc then
    if r.buf.length < 8 then short 8
    else
      let k := 48 + natBE ((r.buf.drop 4).take 4)
      let f := (byteAt r.buf 2).toNat
      if 1048640 < k then some ({ bytes := r.buf, first := !r.begun, last := true, st := .frame }, [])
      else if r.buf.length < k then short k
      else some ({ bytes := r.buf.take k, first := !r.begun, last := bitAt f 6, st := .frame }, r.buf.drop k)
  else
    if r.buf.length < 16 then short 16
    else
      match NcfHeader.ofBytes r.buf with
      | none => some ({ bytes := r.buf, first := !r.begun, last := true, st := .ncf }, [])
      | some h =>
        let k := 16 + h.bodyLen
        if !h.rangesOk then some ({ bytes := r.buf, first := !r.begun, last := true, st := .ncf }, [])
        else if r.buf.length < k then short k
        else some ({ bytes := r.buf.take k, first := !r.begun, last := h.last, st := .ncf }, r.buf.drop k)

/-- The delivery of the record ends here, and its READ will complete with `code`: no record follows in its decode set. -/
def Dev.readStops (d : Dev) (n code : Nat) : Dev :=
  match d.rs n with
  | none => d
  | some r => (if r.far then (d.enginesFree n).spoilDec r.stream else d.enginesFree n).modRs n (fun r => { r with
      fault := some code, blks := [], buf := [], susp := none, mid := none })

/-- The delivery of the record ends at a fault (R130, R364): the decode set is released. -/
def Dev.readFault (d : Dev) (n : Nat) : Dev :=
  match d.rs n with
  | none => d
  | some r => (d.readStops n stDataCheck).releaseDec r.stream

/-- The first block of the list leaves it, wholly delivered: it is fed to the decode set, and its engine is free. -/
def Dev.headOver (d : Dev) (n : Nat) (r : ReadSt) (b : RBlk) : Dev :=
  let d := d.modRs n (fun r => { r with blks := r.blks.drop 1, ended := b.last })
  let d := if r.far then d.feedDec r.stream b.first b.out else d
  d.engineFree b.eng

/-- The first block of the list, finished, is delivered in its turn. Where the destination ends inside it and a later part may come, its
engine holds it, suspended if a token is cut (R127, R323); where none comes, the record is truncated (R128). Of a block whose CHECK
failed, what had been delivered by then stays delivered (R130). -/
def Dev.deliverHead (d : Dev) (n : Nat) (r : ReadSt) (b : RBlk) : Dev :=
  let x := d.deliver n (some b.eng) (b.out.drop b.skip)
  let d := x.1
  if b.bad then (d.modRs n (fun r => { r with blks := r.blks.drop 1 })).readFault n
  else if x.2.isEmpty then d.headOver n r b
  else if r.more then
    let k := b.out.length - x.2.length
    let mid := midToken b.toks k
    let d := d.modRs n (fun r => { r with blks := r.blks.modify 0 (fun b => { b with skip := k }), susp := some b.eng, mid := mid })
    if mid.isSome then d.ev (pgDecomp b.eng) Reg.DECOMP.SUSPENDED else d
  else (d.truncate n (some b.eng) x.2.length).headOver n r b

/-- Stored bytes that are delivered unchanged (R363): what the destination has no room for waits for the next part, or is given up. -/
def Dev.deliverRaw (d : Dev) (n : Nat) (r : ReadSt) : Dev :=
  let x := (d.modRs n (fun r => { r with buf := [] })).deliver n none r.buf
  if x.2.isEmpty then x.1
  else if r.more then x.1.modRs n (fun r => { r with buf := x.2, susp := some 0 })
  else x.1.truncate n none 0

/-! ### What the pump does next -/

/-- The record asked for, or one decoded on the way to it, is over: what follows. -/
inductive ReadEnd where
  | going | finished | lost
  deriving DecidableEq, Repr

/-- One step of the read pump: deliver a finished block, cut one, or gather an entry. The flag says that it did something. -/
def Dev.pumpStep (d : Dev) (n : Nat) : Dev × Bool × ReadEnd :=
  match d.rs n with
  | none => (d, false, .going)
  | some r =>
    if r.susp.isSome && !r.suspended && r.left == 0 && r.whole then (d, false, .finished)
    else if r.ended && r.whole then (d, false, .finished)
    else if r.fault.isSome && r.whole then (d, false, .finished)
    else
      match r.blks with
      | b :: _ =>
        if b.st == .done && r.susp.isNone then (d.deliverHead n r b, true, .going)
        else if !r.whole then
          match d.gather n r with
          | (d, none) => (d, false, .going)
          | (d, some lost) => (d, !lost, if lost then .lost else .going)
        else (d, false, .going)
      | [] =>
        if r.raw && r.susp.isSome then (d, false, .going)
        else if r.raw && !r.buf.isEmpty then (d.deliverRaw n r, true, .going)
        else if r.raw && r.whole then (d.modRs n (fun r => { r with ended := true }), true, .going)
        else if r.fault.isSome then
          match d.gather n r with
          | (d, none) => (d, false, .going)
          | (d, some lost) => (d.modRs n (fun r => { r with buf := [] }), !lost, if lost then .lost else .going)
        else
          match (if r.ended then none else r.cutBlock) with
          | some (b, rest) => (d.modRs n (fun r => { r with blks := r.blks ++ [b], buf := rest, begun := true }), true, .going)
          | none =>
            if r.whole then
              -- the stored bytes end before a block with LAST = 1
              if r.total = 0 && !r.begun then (d.modRs n (fun r => { r with ended := true }), true, .going)
              else (d.readFault n, true, .going)
            else
              match d.gather n r with
              | (d, none) => (d, false, .going)
              | (d, some lost) => (d, !lost, if lost then .lost else .going)

/-- More blocks cut while fewer than 4 are in hand (R126). -/
def Dev.cutMore (d : Dev) (n : Nat) : Nat → Dev
  | 0 => d
  | k + 1 =>
    match d.rs n with
    | none => d
    | some r =>
      if r.raw || r.fault.isSome || r.susp.isSome || 4 ≤ r.blks.length || r.blks.any (·.last) then d
      else match r.cutBlock with
        | some (b, rest) => (d.modRs n (fun r => { r with blks := r.blks ++ [b], buf := rest, begun := true })).cutMore n k
        | none => d

/-- The pump runs until it must wait: for a sheet, an engine, the host, or because the record is over. -/
def Dev.pump (d : Dev) (n : Nat) : Nat → Dev × ReadEnd
  | 0 => (d, .going)
  | k + 1 =>
    match d.pumpStep n with
    | (d, true, _) => (d.cutMore n 4).pump n k
    | (d, false, e) => (d, e)

/-- Steps that a pump may take: every entry, block and sheet number within reach. -/
def pumpFuel : Nat := 1000000

/-! ### Engines (R126, R130) and the decryptor (R364) -/

/-- The first block of the read on spoke `n` that satisfies `f`. -/
def Dev.rblkOf (d : Dev) (n : Nat) (f : RBlk → Bool) : Option Nat :=
  (d.rs n).bind (fun r => (List.range r.blks.length).find? (fun i => match r.blks[i]? with | some b => f b | none => false))

/-- The spoke whose read holds a block that satisfies `f`, with that block's place. -/
def Dev.findRBlk (d : Dev) (f : RBlk → Bool) : Option (Nat × Nat) :=
  (List.range 8).findSome? (fun n => (d.rblkOf n f).map (fun i => (n, i)))

/-- The spoke whose block the block of page `pg` takes next: the reads in turn (R13), the oldest block of a read. -/
def Dev.nextRBlk (d : Dev) (pg : PageId) (f : RBlk → Bool) : Option (Nat × Nat) :=
  (rrPick 8 (d.grantPtr pg) (fun n => (d.rblkOf n f).isSome)).bind (fun n => (d.rblkOf n f).map (fun i => (n, i)))

def Dev.modRBlk (d : Dev) (n i : Nat) (f : RBlk → RBlk) : Dev := d.modRs n (fun r => { r with blks := r.blks.modify i f })

/-- Is engine `e` free to take a block? One that is suspended holds its block. -/
def Dev.decompFree (d : Dev) (e : Nat) : Bool :=
  let pg := pgDecomp e
  d.serviceable pg && d.takesWork pg && !d.fon pg Reg.DECOMP.ACTIVE && !d.fon pg Reg.DECOMP.SUSPENDED

/-- A stored block goes to a free decompressor; a block found faulty goes to another engine than the first (R130). -/
def Dev.decompDispatch (d : Dev) (e : Nat) : Dev :=
  if !d.decompFree e then d
  else
    match d.nextRBlk (pgDecomp e) (fun b => b.st == .ncf && b.failedOn != some e) with
    | none => d
    | some (n, i) => ((d.grant (pgDecomp e) 8 n).modRBlk n i (fun b => { b with st := .coding e, eng := e })).ev (pgDecomp e) Reg.DECOMP.ACTIVE

/-- The faults of R130 by their event bits. -/
def faultBit : BlockFault → Fld
  | .badForm => Reg.DECOMP.SYNTAX
  | .farUnresolved => Reg.DECOMP.FAR_UNRESOLVED
  | .check => Reg.DECOMP.CHECK_MISMATCH

/-- A block is faulty: decoded once more on another engine, then given up (R130). The page that shows a persistent fault is that of the
engine of the second decode, which the manual does not say. `part` is what of it may have been delivered when CHECK failed; how much
of that had been, nothing tells.
(DESIGN CHOICE, log entry 35.) -/
def Dev.blockFault (d : Dev) (n i e : Nat) (b : RBlk) (st : Nat) (x : BlockFault) (part : List Byte) : Dev :=
  match b.failedOn with
  | none => d.modRBlk n i (fun b => { b with st := .ncf, failedOn := some e })
  | some _ =>
    let pg := pgDecomp e
    let gone := part.take (d.freeVal % (part.length + 1))
    ((((d.nextFree.modRBlk n i (fun b => { b with st := .done, bad := true, out := gone, eng := e })).ev pg (faultBit x)).bump pg
      Reg.DECOMP.FAULT_BLOCKS 1).fset pg Reg.DECOMP.FAULT_STREAM st)

/-- What engine `e` makes of a stored block: the bytes of R107 to R113 or a fault of R130, with the bytes produced where CHECK fails; a
block of host-supplied NCF that breaks the syntax comes to a free value, no longer than IN_LEN (R131, UB-7), as does one worked on
after a change of the engine while it was not quiesced (UB-4).
(DESIGN CHOICE, log entries 17 and 18.) -/
def Dev.decodeStored (d : Dev) (r : ReadSt) (b : RBlk) (e : Nat) : Except BlockFault (List Byte × List TokSpan) × List Byte × Dev :=
  let set := d.setOf r
  let far := match set with | some s => s.lookup b.first | none => fun _ _ => none
  let part := match set with | some s => s.ck.part | none => []
  if (r.hostNcf && !blockKeeps set.isSome b.first (if b.first then [] else part) far b.bytes) || d.unsettled (pgDecomp e) then
    let x := Config.brokenNcf d.free b.bytes
    let out := x.2.take (natBE ((b.bytes.drop 4).take 4))
    (match x.1 with | 0 => .error .badForm | 1 => .error .farUnresolved | 2 => .error .check | _ => .ok (out, []), out, d.nextFree)
  else
    (decodeBlock far b.bytes, match blockSpells far b.bytes with | .ok x => x.1 | .error _ => [], d)

/-- Engine `e` decodes block `i` of the read on spoke `n`, with every earlier block of the stream delivered; it holds the block until it
is delivered. -/
def Dev.decodeAt (d : Dev) (n i e : Nat) : Dev :=
  match d.rs n with
  | none => d
  | some r =>
    match r.blks[i]? with
    | none => d
    | some b =>
      match d.decodeStored r b e with
      | (.ok (out, toks), _, d) =>
        (d.modRBlk n i (fun b => { b with st := .done, out := out, toks := toks, eng := e })).bump (pgDecomp e) Reg.DECOMP.BLOCKS 1
      | (.error x, part, d) => (d.engineFree e).blockFault n i e b r.stream x (if x = .check then part.drop b.skip else [])

/-- Has the block far references? -/
def RBlk.usesFar (b : RBlk) : Bool := match NcfHeader.ofBytes b.bytes with | some h => h.farUsed | none => false

/-- A decompressor comes to the end of its block, or to a far reference whose chunk is not yet available: then it waits for
the stream's earlier blocks (R126). -/
def Dev.decompDone (d : Dev) (e : Nat) : Dev × Option Nat :=
  match d.findRBlk (fun b => b.st == .coding e) with
  | none => (d, none)
  | some (n, i) =>
    let b := ((d.rs n).bind (fun r => r.blks[i]?))
    if i != 0 && (b.any RBlk.usesFar) then
      ((d.modRBlk n i (fun b => { b with st := .waitFar e })).ev (pgDecomp e) Reg.DECOMP.WAIT_FAR, some n)
    else ((d.unit (pgDecomp e)).decodeAt n i e, some n)

/-- A far reference that waited resolves: every earlier block of the stream has been delivered. -/
def Dev.farResume (d : Dev) (e : Nat) : Dev × Option Nat :=
  match d.findRBlk (fun b => b.st == .waitFar e) with
  | none => (d.clr (pgDecomp e) Reg.DECOMP.WAIT_FAR, none)
  | some (n, i) =>
    if i != 0 then (d, some n)
    else (((d.clr (pgDecomp e) Reg.DECOMP.WAIT_FAR).unit (pgDecomp e)).decodeAt n i e, some n)

/-- The next destination arrives: the suspended decompressor goes on (R127). -/
def Dev.decompResume (d : Dev) (e : Nat) : Dev × Option Nat :=
  match (List.range 8).find? (fun n => match d.rs n with | some r => r.susp == some e && !r.raw && decide (0 < r.left) | none => false) with
  | none => (d, none)
  | some n => ((d.clr (pgDecomp e) Reg.DECOMP.SUSPENDED).modRs n (fun r => { r with susp := none, mid := none }), some n)

/-- What the decryptor's register and event bits say of a failed frame (R364). -/
def Dev.frameFails (d : Dev) (c : Nat) : FrameFault → Dev
  | .form => d
  | .keyId => d.ev (pgCrypt c) Reg.CRYPT.KEYID_MISMATCH
  | .tag => (d.ev (pgCrypt c) Reg.CRYPT.TAG_FAIL).bump (pgCrypt c) Reg.CRYPT.TAG_FAILS 1

/-- The decryption of a frame under a slot, by an instance that a change while it was not quiesced leaves undefined (UB-4), or that is
in order. -/
def Dev.openStored (d : Dev) (c : Nat) (slot : KeySlot) (first last : Bool) (prev : Option Nat) (l : List Byte) :
    Except FrameFault (List Byte) × Dev :=
  if d.unsettled (pgCrypt c) then (.ok (freeBytes d.freeVal (l.length - 48)), d.nextFree) else (openFrame slot first last prev l, d)

/-- Instance `c` checks and decrypts the next frame: the reads in turn (R13). -/
def Dev.frameDecrypt (d : Dev) (c : Nat) : Dev × Option Nat :=
  let pg := pgCrypt c
  if !d.serviceable pg || !d.takesWork pg then (d, none)
  else
    match d.nextRBlk pg (fun b => b.st == .frame) with
    | none => (d, none)
    | some (n, i) =>
      match (d.rs n).bind (fun r => (r.blks[i]?).map (fun b => (r, b))) with
      | none => (d, none)
      | some (r, b) =>
        let d := d.grant pg 8 n
        let isLast := r.whole && r.buf.isEmpty && i + 1 == r.blks.length
        match d.openStored c (d.slot (parSlot r.par)) b.first isLast r.lastIv b.bytes with
        | (.ok p, d) =>
          ((((d.modRs n (fun r => { r with lastIv := some (frameCounter b.bytes) })).modRBlk n i (fun b =>
            { b with st := .ncf, bytes := p, failedOn := none })).bump pg Reg.CRYPT.FRAMES_DEC 1).unit pg, some n)
        | (.error x, d) =>
          let d := d.frameFails c x
          if b.failedOn.isSome then
            ((d.modRBlk n i (fun b => { b with st := .done, bad := true })).fset pg Reg.CRYPT.FAIL_STREAM r.stream, some n)
          else (d.modRBlk n i (fun b => { b with failedOn := some c }), some n)

end Sys2Proof.Machine
end

