-- ==== Sys2Proof/Machine/Rings.lean ====
section
/-! DEFINITION. Rings and endpoints (spec chapter 11): enabling and disabling, doorbells, credits, fetching, completion
heads, message timers, the endpoints' functions and resets, the heartbeat and host loss, takeover. -/

namespace Sys2Proof.Machine

/-! ### Enabling and disabling (R283, R284) -/

/-- The function named is one of a lost or reset endpoint: `f` of endpoint `e`. -/
def funcOf (e f : Nat) : Nat := 64 * e + f

/-- A submission ring disabled (R284): fetching stops; HEAD, TAIL and LAST_CID are kept. -/
def Dev.sqDisable (d : Dev) (q : Nat) : Dev := d.modSq q (fun s => { s with size := 0 })

/-- A completion ring disabled: completions that wait on it are dropped (R287). -/
def Dev.cqDisable (d : Dev) (q : Nat) : Dev :=
  let held := (d.cq q).held
  let d := d.modCq q (fun c => { c with size := 0, held := [], pendingMsg := 0 })
  held.foldl (fun e c => e.dropCpl q c) d

/-- A submission ring enabled (R284, R288): the written fields are latched, HEAD and TAIL are 0, the full grant is held, whatever commands
of its earlier life are outstanding. -/
def Dev.sqEnable (d : Dev) (q size : Nat) : Dev :=
  d.modSq q (fun s => { s with size := size, baseLo := s.wBaseLo, baseHi := s.wBaseHi, cq := s.wCq, func := s.wFunc, head := 0,
                               tail := 0, turns := [], credits := min s.creditReg (ringEntries size - 1) })

/-- A completion ring enabled: its phase is 1. PENDING is 0, which the manual does not say.
(DESIGN CHOICE, log entry 20.) -/
def Dev.cqEnable (d : Dev) (q size : Nat) : Dev :=
  d.modCq q (fun c => { c with size := size, baseLo := c.wBaseLo, baseHi := c.wBaseHi, func := c.wFunc, head := 0, tail := 0,
                               phase := true, pendingMsg := 0, held := [] })

/-- Every ring that satisfies `f` (of its number and FUNC), submission or completion, disabled as by SIZE 0. -/
def Dev.disableRings (d : Dev) (fs fc : Nat → Nat → Bool) : Dev :=
  let d := ((d.sqs.filter (fun p => fs p.1 p.2.func)).map (·.1)).foldl (fun e q => e.sqDisable q) d
  ((d.cqs.filter (fun p => fc p.1 p.2.func)).map (·.1)).foldl (fun e q => e.cqDisable q) d

/-! ### Serving (R282, R286, R288, R289) -/

/-- Is the submission ring served (R282)? -/
def Dev.sqServed (d : Dev) (q : Nat) : Bool :=
  let s := d.sq q
  let c := d.cq s.cq
  c.size != 0 && c.func == s.func && d.owns (d.funcDomain s.func) kSq q && d.owns (d.funcDomain s.func) kCq s.cq

/-- Entries pending on the ring. -/
def Sq.pending (s : Sq) : Nat := if s.size = 0 then 0 else (s.tail + ringEntries s.size - s.head) % ringEntries s.size

/-- Entries that turns in flight have read and not yet delivered. -/
def Sq.inTurns (s : Sq) : Nat := s.turns.foldl (· + ·) 0

/-- FETCH_BURST as it acts: 0 as 1, 9 to 15 as 8 (R300). -/
def burstEff (b : Nat) : Nat := if b = 0 then 1 else min b 8

/-- The host address of entry `k` of a ring. -/
def Sq.entryAddr (s : Sq) (k : Nat) : Nat := 2 ^ 32 * s.baseHi + 64 * s.baseLo + 64 * k

/-- The read requests of a ring's turns in flight, its turns `l` reading from entry `first` on (R279). -/
def Dev.turnReads (d : Dev) (s : Sq) : Nat → List Nat → Nat
  | _, [] => 0
  | first, k :: l => (readPieces 64 (d.ep (funcEp s.func)).ctl.readReq (s.entryAddr first) (64 * k)).length +
      d.turnReads s ((first + k) % ringEntries s.size) l

/-- The non-posted requests that an endpoint has outstanding. -/
def Dev.readsOut (d : Dev) (e : Nat) : Nat :=
  ((d.sqs.filter (fun p => funcEp p.2.func == e)).map (fun p => d.turnReads p.2 p.2.head p.2.turns)).foldl (· + ·) 0

/-- How many it may have (R279). -/
def Dev.readLimit (d : Dev) (e : Nat) : Nat := if (d.ep e).ctl.tag10 then 768 else if (d.ep e).ctl.extTag then 256 else 32

/-- Turns of an endpoint in flight. -/
def Dev.turnsOf (d : Dev) (e : Nat) : Nat :=
  ((d.sqs.filter (fun p => funcEp p.2.func == e)).map (fun p => p.2.turns.length)).foldl (· + ·) 0

/-- The entries that a turn of the ring would read (R289): up to FETCH_BURST that are pending and not read yet, each for a credit; a turn's
one read ends at the ring's end. With a grant of 0 there are none (R288). -/
def Sq.turnSize (s : Sq) : Nat :=
  let first := (s.head + s.inTurns) % ringEntries s.size
  if s.creditReg = 0 then 0
  else min (min (min (burstEff s.burst) (s.pending - s.inTurns)) s.credits) (ringEntries s.size - first)

/-- May ring `q` have a turn: entries and credits (R289), R282, no command held for a buffer (R272), Bus Master Enable (R279)? -/
def Dev.fetchable (d : Dev) (q : Nat) : Bool :=
  let s := d.sq q
  s.size != 0 && !s.heldNobuf && d.sqServed q && (d.func s.func).bme && s.turnSize != 0

/-- The ring of endpoint `e` whose turn it is: the first after the one served last, in ascending order and round again (R289). -/
def Dev.nextRing (d : Dev) (e : Nat) : Option Nat :=
  let l := ((d.sqs.filter (fun p => funcEp p.2.func == e)).map (·.1)).filter d.fetchable
  (match (d.ep e).served with
    | none => none
    | some a => l.find? (fun q => decide (a < q))).or l.head?

/-- The arbiter gives ring `q` a turn, when it is its turn (R289): its entries are read, each spending a credit. A ring that R282 stops
fetches nothing; a turn waits for room under R279, and for one of the 16 turns in flight.
(DEDUCED, log entry 20.) -/
def Dev.fetchTurn (d : Dev) (q : Nat) : Dev :=
  let s := d.sq q
  if s.size = 0 || s.heldNobuf then d
  else if !d.sqServed q then d.ringEvt q Reg.RINGS.RINGS_EVT_MISMATCH
  else
    let e := funcEp s.func
    let first := (s.head + s.inTurns) % ringEntries s.size
    let k := s.turnSize
    let reads := (readPieces 64 (d.ep e).ctl.readReq (s.entryAddr first) (64 * k)).length
    if d.nextRing e != some q || decide (16 ≤ d.turnsOf e) || decide (d.readLimit e < d.readsOut e + reads) then d
    else
      let d : Dev := { d with endpts := mmod (fun _ => {}) d.endpts e (fun x => { x with served := some q }) }
      let d := d.modSq q (fun s => { s with credits := s.credits - k, turns := s.turns ++ [k] })
      d.issue s.func (.fetchRead s.func (s.entryAddr first) (64 * k))

/-- The read of ring `q`'s oldest turn completes (R289): HEAD moves past its entries, which are fetched commands; `bad` of
them are abandoned for a failed read, and their credits return at once (R280). -/
def Dev.fetchComplete (d : Dev) (q bad : Nat) : Dev :=
  let s := d.sq q
  match s.turns with
  | [] => d
  | k :: rest =>
    let b := min bad k
    let d := d.modSq q (fun s => { s with turns := rest, head := if s.size = 0 then s.head else (s.head + k) % ringEntries s.size,
                                          outstanding := s.outstanding + (k - b) })
    let grant := min s.creditReg (ringEntries s.size - 1)
    let d := d.modSq q (fun s => { s with credits := min (s.credits + b) (max s.credits (grant - s.outstanding)) })
    (d.bump (pgRings q) Reg.RINGS.FETCHED (k - b)).bump (pgRings q) Reg.HEADER.UNITS (k - b)

/-! ### Doorbells (R285 to R287) -/

/-- What a doorbell write comes to. -/
inductive Bell where
  | done (d : Dev)
  | badFunc
  | broken

/-- A submission tail doorbell of ring `q` through function `f`. -/
def Dev.sqBell (d : Dev) (q f v : Nat) : Bell :=
  let s := d.sq q
  let d := d.modSq q (fun s => { s with bell := v % 2 ^ 32 })
  if s.size = 0 then .done d
  else if s.func ≠ f then .badFunc
  else
    let n := ringEntries s.size
    let t := v % n
    -- the entries that host software owns lie from TAIL up to HEAD − 1
    if (n - 1) - s.pending < (t + n - s.tail) % n then .broken
    else .done (d.modSq q (fun s => { s with tail := t }))

/-- Completions that a full ring held are posted as entries come free (R287, R293). -/
def Dev.drainCq (d : Dev) (q : Nat) : Nat → Dev
  | 0 => d
  | k + 1 =>
    match (d.cq q).held with
    | [] => d
    | c :: rest =>
      if (d.cq q).full then d
      else ((d.modCq q (fun x => { x with held := rest })).postCpl q c).drainCq q k

/-- A completion head doorbell. -/
def Dev.cqBell (d : Dev) (q f v : Nat) : Bell :=
  let c := d.cq q
  let d := d.modCq q (fun c => { c with bell := v % 2 ^ 32 })
  if c.size = 0 then .done d
  else if c.func ≠ f then .badFunc
  else
    let n := ringEntries c.size
    let h := v % n
    if c.used < (h + n - c.head) % n then .broken
    else .done ((d.modCq q (fun c => { c with head := h })).drainCq q (c.held.length))

/-- What a read of the doorbell window at offset `off` answers (R285): the last value written; submission tail doorbells at 8q,
completion head doorbells at 8q + 4. -/
def Dev.doorbellRead (d : Dev) (off : Nat) : Nat := if off % 8 < 4 then (d.sq (off / 8)).bell else (d.cq (off / 8)).bell

/-- SQ_CREDIT written (R288): raising the grant adds the difference at once. Lowering it takes back held credits, so that those held and
those spent stay within it, which the manual does not say of them.
(DESIGN CHOICE, log entry 20.) -/
def Dev.creditWrite (d : Dev) (q v : Nat) : Dev :=
  d.modSq q (fun s =>
    let g (c : Nat) := min c (ringEntries s.size - 1)
    let c := s.credits + (g (v % 4096) - g s.creditReg)
    { s with creditReg := v % 4096,
             credits := if s.size = 0 then s.credits else if v % 4096 < s.creditReg then min c (g (v % 4096) - s.outstanding - s.inTurns) else c })

/-- The oldest entry counted in PENDING has waited AGG_TIME (R295): the message goes out. -/
def Dev.aggExpiry (d : Dev) (q : Nat) : Dev :=
  let c := d.cq q
  if c.pendingMsg = 0 || !c.irqEn then d else (d.modCq q (fun x => { x with pendingMsg := 0 })).sendMsg q

/-! ### Functions (R279, R287, R294) -/

/-- Bus Master Enable is set: what was held goes out, in order. -/
def Dev.busMaster (d : Dev) (f : Nat) : Dev :=
  let held := (d.func f).held
  let d := d.modFunc f (fun x => { x with bme := true, held := [] })
  held.foldl Dev.emit d

/-- A Function Level Reset (R287): the function's rings are disabled, its completions dropped, its enables back to 0; of a physical function's
Device Control registers Max Payload Size stays, as in the base specification.
(PRESUMED, log entry 49.) -/
def Dev.flr (d : Dev) (f : Nat) : Dev :=
  let d := d.disableRings (fun _ g => g == f) (fun _ g => g == f)
  let d : Dev := if f % 64 = 0 then
      { d with endpts := mmod (fun _ => {}) d.endpts (funcEp f) (fun x => { x with ctl := { payload := x.ctl.payload } }) } else d
  let clear (m : SMap Bool) : SMap Bool := m.filter (fun p => p.1 / 2048 != f)
  { d.modFunc f (fun _ => {}) with vecMasked := clear d.vecMasked, vecPending := clear d.vecPending }

/-- The mask of a vector is cleared (R294): a message it held is sent. -/
def Dev.unmask (d : Dev) (f v : Nat) : Dev :=
  let k := 2048 * f + v
  if d.vectorsOf f ≤ v then d
  else
    let was := mget (fun _ => false) d.vecPending k
    let d := { d with vecMasked := mset (fun _ => true) d.vecMasked k false, vecPending := mset (fun _ => false) d.vecPending k false }
    if was then (d.issue f (.msix f v)).bump (pgMsix (funcEp f)) Reg.MSIX.MSGS 1 else d

/-- VF Enable is set: the written K comes into force (R294). -/
def Dev.vfEnable (d : Dev) (e : Nat) : Dev :=
  let k := min 5 (d.fget (pgMsix e) Reg.MSIX.K)
  let d := { d with endpts := mmod (fun _ => {}) d.endpts e (fun x => { x with vfOn := true }) }
  (d.fset (pgMsix e) Reg.MSIX.VF_VECTORS (2 ^ k)).fset (pgMsix e) Reg.MSIX.PF_VECTORS (2048 - 63 * 2 ^ k)

/-! ### Endpoints (R276, R278) -/

def Dev.modEp (d : Dev) (e : Nat) (f : Endpt → Endpt) : Dev := { d with endpts := mmod (fun _ => {}) d.endpts e f }

/-- Is endpoint `e` present: endpoint 1 only in a split module? -/
def Dev.epPresent (d : Dev) (e : Nat) : Bool := e == 0 || d.split

/-- The endpoint's functions, MSIX and DMA pages and LINK_STAT are reset (R278); its SPLIT strap reads on. -/
def Dev.epReset (d : Dev) (e : Nat) : Dev :=
  let d := { d with funcs := d.funcs.filter (fun p => funcEp p.1 != e),
                    vecMasked := d.vecMasked.filter (fun p => funcEp (p.1 / 2048) != e),
                    vecPending := d.vecPending.filter (fun p => funcEp (p.1 / 2048) != e) }
  let d := ((d.resetPage (pgMsix e)).resetPage (pgDma (dmaOf e 0))).resetPage (pgDma (dmaOf e 1))
  let d := ((d.clr (pgPcie e) Reg.PCIE.LINK_UP).fset (pgPcie e) Reg.PCIE.WIDTH 0).fset (pgPcie e) Reg.PCIE.SPEED 0
  d.modEp e (fun x => { x with ready := false, vfOn := false, ctl := {} })

/-- The link comes up with a width and a speed (R278). -/
def Dev.linkUp (d : Dev) (e width speed : Nat) : Dev :=
  let d := ((d.ev (pgPcie e) Reg.PCIE.LINK_UP).fset (pgPcie e) Reg.PCIE.WIDTH width).fset (pgPcie e) Reg.PCIE.SPEED speed
  d.modEp e (fun x => { x with wasUp := true })

/-- Host loss of endpoint `e` declared with a cause (R297): its rings are disabled. What the spokes do is R412's. -/
def Dev.declareLoss (d : Dev) (e cause : Nat) : Dev :=
  let pg := pgPcie e
  let d := (d.ev pg Reg.PCIE.HOST_LOST).fset pg Reg.PCIE.CAUSE cause
  let d := if cause = 1 then (d.ev pg Reg.PCIE.LINK_DOWN).bump pg Reg.PCIE.LINK_DOWNS 1 else d.ev pg Reg.PCIE.HB_MISS
  let hit (q f : Nat) : Bool := funcEp f == e
  let any := ((d.sqs.filter (fun p => p.2.size != 0 && hit p.1 p.2.func)).map (·.1))
  let d := d.disableRings hit hit
  let d := any.foldl (fun x q => x.ringEvt q Reg.RINGS.LOSS_DISABLE) d
  d.modEp e (fun x => { x with beat := none })

/-- A beat (R296): the window that a written WINDOW sets runs from it; with the link up it ends a host loss (R297). CAUSE then reads 0, none,
which the manual does not say.
(DESIGN CHOICE, log entry 20.) -/
def Dev.beat (d : Dev) (e : Nat) : Dev :=
  let pg := pgPcie e
  let w := d.fget pg Reg.PCIE.WINDOW
  let d := d.modEp e (fun x => { x with beat := if w = 0 then none else some (d.now, w) })
  if d.fon pg Reg.PCIE.HOST_LOST && d.fon pg Reg.PCIE.LINK_UP then
    ((d.clr pg Reg.PCIE.HOST_LOST).clr pg Reg.PCIE.TAKEN_OVER).fset pg Reg.PCIE.CAUSE 0
  else d

/-- WINDOW written (R296): 0 ends the test at once; another value applies from the next beat. -/
def Dev.hbWindow (d : Dev) (e v : Nat) : Dev :=
  let d := d.fset (pgPcie e) Reg.PCIE.WINDOW v
  if v % 65536 = 0 then d.modEp e (fun x => { x with beat := none }) else d

/-! ### Takeover (R298) -/

/-- Is a takeover by a function of endpoint `e` refused? -/
def Dev.takeoverRefused (d : Dev) (e : Nat) : Bool :=
  let o := 1 - e
  !d.split || !d.fon (pgPcie o) Reg.PCIE.HOST_LOST || d.fon (pgPcie o) Reg.PCIE.TAKEN_OVER || d.fon (pgPcie e) Reg.PCIE.HOST_LOST

/-- The takeover: the lost endpoint's rings name the claiming endpoint's physical function. -/
def Dev.takeover (d : Dev) (e : Nat) : Dev :=
  let o := 1 - e
  let pf := funcOf e 0
  let sqs := (d.sqs.filter (fun p => funcEp p.2.func == o || funcEp p.2.wFunc == o)).map (·.1)
  let cqs := (d.cqs.filter (fun p => funcEp p.2.func == o || funcEp p.2.wFunc == o)).map (·.1)
  let d := sqs.foldl (fun x q => x.modSq q (fun s => { s with func := pf, wFunc := pf })) d
  let d := cqs.foldl (fun x q => x.modCq q (fun c => { c with func := pf, wFunc := pf })) d
  ((d.ev (pgPcie o) Reg.PCIE.TAKEN_OVER).ev (pgPcie o) Reg.PCIE.TAKEOVER).ev (pgPcie e) Reg.PCIE.TAKEOVER

/-! ### Failed transfers (R280) -/

/-- What fails a transfer. -/
def transferBit (k : Nat) : Fld :=
  if k = 0 then Reg.DMA.CPL_TIMEOUT else if k = 1 then Reg.DMA.UR_CA else Reg.DMA.POISONED

/-- A transfer failed in DMA instance `i`: recorded, and reported by AER in its endpoint. -/
def Dev.dmaFails (d : Dev) (i : Nat) (f : Fld) : Dev :=
  let d := (d.bump (pgDma i) Reg.DMA.FAILED 1).ev (pgDma i) f
  (d.ev (pgPcie (i / 2)) Reg.PCIE.UNCORR).bump (pgPcie (i / 2)) Reg.PCIE.UNCORR_ERRS 1

end Sys2Proof.Machine
end

