-- ==== Sys2Proof/Machine/Seek.lean ====
section
/-! DEFINITION. READ, LOCATE, SPACE and SHEET_READ in progress: finding objects by sheet indexes (R326), the anchor search
(R325), the run from the anchor to the record (R129), completions (R322 to R324), and what each read-side event makes of
the command in progress. -/

namespace Sys2Proof.Machine

/-! ### After the ladder (R232, R241) -/

/-- The ladder is free: the next sheet in line enters it. -/
def Dev.ladderNext (d : Dev) (n : Nat) : Nat → Dev
  | 0 => d
  | f + 1 =>
    let l := d.lad n
    if l.phase != .idle then d
    else
      match l.queue with
      | [] => d
      | k :: rest =>
        let d := (d.modLad n (fun l => { l with queue := rest })).ladRegs n
        match (d.rd n).sheet? k with
        | some s => if s.final && !s.resolved && !s.unreadable then d.enterLadder n k false else d.ladderNext n f
        | none => d.ladderNext n f

/-- Does the spoke still read: a command in progress that reads, or a record still decoded for discard? -/
def Spoke.readsOn (s : Spoke) : Bool :=
  s.rdst.isSome || (match s.cur with
    | some j => s.curStep == 0 && (match j.op with | .read .. | .space .. | .sheetRead .. => true | .locate .. => !s.seek.final | _ => false)
    | none => false)

/-- The ladder has moved the tape and is done: the read run is resumed at the next sheet in slot order (R241). -/
def Dev.resumeRun (d : Dev) (n : Nat) : Dev :=
  if (d.lad n).phase != .idle || !(d.lad n).moved then d
  else
    let d := d.modLad n (fun l => { l with moved := false })
    if (d.sp n).readsOn then d.readFrom n (d.rd n).nextSheet (d.startCog n) else d

/-! ### The search by halving (R326) -/

def Dev.setSeek (d : Dev) (n : Nat) (x : SeekSt) : Dev := d.modSp n (fun s => { s with seek := x })

/-- One past the highest sheet number that the partition in use can hold data in. -/
def Spoke.dataEnd (s : Spoke) : Nat :=
  if s.sess.isOpen then s.sess.topSheet + 1 else (s.cart.eods.getD s.sess.part {}).sheet

/-- The bounds of a search for object `o`, from the first sheet decoded in each interleave block since load. With `first` the
sheet that holds the object's first entry is sought. -/
def Dev.seekInit (d : Dev) (n o : Nat) (first : Bool) (x : SeekSt) : SeekSt :=
  let b := (d.rd n).bounds.map (·.2)
  let lo := ((b.filter (fun p => if first then decide (p.1 < o) else decide (p.1 ≤ o))).map (·.2)).foldl max 0
  let hi := ((b.filter (fun p => decide (o < p.1))).map (·.2)).foldl min (d.sp n).dataEnd
  { x with lo := lo, hi := hi, probe := 0, mid := 0, tries := 0, lostAt := none, hinted := false }

/-- What the indexes of the sheets held say of where object `o` lies. -/
def Rd.evidence (r : Rd) (o : Nat) (first : Bool) (x : SeekSt) : SeekSt :=
  (r.sheets.filter (fun s => s.kind == 1 && s.final && s.indexOk && !s.entries.isEmpty)).foldl (fun x s =>
    if o < s.firstRecord || (first && o == s.firstRecord && !(s.entries.any (fun e => e.first))) then { x with hi := min x.hi s.num }
    else if s.lastObj < o then { x with lo := max x.lo (s.num + 1) }
    else if first && o == s.firstRecord && (entryOfObj s o).isNone then { x with hi := min x.hi s.num }
    else x) x

/-- Does a sheet held end with the object before `o`, so that `o` begins in the next data sheet? -/
def Rd.follows (r : Rd) (o lo : Nat) : Bool :=
  r.sheets.any (fun s => s.kind == 1 && s.final && s.indexOk && !s.entries.isEmpty && s.num + 1 == lo && s.lastObj + 1 == o)

/-- Any entry of object `o` in the sheets held: sheet, entry number, entry. -/
def Rd.findAny (r : Rd) (o : Nat) : Option (Nat × Nat × IdxEntry) :=
  (r.sheets.filter (fun s => s.kind == 1 && s.final && s.indexOk)).findSome? (fun s =>
    let es := s.entries
    ((List.range es.length).find? (fun i => objectOfEntry s.firstRecord i es == o)).bind (fun i => (es[i]?).map (fun e => (s.num, i, e))))

/-- What a search comes to. -/
inductive Found where
  | wait
  | here (sheet entry : Nat) (e : IdxEntry)
  | lost (sheet : Nat)
  | none

/-- The unreadable sheet in which an object not found lies: the first at or after the search's lower bound. -/
def Rd.lostFrom (r : Rd) (x : SeekSt) : Option Nat :=
  ((r.sheets.filter (fun s => s.unreadable && decide (x.lo ≤ s.num))).map (·.num)).foldl (fun a k => match a with
    | none => some k
    | some b => some (min b k)) none |>.or x.lostAt

/-- The search for object `o`, at most `limit` probes (R326). -/
def Dev.search (n o : Nat) (first : Bool) (limit : Nat) : Nat → Dev → Dev × Found
  | 0, d => (d, .none)
  | f + 1, d =>
    let r := d.rd n
    match (if first then r.findObj o else r.findAny o) with
    | some (k, i, e) => (d, .here k i e)
    | none =>
      let x := r.evidence o first (d.sp n).seek
      let notThere (d : Dev) : Dev × Found := (d, match r.lostFrom x with | some k => .lost k | none => .none)
      if x.hi ≤ x.lo then notThere (d.setSeek n x)
      else
        let pick := x.tries == 0 || decide (x.probe < x.lo) || decide (x.hi ≤ x.probe)
        if pick && decide (limit ≤ x.tries) then notThere (d.setSeek n x)
        else
          let m := if r.follows o x.lo then x.lo else (x.lo + x.hi) / 2
          let x := if pick then { x with probe := m, mid := m, tries := x.tries + 1 } else x
          let next (d : Dev) : Dev := d.setSeek n (if x.probe + 1 < x.hi then { x with probe := x.probe + 1 } else { x with hi := x.mid, probe := x.mid })
          match (d.setSeek n x).obtain n x.probe false with
          | (d, .wait) => (d, .wait)
          | (d, .absent) => Dev.search n o first limit f (next d)
          | (d, .lost s) => Dev.search n o first limit f ((next d).modSp n (fun p => { p with seek := { p.seek with lostAt := some s.num } }))
          | (d, .sheet s) =>
            if s.kind == 1 && s.indexOk && !s.entries.isEmpty then Dev.search n o first limit f d else Dev.search n o first limit f (next d)

/-- No limit on the probes of a search. -/
def noLimit : Nat := 1000000

/-! ### Objects passed -/

/-- Object `o` of partition `p` has been passed in order and is no record of the other streams: a decode set that stood at the
object before it stands after it (R129). -/
def Dev.notePassed (d : Dev) (n o : Nat) (e : IdxEntry) : Dev :=
  if e.mark then d
  else
    let p := (d.sp n).sess.part
    (List.range 16).foldl (fun x i =>
      let s := x.decSet i
      if s.stream.isSome && s.stream != some e.stream && decide (0 < o) && s.last == some (n, p, o - 1) then
        x.modDec i (fun s => { s with last := some (n, p, o) })
      else x) d

/-- Is the record at `o` the next of its stream after what the decode set has decoded? -/
def Dev.nextInStream (d : Dev) (n st o : Nat) : Bool :=
  match d.decOf st with
  | none => false
  | some i =>
    match (d.decSet i).last with
    | none => false
    | some (m, p, k) =>
      m == n && p == (d.sp n).sess.part && decide (k < o) && decide (o - k ≤ 4096) &&
      (List.range (o - k - 1)).all (fun j => match (d.rd n).findObj (k + 1 + j) with
        | some (_, _, e) => !e.mark && e.stream != st
        | none => false)

/-- Record `o` of the stream has been decoded. -/
def Dev.noteDecoded (d : Dev) (n st o : Nat) : Dev :=
  match d.decOf st with
  | none => d
  | some i => d.modDec i (fun s => { s with last := some (n, (d.sp n).sess.part, o), stamp := d.now })

/-! ### Completions of READ (R322 to R325) -/

/-- The read in progress is over: no engine holds a block of it (R127). -/
def Dev.dropRead (d : Dev) (n : Nat) : Dev :=
  match d.rs n with
  | none => d
  | some r => ((d.enginesFree n).modStream r.stream (fun s => { s with suspended := false })).modSp n (fun s => { s with rdst := none })

/-- The read in progress ends before its record does: its stream's decode set has decoded nothing that another read could go on from
(R129). -/
def Dev.cutRead (d : Dev) (n : Nat) : Dev :=
  match d.rs n with
  | none => d
  | some r => (if r.far then d.spoilDec r.stream else d).dropRead n

/-- The suspension of a read ends (R127); with `cut` the record is truncated there (R128). -/
def Dev.unsuspend (d : Dev) (n : Nat) (cut : Bool) : Dev :=
  match d.rs n with
  | none => d
  | some r =>
    let d := d.modRs n (fun r => { r with susp := none, mid := none, trunc := r.trunc || cut, buf := if r.raw && cut then [] else r.buf })
    match r.susp with
    | none => d
    | some e => if r.raw then d
      else
        let d := d.clr (pgDecomp e) Reg.DECOMP.SUSPENDED
        if cut then d.ev (pgDecomp e) Reg.DECOMP.TRUNCATED else d

/-- A READ completes and the position moves past its object. -/
def Dev.readDone (d : Dev) (n code residue extra : Nat) : Dev :=
  match d.rs n with
  | none => d
  | some r =>
    let d := (d.dropRead n).dropBefore n r.sheet
    if (d.sp n).cur.isNone then d else (d.setPos n (r.target + 1)).finish n code r.target residue extra

/-- A READ completes with nothing delivered and the position unchanged. -/
def Dev.readNothing (d : Dev) (n code result residue : Nat) : Dev := (d.dropRead n).finish n code result residue 0

/-- The residue of a record of which only its first entry is known to the READ: its HOST_LENGTH when it ends there, otherwise a
value that the manual does not give. -/
def Dev.wholeLen (d : Dev) (e : IdxEntry) : Dev × Nat :=
  if e.last then (d, e.hostLength) else (d.nextFree, d.freeVal % 2 ^ 32)

/-- One past the last object lost with the sheets before number `k` (R247), as far as the sheets held tell: up to the next data sheet that
decodes, or to the end of data at `eod`; none where a sheet on the way has not been read. -/
def Rd.lostEnd (r : Rd) (eod : Nat) : Nat → Nat → Option Nat
  | 0, _ => none
  | f + 1, k =>
    match r.sheet? k with
    | none => if r.noSlot k || decide (120 ≤ sheetPos k) then r.lostEnd eod f (k + 1) else none
    | some x =>
      if x.kind = 4 then some eod
      else if x.kind != 1 then r.lostEnd eod f (k + 1)
      else if x.resolved then some (x.firstRecord + b2n (match x.entries with | e :: _ => !e.first | [] => false))
      else if x.final then r.lostEnd eod f (k + 1) else none

/-- The objects that an unreadable sheet loses, counted from `lost` (R247, R324); 0xFFFF_FFFF where the range is not known. -/
def Dev.lostCount (d : Dev) (n : Nat) (s : RSheet) (lost : Nat) : Nat :=
  if s.indexOk then s.lastObj + 1 - s.firstRecord
  else match (d.rd n).lostEnd ((d.sp n).eodOf (d.sp n).sess.part) 256 (s.num + 1) with
    | none => 0xFFFFFFFF
    | some e => e - lost

/-- A READ has reached an object of the unreadable sheet `k` (R324): a later READ there runs the ladder again. -/
def Dev.readLost (d : Dev) (n k : Nat) : Dev :=
  match d.rs n with
  | none => d
  | some r =>
    let x : Nat × Nat := match (d.rd n).sheet? k with
      | some s => ((d.rd n).lostOf s, d.lostCount n s ((d.rd n).lostOf s))
      | none => (r.target, 0xFFFFFFFF)
    let d := (d.cutRead n).dropSheetR n k
    if (d.sp n).cur.isNone then d else (d.setPos n x.1).finish n stUnreadable x.1 x.2 0

/-- The first serviceable instance of a kind of block. -/
def Dev.firstOk (d : Dev) (pg : Nat → PageId) (k : Nat) : PageId := pg (((List.range k).find? (fun i => d.serviceable (pg i))).getD 0)

/-- The anchor search has failed (R325, step 4). -/
def Dev.noAnchor (d : Dev) (n : Nat) : Dev :=
  match d.rs n with
  | none => d
  | some r =>
    let e := ((d.rd n).findObj r.target).map (·.2.2)
    let x := match e with | some e => d.wholeLen e | none => (d.nextFree, d.freeVal % 2 ^ 32)
    ((x.1.releaseDec r.stream).ev (d.firstOk pgDecomp 17) Reg.DECOMP.FAR_UNRESOLVED).readNothing n stDataCheck r.target x.2

/-! ### The record found -/

/-- The read goes on at an entry, which begins record `o`. -/
def ReadSt.startAt (r : ReadSt) (o k i : Nat) : ReadSt :=
  { r with phase := .run, obj := o, sheet := k, entry := i, buf := [], enc := false, lastIv := none, whole := false, total := 0, blks := [],
           begun := false, ended := false, fault := none }

/-- The decode set of the stream starts a span anew (R117). -/
def Dev.clearSpan (d : Dev) (st : Nat) : Dev :=
  match d.decOf st with
  | none => d
  | some i => (d.decRefs (d.decSet i).bufs).modDec i (fun s => { s with ck := {}, hist := [], bufs := [], last := none })

/-- An encrypted record is to be read with ENC_MODE 0 (R363); the event stands in the first serviceable instance's page. -/
def Dev.noKey (d : Dev) : Dev := d.ev (d.firstOk pgCrypt 2) Reg.CRYPT.NO_KEY

/-- The READ ends without the record asked for, because one before it cannot be decoded (R130, R325): the position stays.
(DESIGN CHOICE, log entry 35.) -/
def Dev.targetUndecoded (d : Dev) (n : Nat) : Dev :=
  match d.rs n with
  | none => d
  | some r =>
    let x := match ((d.rd n).findObj r.target).map (·.2.2) with | some e => d.wholeLen e | none => (d.nextFree, d.freeVal % 2 ^ 32)
    x.1.readNothing n stDataCheck r.target x.2

/-- Record `o` on the way to the one asked for, encrypted as `enc` says, is decoded for discard (R129), if it can be (R363). -/
def Dev.decodeOnWay (d : Dev) (n o k i : Nat) (enc : Bool) : Dev :=
  match d.rs n with
  | none => d
  | some r => if enc && parEnc r.par == 0 then d.noKey.targetUndecoded n else d.modRs n (fun r => r.startAt o k i)

/-- The requested object's first entry is at hand: what the READ does with it (R322, R129, R363). A record that no key opens is passed,
as R322 has it for a record that DATA_CHECK ends.
(DEDUCED, log entry 35.) -/
def Dev.readFound (d : Dev) (n k i : Nat) (e : IdxEntry) : Dev :=
  match d.rs n with
  | none => d
  | some r =>
    let p := r.par
    if e.mark then ((d.modRs n (fun r => { r with sheet := k })).readDone n stTapeMark 0 0)
    else if e.stream ≠ r.stream then d.readNothing n stWrongStream (r.target + 2 ^ 48 * e.stream) 0
    else if e.first && e.last && e.length == 0 then
      -- an anchor record of no bytes begins a span (R116)
      let d := if e.anchor && parFar p then ((d.bindDec r.stream).clearSpan r.stream).noteDecoded n r.stream r.target
        else if d.nextInStream n r.stream r.target then d.noteDecoded n r.stream r.target else d
      ((d.notePassed n r.target e).modRs n (fun r => { r with sheet := k })).readDone n stSuccess 0 0
    else if parEnc p = 2 then d.modRs n (fun r => { r.startAt r.target k i with raw := true })
    else if e.enc && parEnc p == 0 then
      let x := d.noKey.wholeLen e
      (x.1.modRs n (fun r => { r with sheet := k })).readDone n stDataCheck x.2 0
    else if !parFar p then d.modRs n (fun r => r.startAt r.target k i)
    else
      let d := (d.bindDec r.stream).modRs n (fun r => { r with far := true })
      if e.anchor then (d.clearSpan r.stream).modRs n (fun r => r.startAt r.target k i)
      else if d.nextInStream n r.stream r.target then d.modRs n (fun r => r.startAt r.target k i)
      else d.modRs n (fun r => { r with phase := .anchor, home := (k, i), best := none, lo := k, top := k, sheet := k })

/-- The last entry of a sheet that begins an anchor record of the stream, at or before the requested entry. -/
def anchorIn (s : RSheet) (st : Nat) (home : Nat × Nat) : Option Nat :=
  let es := s.entries
  ((List.range es.length).filter (fun i => match es[i]? with
    | some e => e.anchor && e.first && !e.mark && e.stream == st && (decide (s.num < home.1) || decide (i ≤ home.2))
    | none => false)).getLast?

/-- The record that the last anchor met begins is decoded from here (R325). -/
def Dev.fromAnchor (d : Dev) (n st k i : Nat) : Dev × Bool :=
  match d.obtain n k false with
  | (d, .sheet s) =>
    ((d.clearSpan st).decodeOnWay n (objectOfEntry s.firstRecord i s.entries) k i ((s.entries[i]?).any (·.enc)), true)
  | (d, .wait) => (d, false)
  | (d, _) => (d.noAnchor n, true)

/-- One step of the anchor search (R325). The flag says that it did something. -/
def Dev.anchorStep (d : Dev) (n : Nat) : Dev × Bool :=
  match d.rs n with
  | none => (d, false)
  | some r =>
    if r.top < r.sheet then
      match r.best with
      | some (k, i) => d.fromAnchor n r.stream k i
      | none =>
        if r.lo = 0 then (d.noAnchor n, true)
        else (d.modRs n (fun r => { r with top := r.lo, lo := r.lo - 48, sheet := r.lo - 48 }), true)
    else
      let step (d : Dev) : Dev := d.modRs n (fun r => { r with sheet := r.sheet + 1 })
      match d.obtain n r.sheet false with
      | (d, .wait) => (d, false)
      | (d, .absent) => (step d, true)
      | (d, .lost _) => if r.best.isNone then (d.noAnchor n, true) else (step d, true)
      | (d, .sheet s) =>
        if s.kind != 1 then (step d, true)
        else if !s.resolved && r.best.isNone then (d.noAnchor n, true)
        else
          let d := (d.modSheetR n s.num (fun s => { s with consumed := true })).raEval n
          match anchorIn s r.stream r.home with
          | some i => (step (d.modRs n (fun r => { r with best := some (s.num, i) })), true)
          | none => (step (if r.best.isNone && s.num != r.home.1 then d.dropSheetR n s.num else d), true)

/-- The stream's next record after the one decoded for discard. -/
def Dev.skipStep (d : Dev) (n : Nat) : Dev × Bool :=
  match d.rs n with
  | none => (d, false)
  | some r =>
    if r.home.1 < r.sheet then (d.readLost n r.home.1, true)
    else
      let next (d : Dev) : Dev := d.modRs n (fun r => { r with sheet := nextDataSheet r.sheet, entry := 0 })
      match d.obtain n r.sheet false with
      | (d, .wait) => (d, false)
      | (d, .absent) => (next d, true)
      | (d, .lost s) => if s.num = r.home.1 then (d.readLost n s.num, true) else (next d, true)
      | (d, .sheet s) =>
        if s.kind != 1 then (next d, true)
        else if !s.resolved then (if s.num = r.home.1 then d.readLost n s.num else next d, true)
        else
          let es := s.entries
          match (List.range es.length).find? (fun i => decide (r.entry ≤ i) && (match es[i]? with
            | some e => e.first && !e.mark && e.stream == r.stream && !(e.last && e.length == 0)
            | none => false)) with
          | some i => (d.decodeOnWay n (objectOfEntry s.firstRecord i es) s.num i ((es[i]?).any (·.enc)), true)
          | none => (next ((d.modSheetR n s.num (fun s => { s with consumed := true })).raEval n), true)

/-- A record is over: one decoded on the way leads to the next; the one asked for answers the READ, or suspends it. -/
def Dev.recordOver (d : Dev) (n : Nat) : Dev :=
  match d.rs n with
  | none => d
  | some r =>
    if r.obj ≠ r.target then
      if r.fault.isSome then d.targetUndecoded n
      else (d.noteDecoded n r.stream r.obj).modRs n (fun r => { r with phase := .skip })
    else
      let left := r.total - r.sent
      match r.fault with
      | some st => d.readDone n st left 0
      | none =>
        if r.susp.isSome && !r.trunc then
          ((d.modRs n (fun r => { r with suspended := true })).modStream r.stream (fun s => { s with suspended := true })).finish n
            stSuccess r.target left 0
        else
          let d := if r.far then d.noteDecoded n r.stream r.target else d
          let d := match (d.rd n).findObj r.target with | some (_, _, e) => d.notePassed n r.target e | none => d
          d.readDone n stSuccess left (if r.trunc then qTruncated else 0)

/-- The READ goes as far as it can without waiting. -/
def Dev.readOn (n : Nat) : Nat → Dev → Dev
  | 0, d => d
  | f + 1, d =>
    match d.rs n with
    | none => d
    | some r =>
      if r.suspended then d
      else
        match r.phase with
        | .seek =>
          match Dev.search n r.target true noLimit pumpFuel d with
          | (d, .wait) => d
          | (d, .none) => d.readNothing n stEndOfData 0 0
          | (d, .lost k) => d.readLost n k
          | (d, .here k i e) => Dev.readOn n f (d.readFound n k i e)
        | .anchor =>
          match d.anchorStep n with
          | (d, true) => Dev.readOn n f d
          | (d, false) => d
        | .skip =>
          match d.skipStep n with
          | (d, true) => Dev.readOn n f d
          | (d, false) => d
        | .run =>
          match d.pump n pumpFuel with
          | (d, .going) => d
          | (d, .finished) => Dev.readOn n f (d.recordOver n)
          | (d, .lost) =>
            if r.obj = r.target then d.readLost n ((d.rs n).map (·.sheet) |>.getD 0)
            else Dev.readOn n f (d.modRs n (fun r => { r with phase := .skip, sheet := nextDataSheet r.sheet, entry := 0 }))

/-! ### READ begins (R322, R323, R325) -/

/-- A READ's transfer on a record that is suspended goes on; a record read unchanged needs no decompressor. -/
def Dev.resumeRead (d : Dev) (n : Nat) (j : Job) (more : Bool) : Dev :=
  match d.rs n with
  | none => d
  | some r =>
    let len := d.xferLen j.hdr
    let d := (d.modRs n (fun r => { r with suspended := false, left := len, xfer := len, more := more })).modStream r.stream
      (fun s => { s with suspended := false })
    if !more && len == 0 then
      -- nothing can be delivered: the rest is decoded for discard (R128)
      d.unsuspend n true
    else if r.raw then d.unsuspend n false
    else d

/-- A READ begins at the position. At the end of data RESULT is 0: there is no object whose number it could be. A record of another stream
leaves RESIDUE 0.
(DESIGN CHOICE, log entry 35.) -/
def Dev.beginRead (d : Dev) (n : Nat) (j : Job) (more : Bool) : Dev :=
  match d.rs n with
  | some _ => Dev.readOn n pumpFuel (d.resumeRead n j more)
  | none =>
    let s := d.sp n
    if s.eodOf s.sess.part ≤ s.posObj then d.finish n stEndOfData 0 0 0
    else
      let len := d.xferLen j.hdr
      let d := d.modSp n (fun s => { s with rdst := some { stream := j.hdr.stream, target := s.posObj, obj := s.posObj, par := d.readPar j.hdr.stream, left := len,
                                                           xfer := len, more := more } })
      Dev.readOn n pumpFuel (d.setSeek n (d.seekInit n s.posObj true {}))

/-! ### LOCATE (R326) -/

/-- The frame of a TPW value (R168). -/
def frameOfTpw (t : Nat) : Nat := 36 * (t / 2 ^ 13) + bitsOf t 4 6

/-- Where the next slot is written: the wrap and the frame at the distance already run on it. -/
def Spoke.writePlace (s : Spoke) : Nat × Nat :=
  let l := s.wr.wrap
  (l, if wrapForward l then (dataAreaStart - 2000000 + s.wr.runUm) / 96 else (dataAreaEnd - 2000000 - s.wr.runUm) / 96)

/-- Where the end of data of the partition in use is found on tape. -/
def Spoke.eodPlace (s : Spoke) : Nat × Nat :=
  if s.sess.isOpen then s.writePlace
  else
    let e := s.cart.eods.getD s.sess.part {}
    (e.wrap, frameOfTpw e.tpw)

/-- LOCATE moves the tape to its target, found: `k` a sheet, none the end of data. -/
def Dev.locateFinal (d : Dev) (n : Nat) (k : Option Nat) : Dev :=
  let p := match k with | some k => (d.sp n).placeOf k | none => (d.sp n).eodPlace
  let d := d.endReading n
  let d := d.modSp n (fun s => { s with seek := { s.seek with final := true } })
  let d := match k with | some k => d.modRd n (fun r => { r with nextSheet := k }) | none => d
  d.locateTo n p.1 p.2 (d.startCog n)

/-- LOCATE's search goes as far as it can without waiting. -/
def Dev.locateOn (d : Dev) (n : Nat) : Dev :=
  let x := (d.sp n).seek
  if x.final then d
  else
    match Dev.search n x.obj false 24 pumpFuel d with
    | (d, .wait) => d
    | (d, .here k _ _) => d.locateFinal n (some k)
    | (d, .lost k) => d.locateFinal n (some k)
    | (d, .none) => d.locateFinal n (some (d.sp n).seek.lo)

/-- The hint tried first: a wrong one leads to the search. -/
def Dev.hintOn (d : Dev) (n hint : Nat) : Dev :=
  if !(d.sp n).seek.hinted then d.locateOn n
  else
    let clear (d : Dev) : Dev := d.modSp n (fun s => { s with seek := { s.seek with hinted := false } })
    match d.obtain n hint false with
    | (d, .wait) => d
    | (d, _) => (clear d).locateOn n

/-- LOCATE begins in the partition in use.
(DEDUCED, log entry 35.) -/
def Dev.beginLocate (d : Dev) (n o hint : Nat) (toEod : Bool) : Dev :=
  let s := d.sp n
  let e := s.eodOf s.sess.part
  if !toEod && decide (e < o) then (d.setPos n e).finish n stEndOfData e 0 0
  else
    let o := if toEod then e else o
    let x := { d.seekInit n o false {} with obj := o, hinted := hint != 0xFFFFFFFF }
    let d := d.setSeek n x
    if o = e then d.locateFinal n none else d.hintOn n hint

/-- LOCATE completes when the tape has come to its place. -/
def Dev.locateEnds (d : Dev) (n : Nat) : Dev :=
  let o := (d.sp n).seek.obj
  let e := (d.sp n).eodOf (d.sp n).sess.part
  let d := if o = e then d.modDrv n (fun x => { x with atWrite := (d.sp n).sess.isOpen, parked := (d.sp n).sess.isOpen }) else d
  ((d.setSeek n {}).setPos n o).finish n stSuccess o 0 0

/-! ### SPACE (R327) -/

/-- SPACE stops. -/
def Dev.spaceEnds (d : Dev) (n code : Nat) : Dev :=
  let x := (d.sp n).seek
  ((d.setSeek n {}).setPos n x.obj).finish n code x.obj x.left 0

/-- The cursor of SPACE moves to `o` with `left` still to do. -/
def Dev.spaceTo (d : Dev) (n o left : Nat) : Dev := d.setSeek n { (d.sp n).seek with obj := o, left := left, tries := 0 }

/-- SPACE goes as far as it can without waiting. -/
def Dev.spaceOn (n : Nat) (fwd : Bool) (unit : Nat) : Nat → Dev → Dev
  | 0, d => d
  | f + 1, d =>
    let x := (d.sp n).seek
    if x.left = 0 then d.spaceEnds n stSuccess
    else if fwd && decide ((d.sp n).eodOf (d.sp n).sess.part ≤ x.obj) then d.spaceEnds n stEndOfData
    else if !fwd && x.obj == 0 then d.spaceEnds n stBeginning
    else
      let o := if fwd then x.obj else x.obj - 1
      let d := if x.tries = 0 then d.setSeek n (d.seekInit n o true x) else d
      match Dev.search n o true noLimit pumpFuel d with
      | (d, .wait) => d
      | (d, .none) => d.spaceEnds n stUnreadable
      | (d, .lost k) =>
        let lost := match (d.rd n).sheet? k with | some s => (d.rd n).lostOf s | none => o
        ((d.spaceTo n lost x.left).dropSheetR n k).spaceEnds n stUnreadable
      | (d, .here k _ e) =>
        let d := (d.modSheetR n k (fun s => { s with consumed := true })).raEval n
        let d := if fwd then (d.notePassed n o e).dropBefore n k else d
        let dest := if fwd then o + 1 else o
        if unit = 0 then
          if e.mark then (d.spaceTo n dest x.left).spaceEnds n stTapeMark else Dev.spaceOn n fwd unit f (d.spaceTo n dest (x.left - 1))
        else Dev.spaceOn n fwd unit f (d.spaceTo n dest (if e.mark then x.left - 1 else x.left))

/-- SPACE begins at the position. -/
def Dev.beginSpace (d : Dev) (n : Nat) (count : Int) (unit : Nat) : Dev :=
  Dev.spaceOn n (decide (0 ≤ count)) unit pumpFuel (d.setSeek n { obj := (d.sp n).posObj, left := count.natAbs })

/-! ### SHEET_READ (R336) -/

/-- A sheet's rows and map go out, up to the transfer length. -/
def Dev.sendSheet (d : Dev) (n : Nat) (j : Job) (s : RSheet) (part mapAddr : Nat) (ok : Bool) : Dev :=
  let d := d.toHost j 0 (rawRows s (min (d.xferLen j.hdr) 8388608))
  let d := if mapAddr = 0 then d else d.issue j.fn (.dataWrite j.fn mapAddr false (erasureMap s part))
  d.finish n (if ok then stSuccess else stUnreadable) s.num s.failedCw 0

/-- The partition's first end-of-data sheet, where the spoke knows it (R80). -/
def Dev.eodSheet (d : Dev) (n : Nat) : Option Nat :=
  let s := d.sp n
  match s.rd.endAt with
  | some e => some e
  | none =>
    if s.sess.isOpen then none
    else
      let e := s.cart.eods.getD s.sess.part {}
      if e.valid then some e.sheet else none

/-- SHEET_READ with SOURCE 1 goes on when its sheet has come through its decodes and rungs 1 to 4. -/
def Dev.sheetReadOn (d : Dev) (n : Nat) (j : Job) (k mapAddr : Nat) : Dev :=
  let part := (d.sp n).sess.part
  let none : RSheet := { num := k, allFailed := true, final := true }
  if (match d.eodSheet n with | some e => decide (e < k) | Option.none => false) then d.finish n stEndOfData k 0 0
  else
    match d.obtain n k true with
    | (d, .wait) => d
    | (d, .absent) => (d.sendSheet n j none part mapAddr false).endReading n
    | (d, .sheet s) | (d, .lost s) => ((d.sendSheet n j s part mapAddr s.resolved).dropSheetR n k).endReading n
end Sys2Proof.Machine
end

