-- ==== Sys2Proof/Machine/Alarm.lean ====
section
/-! DEFINITION. Ending commands (R341, R323), and the alarms of KEEP (spec chapter 13): violations and their policies, the
fence of a domain, zeroisation (R366 to R371). -/

namespace Sys2Proof.Machine

/-! ### Ending commands -/

/-- Does the opcode use a stream (R314)? -/
def Op.usesStream : Op → Bool
  | .write .. | .writeMark .. | .read .. | .streamOpen .. | .streamSet .. | .streamClose | .streamQuery => true
  | _ => false

/-- May the command be ended while in progress (R341)? A FORMAT only before its first write. -/
def Dev.mayEnd (d : Dev) (n : Nat) (j : Job) : Bool :=
  match j.op with
  | .read .. | .locate .. | .space .. | .sync | .sheetRead .. => true
  | .format .. => (d.sp n).drv.formatStep == 0
  | _ => (d.sp n).curStep == 1

/-- The command in progress of a spoke ends with `code`: the tape comes to a stop, the ladder ends at its next boundary, a
SPACE leaves the position where it had come to (R341). -/
def Dev.endCur (d : Dev) (n code : Nat) : Dev :=
  match (d.sp n).cur with
  | none => d
  | some j =>
    let begun := (d.sp n).curStep != 1
    let d := match j.op with
      | .space .. => if begun then d.setPos n (d.sp n).seek.obj else d
      | .read .. =>
        match d.rs n with
        | some _ => d.cutRead n
        | none => d
      | _ => d
    let d := match j.op with
      | .read .. | .locate .. | .space .. | .sheetRead .. => if begun then d.endReading n else d
      | _ => d
    (d.setSeek n {}).finish n code 0 0 0

/-- A record suspended ends as a truncation (R323, R128): the position moves after it, and the rest is decoded for discard. -/
def Dev.cutSuspended (d : Dev) (n : Nat) : Dev :=
  match d.rs n with
  | none => d
  | some r =>
    if !r.suspended then d
    else
      let d := (d.setPos n (r.target + 1)).modStream r.stream (fun s => { s with suspended := false })
      if r.raw then d.dropRead n
      else
        let d := d.modRs n (fun r => { r with suspended := false, more := false })
        Dev.readOn n pumpFuel (d.unsuspend n true)

/-- CANCEL (R341) for domain `dom`: how many commands it ends. -/
def Dev.cancel (d : Dev) (n dom : Nat) : Dev × Nat :=
  let mine := (d.sp n).waiting.filter (fun j => j.dom == dom)
  let d := d.modSp n (fun s => { s with waiting := s.waiting.filter (fun j => j.dom != dom) })
  let d := d.completeAll mine stAborted
  let hit : Bool := match (d.sp n).cur with | some j => j.dom == dom && d.mayEnd n j | none => false
  let d := if hit then d.endCur n stAborted else d
  (d.cutSuspended n, mine.length + b2n hit)

/-- The waiting commands of a spoke, and the one in progress, complete with `code`. -/
def Dev.endAll (d : Dev) (n code : Nat) : Dev :=
  let w := (d.sp n).waiting
  let d := d.endCur n code
  (d.modSp n (fun s => { s with waiting := [] })).completeAll w code

/-! ### Zeroisation (R370, R371) -/

/-- Is every block of the record encrypted and finished? -/
def PRec.allEncrypted (r : PRec) : Bool := r.cut && r.blks.all (fun b => b.st == .finished)

/-- The stream's records not wholly encrypted are released; their objects will not be stored. -/
def Dev.zeroRecs (d : Dev) (st : Nat) : Dev :=
  let f (r : PRec) : Bool := r.stream == st && !r.allEncrypted
  let gone := d.recs.filter f
  let waits := ((gone.map (fun r => (r.blks.filter (fun b => b.st == .toCrypt)).length)).foldl (· + ·) 0)
  let d := d.bump (d.firstOk pgCrypt 2) Reg.CRYPT.ABANDONED waits
  let d := gone.foldl (fun e r => match r.num with
    | some k => e.modObj r.spoke k (fun o => { o with dead := true, ready := false })
    | none => e) d
  d.dropRecs f

/-- What the command in progress has landed is given up (R316): a WRITE or SHEET_WRITE that is not accepted. -/
def Dev.dropLanding (d : Dev) (n : Nat) : Dev :=
  let d := d.decRefs ((d.sp n).landBufs.map (·.handle))
  let d := match (d.sp n).cur with | some j => d.modSq j.hdr.sq (fun q => { q with heldNobuf := false }) | none => d
  d.modSp n (fun s => { s with landBufs := [], noBuf := false })

/-- Commands of the stream not yet completed on spoke `n` complete with KEY_ZEROISED (R330). -/
def Dev.zeroJobs (d : Dev) (n st : Nat) : Dev :=
  let s := d.sp n
  let hit (j : Job) : Bool := j.op.usesStream && j.hdr.stream == st
  let w := s.waiting.filter hit
  let c := s.commitWaits.filter (fun p => hit p.1)
  let d := d.modSp n (fun s => { s with waiting := s.waiting.filter (fun j => !hit j),
                                        commitWaits := s.commitWaits.filter (fun p => !hit p.1) })
  let curHit : Bool := match s.cur with | some j => hit j | none => false
  let d := match d.rs n with
    | some r =>
      if r.stream = st then
        let fr := (r.blks.filter (fun (b : RBlk) => b.st == RBlkSt.frame)).length
        let d := (d.bump (d.firstOk pgCrypt 2) Reg.CRYPT.ABANDONED fr).dropRead n
        let left := r.total - r.sent
        if curHit then (d.endReading n).finish n stKeyZeroised r.target left 0 else d
      else d
    | none => d
  let d := match (d.sp n).cur with
    | some j => if hit j then (d.dropLanding n).finish n stKeyZeroised 0 0 0 else d
    | none => d
  let d := c.foldl (fun e p => e.complete p.1 stKeyZeroised p.2.1 0) d
  d.completeAll w stKeyZeroised

/-- A stream bound to a zeroised slot ends (R330, R371). -/
def Dev.zeroStream (d : Dev) (st : Nat) : Dev :=
  let n := (d.stream st).spoke
  let w := (d.sp n).wr
  let objs := (w.placed.filter (fun p => p.stream == st)).map (·.num) ++ (w.objs.filter (fun o => o.stream == st)).map (·.num)
  let d := (d.zeroRecs st).zeroJobs n st
  let d := ((d.releaseDec st).releaseEnc st).dropLead st
  let d := d.modSp n (fun s => { s with recStream := if s.recStream = some st then none else s.recStream,
                                        wr := { s.wr with failed := s.wr.failed ++ objs.map (fun o => (o, stKeyZeroised)) } })
  d.modStream st (fun s => { s with isOpen := false, recOpen := false, suspended := false, next := none, zeroised := !objs.isEmpty })

/-- Every object before the first one whose plaintext was released has been placed: the spoke halts, with CAUSE 0 (R371). -/
def Dev.zeroHalt (d : Dev) (n : Nat) : Dev :=
  match (d.sp n).wr.objs with
  | o :: _ => if o.dead then d.halt n 0 0 else d
  | [] => d

/-- Streams bound with ENC_MODE 1 to a slot of the list. -/
def Dev.boundTo (d : Dev) (slots : List Nat) : List Nat :=
  (d.streams.filter (fun p => p.2.isOpen && (p.2.params :: p.2.next.toList).any (fun q =>
    parEnc (parEff q) == 1 && slots.contains (parSlot (parEff q))))).map (·.1)

/-- The streams bound to slots end; a spoke whose next object to place is lost halts. -/
def Dev.endBound (d : Dev) (slots : List Nat) : Dev :=
  let d := (d.boundTo slots).foldl Dev.zeroStream d
  (List.range 8).foldl Dev.zeroHalt d

/-- The slot that a load in progress would fill. -/
def KsLoad.slot? : KsLoad → Option Nat
  | .key s .. => some s
  | .kek .. => none

/-- Zeroisation of a set of slots (R370); with `all`, of the KEKs and the private keys too. -/
def Dev.zeroise (d : Dev) (slots : List Nat) (all : Bool) : Dev :=
  let d := slots.foldl (fun e s => e.modSlot s (fun x => { x.emptied with zeroised := true })) d
  let d := d.modKeep (fun k => { k with keks := if all then [] else k.keks, zeroAll := k.zeroAll || all,
                                        ksCancelled := k.ksCancelled || (match k.ksLoad with
                                          | some l => all || (match l.slot? with | some s => slots.contains s | none => false)
                                          | none => false) })
  let d := if all then d.clr pgBoot Reg.BOOT.IDENTITY else d
  let d := if all then d.fset pgKeystore Reg.KEYSTORE.KEK_VALID 0 else d
  let d := ((d.bump pgAlarm Reg.ALARM.ZEROISE_CNT 1).ev pgAlarm Reg.ALARM.ZEROISED).ev pgKeystore Reg.KEYSTORE.ZEROISE
  d.endBound slots

/-- Zeroisation of all keys. -/
def Dev.zeroiseAll (d : Dev) : Dev := d.zeroise (List.range 256) true

/-! ### The fence of a domain (R368) -/

/-- Commands in progress of domain `dom` end as under R341. -/
def Dev.endDomain (d : Dev) (dom n : Nat) : Dev :=
  match (d.sp n).cur with
  | some j =>
    if j.dom == dom && (match j.op with | .read .. | .locate .. | .space .. | .sync | .sheetRead .. => true | _ => false) then
      d.endCur n stAborted
    else d
  | none => d

/-- Domain `dom` is fenced. -/
def Dev.domainFence (d : Dev) (dom : Nat) : Dev :=
  if d.domFenced dom then d
  else
    let d := if dom < 32 then d.bitPut pgAlarm Reg.ALARM.FENCE_LO dom true else d.bitPut pgAlarm Reg.ALARM.FENCE_HI (dom - 32) true
    let d := d.ev pgAlarm Reg.ALARM.FENCED
    let d := d.disableRings (fun q _ => d.prot kSq q == dom) (fun q _ => d.prot kCq q == dom)
    (List.range 8).foldl (fun e n => e.endDomain dom n) d

/-! ### Violations (R366, R367) -/

def vPage : Nat := 0
def vDoorbell : Nat := 1
def vCommand : Nat := 2
def vKeyslot : Nat := 3
def vHandle : Nat := 4

/-- The policy of a kind of violation. -/
def Dev.policyOf (d : Dev) (kind : Nat) : Nat :=
  d.fget pgAlarm (if kind = 0 then Reg.ALARM.PAGE else if kind = 1 then Reg.ALARM.DOORBELL
    else if kind = 2 then Reg.ALARM.COMMAND else if kind = 3 then Reg.ALARM.KEYSLOT else Reg.ALARM.HANDLE)

/-- The slots whose KEYSLOT entry names a domain. -/
def Dev.slotsOf (d : Dev) (dom : Nat) : List Nat := (List.range 256).filter (fun s => d.prot kKeyslot s == dom)

/-- The policy's actions. -/
def Dev.applyPolicy (d : Dev) (p dom : Nat) : Dev :=
  let d := if 1 ≤ p then d.domainFence dom else d
  if p = 2 then d.zeroise (d.slotsOf dom) false else if p = 3 then d.zeroiseAll else d

/-- A violation of kind `kind` by domain `dom`; domains 0 and 1 commit none. -/
def Dev.violation (d : Dev) (kind index dom : Nat) : Dev :=
  if dom < 2 then d
  else
    let d := (d.bump pgAlarm Reg.ALARM.VIOL_CNT 1).ev pgAlarm Reg.ALARM.VIOLATION
    let d := d.modKeep (fun k => { k with domViol := mmod (fun _ => 0) k.domViol dom (satAdd 0xFFFFFFFF · 1) })
    let d := if d.fon pgAlarm Reg.ALARM.VALID then d
      else (((d.fset pgAlarm Reg.ALARM.KIND kind).fset pgAlarm Reg.ALARM.LAST_VIOL_DOMAIN dom).fset pgAlarm Reg.ALARM.INDEX index).ev
        pgAlarm Reg.ALARM.VALID
    d.applyPolicy (d.policyOf kind) dom

end Sys2Proof.Machine
end

