-- ==== Sys2Proof/Machine/Admit.lean ====
section
/-! DEFINITION. Commands of the rings (spec chapter 12): the checks of R310 and R311, the data that a command lands in the
chest (R271, R272), and the acceptance of records, marks and host-built sheets (R316 to R320, R335). -/

namespace Sys2Proof.Machine

/-! ### Opcodes (R308, R314) -/

/-- The module commands. -/
def Op.isModule : Op → Bool
  | .streamQuery | .bufAlloc _ | .bufRef _ | .bufRelease _ | .bufLoad .. | .bufStore .. | .takeover => true
  | _ => false

/-- The commands that run at once and wait for nothing (R308). -/
def Op.isQuery : Op → Bool
  | .nop | .readPosition | .tapeStatus | .cancel | .cmRead _ | .cmWrite .. => true
  | _ => false

/-- The commands that carry data (R314). -/
def Op.carries : Op → Bool
  | .write .. | .read .. | .sheetWrite _ | .sheetRead .. | .bufLoad .. | .bufStore .. | .cmRead _ | .cmWrite .. => true
  | _ => false

/-- The tape commands, which need CART_STATE 3 (R310, check 5). -/
def Op.isTape : Op → Bool
  | .write .. | .writeMark .. | .sync | .sheetWrite _ | .read .. | .locate .. | .space .. | .readPosition | .closeSession
  | .format .. | .unload | .sheetRead .. | .rawRelease => true
  | _ => false

/-- The commands that need an initialised cartridge (R310, check 6). -/
def Op.needsFormat : Op → Bool
  | .write .. | .writeMark .. | .sync | .read .. | .locate .. | .space .. | .closeSession | .sheetWrite _ => true
  | .sheetRead src .. => src == 1
  | _ => false

/-- The commands that wait until the objects accepted before them are committed (R309). -/
def Op.waitsCommit : Op → Bool
  | .read .. | .locate .. | .space .. | .closeSession | .format .. | .unload => true
  | .sheetRead src .. => src == 1
  | _ => false

/-- The chest handles that a command names (R291, R315). -/
def Job.handles (j : Job) : List Nat :=
  (match j.op with | .bufRef h | .bufRelease h | .bufLoad h .. | .bufStore h _ => [h] | _ => []) ++
  (if j.op.carries && j.hdr.dmode == 3 then [hdrHandle j.hdr] else [])

/-! ### The checks (R310, R311) -/

/-- Check 2: the target is of the opcode's kind, and a stream number is one of the 4,096. -/
def Job.targetOk (j : Job) : Bool :=
  let t := j.hdr.target
  decide (t ≤ 8) && (j.op == .nop || (if j.op.isModule then t == 8 else decide (t < 8))) &&
  (!j.op.usesStream || decide (j.hdr.stream < 4096))

/-- What the checks find: nothing, a status, or a violation of a kind and index. -/
inductive Chk where
  | ok
  | status (code : Nat)
  | prot (kind index : Nat)
  deriving DecidableEq, Repr

/-- A resource not owned, as a violation's kind and index. -/
def Dev.unowned (d : Dev) (dom kind i viol : Nat) : Option (Nat × Nat) := if d.owns dom kind i then none else some (viol, i)

/-- The owner that the descriptor of a handle names (R264); in a free handle's those bits are part of the link to the next. -/
def Dev.ownerOf (d : Dev) (h : Nat) : Nat := if (d.pool.descOf h).count = 0 then d.pool.descWord h % 128 else (d.pool.descOf h).owner

/-- Check 3 (R311). -/
def Dev.resourceFault (d : Dev) (j : Job) : Option (Nat × Nat) :=
  let base := match j.op with
    | .nop => none
    | .bufAlloc _ => d.unowned j.dom kPool (16 + j.dom) vHandle
    | .bufRef h | .bufRelease h | .bufLoad h .. | .bufStore h _ => d.unowned j.dom kPool (d.ownerOf h) vHandle
    | .takeover => if j.dom ≤ 1 then none else some (vCommand, 0)
    | o => if o.usesStream then d.unowned j.dom kStream j.hdr.stream vCommand
      else d.unowned j.dom kPage (pgWriter j.hdr.target) vCommand
  base.or (if j.op.carries && j.hdr.dmode == 3 then d.unowned j.dom kPool (d.ownerOf (hdrHandle j.hdr)) vHandle else none)

/-- Checks 2 to 6. -/
def Dev.check (d : Dev) (j : Job) : Chk :=
  let t := j.hdr.target
  if !j.targetOk then .status stInvalidField
  else
    match d.resourceFault j with
    | some (k, i) => .prot k i
    | none =>
      if t = 8 then .ok
      else if d.fenced t then .status stFenced
      else if j.op.isTape && d.cartState t != 3 then .status stNotReady
      else if (match j.op with | .cmRead _ | .cmWrite .. => true | _ => false) && !(decide (1 ≤ d.cartState t) && decide (d.cartState t ≤ 3)) then
        .status stNotReady
      else if j.op.needsFormat && !(d.sp t).cart.initialised then .status stBlank
      else .ok

/-! ### Host-built sheets (R138, R67 to R70) -/

/-- Is SPOKEn.WRITER in host-assisted packing? -/
def Dev.hostPacked (d : Dev) (n : Nat) : Bool := d.mode (pgWriter n) == 1

/-- The entries of a payload's index. -/
def payloadEntries (l : List Byte) : Nat → Nat → List (Option IdxEntry)
  | _, 0 => []
  | i, k + 1 => IdxEntry.ofBytes ((l.drop (16 + 16 * i)).take 16) :: payloadEntries l (i + 1) k

/-- Do the entries obey R68 and R69, the first from offset `off` on; `begun` says that an object is open before them? -/
def entriesOk : List IdxEntry → Nat → Bool → Bool
  | [], _, _ => true
  | e :: r, off, begun =>
    e.offset == off && (if e.mark then e.first && e.last && e.length == 0 && e.hostLength == 0 else true) &&
    (e.first == !begun) && (!e.anchor || e.first) && entriesOk r (off + e.length) (!e.last)

/-- A supplied sheet as its index spells it. -/
structure HostSheet where
  firstRecord : Nat
  entries : List IdxEntry
  payloadEnd : Nat
  early : Bool
  padded : Bool

/-- The sheet of 7,733,248 payload bytes, none where its contents break R67 to R70 (UB-6). -/
def hostSheet (l : List Byte) : Option HostSheet :=
  let n := natBE (l.take 2)
  let rows := natBE ((l.drop 2).take 1)
  let flags := natBE ((l.drop 3).take 1)
  let stop := natBE ((l.drop 4).take 4)
  let es := (payloadEntries l 0 (min n 4095)).filterMap id
  let u := userArea rows
  let rest := ((l.drop (16 + 16 * n)).take (4096 * rows - 16 - 16 * n)).all (· == 0) &&
    ((l.drop (4096 * rows + stop)).take (u - stop)).all (· == 0) && natBE ((l.drop 14).take 2) == 0
  if n ≤ 4095 && es.length == n && rows == indexRows n && flags % 32 == 0 && bitAt flags 5 && decide (stop ≤ u) &&
     bitAt flags 6 == decide (stop < u) && (!bitAt flags 7 || (n == 4095 && decide (stop < u))) &&
     (entriesOk es 0 false || entriesOk es 0 true) && stop == (es.map (·.length)).foldl (· + ·) 0 && rest then
    some ⟨natBE ((l.drop 8).take 6), es, stop, bitAt flags 7, bitAt flags 6⟩
  else none

/-- What a sheet whose contents break R67 to R70 (UB-6) comes to be in the spoke: its bytes are written as supplied, and the numbering
that its index would have given, and whether it holds an object, are free.
(DESIGN CHOICE, log entry 18.) -/
def brokenSheet (free : Nat) : HostSheet :=
  ⟨free % (2 ^ 48 - 1), if free / 2 ^ 48 % 2 = 0 then [] else [⟨false, true, true, false, false, 1, 0, 0, 0, 0⟩], 0, false, false⟩

/-- Data sheets accepted and not begun on tape. -/
def Wr.unbegunData (w : Wr) : Nat := (w.sheets.filter (fun s => s.kind == 1 && s.copies.isEmpty)).length

/-- What refuses a SHEET_WRITE whose turn has come (R307, R320, R335). -/
def Dev.sheetWriteRefused (d : Dev) (n : Nat) (j : Job) : Option Nat :=
  let s := d.sp n
  if s.recStream.isSome || s.rdst.isSome || !d.hostPacked n then some stSequence
  else if d.fon (pgWriter n) Reg.WRITER.HALTED then some stWriteError
  else if s.posObj ≠ s.eodOf s.sess.part then some stNotAtEnd
  else if !(if j.hdr.dmode = 3 then d.pool.bufSize (hdrHandle j.hdr) == 8388608 && hdrOff j.hdr == 0
      else (j.hdr.dmode == 1 || j.hdr.dmode == 2) && hdrLen j.hdr == payloadBytes) then some stInvalidField
  else if s.slotsLeft ≤ s.wr.unbegunData then some stPartitionFull
  else none

/-! ### Undefined behaviour (R269, R417) -/

def Dev.hostManaged (d : Dev) (dom : Nat) : Bool := mget (fun _ => false) d.pool.hostManaged (16 + dom)
/-- References that a domain holds on a handle. -/
def Dev.domRef (d : Dev) (dom h : Nat) : Nat := mget (fun _ => 0) d.pool.domRefs (2 ^ 24 * dom + h)

/-- A command that names a free handle is UB-2 or UB-8 once check 2 has passed, whatever check 3 finds (R311). -/
def Dev.strayUse (d : Dev) (j : Job) : Dev :=
  if j.targetOk then j.handles.foldl (fun e h => if d.pool.isFree h then e.wildFree h else e) d else d

/-- The handle whose buffer an access through `h` reaches: through a free handle any of its class (UB-8).
(DESIGN CHOICE, log entry 17.) -/
def Dev.aim (d : Dev) (h : Nat) : Nat :=
  if d.pool.isFree h then
    (match d.pool.classOf h with
      | some c => d.pool.firstHandle c + d.freeVal % d.pool.count c
      | none => h)
  else h

/-- A release by domain `dom` (R269): without a reference of the domain's own it is UB-3, and whether one is dropped nothing tells.
(DESIGN CHOICE, log entry 17.) -/
def Dev.releaseBy (d : Dev) (dom h : Nat) : Dev :=
  if d.domRef dom h != 0 then
    { d with pool := { d.pool with domRefs := mmod (fun _ => 0) d.pool.domRefs (2 ^ 24 * dom + h) (· - 1) } }.decRef h
  else if d.freeVal % 2 = 0 then d.nextFree.decRef h else d.nextFree

/-! ### Landing (R271, R272, R316) -/

/-- Sizes of the chest buffers that `len` bytes land in. -/
def landSizes (len : Nat) : List Nat :=
  List.replicate (len / 8388608) 8388608 ++ (if len % 8388608 = 0 then [] else [len % 8388608])

/-- A buffer of each size for owner `o`; none when the pool answers NOBUF for one of them. -/
def Dev.allocSizes (d : Dev) (o : Nat) : List Nat → Option (Dev × List Piece)
  | [] => some (d, [])
  | z :: r =>
    match d.alloc o z with
    | (_, none) => none
    | (d, some h) => (d.allocSizes o r).map (fun x => (x.1, ⟨h, 0, min z 8388608⟩ :: x.2))

/-- Bytes stored in a list of pieces, in order. -/
def Dev.putPieces (d : Dev) : List Piece → List Byte → Dev
  | [], _ => d
  | p :: r, bs => (d.chestPut (d.pool.bufAddr p.handle + p.off) (bs.take p.len)).putPieces r (bs.drop p.len)

/-- The bytes and the length that the command in progress lands. -/
def Dev.landData (d : Dev) (j : Job) : List Byte × Nat :=
  match j.op with
  | .sheetWrite c => (c, payloadBytes)
  | _ => (j.data, d.xferLen j.hdr)

/-- The data of the command in progress lands: in the buffer that it names, or in buffers that the headbox allocates for the
domain, unless its software manages them. With no buffer the command is held, and its ring fetches no more (R272). -/
def Dev.land (d : Dev) (n : Nat) : Dev :=
  match (d.sp n).cur with
  | none => d
  | some j =>
    let x := d.landData j
    let hold (d : Dev) : Dev := (d.modSp n (fun s => { s with noBuf := true })).modSq j.hdr.sq (fun q => { q with heldNobuf := true })
    if j.hdr.dmode = 3 then
      (d.incRef (hdrHandle j.hdr)).modSp n (fun s => { s with landBufs := [⟨d.aim (hdrHandle j.hdr), hdrOff j.hdr, x.2⟩], noBuf := false })
    else if x.2 = 0 then d.modSp n (fun s => { s with landBufs := [], noBuf := false })
    else if d.hostManaged j.dom then hold d
    else
      match d.allocSizes (16 + j.dom) (if j.op.isTape && x.2 == payloadBytes && (match j.op with | .sheetWrite _ => true | _ => false)
          then [8388608] else landSizes x.2) with
      | none => hold (if (d.sp n).noBuf then d else d.bump pgPool Reg.POOL.NOBUFS 1)
      | some (d, ps) =>
        let d := (d.putPieces ps (takePad 0 x.2 x.1)).fromHost j x.2
        (d.modSp n (fun s => { s with landBufs := ps, noBuf := false })).modSq j.hdr.sq (fun q => { q with heldNobuf := false })

/-- Has the landing of the command in progress come to its end: buffers held, and the host's memory readable (R279)? -/
def Dev.landed (d : Dev) (n : Nat) (j : Job) : Bool :=
  !(d.sp n).noBuf && (j.hdr.dmode == 3 || (d.landData j).2 == 0 || (d.func j.fn).bme)

/-- The landing ends without acceptance (R316): its bytes are given up and the command completes. -/
def Dev.landFails (d : Dev) (n code : Nat) : Dev := (d.dropLanding n).finish n code 0 0 0

/-! ### Sessions (R80, R83, R304) -/

/-- Micrometres of a wrap used before frame `N` in the wrap's direction. -/
def runBefore (l frame : Nat) : Nat :=
  if wrapForward l then 96 * frame + 2000000 - dataAreaStart else dataAreaEnd - 2000000 - 96 * frame

/-- A session opens with the first object accepted (R304): it appends from the slot of end-of-data copy 0 (R80), and the
entry is set invalid before its first sheet (R83). COMMIT_SHEET counts the session's own sheets.
(DESIGN CHOICE, log entry 29.) -/
def Dev.openSession (d : Dev) (n fn : Nat) : Dev :=
  let p := (d.sp n).sess.part
  let e := (d.sp n).cart.eods.getD p {}
  let run := runBefore e.wrap (frameOfTpw e.tpw)
  let d := d.clearSheets n
  let d := d.modSess n (fun s => { s with
    isOpen := true, eodInvalid := false, session := e.session + 1, nextObj := e.nextRecord,
    nextSheet := e.sheet, topSheet := e.sheet - 1, lastData := (match s.sbRec with | some r => r.lastDataSheet | none => 0xFFFFFFFF),
    writtenObj := e.nextRecord, closing := none, formatting := false, closeBuilt := false, sbSheet := e.sheet - 1, eodFailed := false })
  let d := d.modWr n (fun w => { w with
    sheets := [], settledTop := none, wrap := e.wrap, runUm := run, cands := [], nobuf := false,
    slotsUsed := run / bitsToUm (zoneOfWrap e.wrap) sheetBits, accFault := [], syncAt := none })
  let d := d.modSp n (fun s => { s with owner := if d.split then funcEp fn else 0 })
  let d := d.modRd n (fun r => { r with gaps := [], endAt := none })
  let d := { d with streams := d.streams.map (fun (x : Nat × Stream) => (x.1, if x.2.spoke = n then { x.2 with anchorDue := true } else x.2)) }
  let pg := pgWriter n
  let d := (((d.fset pg Reg.WRITER.DEAD_MAP_LO 0).fset pg Reg.WRITER.DEAD_MAP_HI 0).fset pg Reg.WRITER.DEAD_COUNT 0).fset pg
    Reg.WRITER.COMMIT_SHEET 0xFFFFFFFF
  (d.packRegs n).cmWriteEod n .eodInvalidate p { e with valid := false }

/-- The object next accepted (R316): its number, and the position after it. A session opens with the first. -/
def Dev.number (d : Dev) (n fn : Nat) : Dev × Nat :=
  let d := if (d.sp n).sess.isOpen then d else d.openSession n fn
  let k := (d.sp n).sess.nextObj
  ((d.modSess n (fun s => { s with nextObj := k + 1 })).setPos n (k + 1), k)

/-- The command in progress is accepted: it completes now, or at commitment of objects up to `last` (R320). -/
def Dev.accepted (d : Dev) (n : Nat) (j : Job) (wait : Bool) (first last : Nat) : Dev :=
  let d := d.modSp n (fun s => { s with cur := none, curStep := 0, landBufs := [] })
  if wait then d.modSp n (fun s => { s with commitWaits := s.commitWaits ++ [(j, first, last)] })
  else d.complete j stSuccess first 0

/-! ### Records accepted (R316 to R318, R132) -/

/-- The charge of a WRITE (R317). -/
def chargeOf (dlen : Nat) : Nat := dlen + 16 * ((dlen + 4095) / 4096) + 128

/-- Host bytes already supplied to the stream's open record. -/
def Dev.supplied (d : Dev) (n st : Nat) : List Piece :=
  match findRec (fun r => r.stream == st && r.more) d.recs with
  | some i => (d.recs.getD i { stream := 0, spoke := 0 }).src
  | none => match (d.sp n).wr.objs.getLast? with
    | some o => if (d.sp n).recStream = some st then o.pieces else []
    | none => []

/-- What the header walk over the record so far finds (R132): none where the stream's NCF is refused; `more` says that a
later part comes. -/
def walkPart (ncf more : Bool) (bytes : List Byte) : Option (List (Nat × Nat)) :=
  if !ncf then some []
  else
    match ncfWalk (bytes.length / 16 + 1) bytes 0 with
    | (_, .bad) => none
    | (b, .short) => if more then some b else none
    | (b, .ended) => some b

/-- The blocks that lie wholly within the first `len` bytes. -/
def wholeBlocks (bytes : List Byte) (blocks : List (Nat × Nat)) : List (Nat × Nat) :=
  blocks.filter (fun b => match NcfHeader.ofBytes (bytes.drop b.1) with
    | some h => decide (b.1 + 16 + h.bodyLen ≤ bytes.length)
    | none => false)

/-- Blocks of host-supplied NCF that the device encrypts (R103): each whole block becomes a frame. -/
def suppliedBlocks (bytes : List Byte) (blocks : List (Nat × Nat)) (skip : Nat) : List PBlk :=
  ((wholeBlocks bytes blocks).drop skip).map (fun b =>
    match NcfHeader.ofBytes (bytes.drop b.1) with
    | some h => { off := b.1, len := b.2, first := b.1 == 0, last := h.last, st := .toCrypt, bytes := (bytes.drop b.1).take (16 + h.bodyLen) }
    | none => { off := b.1, len := b.2, first := false, last := false })

/-- A record's first part is accepted: with the first object a session opens, which makes it an anchor record (R116); it takes its
number, and its bytes go to the press, to the encryptor, or straight into
the object. -/
def Dev.firstPart (d : Dev) (n : Nat) (j : Job) (more req : Bool) (src : List Piece) (blocks : List (Nat × Nat)) (bytes : List Byte) : Dev :=
  let st := j.hdr.stream
  let d := if (d.sp n).sess.isOpen then d else d.openSession n j.fn
  let x := d.recordStarts st req
  let d := x.1
  let p := (d.stream st).params
  let stored := parStored p && parEnc p != 1
  let empty := src.isEmpty && !more
  let y := d.number n j.fn
  let d := y.1
  let o : Obj := { num := y.2, mark := false, stream := st, anchor := x.2, enc := parEnc p != 0, form := b2n (parStored p),
                   pieces := if stored then src else [], blocks := if stored then blocks else [], ready := (stored && !more) || empty,
                   charge := chargeOf j.hdr.dlen }
  let d := d.modWr n (fun w => { w with objs := w.objs ++ [o] })
  let d := d.modStream st (fun s => { s with recOpen := more, sinceAnchor := s.sinceAnchor + piecesLen src })
  let d := d.modSp n (fun s => { s with recStream := if more then some st else none })
  if empty then d
  else if stored then d.setFill n ((d.sp n).wr.fillBytes + piecesLen src)
  else
    let r : PRec := { stream := st, spoke := n, num := some y.2, more := more, src := src, anchor := x.2, coding := parCoding p,
                      far := parFar p && !parNcf p && (d.encOf st).isSome, startThresh := parThresh p, enc := parEnc p == 1, slot := parSlot p }
    if parNcf p then
      let bs := suppliedBlocks bytes blocks 0
      { d with recs := d.recs ++ [{ r with ncf := true, started := true, cut := !more, blks := bs, nblk := bs.length }] }
    else { d with recs := d.recs ++ [r] }.takeLead st

/-- A later part of the open record is accepted. -/
def Dev.laterPart (d : Dev) (n : Nat) (j : Job) (more : Bool) (src : List Piece) (blocks : List (Nat × Nat)) (bytes : List Byte) : Dev :=
  let st := j.hdr.stream
  let num := (d.sp n).sess.nextObj - 1
  let p := (d.stream st).params
  let d := d.modStream st (fun s => { s with recOpen := more, sinceAnchor := s.sinceAnchor + piecesLen src })
  let d := d.modSp n (fun s => { s with recStream := if more then some st else none })
  let d := d.modObj n num (fun o => { o with charge := o.charge + chargeOf j.hdr.dlen })
  match findRec (fun r => r.stream == st && r.more) d.recs with
  | some i =>
    let d := d.modRec i (fun r =>
      let r := { r with more := more, src := r.src ++ src }
      if parNcf p then
        let bs := suppliedBlocks bytes blocks r.nblk
        { r with cut := !more, blks := r.blks ++ bs, nblk := r.nblk + bs.length }
      else r)
    if !more && (d.recs.getD i { stream := 0, spoke := 0 }).bare then
      (d.modObj n num (fun o => { o with ready := true })).dropRecs (fun r => r.spoke == n && r.num == some num)
    else d.flush i
  | none =>
    let d := d.modObj n num (fun o => { o with pieces := o.pieces ++ src, blocks := blocks, ready := !more })
    d.setFill n ((d.sp n).wr.fillBytes + piecesLen src)

/-- A later part is refused (R132, R316): the record keeps its number and is never stored, and the spoke halts. -/
def Dev.partRefused (d : Dev) (n code : Nat) : Dev :=
  let num := (d.sp n).sess.nextObj - 1
  let d := ((d.dropLanding n).endRecord n).modObj n num (fun o => { o with dead := true, ready := false })
  (d.finish n code num 0 0).halt n 3 0

/-- Every byte of the WRITE in progress has landed (R316). -/
def Dev.writeAccepted (d : Dev) (n : Nat) : Dev :=
  match (d.sp n).cur with
  | none => d
  | some j =>
    match j.op with
    | .write more wait req =>
      if (d.sp n).curStep ≠ 2 || !d.landed n j then d
      else if d.fon (pgWriter n) Reg.WRITER.HALTED then d.landFails n stWriteError
      else
        let st := j.hdr.stream
        let s := d.stream st
        let src := (d.sp n).landBufs.filter (fun p => decide (0 < p.len))
        let p := if s.recOpen then s.params else s.next.getD s.params
        let bytes := if parNcf p then d.piecesBytes (d.supplied n st ++ src) else []
        match walkPart (parNcf p && parEnc p != 2) more bytes with
        | none => if s.recOpen then d.partRefused n stNcfRefused else d.landFails n stNcfRefused
        | some blocks =>
          let d := d.decRefs (((d.sp n).landBufs.filter (fun p => p.len == 0)).map (·.handle))
          let d := if s.recOpen then d.laterPart n j more src blocks bytes else d.firstPart n j more req src blocks bytes
          d.accepted n j wait ((d.sp n).sess.nextObj - 1) ((d.sp n).sess.nextObj - 1)
    | _ => d

/-- The SHEET_WRITE in progress is accepted (R138, R335). -/
def Dev.sheetAccepted (d : Dev) (n : Nat) : Dev :=
  match (d.sp n).cur with
  | none => d
  | some j =>
    match j.op, (d.sp n).landBufs with
    | .sheetWrite _, b :: _ =>
      if (d.sp n).curStep ≠ 2 || !d.landed n j then d
      else if d.fon (pgWriter n) Reg.WRITER.HALTED then d.landFails n stWriteError
      else
        let bytes := d.chestGet (d.pool.bufAddr b.handle) payloadBytes
        let p := match hostSheet bytes with | some x => (x, d) | none => (brokenSheet d.freeVal, d.nextFree)
        let x := p.1
        let d := p.2
        let d := if (d.sp n).sess.isOpen then d else d.openSession n j.fn
        let k := (d.sp n).sess.nextSheet
        let next := if x.entries.isEmpty then x.firstRecord else objectOfEntry x.firstRecord (x.entries.length - 1) x.entries + 1
        let d := d.modWr n (fun w => { w with
          sheets := w.sheets ++ [{ num := k, kind := 1, firstRecord := x.firstRecord, entries := x.entries, payloadEnd := x.payloadEnd,
                                   early := x.early, padded := x.padded, hostBuf := some b.handle, closed := true }],
          closedQ := w.closedQ ++ [k] })
        let d := (d.modSess n (fun s => { s with nextSheet := nextDataSheet k, nextObj := next })).setPos n next
        let d := (d.setFill n ((d.sp n).wr.fillBytes + payloadBytes)).packRegs n
        (d.modSp n (fun s => { s with landBufs := [] })).finish n stSuccess k 0 0
    | _, _ => d

/-! ### A command that waits for a buffer expires (R272) -/

/-- The NOBUF_WAIT of the command held on spoke `n` has passed. -/
def Dev.nobufExpiry (d : Dev) (n : Nat) : Dev :=
  if (d.sp n).noBuf && d.fget pgPool Reg.POOL.NOBUF_WAIT != 0 && d.pool.configured then d.landFails n stOutOfBuffer else d

end Sys2Proof.Machine
end

