-- ==== Sys2Proof/Machine/Tape.lean ====
section
/-! DEFINITION. Spoke commands begun and answered (spec chapter 12): positions, streams, SYNC, session closes, FORMAT and
UNLOAD, the closing of unclosed partitions (R414), and the turns of the commands that wait (R308, R309). -/

namespace Sys2Proof.Machine

/-! ### Partitions (R304, R326) -/

/-- The spoke stands in partition `p`, at object 0. -/
def Dev.enterPart (d : Dev) (n p : Nat) : Dev :=
  let e := (d.sp n).cart.eods.getD p {}
  let d := d.clearSheets n
  let d := d.modRd n (fun r => { r with bounds := [], ends := [], gaps := [], endAt := none })
  d.modSp n (fun s => { s with posPart := p, posObj := 0, sess := { part := p, nextObj := e.nextRecord } })

/-! ### Session closes (R78, R83, R331) -/

/-- The session is over, valid on tape or not: what stood in the entry says so (R304). -/
def Dev.sessionOver (d : Dev) (n : Nat) (valid : Bool) : Dev :=
  let s := (d.sp n).sess
  let e := (d.sp n).cart.eods.getD s.part {}
  let e : EodEntry := { e with valid := false, sheet := s.sbSheet + 1, nextRecord := s.nextObj, session := s.session }
  let d := if valid then d else d.modCart n (fun c => { c with eods := (takePad {} 4 c.eods).set s.part e })
  (d.sessionClosed n).modSp n (fun p => { p with posObj := min p.posObj s.nextObj })

/-- A session close asked for (R78). A session of which no sheet could be begun, because its entry could not be set invalid,
ends with nothing written. -/
def Dev.closeSession (d : Dev) (n reason : Nat) : Dev :=
  let pg := pgWriter n
  if d.fon pg Reg.WRITER.HALTED && d.fget pg Reg.WRITER.CAUSE == 5 && (d.sp n).sess.closing.isNone && (d.sp n).sess.isOpen then
    let d := d.discardUnwritten n stWriteError
    let p := (d.sp n).sess.part
    let sb := (d.sp n).sess.sbRec
    let d := d.modCart n (fun c => { c with eods := (takePad {} 4 c.eods).set p { (c.eods.getD p {}) with valid := true } })
    (d.sessionClosed n).modSess n (fun x => { x with sbRec := sb })
  else d.beginClose n reason

/-! ### FORMAT (R332) -/

/-- Do the wrap counts obey R81: even, at least 2, together at most 192? -/
def wrapsOk (count : Nat) (wraps : List Nat) : Bool :=
  decide (1 ≤ count) && decide (count ≤ 4) &&
  (List.range 4).all (fun p => let w := wraps.getD p 0
    if p < count then w % 2 == 0 && decide (2 ≤ w) else w == 0) && decide (wraps.foldl (· + ·) 0 ≤ 192)

/-- The partitions that the counts lay out (R81). -/
def layParts : List Nat → Nat → List PartDef
  | [], _ => []
  | w :: r, l => ⟨l, w⟩ :: layParts r (l + w)

def formatParts (count : Nat) (wraps : List Nat) : List PartDef := layParts (wraps.take count) 0

/-- FORMAT's first write (step 1). The session in the cartridge's present layout is given up. -/
def Dev.beginFormat (d : Dev) (n count : Nat) : Dev :=
  let d := (d.endReading n).discardUnwritten n stWriteError
  let d := d.sessionClosed n
  let d := d.modDrv n (fun x => { x with formatStep := 1 })
  d.cmStart n .fmtId true cmFormatId 64 (formatIdArea 1 true count d.now)

/-- Step 2 in partition `p`: sheets 0 to 2 are the close of a first session that holds nothing. -/
def Dev.formatPart (d : Dev) (n p : Nat) : Dev :=
  let part := (d.sp n).cart.parts.getD p ⟨0, 0⟩
  let d := d.enterPart n p
  let d := d.modWr n (fun w => { w with sheets := [], dueQ := [], closedQ := [], openSheet := none, cands := [], wrap := part.firstWrap,
                                        runUm := 0, slotsUsed := 0, block := none, settledTop := none })
  let d := d.modSess n (fun s => { s with
    isOpen := true, eodInvalid := true, formatting := true, session := 1, nextObj := 0, closing := some 1, lastData := 0xFFFFFFFF })
  let d := d.modDrv n (fun x => { x with formatStep := 10 + p, atWrite := false })
  d.closeSheets n 1 0

/-- FORMAT ends. -/
def Dev.formatEnds (d : Dev) (n code : Nat) : Dev :=
  let d := ((d.sessionClosed n).spoilSpoke n).modDrv n (fun x => { x with formatStep := 0 })
  let d := d.modWr n (fun w => { w with dueQ := [], closedQ := [] })
  (if code = stSuccess then d.enterPart n 0 else d).finish n code 0 0 0

/-- FORMAT goes on where its last step has ended. -/
def Dev.formatOn (d : Dev) (n count : Nat) : Dev :=
  let f := (d.sp n).drv.formatStep
  if 10 ≤ f ∧ f < 20 ∧ (d.sp n).sess.eodFailed then d.formatEnds n stWriteError
  else if f < 30 || (d.sp n).wr.running then d
  else
    let p := f - 30
    let d := d.sessionClosed n
    if p + 1 < count then d.formatPart n (p + 1)
    else (d.modDrv n (fun x => { x with formatStep := 20 })).cmStart n .fmtEod true cmEod 512 (eodTableArea (d.sp n).cart.eods)

/-! ### UNLOAD (R196, R333) -/

/-- Step 3 of an unload: a locate to 2.5 m. -/
def Dev.unloadLocate (d : Dev) (n : Nat) : Dev :=
  (d.modDrv n (fun x => { x with unloadStep := 3 })).locateTo n (d.sp n).wr.wrap 5208 1

/-- Step 2: the usage area is updated. -/
def Dev.unloadUsage (d : Dev) (n : Nat) : Dev :=
  let d := d.fset (pgMotion n) Reg.MOTION.CART_STATE 4
  (d.modDrv n (fun x => { x with unloadStep := 2 })).cmWriteUsage n

/-- An unload begins (R196): first a session of the partition in use is closed. It ends a hold (R412). -/
def Dev.beginUnload (d : Dev) (n : Nat) : Dev :=
  let d := if bitAt (d.fget pgMgmt Reg.MGMT.HOLDING) n then
      (d.bitPut pgMgmt Reg.MGMT.HOLDING n false).modSp n (fun s => { s with hostLost := false }) else d
  let d := d.endReading n
  let d := d.modDrv n (fun x => { x with unloadStep := 1 })
  if (d.sp n).sess.isOpen then d.closeSession n 3 else d

/-- An unload whose session has closed goes on. -/
def Dev.unloadOn (d : Dev) (n : Nat) : Dev :=
  if (d.sp n).drv.unloadStep = 1 && !(d.sp n).sess.isOpen && !(d.sp n).wr.running && (d.lad n).phase == .idle then d.unloadUsage n else d

/-! ### What a close of the session answers (R326, R331, R412) -/

/-- A host-loss hold begins once the session has closed (R412, step 6). -/
def Dev.holdOn (d : Dev) (n : Nat) : Dev :=
  let s := d.sp n
  if s.hostLost && !s.sess.isOpen && !bitAt (d.fget pgMgmt Reg.MGMT.HOLDING) n then
    d.bitPut pgMgmt Reg.MGMT.HOLDING n true
  else d

/-- The session's close has come to its end with `code`: the command that asked for it goes on. -/
def Dev.closeAnswer (d : Dev) (n code : Nat) : Dev :=
  match (d.sp n).cur with
  | none => d
  | some j =>
    if (d.sp n).curStep ≠ 3 then d
    else
      match j.op with
      | .closeSession => d.finish n code (if code = stSuccess then (d.sp n).eodOf (d.sp n).sess.part else 0) 0 0
      | .locate o p eod hint =>
        if code ≠ stSuccess then d.finish n code 0 0 0
        else ((d.modSp n (fun s => { s with curStep := 0 })).enterPart n p).beginLocate n o hint eod
      | _ => d

/-- A close that cannot settle, or has no slot left, is over (R81, R158, R331). -/
def Dev.closeWatch (d : Dev) (n : Nat) : Dev :=
  let s := (d.sp n).sess
  let pg := pgWriter n
  if s.closing.isSome && !s.formatting && (s.eodFailed || (d.fon pg Reg.WRITER.HALTED && d.fget pg Reg.WRITER.CAUSE == 4)) then
    (d.sessionOver n false).closeAnswer n stWriteError
  else d

/-- The entry is valid: the session has closed. -/
def Dev.closeDone (d : Dev) (n : Nat) : Dev := (d.sessionOver n true).closeAnswer n stSuccess

/-- The write that sets the entry valid failed (R83, R331): the entry stays invalid. -/
def Dev.closeCmFails (d : Dev) (n : Nat) : Dev := (d.sessionOver n false).closeAnswer n stCmError

/-! ### SYNC (R161, R162, R321) and STREAM_CLOSE (R330) -/

/-- A SYNC is accepted: the sheet with the last object accepted is closed, or will be. -/
def Dev.beginSync (d : Dev) (n : Nat) : Dev :=
  let d := d.modSp n (fun s => { s with syncCover := [] })
  let w := (d.sp n).wr
  match w.objs.getLast?, w.placed.getLast? with
  | some o, _ => d.modWr n (fun w => { w with syncAt := some o.num })
  | none, some p => if w.openSheet = some p.last then d.closeOpen n false else d
  | none, none => d

/-- The status that the failed objects give: that of the lowest. -/
def failCode (l : List (Nat × Nat)) : Nat :=
  match l.foldl (fun (a : Option (Nat × Nat)) p => match a with
    | none => some p
    | some b => if p.1 < b.1 then some p else some b) none with
  | some p => p.2
  | none => stWriteError

/-- The last data sheet accepted. -/
def Wr.lastSheet (w : Wr) : Nat := ((w.sheets.filter (·.kind == 1)).map (·.num)).foldl max 0

/-- Does the SYNC in progress complete? -/
def Dev.syncOn (d : Dev) (n : Nat) : Dev :=
  let s := d.sp n
  let halted := d.fon (pgWriter n) Reg.WRITER.HALTED
  if d.hostPacked n then
    if s.wr.sheets.all (fun x => x.kind != 1 || x.settled) then d.finish n stSuccess s.wr.lastSheet 0 0
    else if halted then d.finish n stWriteError s.lowestUncommitted 0 0
    else d
  else if !s.wr.failed.isEmpty then
    (d.modWr n (fun w => { w with failed := [] })).finish n (failCode s.wr.failed) s.lowestUncommitted 0 0
  else if s.wr.uncommitted.isEmpty then
    d.finish n stSuccess s.sess.nextObj 0 (if s.wr.reduced s.syncCover then qReduced else 0)
  else if halted then d.finish n stWriteError s.lowestUncommitted 0 0
  else d

/-- Objects of a stream accepted and not committed. -/
def Wr.ofStream (w : Wr) (st : Nat) : Bool := w.placed.any (fun p => p.stream == st) || w.objs.any (fun o => o.stream == st)

/-- The stream is unbound (R330) and its encode set released; its decode set stays bound until it is reclaimed (R119). -/
def Dev.unbind (d : Dev) (st : Nat) : Dev :=
  ((d.releaseEnc st).dropLead st).modStream st (fun s => { s with isOpen := false, next := none })

/-- Does the STREAM_CLOSE in progress complete? Objects that a halt has failed are waited for no longer. -/
def Dev.streamCloseOn (d : Dev) (n : Nat) (j : Job) : Dev :=
  if (d.sp n).wr.ofStream j.hdr.stream && !d.fon (pgWriter n) Reg.WRITER.HALTED then d
  else (d.unbind j.hdr.stream).finish n stSuccess 0 0 0

/-! ### Stream parameters (R329, R330) -/

/-- The parameters kept: reserved bits as 0, DEFAULTS carried out. -/
def parKeep (p : Nat) : Nat :=
  let e := parEff p
  bitsOf e 0 3 + 16 * bitsOf e 4 4 + 256 * bitsOf e 8 8 + 65536 * bitsOf e 16 2 + 16777216 * bitsOf e 24 8

/-- What refuses the parameters of a stream: ENC_MODE 3, or a key slot that is empty or not owned by the stream's domain; the
latter is a violation too (R360). -/
def Dev.paramsFault (d : Dev) (st p : Nat) : Option Nat × Dev :=
  let k := parKeep p
  if parEnc k = 3 then (some stInvalidField, d)
  else if parEnc k ≠ 1 then (none, d)
  else
    let dom := d.prot kStream st
    if !d.owns dom kKeyslot (parSlot k) then (some stKeyUnavailable, (d.violation vKeyslot (parSlot k) dom).errEvent pgKeystore errProt)
    else if !(d.slot (parSlot k)).loaded then (some stKeyUnavailable, d)
    else (none, d)

/-! ### Check 7 (R310, R314, R318, R323) -/

/-- The stream binding of R314. -/
def Dev.bindFault (d : Dev) (j : Job) : Option Nat :=
  match j.op with
  | .write .. | .writeMark .. | .read .. | .streamSet _ | .streamClose =>
    let s := d.stream j.hdr.stream
    if !s.isOpen then some stSequence else if s.spoke ≠ j.hdr.target then some stInvalidField else none
  | _ => none

/-- An open or a suspended record bars every spoke command that is no query, but for the one that continues it (R318, R323) and a
STREAM_SET of the stream whose record is open (R342). -/
def Dev.recordFault (d : Dev) (n : Nat) (j : Job) : Option Nat :=
  let s := d.sp n
  let open? : Bool := match s.recStream with
    | none => false
    | some st => match j.op with | .write .. | .streamSet _ => j.hdr.stream != st | _ => true
  let susp : Bool := match s.rdst with
    | some r => r.suspended && (match j.op with | .read .. => j.hdr.stream != r.stream | _ => true)
    | none => false
  if open? || susp then some stSequence else none

/-- Field values (R291, R315, R332, R338, R339). -/
def Dev.fieldFault (d : Dev) (n : Nat) (j : Job) : Option Nat :=
  let endless := j.op.carries && j.hdr.dmode == 2 && j.hdr.dlen != 0 && (hdrList j.hdr).isNone
  let bad : Bool := match j.op with
    | .writeMark _ c => decide (65535 < c)
    | .locate _ p _ _ => decide ((d.sp n).cart.parts.length ≤ p)
    | .space _ u => decide (2 ≤ u)
    | .format c w => !wrapsOk c w
    | .sheetRead src .. => decide (2 ≤ src)
    | .cmRead o => decide (4096 < d.xferLen j.hdr) || decide (o < 0x2000) || decide (0x10000 < o + d.xferLen j.hdr)
    | .cmWrite o _ => decide (4096 < d.xferLen j.hdr) || decide (o < 0x2000) || decide (0x10000 < o + d.xferLen j.hdr)
    | .bufLoad .. | .bufStore .. => j.hdr.dmode == 3
    | _ => false
  if endless || bad then some stInvalidField else none

/-- Check 7. -/
def Dev.check7 (d : Dev) (n : Nat) (j : Job) : Option Nat :=
  (d.bindFault j).or ((if j.op.isQuery || j.op.isModule then none else d.recordFault n j).or (d.fieldFault n j))

/-! ### Commands that run at once -/

/-- The sheet that holds an object's first entry, where the spoke knows it (R328). -/
def Dev.hintOf (d : Dev) (n o : Nat) : Nat :=
  match (d.sp n).wr.placed.find? (fun p => p.num == o) with
  | some p => p.first
  | none => match (d.rd n).findObj o with | some (k, _, _) => k | none => 0xFFFFFFFF

/-- READ_POSITION's RESULT (R328). -/
def Dev.positionWord (d : Dev) (n : Nat) : Nat :=
  let s := d.sp n
  s.posObj % 2 ^ 48 + 2 ^ 48 * s.posPart + 2 ^ 50 * b2n (s.posObj == 0) + 2 ^ 51 * b2n (s.posObj == s.eodOf s.posPart) +
  2 ^ 52 * b2n (d.earlyWarning n)

/-- TAPE_STATUS's RESULT and RESIDUE (R334). -/
def Dev.tapeStatusWord (d : Dev) (n : Nat) : Nat × Nat :=
  let s := d.sp n
  let on := d.cartState n == 3 && s.cart.initialised
  (d.cartState n + 16 * s.posPart + 64 * (s.cart.parts.length - 1) + 256 * b2n s.cart.initialised +
    512 * b2n (d.fon (pgWriter n) Reg.WRITER.HALTED) + 1024 * b2n (d.envHold n) +
    2 ^ 32 * (if on then s.bytesLeft / 1000000 else 0), if on then s.slotsLeft else 0)

/-- CM_READ and CM_WRITE begin (R339). -/
def Dev.beginCm (d : Dev) (n : Nat) (j : Job) (isWrite : Bool) (off : Nat) (data : List Byte) : Dev :=
  let len := d.xferLen j.hdr
  if len = 0 then d.complete j stSuccess 0 0
  else
    let bytes := if j.hdr.dmode = 3 then d.chestGet (d.pool.bufAddr (hdrHandle j.hdr) + hdrOff j.hdr) len else takePad 0 len data
    (if isWrite then d.fromHost j len else d).cmStart n (if isWrite then .hostWrite j else .hostRead j) isWrite off len (if isWrite then bytes else [])

/-! ### Commands with a turn -/

/-- A WRITE begins: the checks of its own, then its data lands (R307, R316 to R318). -/
def Dev.beginWrite (d : Dev) (n : Nat) (j : Job) : Dev :=
  let s := d.sp n
  if d.hostPacked n then d.finish n stSequence 0 0 0
  else if d.fon (pgWriter n) Reg.WRITER.HALTED then d.finish n stWriteError 0 0 0
  else if s.posObj ≠ s.eodOf s.sess.part then d.finish n stNotAtEnd 0 0 0
  else if s.bytesLeft < chargeOf j.hdr.dlen + s.wr.charges then d.finish n stPartitionFull 0 0 0
  else (d.modSp n (fun s => { s with curStep := 2 })).land n

/-- Marks numbered one after another. -/
def Dev.addMarks (d : Dev) (n : Nat) (j : Job) : Nat → Dev
  | 0 => d
  | k + 1 =>
    let x := d.number n j.fn
    (x.1.modWr n (fun w => { w with objs := w.objs ++ [{ num := x.2, mark := true, stream := j.hdr.stream, ready := true }] })).addMarks n j k

/-- A WRITE_MARK at its turn is accepted (R316, R319). A mark begins a new anchor span for every stream (R306, R116). -/
def Dev.beginMark (d : Dev) (n : Nat) (j : Job) (wait : Bool) (count : Nat) : Dev :=
  let s := d.sp n
  let first := s.eodOf s.sess.part
  if d.hostPacked n then d.finish n stSequence 0 0 0
  else if d.fon (pgWriter n) Reg.WRITER.HALTED then d.finish n stWriteError 0 0 0
  else if s.posObj ≠ first then d.finish n stNotAtEnd 0 0 0
  else if s.bytesLeft < 16 * count + s.wr.charges then d.finish n stPartitionFull 0 0 0
  else if count = 0 then d.finish n stSuccess first 0 0
  else
    let d := d.addMarks n j count
    let d := { d with streams := d.streams.map (fun (x : Nat × Stream) => (x.1, if x.2.spoke = n then { x.2 with anchorDue := true } else x.2)) }
    d.accepted n j wait first (first + count - 1)

/-- A stream command at its turn (R330). -/
def Dev.beginStreamCmd (d : Dev) (n : Nat) (j : Job) (opening : Bool) (p : Nat) : Dev :=
  let st := j.hdr.stream
  if opening && (d.stream st).isOpen then d.finish n stSequence 0 0 0
  else
    match d.paramsFault st p with
    | (some c, d) => d.finish n c 0 0 0
    | (none, d) =>
      if opening then
        (d.modStream st (fun _ => { isOpen := true, spoke := n, params := parKeep p })).finish n stSuccess 0 0 0
      else (d.modStream st (fun s => { s with next := some (parKeep p) })).finish n stSuccess 0 0 0

/-- A SHEET_WRITE at its turn (R335). -/
def Dev.beginSheetWrite (d : Dev) (n : Nat) (j : Job) : Dev :=
  match d.sheetWriteRefused n j with
  | some c => d.finish n c 0 0 0
  | none => ((d.modSp n (fun s => { s with curStep := 2 })).land n).sheetAccepted n

/-- SHEET_READ of the sheet that rung 9 holds (R336): the fetch counts and releases it (R243). -/
def Dev.sheetReadHeld (d : Dev) (n : Nat) (j : Job) (mapAddr : Nat) : Dev :=
  match (d.lad n).raw with
  | none => d.finish n stSequence 0 0 0
  | some (s, p) => ((d.sendSheet n j s p mapAddr false).rawRelease n).bump (pgSh n) Reg.SAMPLEHOLD.RAW_DELIVERED 1

/-- A command of R309 whose turn has come, with every object before it committed. -/
def Dev.beginTape (d : Dev) (n : Nat) (j : Job) : Dev :=
  match j.op with
  | .read more => d.beginRead n j more
  | .locate o p eod hint =>
    if p = (d.sp n).posPart then d.beginLocate n o hint eod
    else if (d.sp n).sess.isOpen then (d.modSp n (fun s => { s with curStep := 3 })).closeSession n 1
    else (d.enterPart n p).beginLocate n o hint eod
  | .space c u => d.beginSpace n c u
  | .closeSession =>
    if (d.sp n).sess.isOpen then
      let d := (d.modSp n (fun s => { s with curStep := 3 })).closeSession n 1
      if (d.sp n).sess.isOpen then d else d.closeAnswer n stSuccess
    else d.finish n stSuccess ((d.sp n).eodOf (d.sp n).sess.part) 0 0
  | .format c _ => d.beginFormat n c
  | .unload => d.beginUnload n
  | .sheetRead _ k m => d.sheetReadOn n j k m
  | _ => d

/-- The command in progress that waits under R309 begins, or fails with an object accepted before it. -/
def Dev.startCur (d : Dev) (n : Nat) : Dev :=
  let s := d.sp n
  match s.cur with
  | none => d
  | some j =>
    if s.curStep ≠ 1 then d
    else if j.seq ≤ s.failSeq && s.failSeq != 0 then d.finish n stWriteError 0 0 0
    else if s.sess.closing.isSome || s.wr.running || !(s.wr.uncommitted.isEmpty || d.fon (pgWriter n) Reg.WRITER.HALTED) ||
      (d.hostPacked n && !d.fon (pgWriter n) Reg.WRITER.HALTED && s.wr.sheets.any (fun x => x.kind == 1 && !x.settled)) then d
    else (d.modSp n (fun s => { s with curStep := 0 })).beginTape n j

/-- A spoke command whose checks have passed takes its turn. -/
def Dev.takeTurn (d : Dev) (n : Nat) (j : Job) : Dev :=
  let d := d.modSp n (fun s => { s with cur := some j, curStep := 0 })
  match j.op with
  | .write .. => d.beginWrite n j
  | .writeMark w c => d.beginMark n j w c
  | .sync => (d.beginSync n).syncOn n
  | .streamOpen p => d.beginStreamCmd n j true p
  | .streamSet p => d.beginStreamCmd n j false p
  | .streamClose => d.streamCloseOn n j
  | .sheetWrite _ => d.beginSheetWrite n j
  | .rawRelease => (d.rawRelease n).finish n stSuccess 0 0 0
  | .sheetRead 0 _ m => d.sheetReadHeld n j m
  | _ => (d.modSp n (fun s => { s with curStep := 1 })).startCur n

/-! ### Module commands (R330, R338, R340) -/

/-- A reference of a domain counted. -/
def Dev.addRef (d : Dev) (dom h : Nat) : Dev :=
  { d with pool := { d.pool with domRefs := mmod (fun _ => 0) d.pool.domRefs (2 ^ 24 * dom + h) (· + 1) } }

/-- The bytes that a transfer at an offset of a buffer moves (R338). -/
def Dev.bufMoved (d : Dev) (j : Job) (h off : Nat) : Nat := min (hdrLen j.hdr) (d.pool.bufSize h - off)

/-- TAKEOVER (R298): on success, a close of the lost host that has not built its record takes REASON 0x05. -/
def Dev.runTakeover (d : Dev) (j : Job) : Dev :=
  let e := funcEp j.fn
  if d.takeoverRefused e then d.complete j stTakeoverRefused 0 0
  else
    let d := d.takeover e
    let d := (List.range 8).foldl (fun x n => if (x.sp n).owner = 1 - e then x.modSess n (fun s =>
      { s with closing := if s.closing = some 2 && !s.closeBuilt then some 5 else s.closing }) else x) d
    d.complete j stSuccess 0 0

/-- A module command runs. -/
def Dev.runModule (d : Dev) (j : Job) : Dev :=
  match j.op with
  | .nop => d.complete j stSuccess 0 0
  | .streamQuery =>
    let s := d.stream j.hdr.stream
    d.complete j stSuccess s.params (2 ^ 31 * b2n s.isOpen + s.spoke)
  | .takeover => d.runTakeover j
  | op =>
    if !d.hostManaged j.dom then d.complete j stSequence 0 0
    else
      match op with
      | .bufAlloc z =>
        match d.alloc (16 + j.dom) z with
        | (d, none) => d.complete j stOutOfBuffer 0 0
        | (d, some h) => (d.addRef j.dom h).complete j stSuccess h 0
      | .bufRef h =>
        let d := (d.incRef h).addRef j.dom h
        d.complete j stSuccess (d.pool.descOf h).count 0
      | .bufRelease h =>
        let d := d.releaseBy j.dom h
        d.complete j stSuccess (d.pool.descOf h).count 0
      | .bufLoad h off data =>
        let k := d.bufMoved j h off
        ((d.chestPut (d.pool.bufAddr (d.aim h) + off) (takePad 0 k data)).fromHost j k).complete j stSuccess k (hdrLen j.hdr - k)
      | .bufStore h off =>
        let k := d.bufMoved j h off
        (d.toHost j 0 (d.chestGet (d.pool.bufAddr (d.aim h) + off) k)).complete j stSuccess k (hdrLen j.hdr - k)
      | _ => d

/-! ### A command begins -/

/-- A violation that a command commits (R311), with the bit in the resource's page. -/
def Dev.cmdViolation (d : Dev) (j : Job) (kind index : Nat) : Dev :=
  (d.violation kind index j.dom).errEvent (if kind = vHandle then pgPool else if j.hdr.target < 8 then pgWriter j.hdr.target else pgRings j.hdr.sq) errProt

/-- A query of the spoke (R308). -/
def Dev.runQuery (d : Dev) (n : Nat) (j : Job) : Dev :=
  match j.op with
  | .nop => d.complete j stSuccess 0 0
  | .readPosition => d.complete j stSuccess (d.positionWord n) (d.hintOf n (d.sp n).posObj)
  | .tapeStatus => d.complete j stSuccess (d.tapeStatusWord n).1 (d.tapeStatusWord n).2
  | .cancel => let x := d.cancel n j.dom; x.1.complete j stSuccess x.2 0
  | .cmRead o => d.beginCm n j false o []
  | .cmWrite o data => d.beginCm n j true o data
  | _ => d

/-- A command begins: the checks of R310, in their order, then its effect. -/
def Dev.begin (d : Dev) (j : Job) : Dev :=
  let n := j.hdr.target
  let c := d.check j
  let d := (if j.op.carries then d.listRead j else d).strayUse j
  match c with
  | .status c => d.complete j c 0 0
  | .prot k i => (d.cmdViolation j k i).complete j stProtection 0 0
  | .ok =>
    match d.check7 n j with
    | some c => d.complete j c 0 0
    | none => if n = 8 then d.runModule j else if j.op.isQuery then d.runQuery n j else d.takeTurn n j

/-! ### Unclosed partitions (R414) -/

/-- The close of partition `p` begins with the search for its last sheet. -/
def Dev.recovStart (d : Dev) (n p : Nat) : Dev :=
  let d := d.enterPart n p
  let e := (d.sp n).cart.eods.getD p {}
  let room := (((List.range (d.sp n).partDef.wrapCount).map (fun k =>
    slotsPerWrap (zoneOfWrap ((d.sp n).partDef.firstWrap + k)))).foldl (· + ·) 0)
  (d.modSp n (fun s => { s with recov := some { part := p, first := e.sheet, lo := 0, hi := room - e.sheet, nextRec := e.nextRecord } })).bitPut
    pgMgmt Reg.MGMT.RECOVERING n true

/-- The first partition whose entry is invalid. -/
def Cart.unclosed (c : Cart) : Option Nat := (List.range c.parts.length).find? (fun p => !(c.eods.getD p {}).valid)

/-- The close of a partition is over: the next one follows, and in the end the spoke stands at partition 0. -/
def Dev.recovEnds (d : Dev) (n : Nat) (again : Bool) : Dev :=
  let p := match (d.sp n).recov with | some r => r.part | none => 0
  let d := (d.modSp n (fun s => { s with recov := none })).endReading n
  let later := (List.range (d.sp n).cart.parts.length).find? (fun q => decide (p < q) && !((d.sp n).cart.eods.getD q {}).valid)
  match (if again then later else none) with
  | some q => d.recovStart n q
  | none => (d.enterPart n 0).bitPut pgMgmt Reg.MGMT.RECOVERING n false

/-- The parity sheets of block `q` that the run does not hold. -/
def Dev.missingParity (d : Dev) (n q last : Nat) : Dev :=
  let d := d.parityPhase n q
  d.modWr n (fun w => { w with sheets := w.sheets.filter (fun s => s.kind != 2 || decide (last < s.num)),
                               closedQ := w.closedQ.filter (fun k => decide (last < k)) })

/-- Step 5 or 6: the close after the run's last sheet. -/
def Dev.recovClose (d : Dev) (n : Nat) (r : Recov) : Dev :=
  let e := (d.sp n).cart.eods.getD r.part {}
  let last := r.next - 1
  let place := expectSlot (d.sp n).partDef.wrapCount (d.sp n).partDef.firstWrap r.next
  let d := d.endReading n
  if (d.sp n).lastWrap place.1 && decide (slotsPerWrap (zoneOfWrap place.1) ≤ place.2) ||
     decide ((d.sp n).partDef.firstWrap + (d.sp n).partDef.wrapCount ≤ place.1) then
    let d := d.modSp n (fun s => { s with recov := some { r with reading := false, hi := 0, lo := 1, tries := 99 } })
    d.cmWriteEod n .eodValidate r.part { e with valid := true, sheet := r.next, nextRecord := r.nextRec }
  else
    let d := d.modSess n (fun s => { s with
      isOpen := true, eodInvalid := true, session := e.session + 1, nextObj := r.nextRec, nextSheet := nextDataSheet last, topSheet := last,
      sbRec := none, sbSheet := 0xFFFFFFFF, closing := some 3, closeBuilt := false, eodFailed := false, lastData := r.hi })
    let d := d.modWr n (fun w => { w with sheets := [], settledTop := none, wrap := place.1, slotsUsed := place.2, cands := [],
                                          runUm := place.2 * bitsToUm (zoneOfWrap place.1) sheetBits })
    let d := d.modSp n (fun s => { s with recov := some { r with reading := false, lo := 1, hi := 0, tries := 100 } })
    let d := if 120 ≤ sheetPos last ∧ sheetPos last < 127 then d.missingParity n (sheetBlock last) last else d
    d.advanceClose n

/-- The data members of the current block are added afresh as the run is read (step 5). -/
def Dev.recovAdd (d : Dev) (n : Nat) (s : RSheet) : Dev :=
  let q := sheetBlock s.num
  let d := if (d.sp n).wr.block = some q && (d.sp n).wr.accs.length == 8 then d
    else match d.allocN n 8388608 8 with
      | (_, none) => d.modWr n (fun w => { w with accFault := w.accFault ++ [4 * q, 4 * q + 1, 4 * q + 2, 4 * q + 3] })
      | (e, some hs) => (e.decRefs (e.sp n).wr.accs).modWr n (fun w => { w with accs := hs, block := some q })
  if 120 ≤ sheetPos s.num || (d.sp n).wr.accs.length != 8 then d
  else d.accAdd n (sheetReam s.num) (sheetMember s.num) (rowBytes s.fixed 0 payloadBytes)

/-- The sheet present next after those that no slot holds around `k`, as the run has found. -/
def Rd.pastGap (r : Rd) (k : Nat) : Option Nat :=
  match r.gaps.find? (fun g => decide (g.1 ≤ k) && decide (k < g.2)) with
  | some g => some g.2
  | none => none

/-- The run is read on from its last sheet (steps 2 to 4).
(DEDUCED, log entry 50.) -/
def Dev.recovRun (n : Nat) : Nat → Dev → Dev
  | 0, d => d
  | f + 1, d =>
    match (d.sp n).recov with
    | none => d
    | some r =>
      match d.obtain n r.next true with
      | (d, .wait) => d
      | (d, .lost _) => d.recovClose n r
      | (d, .absent) =>
        -- the numbers that a short ream skips (R76): the block goes on at its parity
        let q := 128 * sheetBlock r.next + 120
        if (d.rd n).pastGap r.next = some q ∧ r.next < q then
          Dev.recovRun n f (d.modSp n (fun x => { x with recov := some { r with next := q } }))
        else d.recovClose n r
      | (d, .sheet s) =>
        if !s.resolved then d.recovClose n r
        else if s.kind = 4 then
          let c := s.closeRec
          let place := (d.sp n).placeOf s.num
          let e : EodEntry := { valid := true, wrap := place.1, sheet := s.num, tpw := tpwOf place.2 (bandOfWrap place.1),
                                nextRecord := c.nextRecord, session := c.session }
          let d := d.modSp n (fun x => { x with recov := some { r with reading := false, lo := 1, hi := 0, tries := 99 } })
          (d.endReading n).cmWriteEod n .eodValidate r.part e
        else
          let d := d.recovAdd n s
          let next := match s.lastEnd with | some o => if s.kind = 1 then max r.nextRec (o + 1) else r.nextRec | none => r.nextRec
          let data := if s.kind = 1 && !s.entries.isEmpty then s.num
            else if s.kind = 3 && r.hi = 0xFFFFFFFF then s.closeRec.lastDataSheet else r.hi
          let d := d.modSp n (fun x => { x with recov := some { r with next := s.num + 1, nextRec := next, hi := data } })
          Dev.recovRun n f (d.dropSheetR n s.num)

/-- The search's next probe (step 1): a sheet met counts whether or not it resolves; where no slot holds the probe, the next sheet present
counts, or the end-of-data sheet met.
(DEDUCED, log entry 50.) -/
def Dev.recovSearch (n : Nat) : Nat → Dev → Dev
  | 0, d => d
  | f + 1, d =>
    match (d.sp n).recov with
    | none => d
    | some r =>
      let set (d : Dev) (x : Recov) : Dev := d.modSp n (fun s => { s with recov := some x })
      if r.hi ≤ r.lo || decide (24 ≤ r.tries) then
        -- the run begins with the first slot of the block that the last sheet found lies in
        let start := 128 * sheetBlock (r.first + r.lo - 1)
        Dev.recovRun n pumpFuel (set d { r with reading := true, next := start, hi := 0xFFFFFFFF, tries := 50 })
      else
        let m := (r.lo + r.hi) / 2
        match d.obtain n (r.first + m) true with
        | (d, .wait) => d
        | (d, .sheet s) | (d, .lost s) => Dev.recovSearch n f ((set d { r with lo := m + 1, tries := r.tries + 1 }).dropSheetR n s.num)
        | (d, .absent) =>
          let r := { r with tries := r.tries + 1 }
          match (d.rd n).pastGap (r.first + m), (d.rd n).endAt with
          | some k, _ =>
            Dev.recovSearch n f (set d (if r.first ≤ k && decide (k < r.first + r.hi) then { r with lo := k + 1 - r.first } else { r with hi := m }))
          | none, some e =>
            Dev.recovSearch n f (set d (if r.first ≤ e then { r with lo := e + 1 - r.first, hi := e + 1 - r.first } else { r with hi := m }))
          | none, none => Dev.recovSearch n f (set d { r with hi := m })

/-- Recovery goes as far as it can without waiting. -/
def Dev.recovOn (d : Dev) (n : Nat) : Dev :=
  match (d.sp n).recov with
  | none => d
  | some r =>
    if 100 ≤ r.tries && !(d.sp n).sess.isOpen then d.recovEnds n true
    else if 99 ≤ r.tries then d else if r.reading then Dev.recovRun n pumpFuel d else Dev.recovSearch n 64 d

/-- Nothing recorded lies where a probe or the run has come to: no header passes on any lane. -/
def Dev.recovBlank (d : Dev) (n : Nat) : Dev :=
  match (d.sp n).recov with
  | none => d
  | some r =>
    if 99 ≤ r.tries then d
    else if r.reading then d.recovClose n r
    else
      let m := (r.lo + r.hi) / 2
      (d.modSp n (fun s => { s with recov := some { r with hi := m, tries := r.tries + 1 } })).endReading n

/-! ### The session-break sheet of the block appended to (R80, R93) -/

/-- Before the first sheet of a session is sealed, the session-break sheet that stands at position 0 of its block is read. -/
def Dev.sbStep (d : Dev) (n : Nat) : Dev :=
  let s := (d.sp n).sess
  let w := (d.sp n).wr
  if !s.isOpen || s.sbRec.isSome || s.sbSheet == 0xFFFFFFFF || s.closeBuilt || !(d.sp n).cur.all (fun j => !j.op.waitsCommit || (d.sp n).curStep != 0) ||
     (w.closedQ.isEmpty && s.closing.isNone) then d
  else
    let fails (d : Dev) : Dev := (d.modWr n (fun w => { w with accFault := w.accFault ++ [4 * sheetBlock s.sbSheet] })).modSess n
      (fun s => { s with sbSheet := 0xFFFFFFFF })
    match d.obtain n s.sbSheet false with
    | (d, .wait) => d
    | (d, .absent) => fails d
    | (d, .lost _) => fails d
    | (d, .sheet x) =>
      if x.kind ≠ 3 || !x.resolved then fails d
      else
        let r := x.closeRec
        let d := d.modSess n (fun s => { s with sbRec := some r, lastData := if s.lastData = 0xFFFFFFFF then r.lastDataSheet else s.lastData })
        (d.dropSheetR n x.num).endReading n

/-! ### What a spoke does of itself -/

/-- The tape goes to the place of the next slot when a sheet is due and nothing reads (R185). -/
def Dev.goWrite (d : Dev) (n : Nat) : Dev :=
  let s := d.sp n
  let x := s.drv
  if s.wr.dueQ.isEmpty || s.wr.running || s.readsOn || s.recov.any (fun r => decide (r.tries < 99)) || (d.lad n).phase != .idle ||
     x.atWrite || x.turning || x.target.isSome || x.unloadStep != 0 && x.unloadStep != 1 || x.lost || x.needTension || d.fenced n ||
     d.cartState n != 3 || s.cur.any (fun j => match j.op with | .locate .. => s.curStep == 0 | _ => false) then d
  else if x.streaming then (if x.reading then d.endReading n else d)
  else if !x.tapeStopped then d
  else let p := s.writePlace; d.locateTo n p.1 p.2 (d.startCog n)

/-- The command in progress goes on. -/
def Dev.curOn (d : Dev) (n : Nat) : Dev :=
  let s := d.sp n
  match s.cur with
  | none => if s.rdst.any (fun r => !r.suspended) then Dev.readOn n pumpFuel d else d
  | some j =>
    match j.op with
    | .write .. => if s.curStep == 2 && s.noBuf then d.land n else d
    | .sheetWrite _ => if s.curStep == 2 then (if s.noBuf then d.land n else d).sheetAccepted n else d
    | .sync => if s.curStep == 0 then d.syncOn n else d
    | .streamClose => if s.curStep == 0 then d.streamCloseOn n j else d
    | .read .. => if s.curStep == 0 then Dev.readOn n pumpFuel d else d
    | .locate _ _ _ hint => if s.curStep == 0 then d.hintOn n hint else d
    | .space c u => if s.curStep == 0 then Dev.spaceOn n (decide (0 ≤ c)) u pumpFuel d else d
    | .sheetRead _ k m => if s.curStep == 0 then d.sheetReadOn n j k m else d
    | .format c _ => if s.curStep == 0 then d.formatOn n c else d
    | _ => d

/-- Everything that follows of itself on spoke `n` from what has just happened. -/
def Dev.advance (d : Dev) (n : Nat) : Dev :=
  let d := (((d.c2Next n).ladderNext n 64).sbStep n).resumeRun n
  let d := ((d.advanceClose n).closeWatch n).holdOn n
  let d := (((d.startCur n).curOn n).unloadOn n).recovOn n
  d.goWrite n

/-! ### Turns (R290, R308, R309) -/

/-- Has every command fetched earlier from the ring of a FENCE command completed? -/
def Dev.fenceOk (d : Dev) (j : Job) : Bool := !j.hdr.fence || !d.live.any (fun p => p.2 == j.hdr.sq && decide (p.1 < j.seq))

/-- Can the command's host bytes be read now, where they are needed at once (R279)? Its buffer list counts against the outstanding reads
(R463). -/
def Dev.readable (d : Dev) (j : Job) : Bool :=
  !(j.op.carries && j.hdr.dmode == 2 && decide (d.readLimit (funcEp j.fn) ≤ d.readsOut (funcEp j.fn))) &&
  match j.op with
  | .bufLoad .. | .cmWrite .. => j.hdr.dmode == 3 || hdrLen j.hdr == 0 || (d.func j.fn).bme
  | .bufAlloc _ => d.pool.configured
  | _ => true

/-- May a spoke command that is no query begin? -/
def Dev.spokeFree (d : Dev) (n : Nat) (j : Job) : Bool :=
  let s := d.sp n
  s.cur.isNone && !s.rdst.any (fun r => !r.suspended) && s.recov.isNone && s.drv.unloadStep == 0 &&
  (s.sess.closing.isNone || (match j.op with | .sync | .streamOpen _ | .streamSet _ | .streamClose => true | _ => false)) &&
  !(s.hostLost && s.owner == funcEp j.fn && d.fon (pgPcie s.owner) Reg.PCIE.HOST_LOST)

/-- The command of spoke `n` that may begin now: a query whose fence is open, or the oldest of the others. -/
def Dev.turnOf (d : Dev) (n : Nat) : Option Job :=
  let w := (d.sp n).waiting
  match w.find? (fun j => j.op.isQuery && d.fenceOk j && d.readable j) with
  | some j => some j
  | none => match w.find? (fun j => !j.op.isQuery) with
    | some j => if d.fenceOk j && d.spokeFree n j then some j else none
    | none => none

/-- The next command to begin anywhere. -/
def Dev.findTurn (d : Dev) : Option Job :=
  match (List.range 8).findSome? d.turnOf with
  | some j => some j
  | none => d.modWaiting.find? (fun j => d.fenceOk j && d.readable j)

/-- A waiting command leaves its line. -/
def Dev.unwait (d : Dev) (j : Job) : Dev :=
  let d := { d with modWaiting := d.modWaiting.filter (fun x => x.seq != j.seq) }
  if j.hdr.target < 8 then d.modSp j.hdr.target (fun s => { s with waiting := s.waiting.filter (fun x => x.seq != j.seq) }) else d

/-- Waiting commands begin while any may. -/
def Dev.kick : Nat → Dev → Dev
  | 0, d => d
  | f + 1, d =>
    match d.findTurn with
    | none => d
    | some j =>
      Dev.kick f ((d.unwait j).begin j)

/-- Commands that wait, in all. -/
def Dev.waitCount (d : Dev) : Nat := d.modWaiting.length + ((List.range 8).map (fun n => (d.sp n).waiting.length)).foldl (· + ·) 0

/-- Turns taken after what has just happened. -/
def Dev.serve (d : Dev) : Dev := Dev.kick (d.waitCount + 1) d

/-- Spoke `n` goes on, and waiting commands take their turns. -/
def Dev.goOn (d : Dev) (n : Nat) : Dev := (d.advance n).serve

/-- Every spoke goes on: a buffer or an endpoint has changed for all. -/
def Dev.goOnAll (d : Dev) : Dev := ((List.range 8).foldl Dev.advance d).serve

/-! ### A command fetched (R289, R308) -/

/-- The job of a command of ring `h.sq`. -/
def Dev.jobOf (d : Dev) (h : CmdHdr) (op : Op) (data : List Byte) : Job :=
  let f := (d.sq h.sq).func
  { hdr := h, op := op, dom := d.funcDomain f, fn := f, seq := d.jobSeq + 1, data := data }

/-- May the command begin as soon as it is fetched? -/
def Dev.startsNow (d : Dev) (j : Job) : Bool :=
  d.fenceOk j && d.readable j &&
  (!j.targetOk || j.op.isModule || j.op.isQuery || decide (8 ≤ j.hdr.target) ||
    ((d.sp j.hdr.target).waiting.all (·.op.isQuery) && d.spokeFree j.hdr.target j))

/-- A command is fetched: it begins at once, or waits for its turn.
(DEDUCED, log entry 23.) -/
def Dev.submit (d : Dev) (h : CmdHdr) (op : Op) (data : List Byte) : Dev :=
  let j := d.jobOf h op data
  let d := { d with jobSeq := j.seq, live := d.live ++ [(j.seq, h.sq)] }
  if d.startsNow j then
    let d := d.begin j
    if h.target < 8 then d.goOn h.target else d.serve
  else if h.target < 8 && j.targetOk then d.modSp h.target (fun s => { s with waiting := s.waiting ++ [j] })
  else { d with modWaiting := d.modWaiting ++ [j] }

end Sys2Proof.Machine
end

