-- ==== Sys2Proof/Machine/Chest.lean ====
section
/-! DEFINITION. The chest (chapter 10): the check code of MEMCTL, accesses with their faults, zero-fills and clears of the
valid map, and the pool's requests, references and configuration. -/

namespace Sys2Proof.Machine

/-! ### The check code (R251 to R253) -/

/-- The columns of the check code for data bits 0 to 7, as c4 to c0 (R251). -/
def dataCols : List Nat := [0b01011, 0b01101, 0b01110, 0b10011, 0b10101, 0b10110, 0b11001, 0b11010]

/-- The columns for the bits of the address hash. -/
def hashCols : List Nat := [0b00011, 0b00101, 0b01001, 0b10001]

/-- The exclusive or of the columns whose bit is set in `x`. -/
def colSum (cols : List Nat) (x : Nat) : Nat :=
  (List.range cols.length).foldl (fun a i => if bitAt x i then a ^^^ cols.getD i 0 else a) 0

/-- The hash of lane `j` of a word (R252): bit 3 of a chest address is bit 0 of its word address. -/
def laneHash (word j : Nat) : Nat := bitsOf word (4 * j) 4 ^^^ (if bitAt word 32 then 15 else 0)

/-- The check bits of a byte in lane `j` of a word (R251). -/
def checkBits (byte word j : Nat) : Nat := colSum dataCols byte ^^^ colSum hashCols (laneHash word j)

/-- What a syndrome says (R253). -/
inductive Diag where
  | good
  | data (bit : Nat)
  | check
  | odd
  | even
  deriving DecidableEq, Repr

/-- The diagnosis of a syndrome (R253). -/
def diagnose (s : Nat) : Diag :=
  if s = 0 then .good
  else match (List.range 8).find? (fun i => dataCols.getD i 0 == s) with
    | some i => .data i
    | none =>
      let w := onesIn 5 s
      if w = 1 then .check else if w % 2 = 1 then .odd else .even

/-- Is the byte uncorrectable; was an error corrected? -/
def Diag.lost : Diag → Bool
  | .odd | .even => true
  | _ => false
def Diag.corrected : Diag → Bool
  | .data _ | .check => true
  | _ => false

/-- The syndrome of lane `j` of a read of `word` that the DRAM answered from `reached`, with `flips` in what it returned
(R252, R253). The bytes stored are correct, and their check bits are too but for injected patterns (R273). -/
def Dev.laneSyndrome (d : Dev) (word reached : Nat) (flips : List (Nat × Nat)) (j : Nat) : Nat :=
  let a := 8 * reached + j
  let b := (d.chestByte a).toNat
  let f := flips.getD j (0, 0)
  checkBits (b ^^^ (f.1 % 256)) word j ^^^ (checkBits b reached j ^^^ mget (fun _ => 0) d.chestBad a ^^^ (f.2 % 32))

/-! ### Reads (R253 to R259) -/

/-- The MEMCTL page of the channel that a word lies on (R249). -/
def pgOfWord (word : Nat) : PageId := pgMemctl (bitsOf word 5 2)

/-- A corrected error is counted and recorded (R256): `j` is the first corrected lane. -/
def Dev.memCorrected (d : Dev) (word j syn : Nat) : Dev :=
  let pg := pgOfWord word
  let d := ((d.bump pg Reg.MEMCTL.CE_CNT 1).ev pg Reg.MEMCTL.CE).errEvent pg errMemCorr
  if d.fon pg Reg.MEMCTL.CE_INFO_VALID then d
  else (((d.fset pg Reg.MEMCTL.CE_ADDR (8 * word + j)).fset pg Reg.MEMCTL.CE_INFO_ADDR_HI ((8 * word + j) / 2 ^ 32)).fset pg
    Reg.MEMCTL.CE_INFO_SYNDROME syn).ev pg Reg.MEMCTL.CE_INFO_VALID

/-- An uncorrectable word is counted and recorded (R257): `odd` is the class of its lowest uncorrectable lane, which the manual does not say
for a word with lanes of both.
(DESIGN CHOICE, log entry 7.) -/
def Dev.memUncorr (d : Dev) (word lanes syn : Nat) (odd : Bool) : Dev :=
  let pg := pgOfWord word
  let d := if odd then (d.bump pg Reg.MEMCTL.UE_ODD_CNT 1).ev pg Reg.MEMCTL.UE_ODD
    else (d.bump pg Reg.MEMCTL.UE_EVEN_CNT 1).ev pg Reg.MEMCTL.UE_EVEN
  let d := d.errEvent pg errMemUncorr
  if d.fon pg Reg.MEMCTL.UE_INFO_VALID then d
  else ((((d.fset pg Reg.MEMCTL.UE_ADDR (8 * word)).fset pg Reg.MEMCTL.UE_INFO_ADDR_HI (8 * word / 2 ^ 32)).fset pg
    Reg.MEMCTL.UE_INFO_SYNDROME syn).fset pg Reg.MEMCTL.LANES lanes).ev pg Reg.MEMCTL.UE_INFO_VALID

/-- A handle withdrawn (R270): the one that an operation was made on, an allocated one or the head of its free list. -/
def Dev.withdraw (d : Dev) (h : Nat) : Dev :=
  match d.pool.classOf h with
  | none => d
  | some c =>
    let p := d.pool
    let held := decide (0 < (p.descOf h).count)
    if !held && p.nextHandle c != h then d
    else
      let p := if held then { p with desc := mdel h p.desc, domRefs := p.domRefs.filter (fun e => e.1 % 2 ^ 24 != h) } else p.popFree c
      let d := { d with pool := { p with lost := h :: p.lost } }
      (d.bump pgPool Reg.POOL.LOST_HANDLES 1).ev pgPool Reg.POOL.LOST_HANDLE

/-- A record's host data read as uncorrectable (R125): its write fails, and the spoke halts with cause 3. -/
def Dev.inputLost (d : Dev) (st : Nat) : Dev :=
  match d.recs.find? (fun r => r.stream == st && r.started) with
  | none => d
  | some r =>
    match r.num with
    | none => d.dropRecs (fun x => x == r)
    | some k =>
      let n := r.spoke
      let d := ((d.endRecord n).dropRecs (fun x => x.spoke == n && x.num == some k)).modObj n k (fun o => { o with dead := true, ready := false })
      (d.failObjects n stInputUncorrectable [k]).halt n 3 0

/-- The block in decoding whose stored bytes, or whose history, read as uncorrectable is faulty (R130, R257). -/
def Dev.storedLost (d : Dev) (n : Nat) : Dev :=
  match d.rs n with
  | none => d
  | some r =>
    match (List.range r.blks.length).find? (fun i => match (r.blks.getD i { bytes := [], first := false, last := false, st := .frame }).st with
        | .coding _ => true | _ => false) with
    | none => d
    | some i =>
      let b := r.blks.getD i { bytes := [], first := false, last := false, st := .frame }
      match b.st with
      | .coding e =>
        let d := d.engineFree e
        if b.failedOn.isNone then d.modRBlk n i (fun b => { b with st := .ncf, failedOn := some e })
        else ((d.modRBlk n i (fun b => { b with st := .done, bad := true })).bump (pgDecomp e) Reg.DECOMP.FAULT_BLOCKS 1).fset
          (pgDecomp e) Reg.DECOMP.FAULT_STREAM r.stream
      | _ => d

/-- The command in progress whose bytes for the host read as uncorrectable completes with DATA_CHECK (R257). -/
def Dev.hostDataLost (d : Dev) (n : Nat) : Dev :=
  match d.rs n, (d.sp n).cur with
  | some _, some _ => d.readStops n stDataCheck
  | none, some j => if (match j.op with | .sheetRead .. => true | _ => false) then d.finish n stDataCheck 0 (hdrLen j.hdr) 0 else d
  | _, _ => d

/-- What an uncorrectable word does to its reader (R257). -/
def Dev.readerFault (d : Dev) : MemReader → Dev
  | .sheet n num => d.halt n 3 num
  | .accumulator n r =>
    let pg := pgWriter n
    let q := (d.sp n).wr.block.getD 0
    let d := d.modWr n (fun w => { w with accFault := w.accFault ++ [4 * q + r.val] })
    (((d.ev pg Reg.WRITER.ACC_UNCORR).fset pg Reg.WRITER.DAMAGE_BLOCK q).fset pg Reg.WRITER.DAMAGE_REAM r).bitPut pg
      Reg.WRITER.DAMAGED_REAMS r true
  | .comp st => d.inputLost st
  | .decomp n => d.storedLost n
  | .dma n => d.hostDataLost n
  | .descriptor h => d.withdraw h
  | .other => d

/-- An accumulator goes on from the bytes that the chest returned, right or wrong (R93): the uncorrectable lanes of the word hold them
from then on. -/
def Dev.accWrong (d : Dev) (by_ : MemReader) (word reached : Nat) (flips : List (Nat × Nat)) (bad : List Nat) : Dev :=
  match by_ with
  | .accumulator .. => bad.foldl (fun e j =>
      e.chestPut (8 * word + j) [d.chestByte (8 * reached + j) ^^^ BitVec.ofNat 8 (flips.getD j (0, 0)).1]) d
  | _ => d

/-- MEMCTL reads a word (R253): every lane's syndrome is acted on. An invalid page answers zeros without the DRAM (R259). -/
def Dev.memRead (d : Dev) (by_ : MemReader) (word reached : Nat) (flips : List (Nat × Nat)) : Dev :=
  if !d.pageValid (word / 512) then d.bump pgVmap Reg.VALIDMAP.ZERO_READS 1
  else
    let syn := (List.range 8).map (d.laneSyndrome word reached flips)
    let dg := syn.map diagnose
    let d := match (List.range 8).find? (fun j => (dg.getD j .good).corrected) with
      | some j => d.memCorrected word j (syn.getD j 0)
      | none => d
    match (List.range 8).find? (fun j => (dg.getD j .good).lost) with
    | none => d
    | some j =>
      let bad := (List.range 8).filter (fun i => (dg.getD i .good).lost)
      let lanes := bad.foldl (fun a i => a + 2 ^ i) 0
      ((d.memUncorr word lanes (syn.getD j 0) (dg.getD j .good == .odd)).readerFault by_).accWrong by_ word reached flips bad

/-! ### Writes and zero-fills (R255, R260) -/

/-- The enabled bytes of one beat written. -/
def Dev.putBeat (d : Dev) (word : Nat) (b : Nat × Nat) : Dev :=
  (List.range 8).foldl (fun e j => if bitAt b.2 j then e.chestPut (8 * word + j) [BitVec.ofNat 8 (bitsOf b.1 (8 * j) 8)] else e) d

/-- An armed injection goes into the check bits that this beat writes for LANE (R273), and is done. -/
def Dev.inject (d : Dev) (word : Nat) (b : Nat × Nat) : Dev :=
  let pg := pgOfWord word
  if !d.fon pg Reg.MEMCTL.ARM then d
  else
    let j := d.fget pg Reg.MEMCTL.LANE
    let d' := d.clr pg Reg.MEMCTL.ARM
    if bitAt b.2 j then { d' with chestBad := mset (fun _ => 0) d'.chestBad (8 * word + j) (d.fget pg Reg.MEMCTL.PATTERN) } else d'

/-- Pages with a zero-fill pending. -/
def Dev.fillPending (d : Dev) (p : Nat) : Bool := mget (fun _ => false) d.vmFill p

/-- The first page of `word … word + k − 1` that satisfies `f`. -/
def firstPage (word k : Nat) (f : Nat → Bool) : Option Nat :=
  if k = 0 then none
  else ((List.range ((word + k - 1) / 512 + 1 - word / 512)).map (· + word / 512)).find? f

/-- Do the beats cover the whole page with every byte enabled (R260)? -/
def coversPage (word : Nat) (beats : List (Nat × Nat)) (p : Nat) : Bool :=
  decide (word ≤ 512 * p) && decide (512 * (p + 1) ≤ word + beats.length) &&
  ((beats.drop (512 * p - word)).take 512).all (fun b => b.2 % 256 == 255)

/-- Pages that the write would make valid and leave fill-pending. -/
def Dev.newFills (d : Dev) (word : Nat) (beats : List (Nat × Nat)) : List Nat :=
  if beats.isEmpty then []
  else ((List.range ((word + beats.length - 1) / 512 + 1 - word / 512)).map (· + word / 512)).filter
    (fun p => !d.pageValid p && !coversPage word beats p)

/-- MEMCTL accepts a write: the enabled bytes with their check bits, and nothing else (R255); first-written pages become
valid and fill-pending (R260). -/
def Dev.memWrite (d : Dev) (word : Nat) (beats : List (Nat × Nat)) : Dev :=
  let fills := d.newFills word beats
  let d := (List.range beats.length).foldl (fun e i =>
    (e.putBeat (word + i) (beats.getD i (0, 0))).inject (word + i) (beats.getD i (0, 0))) d
  { d with vmFill := fills.foldl (fun m p => mset (fun _ => false) m p true) d.vmFill }

/-- The pages that an access touches. -/
def memSpan : MemAcc → Nat × Nat
  | .read _ w _ _ => (w, 1)
  | .write w b => (w, b.length)

/-- Must the access wait: for the zero-fill of a page, for one of the 64 places of R260, behind an access that waits?.
(DEDUCED, log entry 45.) -/
def Dev.memMustWait (d : Dev) (a : MemAcc) : Bool :=
  (firstPage (memSpan a).1 (memSpan a).2 d.fillPending).isSome ||
  (match a with
    | .write w b => decide (64 < d.vmFill.length + (d.newFills w b).length) && !d.vmFill.isEmpty
    | .read .. => false) ||
  d.memWaits.any (fun x => decide ((memSpan x).1 / 512 ≤ ((memSpan a).1 + (memSpan a).2 - 1) / 512) && decide ((memSpan a).1 / 512 ≤ ((memSpan x).1 + (memSpan x).2 - 1) / 512))

/-- The access is made. -/
def Dev.memDo (d : Dev) : MemAcc → Dev
  | .read by_ w r f => (d.memRead by_ w r f).unit (pgOfWord w)
  | .write w b => (d.memWrite w b).unit (pgOfWord w)

/-- An access reaches MEMCTL: made now, or in its turn after the fill it waits for. -/
def Dev.memAccess (d : Dev) (a : MemAcc) : Dev :=
  if d.memMustWait a then { d with memWaits := d.memWaits ++ [a] } else d.memDo a

/-- Waiting accesses proceed in order, as far as they can. -/
def Dev.memDrain (d : Dev) (l : List MemAcc) : Dev := l.foldl Dev.memAccess { d with memWaits := [] }

/-- A page's zero-fill completes (R260). -/
def Dev.pageFillDone (d : Dev) (p : Nat) : Dev :=
  if !d.fillPending p then d
  else
    let d := { d with vmFill := mset (fun _ => false) d.vmFill p false }.bump pgVmap Reg.VALIDMAP.FILLS 1
    (d.freeDying).memDrain d.memWaits

/-! ### Clears of the valid map (R261) -/

/-- VM_CLR.GO: nothing while a clear runs; a count of 0 ends at once. -/
def Dev.vmClrGo (d : Dev) : Dev :=
  if d.fon pgVmap Reg.VALIDMAP.BUSY then d
  else
    let b := d.fget pgVmap Reg.VALIDMAP.VM_CLR_BASE_PAGE
    let k := min 16777216 (d.fget pgVmap Reg.VALIDMAP.COUNT)
    if k = 0 then d.ev pgVmap Reg.VALIDMAP.CLR_DONE
    else { d with vmClr := some (b, min k (16777216 - b)) }.ev pgVmap Reg.VALIDMAP.BUSY

/-- The clear ends: its pages are invalid. It cannot end while one of them is fill-pending. The moments at which it reaches them (R261) lie
within this step: the accesses made before it find them valid.
(DESIGN CHOICE, log entry 45.) -/
def Dev.vmClrDone (d : Dev) : Dev :=
  match d.vmClr with
  | none => d
  | some (b, k) =>
    if d.vmFill.any (fun e => decide (b ≤ e.1) && decide (e.1 < b + k)) then d
    else (({ d with vmClr := none }.invalidate b k).clr pgVmap Reg.VALIDMAP.BUSY).ev pgVmap Reg.VALIDMAP.CLR_DONE

/-! ### The pool (R264 to R272) -/

/-- An allocation request reaches the pool (R267): before it is configured it waits (R265). A number that is no owner's, or one reserved, is
allocated nothing (R266). -/
def Dev.poolRequest (d : Dev) (o size : Nat) : Dev :=
  if !owners.contains o then d
  else if d.pool.configured && d.pool.applying.isNone then (d.alloc o size).1
  else { d with pool := { d.pool with waits := d.pool.waits ++ [(o, size)] } }

/-- Every engine that waits for an output buffer retries (R124). -/
def Dev.compRetryAll (d : Dev) : Dev := (List.range 17).foldl Dev.compRetry d

/-- A buffer has come free, and those who wait for one retry (R124, R272). -/
def Dev.afterFree (d : Dev) : Dev := d.compRetryAll.goOnAll

/-- A reference added to a handle (R269); one to a free handle is UB-8. -/
def Dev.refUp (d : Dev) (h : Nat) : Dev := if d.pool.isFree h then d.wildFree h else d.incRef h

/-- A reference dropped, and what a freed buffer lets go on; one of a free handle is UB-2 (R269); a withdrawn handle's release is
dropped (R270). -/
def Dev.refDown (d : Dev) (h : Nat) : Dev :=
  if d.pool.isFree h then d.wildFree h
  else if (d.pool.descOf h).count = 1 then (d.decRef h).afterFree
  else d.decRef h

/-- A configuration refused by R265. -/
def Dev.cfgBad (d : Dev) (cs : List Nat) : Bool :=
  decide (16777215 < cs.foldl (· + ·) 0) ||
  decide (65472 * 1048576 < ((List.range 6).map (fun c => cs.getD c 0 * classSize c)).foldl (· + ·) 0) || !d.pool.desc.isEmpty || !d.pool.dying.isEmpty

/-- The staged counts. -/
def Dev.stagedCounts (d : Dev) : List Nat := (List.range 6).map (fun c => d.fget pgPool (Reg.POOL.COUNT c))

/-- POOL_CTRL.APPLY (R265). -/
def Dev.poolApply (d : Dev) : Dev :=
  if d.pool.applying.isSome then d
  else if d.cfgBad d.stagedCounts then d.ev pgPool Reg.POOL.CFG_REFUSED
  else { d with pool := { d.pool with applying := some d.stagedCounts } }

/-- The classes laid out with the counts `cs`, every descriptor free (R265). -/
def Pool.laidOut (p : Pool) (cs : List Nat) : Pool :=
  { p with counts := cs, freed := [], issued := [], desc := [], lost := [], occ := [], configured := true,
           applying := if p.configured then none else p.applying, domRefs := [], waits := [] }

/-- The descriptors written (R250, R265): the pages of the descriptor area that hold them are valid. -/
def Dev.describe (d : Dev) (cs : List Nat) : Dev :=
  let k := (cs.foldl (· + ·) 0 + 1023) / 1024
  { d with vmValid := d.vmValid.filter (fun e => decide (e.1 < 0xFFC000)) ++ (List.range k).map (fun i => (0xFFC000 + i, true)) ++
             d.vmValid.filter (fun e => decide (0xFFC000 + k ≤ e.1)) }

/-- Are the four channels trained? -/
def Dev.trained (d : Dev) : Bool := (List.range 4).all (fun k => d.fon (pgMemctl k) Reg.MEMCTL.TRAINED)

/-- The pool finishes laying out the classes: those of APPLY, or after a reset of CHEST the counts staged then, which are
the reset counts. Requests that waited are taken. -/
def Dev.poolConfigDone (d : Dev) : Dev :=
  let cs? : Option (List Nat) :=
    if !d.trained then none
    else if d.pool.configured then d.pool.applying
    else some ((List.range 6).map (fun c => fldReset pgPool (Reg.POOL.COUNT c).slot))
  match cs? with
  | none => d
  | some cs =>
    let w := d.pool.waits
    let d := (({ d with pool := d.pool.laidOut cs }.describe cs).ev pgPool Reg.POOL.CFG_DONE).ev pgPool Reg.POOL.CONFIGURED
    (w.foldl (fun (e : Dev) x => e.poolRequest x.1 x.2) d).goOnAll

end Sys2Proof.Machine
end

