-- ==== Sys2Proof/Machine/Faults.lean ====
section
/-! DEFINITION. Faults (chapter 15): damaged units and their outcomes, retirement and re-admission, fences of spokes and
their lifts, spoke resets, the loss of a host. -/

namespace Sys2Proof.Machine

/-! ### Fences (R401) -/

/-- Reading state that a fence or a reset ends at once: nothing of it goes on but the second decodes (R97). -/
def Dev.dropReading (d : Dev) (n : Nat) : Dev :=
  let d := match d.rs n with
    | some _ => d.cutRead n
    | none => d
  let l := d.lad n
  let d := if l.onTape then d.attemptRestore n else d
  let d := if l.phase == .idle then d else d.unhold n (fun c => c.seg.sheet == l.sheet)
  let d := (d.modRd n (fun r => { r with lanes := [], tiles := [], ladder := { raw := l.raw, bufs := l.bufs } })).decodeRest n
  let d := ((d.setSeek n {}).modSp n (fun s => { s with recov := none })).bitPut pgMgmt Reg.MGMT.RECOVERING n false
  (d.holdRegs n).ladRegs n

/-- Writing that a fence or a reset ends at once. -/
def Dev.dropWriting (d : Dev) (n : Nat) : Dev :=
  let d := d.modWr n (fun w => { w with slot := none, prevSlot := none, slotDue := false, areaOn := false, ending := false, stop := .none, running := false,
                                        lane0 := [], lane1 := [], verifying := none, cands := [] })
  let d := d.modDrv n (fun x => { x with cm := [], cmOut := [], unloadStep := 0, formatStep := 0, target := none, turning := false,
                                         ctrlStop := false, runUp := false, atWrite := false, tapeStopped := true })
  (d.clr (pgWriter n) Reg.WRITER.WRITING).endStream n

/-- The host transfers of the cartridge memory not yet answered complete with `code`. -/
def Dev.endCm (d : Dev) (n code : Nat) : Dev :=
  ((d.sp n).drv.cm).foldl (fun e x => match x.use with
    | .hostRead j | .hostWrite j => e.complete j code 0 0
    | _ => e) d

/-- What a command of a spoke that is cut off completes with (R400, R401): a WRITE or WRITE_MARK that waits for its commitment, and a SYNC
in progress, with WRITE_ERROR, and at a reset a SYNC that waits too; every other with `code`. -/
def cutStatus (code : Nat) (begun : Bool) (j : Job) : Nat :=
  match j.op with
  | .write _ true _ | .writeMark true _ => stWriteError
  | .sync => if begun || code != stFenced then stWriteError else code
  | _ => code

/-- Everything that waits or runs on spoke `n` comes to its end (R400, R401); accepted objects are not written. -/
def Dev.cutOff (d : Dev) (n code : Nat) : Dev :=
  let d := ((d.reportHalt n).dropLanding n).endCm n code
  let st := match d.rs n with | some r => some r.stream | none => none
  let w := (d.sp n).waiting
  let c := (d.sp n).cur.toList
  let d := d.modSp n (fun s => { s with waiting := [], cur := none, curStep := 0 })
  let d := c.foldl (fun (e : Dev) j => e.complete j (cutStatus code true j) 0 0) d
  let d := w.foldl (fun (e : Dev) j => e.complete j (cutStatus code false j) 0 0) d
  let d := match st with | some k => d.modStream k (fun s => { s with suspended := false }) | none => d
  (d.dropReading n).dropWriting n

/-- FENCE_CAUSE of spoke `n`. -/
def Dev.fenceCause (d : Dev) (n : Nat) : Nat := bitsOf (d.fget pgMgmt Reg.MGMT.FENCE_CAUSE) (4 * n) 4
def Dev.setCause (d : Dev) (n c : Nat) : Dev :=
  d.fset pgMgmt Reg.MGMT.FENCE_CAUSE (d.fget pgMgmt Reg.MGMT.FENCE_CAUSE - 2 ^ (4 * n) * d.fenceCause n + 2 ^ (4 * n) * c)

/-- Spoke `n` is fenced with a cause; a second cause leaves the first (R401). A tape that moves makes a controlled stop at once (R176). -/
def Dev.fence (d : Dev) (n cause : Nat) : Dev :=
  if d.fenced n then d
  else
    let moving := !(d.sp n).drv.tapeStopped
    let d := d.cutOff n stFenced
    let d := (((d.bitPut pgMgmt Reg.MGMT.FENCED n true).setCause n cause).ev pgMgmt Reg.MGMT.FENCE).clr (pgLink n) Reg.LINK.CAD_ON
    let d := d.bitPut pgMgmt Reg.MGMT.HOLDING n false
    let d := ((d.modSp n (fun s => { s with hostLost := false })).evalHold n).paceOut n
    if moving then (d.modDrv n (fun x => { x with tapeStopped := false })).controlledStop n else d

/-! ### Spoke resets (R400, R402) -/

/-- Every reference that spoke `n` holds dropped (R400). -/
def Dev.dropSpokeRefs (d : Dev) (n : Nat) : Dev :=
  let s := d.sp n
  let d := s.wr.sheets.foldl (fun e x => e.decRefs x.refs) d
  let d := s.wr.objs.foldl Dev.dropObj d
  let d := d.decRefs s.wr.accs
  let d := d.decRefs (s.rd.sheets.filterMap (·.buf))
  let d := d.decRefs s.rd.ladder.bufs
  d.dropRecs (fun r => r.spoke == n)

/-- The register pages of a region at their reset values; a retired block stays retired. -/
def Dev.resetBlocks (d : Dev) (x : Nat) : Dev :=
  let gone := (d.regs.filter (fun p => p.1 / 256 == x)).filter (fun p => d.fon p.1 Reg.HEADER.RETIRED)
  (gone.map (·.1)).foldl (fun e pg => (e.ev pg Reg.HEADER.RETIRED).ev pg Reg.HEADER.QUIESCED) (d.resetRegion x)

/-- Pages of a spoke's blocks that have no sibling (R405). -/
def spokeSingles (n : Nat) : List PageId :=
  (List.range 4).map (pgLanefe n) ++ [pgVerify n, pgWriter n, pgServo n, pgMotion n, pgDr n, pgSh n, pgLink n]

/-- The spoke as a reset leaves it: what fails is kept for the next SYNC, and the transport with its cartridge stays. -/
def Spoke.afterReset (s : Spoke) : Spoke :=
  { wr := { failed := s.wr.failed }, failSeq := s.failSeq,
    drv := { present := s.drv.present, mechState := s.drv.mechState, threaded := s.drv.threaded } }

/-- A reset of spoke `n` (R400): `code` ends the commands that wait or run.
(DEDUCED, log entry 37.) -/
def Dev.spokeReset (d : Dev) (n code : Nat) : Dev :=
  let d := ((d.cutOff n code).dropSpokeRefs n).resetBlocks (spokeRegion n)
  let d : Dev := { d.modSp n Spoke.afterReset with latches := d.latches.filter (fun p => p.1 != latchTpw n && p.1 != latchLost n) }
  let d : Dev := { d with streams := d.streams.map (fun (x : Nat × Stream) => (x.1, if x.2.spoke = n then { x.2 with recOpen := false, suspended := false } else x.2)) }
  let d := d.bitPut pgMgmt Reg.MGMT.HOLDING n false
  let d := if d.fenced n then d.evalHold n else d.ev (pgLink n) Reg.LINK.CAD_ON
  let d := (d.capEval n).paceOut n
  if (spokeSingles n).any (fun pg => d.fon pg Reg.HEADER.RETIRED) then d.fence n 2 else d

/-- The fence of spoke `n` is lifted (R402).
(DEDUCED, log entry 37.) -/
def Dev.lift (d : Dev) (n : Nat) : Dev :=
  if !d.fenced n then d
  else
    let cause := d.fenceCause n
    let d := (d.bitPut pgMgmt Reg.MGMT.FENCED n false).setCause n 0
    let d := if cause = 3 then d.modStw (4 + n) (fun x => { x with state := 2, expiries := [] }) else d
    d.spokeReset n stNotReady

/-! ### Retirement (R403 to R406) -/

/-- A block's damage record. -/
def Dev.ret (d : Dev) (pg : PageId) : Retire := mget (fun _ => {}) d.retire pg

/-- The block's damage count (R403). -/
def Dev.damageCount (d : Dev) (pg : PageId) : Nat :=
  let w := d.fget pgMgmt Reg.MGMT.WINDOW
  ((d.ret pg).times.filter (fun t => w == 0 || decide (d.now < t + w * 1000000))).length

/-- The serviceable siblings of a block (R27, R405). -/
def Dev.siblings (d : Dev) (pg : PageId) : List PageId :=
  let x := pg / 256
  let p := pg % 256
  let ok (l : List PageId) : List PageId := l.filter (fun q => q != pg && d.serviceable q)
  if x = 4 then
    if p < 0x20 then ok ((List.range 17).map pgComp) else if p < 0x40 then ok ((List.range 17).map pgDecomp)
    else ok ((List.range 2).map pgCrypt)
  else []

/-- Is the page a decoder tile's: DETECT or DECODE? -/
def isTile (pg : PageId) : Bool := decide (0x10 ≤ pg % 256) && decide (pg % 256 < 0x30) && decide (8 ≤ pg / 256)

/-- The lowest-numbered serviceable sibling. -/
def Dev.sibling (d : Dev) (pg : PageId) : Option Nat := (d.siblings pg).head?.map (· % 256)

/-- A compressor's queued work and streams move to sibling `k` (R122). -/
def Dev.moveComp (d : Dev) (e k : Nat) : Dev :=
  let d : Dev := { d with recs := d.recs.map (fun (r : PRec) => { r with blks := r.blks.map (fun (b : PBlk) =>
    match b.st with
    | .coding x => if x = e then { b with st := .queued, notOn := some e } else b
    | _ => if b.eng = e then { b with eng := k } else b) }) }
  let leads := (d.streams.filter (fun p => p.2.lead == some e)).map (·.1)
  let d := leads.foldl (fun x st => (x.dropLead st).takeLead st) d
  let wait := d.fon (pgComp e) Reg.COMP.WAIT_BUF
  let d := ((d.clr (pgComp e) Reg.COMP.ACTIVE).clr (pgComp e) Reg.COMP.WAIT_BUF).fpShowAll
  if wait then (d.ev (pgComp k) Reg.COMP.WAIT_BUF).compRetry k else d

/-- The blocks that a decompressor holds, one suspended among them, wait for its siblings (R130): what has been delivered of a block
stays delivered. -/
def Dev.moveDecomp (d : Dev) (e : Nat) : Dev :=
  ((List.range 8).foldl (fun x n => x.modRs n (fun r => { r with
    blks := r.blks.map (fun b => if b.engine == some e then { b with st := .ncf } else b),
    susp := if r.susp = some e && !r.raw then none else r.susp,
    mid := if r.susp = some e && !r.raw then none else r.mid })) d).engineFree e

/-- A tile's segments move to the serviceable tiles (R218); without one they are dropped, undecoded. -/
def Dev.moveTile (d : Dev) (n t : Nat) : Dev :=
  let l := (d.rd n).tileOf t
  let d := match (d.lad n).replay with
    | some (k, _) => if k = t then (d.modLad n (fun l => { l with replay := none })).clr (pgDetect n t) Reg.DETECT.ACTIVE else d
    | none => d
  let d := d.setTile n t []
  l.foldl (fun e s => match e.pickTile n with
    | some k => e.setTile n k ((e.rd n).tileOf k ++ [s])
    | none => e.undecoded n s s.align s.freewheel s.altAlign s.samples) d

/-- A block is retired (R404). Its page answers on, with busy 0 and quiesced 1. -/
def Dev.retirePage (d : Dev) (pg : PageId) : Dev :=
  let d := ((d.ev pg Reg.HEADER.RETIRED).clr pg Reg.HEADER.BUSY).ev pg Reg.HEADER.QUIESCED
  let d := (d.ev pgMgmt Reg.MGMT.RETIRE).bump pgMgmt Reg.MGMT.RETIRED_CNT 1
  if d.fon pgMgmt Reg.MGMT.PERSIST then { d with retireLog := d.retireLog.filter (· != pg) ++ [pg] } else d

/-- A block retired, and its work moved (R404, R405). -/
def Dev.retireNow (d : Dev) (pg : PageId) : Dev :=
  let x := pg / 256
  let p := pg % 256
  if isTile pg then
    let d := d.retirePage pg
    let n := x - 8
    (d.moveTile n (p % 16)).capEval n
  else if 8 ≤ x then (d.retirePage pg).fence (x - 8) 2
  else match d.sibling pg with
    | none =>
      let d := (d.ev pg Reg.HEADER.NO_SPARE).ev pgMgmt Reg.MGMT.MGMT_EVT_NO_SPARE
      { d with retire := mdel pg d.retire }
    | some k =>
      let d := d.retirePage pg
      if p < 0x20 then d.moveComp p k else if p < 0x40 then d.moveDecomp (p - 0x20) else d

/-- A damaged unit of a block counts, and may retire it (R397, R403). -/
def Dev.countDamage (d : Dev) (pg : PageId) : Dev :=
  if d.fon pg Reg.HEADER.RETIRED then d
  else
    let d := (d.bump pg Reg.HEADER.DAMAGED_UNITS 1).errEvent pg errDamaged
    let d : Dev := { d with retire := mmod (fun _ => {}) d.retire pg (fun r => { r with times := d.now :: r.times }) }
    let lim := d.fget pgMgmt Reg.MGMT.LIMIT
    if lim ≠ 0 ∧ lim ≤ d.damageCount pg then d.retireNow pg else d

/-- READMIT (R406): the block is reset, returns to service, and its count is cleared. -/
def Dev.readmit (d : Dev) (pg : PageId) : Dev :=
  if (pageOf pg).isNone then d
  else
    let d := if d.fon pg Reg.HEADER.RETIRED then d.resetPage pg else d.clr pg Reg.HEADER.NO_SPARE
    let d : Dev := { d with retire := mdel pg d.retire, retireLog := d.retireLog.filter (· != pg) }
    if 8 ≤ pg / 256 then d.capEval (pg / 256 - 8) else d

/-! ### Damaged units (R398) -/

/-- The page of the block whose unit is damaged. -/
def damagePage : Damage → PageId
  | .laneSegment n l => lfe n l
  | .tileSegment n t dec _ => if dec then pgDecode n t else pgDetect n t
  | .writerSegment n _ | .packing n _ => pgWriter n
  | .verdict n _ | .verifyDecode n | .inlineDecode n => pgVerify n
  | .replay n => pgSh n
  | .sample n => pgServo n
  | .reel n => pgMotion n
  | .link n => pgLink n
  | .comp i => pgComp i
  | .decomp i => pgDecomp i
  | .cryptWrite i | .cryptRead i => pgCrypt i
  | .ringFetch q _ | .ringPost q _ => pgRings q
  | .transfer i _ _ => pgDma i
  | .memory k _ _ _ => pgMemctl k
  | .pool _ _ => pgPool
  | .other p _ _ => p

/-- A tile abandons a segment as damaged, with the iterations spent on it (R221): it is delivered as a received row that did not converge,
unless it has no identity, in a rewrite area before its header. -/
def Dev.loseSegment (d : Dev) (n t : Nat) (s : TileSeg) (iters : Nat) : Dev :=
  let d := (d.setTile n t (((d.rd n).tileOf t).erase s)).ev (pgDecode n t) Reg.DECODE.ABANDONED
  if s.inArea && !s.ready then d
  else d.handBlank n s (6 + 8 * b2n (s.freewheel || s.altAlign)) (min iters s.cap) s.align (!s.ready) s.freewheel s.altAlign s.samples

/-- A segment being written on channel `ch` is CUT (R149). -/
def Dev.cutChannel (d : Dev) (n ch : Nat) : Dev :=
  let w := (d.sp n).wr
  let lane := if ch < 32 then 0 else 1
  match (w.lane lane).head? with
  | none => d
  | some st => match st.segAt (w.frame lane) with
    | some (i, _) => d.cutOn n ch st i
    | none => d

/-- The verify decode in progress is damaged: it does not settle (R157). -/
def Dev.verifyDamaged (d : Dev) (n : Nat) : Dev :=
  match (d.sp n).wr.verifying with
  | none => d
  | some v =>
    let d := d.modWr n (fun w => w.verifyOver v.sheet)
    match (d.sp n).wr.sheet? v.sheet with
    | none => d
    | some s => if s.settled then d else d.verifyEnds n v s false

/-- The in-line decode in progress is damaged: it leaves the sheet unresolved (R97). -/
def Dev.inlineDamaged (d : Dev) (n : Nat) : Dev :=
  match (d.rd n).sheets.find? (·.busy) with
  | none => d
  | some s =>
    let d := d.modSheetR n s.num (fun t => { t with busy := false, allFailed := true, final := t.final || decide (2 ≤ t.decodes) })
    (d.modSheetR n s.num RSheet.takeLate).c2Next n

/-- The replay in progress is damaged: it runs again on another tile (R246). -/
def Dev.replayDamaged (d : Dev) (n : Nat) : Dev :=
  match (d.lad n).replay with
  | none => d
  | some (t, _) => (d.modLad n (fun l => { l with replay := none })).clr (pgDetect n t) Reg.DETECT.ACTIVE

/-- The REEL message repeats the previous cycle's currents. -/
def Dev.reelDamaged (d : Dev) (n : Nat) : Dev :=
  let i := (d.sp n).drv.reelI
  d.ctl n 0x02 (bytesBE 2 i.1 ++ bytesBE 2 i.2)

/-- The block in coding on engine `e`, or the one whose output waits for a buffer there, is coded again on another engine; what had been
written of its output is released (R125). -/
def Dev.compDamaged (d : Dev) (e : Nat) : Dev :=
  let waits := d.fon (pgComp e) Reg.COMP.WAIT_BUF
  match findRecBlk (fun _ => true) (fun b => b.st == .coding e || (waits && b.st == .finished && b.eng == e)) d.recs with
  | none => d
  | some (i, k) =>
    let d := (d.unput i k).modBlk i k (fun b => { b with st := .queued, bytes := [], notOn := some e })
    ((d.clr (pgComp e) Reg.COMP.ACTIVE).clr (pgComp e) Reg.COMP.WAIT_BUF).ev (pgComp e) Reg.COMP.REDONE

/-- The block in decoding on engine `e` is decoded again on another engine; a second time it is faulty (R130). -/
def Dev.decompDamaged (d : Dev) (e : Nat) : Dev :=
  match d.findRBlk (fun b => b.engine == some e) with
  | none => d
  | some (n, i) =>
    let d := d.engineFree e
    let d := d.modRs n (fun r => if r.susp = some e && !r.raw then { r with susp := none, mid := none } else r)
    match (d.rs n).bind (fun r => (r.blks[i]?).map (fun b => (r, b))) with
    | none => d
    | some (r, b) =>
      if b.failedOn.isNone then d.modRBlk n i (fun b => { b with st := .ncf, failedOn := some e })
      else ((d.modRBlk n i (fun b => { b with st := .done, bad := true })).bump (pgDecomp e) Reg.DECOMP.FAULT_BLOCKS 1).fset
        (pgDecomp e) Reg.DECOMP.FAULT_STREAM r.stream

/-- The frame in encryption is made again with the slot's next counter value. -/
def Dev.encryptDamaged (d : Dev) (c : Nat) : Dev :=
  match d.toEncrypt c with
  | none => d
  | some (_, i, _) => d.modSlot ((d.recs.getD i { stream := 0, spoke := 0 }).slot) (fun s => { s with ivCount := s.ivCount + 1 })

/-- The frame in decryption is a failed frame (R364). -/
def Dev.decryptDamaged (d : Dev) (c : Nat) : Dev :=
  match d.nextRBlk (pgCrypt c) (fun b => b.st == .frame) with
  | none => d
  | some (n, i) =>
    match (d.rs n).bind (fun r => (r.blks[i]?).map (fun b => (r, b))) with
    | none => d
    | some (r, b) =>
      if b.failedOn.isSome then
        (d.modRBlk n i (fun b => { b with st := .done, bad := true })).fset (pgCrypt c) Reg.CRYPT.FAIL_STREAM r.stream
      else d.modRBlk n i (fun b => { b with failedOn := some c })

/-- An entry of the ring's oldest fetch is abandoned (R280): its credit returns. -/
def Dev.fetchDamaged (d : Dev) (q : Nat) : Dev :=
  if (d.sq q).turns.isEmpty then d else d.fetchComplete q 1

/-- The first completion that waits on the ring is dropped and counted. -/
def Dev.postDamaged (d : Dev) (q : Nat) : Dev :=
  match (d.cq q).held with
  | [] => d
  | c :: r => (d.modCq q (fun x => { x with held := r })).dropCpl q c

/-- A transfer for the command in progress on spoke `n` has failed: the command completes with HOST_MEMORY (R280). -/
def Dev.transferFails (d : Dev) (n : Nat) : Dev :=
  match (d.sp n).cur with
  | none => d
  | some j =>
    match j.op with
    | .write .. | .sheetWrite _ => d.landFails n stHostMemory
    | .read .. => d.readStops n stHostMemory
    | .sheetRead .. => d.finish n stHostMemory 0 (hdrLen j.hdr) 0
    | _ => d

/-- The outcome of a damaged unit (R398). -/
def Dev.damageOutcome (d : Dev) : Damage → Dev
  | .laneSegment n l =>
    match (d.rd n).arriving l with
    | some t => match ((d.rd n).tileOf t).find? (fun s => s.lane == l.val && !s.ready) with
      | some s => d.loseSegment n t s 0
      | none => d
    | none => d
  | .tileSegment n t _ iters =>
    match ((d.rd n).tileOf t).find? (·.ready) with
    | some s => d.loseSegment n t s iters
    | none => d
  | .writerSegment n ch => d.cutChannel n ch
  | .packing n second => if second then d.halt n 3 ((d.sp n).wr.openSheet.getD 0) else d
  | .verdict n seg => d.takeVerdict n seg .fail (verdictRow false false .fail ⟨false, 0, 0, false, false⟩ [])
  | .verifyDecode n => d.verifyDamaged n
  | .inlineDecode n => d.inlineDamaged n
  | .replay n => d.replayDamaged n
  | .sample n => d.invalidSample n
  | .reel n => d.reelDamaged n
  | .link n => d.bump (pgLink n) Reg.LINK.RX_BAD 1
  | .comp i => d.compDamaged i
  | .decomp i => d.decompDamaged i
  | .cryptWrite i => d.encryptDamaged i
  | .cryptRead i => d.decryptDamaged i
  | .ringFetch q second => if second then d.fetchDamaged q else d
  | .ringPost q second => if second then d.postDamaged q else d
  | .transfer _ n second => if second then d.transferFails n else d
  | .memory _ word reader second => if second then (d.memUncorr word 0 0 true).readerFault reader else d
  | .pool h second => if second then d.withdraw h else d
  | .other _ requester second => if second then d.errEvent requester errTimeout else d

/-- A block abandons a unit as damaged (R397, R398, R403). -/
def Dev.damaged (d : Dev) (x : Damage) : Dev := (d.damageOutcome x).countDamage (damagePage x)

/-! ### Loss of a host (R412) -/

/-- What spoke `n` does when its session owner is lost; one that writes in no session keeps a suspended record (R412). -/
def Dev.spokeHostLost (d : Dev) (e n : Nat) : Dev :=
  let mine := (d.sp n).waiting.filter (fun j => funcEp j.fn == e)
  let d := (d.modSp n (fun s => { s with waiting := s.waiting.filter (fun j => funcEp j.fn != e) })).completeAll mine stAborted
  let d := match (d.sp n).cur with
    | some j => match j.op with
      | .read .. | .locate .. | .space .. | .sheetRead .. => if d.mayEnd n j then d.endCur n stAborted else d
      | .write .. | .sheetWrite _ => if funcEp j.fn = e && (d.sp n).curStep == 2 then d.landFails n stAborted else d
      | _ => d
    | none => d
  let d := (d.ladderAbort n).endRecord n
  let d := if (d.sp n).sess.isOpen then d.cutSuspended n else d
  let d := d.modSp n (fun s => { s with hostLost := true })
  (if (d.sp n).sess.isOpen then d.closeSession n 2 else d).advance n

/-- Host loss of endpoint `e` (R297, R412); a link down during it is counted only. -/
def Dev.hostLoss (d : Dev) (e cause : Nat) : Dev :=
  if d.fon (pgPcie e) Reg.PCIE.HOST_LOST then
    (if cause = 1 then (d.ev (pgPcie e) Reg.PCIE.LINK_DOWN).bump (pgPcie e) Reg.PCIE.LINK_DOWNS 1 else d)
  else
    let d := d.declareLoss e cause
    (((List.range 8).filter (fun n => (d.sp n).owner == e && !d.fenced n)).foldl (fun x n => x.spokeHostLost e n) d).serve

/-- The hold of every spoke that endpoint `e` owns ends: its host has returned (R412). -/
def Dev.hostReturns (d : Dev) (e : Nat) : Dev :=
  let d := ((List.range 8).filter (fun n => (d.sp n).owner == e && (d.sp n).hostLost)).foldl (fun (x : Dev) n =>
    (x.modSp n (fun s => { s with hostLost := false })).bitPut pgMgmt Reg.MGMT.HOLDING n false) d
  d.goOnAll

/-- A hold has lasted UNLOAD_MIN minutes: it ends with an unload (R196, R412). -/
def Dev.holdUnload (d : Dev) (n : Nat) : Dev :=
  if !bitAt (d.fget pgMgmt Reg.MGMT.HOLDING) n || d.fget pgMgmt Reg.MGMT.UNLOAD_MIN = 0 then d
  else
    let d := (d.bitPut pgMgmt Reg.MGMT.HOLDING n false).modSp n (fun s => { s with hostLost := false })
    (d.beginUnload n).goOn n

end Sys2Proof.Machine
end

