-- ==== Sys2Proof/Machine/Secure.lean ====
section
/-! DEFINITION. KEEP's commands (chapter 13): key loads, clears, the staged table and its commit, tamper, the lift of a
domain's fence. -/

namespace Sys2Proof.Machine

/-! ### Key loads (R358) -/

/-- The bytes of KEY_IN from 0 to `k` − 1 (R373). -/
def Dev.keyIn (d : Dev) (k : Nat) : List Byte :=
  (((List.range ((k + 3) / 4)).map (fun i => bytesLE 4 (d.fget pgKeystore (Reg.KEYSTORE.KEY_IN i)))).flatten).take k

/-- Is a tamper bit latched (R369)? -/
def Dev.tamperLatched (d : Dev) : Bool :=
  d.fon pgAlarm Reg.ALARM.MESH || d.fon pgAlarm Reg.ALARM.LIGHT || d.fon pgAlarm Reg.ALARM.TEMP || d.fon pgAlarm Reg.ALARM.VOLTAGE

def Dev.kek (d : Dev) (k : Nat) : List Byte := mget (fun _ => []) d.keep.keks k

/-- A load or clear has ended with a RESULT. -/
def Dev.ksEnds (d : Dev) (result : Nat) : Dev :=
  (((d.modKeep (fun k => { k with ksLoad := none, ksCancelled := false })).clr pgKeystore Reg.KEYSTORE.BUSY).fset pgKeystore
    Reg.KEYSTORE.RESULT result).ev pgKeystore Reg.KEYSTORE.DONE

/-- KEK_GO: refused while a tamper bit is latched or no identity is held. -/
def Dev.kekGo (d : Dev) : Dev :=
  if d.fon pgKeystore Reg.KEYSTORE.BUSY then d
  else if d.tamperLatched then d.ksEnds 4
  else if !d.fon pgBoot Reg.BOOT.IDENTITY then d.ksEnds 5
  else (d.modKeep (fun k => { k with ksLoad := some (.kek (d.fget pgKeystore Reg.KEYSTORE.KEK) (d.keyIn 512)) })).ev pgKeystore
    Reg.KEYSTORE.BUSY

/-- KEY_GO: the refusals in the order of their codes. -/
def Dev.keyGo (d : Dev) : Dev :=
  let s := d.fget pgKeystore Reg.KEYSTORE.SLOT
  let k := d.fget pgKeystore Reg.KEYSTORE.KEK
  if d.fon pgKeystore Reg.KEYSTORE.BUSY then d
  else if d.slotBound s then d.ksEnds 1
  else if (d.kek k).isEmpty then d.ksEnds 2
  else if d.tamperLatched then d.ksEnds 4
  else (d.modKeep (fun x => { x with ksLoad := some (.key s k (d.kek k) (d.keyIn 40)
    (2 ^ 32 * d.fget pgKeystore Reg.KEYSTORE.KEY_ID_HI + d.fget pgKeystore Reg.KEYSTORE.KEY_ID_LO)
    (d.fget pgKeystore Reg.KEYSTORE.IV_FIXED)) })).ev pgKeystore Reg.KEYSTORE.BUSY

/-- The load of a KEK ends. A zeroisation that met it leaves it empty (R372). -/
def Dev.kekDone (d : Dev) : Dev :=
  match d.keep.ksLoad with
  | some (.kek k ct) =>
    match Config.oaepDecrypt ct with
    | some key =>
      if key.length ≠ 32 then d.ksEnds 6
      else if d.keep.ksCancelled then d.ksEnds 0
      else ((d.modKeep (fun x => { x with keks := mset (fun _ => []) x.keks k key })).bitPut pgKeystore Reg.KEYSTORE.KEK_VALID k true).ksEnds 0
    | none => d.ksEnds 6
  | _ => d

/-- The load of a slot ends: its IV counter is 0 and it is LOADED. -/
def Dev.keyDone (d : Dev) : Dev :=
  match d.keep.ksLoad with
  | some (.key s k kek ct keyId ivFixed) =>
    match Config.keyUnwrap kek ct with
    | some key =>
      if key.length ≠ 32 then ((d.bump pgKeystore Reg.KEYSTORE.UNWRAP_FAILS 1).ev pgKeystore Reg.KEYSTORE.UNWRAP_FAIL).ksEnds 3
      else if d.keep.ksCancelled then d.ksEnds 0
      else (d.modSlot s (fun x => { x with loaded := true, key := key, keyId := keyId, ivFixed := ivFixed, ivCount := 0, kekUsed := k })).ksEnds 0
    | none => ((d.bump pgKeystore Reg.KEYSTORE.UNWRAP_FAILS 1).ev pgKeystore Reg.KEYSTORE.UNWRAP_FAIL).ksEnds 3
  | _ => d

/-- KEY_CLEAR: a slot bound by an open stream is zeroised, another is emptied. -/
def Dev.keyClear (d : Dev) : Dev :=
  let s := d.fget pgKeystore Reg.KEYSTORE.SLOT
  let d := if d.slotBound s then d.zeroise [s] false else d.modSlot s KeySlot.emptied
  d.ev pgKeystore Reg.KEYSTORE.DONE

/-- KEK_CLEAR. -/
def Dev.kekClear (d : Dev) : Dev :=
  let k := d.fget pgKeystore Reg.KEYSTORE.KEK
  ((d.modKeep (fun x => { x with keks := mdel k x.keks })).bitPut pgKeystore Reg.KEYSTORE.KEK_VALID k false).ev pgKeystore Reg.KEYSTORE.DONE

/-! ### The protection table (R346 to R349) -/

/-- `k` entries of a table from place `a` set to domain `x`. -/
def setEntries : SMap Nat → Nat → Nat → Nat → SMap Nat
  | t, _, 0, _ => t
  | t, a, k + 1, x => setEntries (mset (fun _ => 0) t a x) (a + 1) k x

/-- STAGE_SET (R346): entries past the end of the kind are ignored. -/
def Dev.stageSet (d : Dev) (dom count : Nat) : Dev :=
  let kind := d.fget pgProtect Reg.PROTECT.KIND
  let i := d.fget pgProtect Reg.PROTECT.INDEX
  let k := min (min count 4096) (kindCount kind - i)
  if 7 ≤ kind then d else d.modKeep (fun x => { x with staged := setEntries x.staged (kindBase kind + i) k (dom % 64) })

/-- DISCARD. -/
def Dev.discardStaged (d : Dev) : Dev := d.modKeep (fun k => { k with staged := k.prot })

/-- The first case of R347 that refuses a commit; 0: none. -/
def Dev.commitRefusal (d : Dev) : Nat :=
  let t := d.keep.staged
  let funcs := (List.range 128).map (protOf t kFunc)
  if funcs.contains 1 then 1
  else if !funcs.contains 0 then 2
  else if d.streams.any (fun p => p.2.isOpen && protOf t kStream p.1 != d.prot kStream p.1) then 3
  else if (List.range 256).any (fun s => d.slotBound s && protOf t kKeyslot s != d.prot kKeyslot s) then 4
  else 0

/-- COMMIT (R347 to R349). -/
def Dev.protCommit (d : Dev) : Dev :=
  let r := d.commitRefusal
  if r ≠ 0 then (d.fset pgProtect Reg.PROTECT.REFUSE r).ev pgProtect Reg.PROTECT.COMMIT_REFUSED
  else (d.modKeep (fun k => { k with prot := k.staged, seq := k.seq + 1, ledger := ledgerStep k.ledger (k.seq + 1) k.staged })).ev
    pgProtect Reg.PROTECT.COMMITTED

/-! ### Tamper and fences of domains (R368 to R370) -/

/-- The TAMPER_STAT bit of a condition: 0 VOLTAGE, 1 TEMP, 2 LIGHT, 3 MESH. -/
def tamperBit (k : Nat) : Fld :=
  if k = 0 then Reg.ALARM.VOLTAGE else if k = 1 then Reg.ALARM.TEMP else if k = 2 then Reg.ALARM.LIGHT else Reg.ALARM.MESH

/-- A tamper condition is met, or is gone (R369). -/
def Dev.tamper (d : Dev) (k : Nat) (present : Bool) : Dev :=
  let d := d.modKeep (fun x => { x with tamperNow := putBit x.tamperNow k present })
  if present then (((d.ev pgAlarm (tamperBit k)).bump pgAlarm Reg.ALARM.TAMPER_CNT 1).ev pgAlarm Reg.ALARM.TAMPER).zeroiseAll
  else d

/-- The fences of the domains in a mask lifted (R368): the rings stay disabled. -/
def Dev.domLift (d : Dev) (lo hi : Nat) : Dev :=
  let off (d : Dev) (f : Fld) (m : Nat) : Dev := d.fset pgAlarm f (d.fget pgAlarm f &&& (m ^^^ 0xFFFFFFFF))
  off (off d Reg.ALARM.FENCE_LO lo) Reg.ALARM.FENCE_HI hi

/-- A reset of KEEP ends every stream with ENC_MODE 1 as a zeroisation of its slot does (R400). -/
def Dev.endEncrypted (d : Dev) : Dev := d.endBound (List.range 256)

end Sys2Proof.Machine
end

