-- ==== Sys2Proof/Machine/Thermal.lean ====
section
/-! DEFINITION. Temperature and power (chapter 14): samples, throttle steps, failed sensors, the supply and the cog caps
(R25, R26), refresh bands, timer recalibration, and what a trip or a loss of power leaves. -/

namespace Sys2Proof.Machine

def Dev.modTherm (d : Dev) (f : Therm → Therm) : Dev := { d with therm := f d.therm }
def Dev.sens (d : Dev) (i : Nat) : Sens := mget (fun _ => {}) d.therm.sens i
def Dev.modSens (d : Dev) (i : Nat) (f : Sens → Sens) : Dev := d.modTherm (fun t => { t with sens := mmod (fun _ => {}) t.sens i f })

/-! ### The supply and the caps (R24 to R26) -/

/-- The core supply of a step in mV (R24). -/
def stepMv (s : Nat) : Nat := [850, 800, 760, 720, 680, 640, 600, 550].getD s 550

/-- The power limit of a step in W (R24). -/
def stepWatts (s : Nat) : Nat := [95, 85, 75, 65, 55, 45, 35, 25].getD s 25

/-- The cog cap of step `s` sent to every DERAILLEUR (R25). -/
def Dev.sendCaps (d : Dev) (s : Nat) : Dev :=
  let d := d.modTherm (fun t => { t with capStep := s })
  (List.range 8).foldl (fun (e : Dev) n => (e.fset (pgDr n) Reg.DERAILLEUR.THROTTLE_COG (stepCog s)).capEval n) d

/-- Does every streaming spoke report a cog at or below the cap of step `s` (R26)? A spoke that does not stream takes no part. -/
def Dev.cogsBelow (d : Dev) (s : Nat) : Bool :=
  (List.range 8).all (fun n => !(d.sp n).drv.streaming || decide (stepCog s ≤ d.fget (pgDr n) Reg.DERAILLEUR.CUR_COG))

/-- The supply sent to the setting of step `s`: it slews from here on. -/
def Dev.slewTo (d : Dev) (s : Nat) : Dev :=
  (((d.modTherm (fun t => { t with supply := s })).fset pgPower Reg.POWER.VCORE_MV (stepMv s)).ev pgPower Reg.POWER.SLEWING).clr
    pgPower Reg.POWER.CAP_WAIT

/-- What the latest requested step asks of POWER now (R26): a cap falls at once; the supply falls once every spoke reports
a cog at or below it, and rises at once. -/
def Dev.powerEval (d : Dev) : Dev :=
  let t := d.fget pgPower Reg.POWER.TARGET
  let d := if d.therm.capStep < t then d.sendCaps t else d
  if t < d.therm.supply then d.slewTo t
  else if d.therm.supply < t then
    if d.cogsBelow t then d.slewTo t else d.ev pgPower Reg.POWER.CAP_WAIT
  else
    let d := d.clr pgPower Reg.POWER.CAP_WAIT
    if !d.fon pgPower Reg.POWER.SLEWING && t < d.therm.capStep then d.sendCaps t else d

/-- Timers of `k` regions recalibrated (R390): what error the recalibration finds is a free value.
(DESIGN CHOICE, log entry 12.) -/
def Dev.recal (d : Dev) (k : Nat) : Dev :=
  ((d.nextFree.bump pgThermal Reg.THERMAL.RECALS k).fset pgThermal Reg.THERMAL.ERROR d.freeVal)

/-- The regions of R421 that are implemented. -/
def regionCount : Nat := 14

/-- The supply has settled at its setting (R25, R26): the step is in force, the cap may rise, every region recalibrates. -/
def Dev.supplySettled (d : Dev) : Dev :=
  if !d.fon pgPower Reg.POWER.SLEWING then d
  else
    let s := d.therm.supply
    let old := d.fget pgPower Reg.POWER.STEP
    let d := (d.clr pgPower Reg.POWER.SLEWING).fset pgPower Reg.POWER.STEP s
    let d := if s = old then d else ((d.ev pgPower Reg.POWER.STEP_CHANGE).bump pgPower Reg.POWER.STEP_CHANGES 1)
    (d.recal regionCount).powerEval

/-! ### The step requested (R382) -/

/-- The step of POWER_CAP: the lowest whose limit it allows. -/
def capStepOf (cap : Nat) : Nat :=
  if cap = 0 ∨ 95 ≤ cap then 0
  else ((List.range 8).find? (fun s => decide (stepWatts s ≤ max 25 cap))).getD 7

/-- The request. -/
def Dev.stepRequest (d : Dev) : Nat :=
  let temp := d.fget pgThermal Reg.THERMAL.TEMP_STEP
  let cap := capStepOf (d.fget pgPower Reg.POWER.POWER_CAP)
  let base :=
    if d.mode pgThermal = 0 then
      (if d.fon pgThermal Reg.THERMAL.RATE_ADD then min (max temp cap + 1) 7 else max temp cap)
    else max (max temp cap) (d.fget pgThermal Reg.THERMAL.STEP_REQ)
  min base (min 7 (d.fget pgThermal Reg.THERMAL.STEP_COUNT))

/-- The request brought up to date (R382). -/
def Dev.requestStep (d : Dev) : Dev :=
  let r := d.stepRequest
  let old := d.fget pgPower Reg.POWER.TARGET
  if r = old then d
  else ((d.fset pgPower Reg.POWER.TARGET r).ev pgThermal (if old < r then Reg.THERMAL.STEP_UP else Reg.THERMAL.STEP_DOWN)).powerEval

/-! ### Samples (R379, R380, R384) -/

/-- The threshold of step `k` in 1/16 °C. -/
def thrOf (k : Nat) : Int := 16 * (101 + 4 * (k : Int))

/-- R380's rule on the four latest values of T. -/
def stepUp (ts : List Int) : Nat :=
  if ts.length < 4 then 0
  else (List.range 8).foldl (fun a k => if 1 ≤ k ∧ ts.all (fun t => decide (thrOf k ≤ t)) then k else a) 0
def stepDown (ts : List Int) : Nat → Nat → Nat
  | 0, s => s
  | f + 1, s => if 0 < s ∧ ts.all (fun t => decide (t < thrOf s - 48)) then stepDown ts f (s - 1) else s
def tempStep (ts : List Int) (s : Nat) : Nat :=
  let up := stepUp ts
  if s < up then up else if ts.length < 4 then s else stepDown ts 7 s

/-- The latest raw reading of a sensor. -/
def Sens.last (s : Sens) : Option Int := s.hist.head?.map (·.2)

/-- The rise of a sensor over the last `w` ns, if it has been sampled that long (R381). -/
def Sens.rise (s : Sens) (now w : Nat) : Option Int :=
  match s.last, s.hist.find? (fun p => decide (p.1 + w ≤ now)) with
  | some r, some p => some (r - p.2)
  | _, _ => none

/-- Readings of the last second, and the newest one before. -/
def keepSecond (now : Nat) : List (Nat × Int) → List (Nat × Int)
  | [] => []
  | p :: r => if p.1 + 1000000000 ≤ now then [p] else p :: keepSecond now r

/-- The calibration band of a reading (R390), numbered from −128 °C up: it falls only 1.0 °C below its bound. -/
def calBand (t : Int) (old : Option Nat) : Nat :=
  let b := ((t + 2048) / 128).toNat
  match old with
  | none => b
  | some o => if o ≤ b then b else if t ≤ 128 * (o : Int) - 2048 - 16 then b else o

/-- One sensor takes its reading `r`; its twin reads `tw`. -/
def Sens.take (s : Sens) (now : Nat) (r tw : Int) : Sens :=
  let unchanged := s.last == some r
  let goesOn := unchanged && decide (s.twinLo ≤ s.twinHi)
  { s with hist := keepSecond now ((now, r) :: s.hist), same := if unchanged then s.same + 1 else 0,
           twinLo := if goesOn then min s.twinLo tw else tw, twinHi := if goesOn then max s.twinHi tw else tw }

/-- The cause for which a sensor alone is marked (R384): 2 implausible, 1 stuck, 0 none; `old` is its reading before. A twin has moved by
the range of its readings.
(DEDUCED, log entry 38.) -/
def ownCause (s : Sens) (old : Option Int) (r : Int) : Nat :=
  let jump := match old with | some o => decide (160 < (r - o).natAbs) | none => false
  if decide (r < -1120) || decide (2560 < r) || jump then 2
  else if 1000 ≤ s.same && decide (32 ≤ s.twinHi - s.twinLo) then 1 else 0

/-- A sensor is marked failed with a cause; a mark already set keeps its own. -/
def Dev.markSens (d : Dev) (i cause : Nat) : Dev :=
  if cause = 0 || (d.sens i).cause != 0 then d
  else (d.modSens i (fun s => { s with cause := cause })).ev pgThermal Reg.THERMAL.SENS_FAILED

/-- Sensor `i` of the sample `rs`: its history, its own mark, its calibration band. -/
def Dev.sampleOne (rs : List Int) (d : Dev) (i : Nat) : Dev :=
  let r := rs.getD i 0
  let tw := rs.getD (if i % 2 = 0 then i + 1 else i - 1) 0
  let old := (d.sens i).last
  let d := d.modSens i (fun s => s.take d.now r tw)
  let d := d.markSens i (ownCause (d.sens i) old r)
  let b := calBand r (d.sens i).band
  let was := (d.sens i).band
  let d := d.modSens i (fun s => { s with band := some b })
  if was.isSome && was != some b && d.therm.mains then d.recal 1 else d

/-- The twins 2p and 2p + 1 of a sample: four samples of disagreement mark the cooler one (R384).
(DESIGN CHOICE, log entry 38.) -/
def Dev.samplePair (rs : List Int) (d : Dev) (p : Nat) : Dev :=
  let a := rs.getD (2 * p) 0
  let b := rs.getD (2 * p + 1) 0
  let fine (i : Nat) : Bool := (d.sens i).cause == 0 || (d.sens i).cause == 3
  let k := if fine (2 * p) && fine (2 * p + 1) && decide (240 < (a - b).natAbs) then mget (fun _ => 0) d.therm.disagree p + 1 else 0
  let d := d.modTherm (fun t => { t with disagree := mset (fun _ => 0) t.disagree p k })
  if 4 ≤ k then d.markSens (if a < b then 2 * p else 2 * p + 1) 3 else d

/-- A sensor's reading as R380 takes it: a failed one at 134 °C. -/
def Dev.effReading (d : Dev) (i : Nat) : Int := if (d.sens i).cause = 0 then (d.sens i).last.getD 0 else 2144

/-- The first condition of path A or of the fast rise that trips the module (R385): cause, sensor, reading. -/
def Dev.tripCond (d : Dev) : Option (Nat × Nat × Int) :=
  let ok (i : Nat) : Bool := (d.sens i).cause == 0
  let rd (i : Nat) : Int := (d.sens i).last.getD 0
  match (List.range 26).find? (fun i => ok i && decide (2080 ≤ rd i)) with
  | some i => some (1, i, rd i)
  | none => match (List.range 13).find? (fun p => !ok (2 * p) && !ok (2 * p + 1)) with
    | some p => some (1, 2 * p, rd (2 * p))
    | none => match (List.range 26).find? (fun i => ok i && (match (d.sens i).rise d.now 250000000 with | some x => decide (32 < x) | none => false)) with
      | some i => some (3, i, rd i)
      | none => none

/-- Do the conditions of R387 for a restart hold at this sample? -/
def Dev.coolEnough (d : Dev) : Bool :=
  (List.range 26).all (fun i => (d.sens i).cause != 0 || decide ((d.sens i).last.getD 0 < 1520)) &&
  (List.range 13).all (fun p => (d.sens (2 * p)).cause == 0 || (d.sens (2 * p + 1)).cause == 0)

/-! ### Power-on and reset of the main domain (R386, R393, R400) -/

/-- A field carried over from one device to another. -/
def Dev.carry (src : Dev) (d : Dev) (x : PageId × Fld) : Dev := d.fset x.1 x.2 (src.fget x.1 x.2)

/-- The registers of the standby domain (R400), and those that show what its samplers hold (R379). -/
def standbyFields : List (PageId × Fld) :=
  [(pgThermal, Reg.THERMAL.TRIP_CNT), (pgThermal, Reg.THERMAL.TRIP_INFO_CAUSE), (pgThermal, Reg.THERMAL.TRIP_INFO_SENSOR),
   (pgThermal, Reg.THERMAL.TRIP_INFO_READING), (pgPower, Reg.POWER.FAULTED), (pgAlarm, Reg.ALARM.MESH), (pgAlarm, Reg.ALARM.LIGHT),
   (pgAlarm, Reg.ALARM.TEMP), (pgAlarm, Reg.ALARM.VOLTAGE), (pgAlarm, Reg.ALARM.TAMPER_CNT), (pgAlarm, Reg.ALARM.ZEROISE_CNT),
   (pgThermal, Reg.THERMAL.T_MAX), (pgThermal, Reg.THERMAL.HOTTEST), (pgThermal, Reg.THERMAL.FAST), (pgPower, Reg.POWER.STBY_MV),
   (pgPower, Reg.POWER.P12V_MV)]

/-- A sensor judged afresh: its readings stay. -/
def Sens.afresh (s : Sens) : Sens := { hist := s.hist, band := s.band }

/-- The samplers of the standby rail, whose marks are judged afresh. -/
def Therm.afresh (t : Therm) : Therm :=
  { sens := t.sens.map (fun p => (p.1, p.2.afresh)), lastT := t.lastT, stby := t.stby, p12 := t.p12, brown := t.brown, railFault := t.railFault, tripped := t.tripped }

/-- The fuses blown when a raise of the counter is cut (R357): any number between the counter and its aim, a free value.
(DEDUCED, log entry 28.) -/
def Dev.fusesCut (d : Dev) : Nat :=
  if d.fon pgBoot Reg.BOOT.BUSY then d.svnFuses + d.freeVal % (min 64 (d.fget pgBoot Reg.BOOT.SVN_RUN) - d.svnFuses + 1) else d.svnFuses

/-- The flash slots when a write of one is cut (R356): what it then holds is a free value.
(DEDUCED, log entry 28.) -/
def Dev.flashCut (d : Dev) : Boot :=
  if d.fget pgBoot Reg.BOOT.STATUS = 2 then
    if d.boot.openSlot = 0 then { slotA := .unknown (2 + d.free), slotB := d.boot.slotB }
    else { slotA := d.boot.slotA, slotB := .unknown (2 + d.free) }
  else { slotA := d.boot.slotA, slotB := d.boot.slotB }

/-- What survives a reset of the main domain (R400): fuses, flash, the standby domain, the lands. The model's own counter
of free values and what has left the module stay too. -/
def Dev.mainReset (d : Dev) : Dev :=
  let e : Dev := { free := d.free + 1, out := d.out, svnFuses := d.fusesCut, boot := d.flashCut,
                   retireLog := d.retireLog, therm := d.therm.afresh, endpts := (d.endpts.map (fun p => (p.1, { perst := p.2.perst }))).filter (fun p => !p.2.perst),
                   tap := d.tap, split := d.split, mgmtAddr := d.mgmtAddr, keep := { tamperNow := d.keep.tamperNow } }
  (standbyFields.foldl (fun x f => Dev.carry d x f) e).fset pgPower Reg.POWER.GOOD (b2n d.therm.stby)

/-- The main rails fall (R386): everything outside the standby domain is lost. -/
def Dev.powerDown (d : Dev) : Dev := { d.mainReset with tap := {} }

/-- A trip (R386): recorded in the standby domain; the rails fall, and THERMTRIP_N is asserted. -/
def Dev.trip (d : Dev) (cause sensor : Nat) (reading : Int) : Dev :=
  if d.therm.tripped then d
  else
    let d := (((d.bump pgThermal Reg.THERMAL.TRIP_CNT 1).fset pgThermal Reg.THERMAL.TRIP_INFO_CAUSE cause).fset pgThermal
      Reg.THERMAL.TRIP_INFO_SENSOR sensor).fset pgThermal Reg.THERMAL.TRIP_INFO_READING (toField 16 reading)
    d.powerDown.modTherm (fun t => { t with tripped := true })

/-- A sample of the 26 sensors that run from the standby rail (R379 to R386). -/
def Dev.takeSample (d : Dev) (rs : List Int) : Dev :=
  let d := (List.range 26).foldl (Dev.sampleOne rs) d
  let d := (List.range 13).foldl (Dev.samplePair rs) d
  let eff := (List.range 26).map d.effReading
  let t := eff.foldl max (eff.headD 0)
  let hot := ((List.range 26).find? (fun i => eff.getD i 0 == t)).getD 0
  let d := d.modTherm (fun x => { x with lastT := (t :: x.lastT).take 4,
                                         coolSince := if d.coolEnough then some (x.coolSince.getD d.now) else none })
  let d := ((d.fset pgThermal Reg.THERMAL.T_MAX (toField 16 t)).fset pgThermal Reg.THERMAL.HOTTEST hot).fput pgThermal Reg.THERMAL.FAST
    (rs.any (fun r => decide (1520 ≤ r)))
  if d.therm.tripped || !d.therm.mains then d
  else
    match d.tripCond with
    | some (c, i, r) => d.trip c i r
    | none =>
      if d.unsettled pgThermal then (d.nextFree.fset pgThermal Reg.THERMAL.TEMP_STEP (d.freeVal % 8)).requestStep
      else (d.fset pgThermal Reg.THERMAL.TEMP_STEP (tempStep d.therm.lastT (d.fget pgThermal Reg.THERMAL.TEMP_STEP))).requestStep

/-- THERMAL_SAMPLE: sampling begins when VSTBY is in regulation (R379). -/
def Dev.thermalSample (d : Dev) (rs : List Int) : Dev := if d.therm.stby then d.takeSample rs else d

/-- Has a sensor that has not failed risen by more than 2.0 °C over the last second? -/
def Sens.steep (s : Sens) (now : Nat) : Bool :=
  s.cause == 0 && (match s.rise now 1000000000 with | some x => decide (32 < x) | none => false)

/-- The evaluation of the slow rise, every 100 ms (R381): one and the same sensor must rise at every evaluation for 3 s. -/
def Dev.rateEvaluation (d : Dev) : Dev :=
  let hot := (List.range 26).any (fun i => (d.sens i).steep d.now)
  let d := d.modTherm (fun t => { t with
    sens := t.sens.map (fun p => (p.1, { p.2 with hotSince := if p.2.steep d.now then some (p.2.hotSince.getD d.now) else none })),
    calmSince := if hot then none else some (t.calmSince.getD d.now) })
  let long (x : Option Nat) (ns : Nat) : Bool := match x with | some t => decide (t + ns ≤ d.now) | none => false
  let on := d.fon pgThermal Reg.THERMAL.RATE_ADD
  let d := if !on && d.therm.sens.any (fun p => long p.2.hotSince 3000000000) then (d.ev pgThermal Reg.THERMAL.RATE_ADD).ev pgThermal Reg.THERMAL.RATE_EVT
    else if on && long d.therm.calmSince 10000000000 then d.clr pgThermal Reg.THERMAL.RATE_ADD else d
  d.requestStep

/-- Marks cleared by software (R384): those sensors are judged afresh. -/
def Dev.clearMarks (d : Dev) (mask : Nat) : Dev :=
  (List.range 26).foldl (fun e i => if bitAt mask i then e.modSens i Sens.afresh else e) d

/-! ### DRAM (R388, R389) -/

/-- The refresh band of a reading alone. -/
def dramBand (t : Int) : Nat := if 1520 ≤ t then 2 else if 1360 ≤ t then 1 else 0

/-- The band of a channel after its hottest reading: it falls 2.0 °C below the bound of the band in force. -/
def bandFall (t : Int) : Nat → Nat
  | 2 => if t ≤ 1488 then (if t ≤ 1328 then 0 else 1) else 2
  | 1 => if t ≤ 1328 then 0 else 1
  | b => b

/-- The band of device `i`, for its channel: none for one not read yet. -/
def Dev.dramOf (d : Dev) (i : Nat) : Option Int × Nat := mget (fun _ => (none, 0)) d.therm.dram i

/-- The refresh band of channel `k` brought up to date. -/
def Dev.refreshEval (d : Dev) (k : Nat) : Dev :=
  let devs := (List.range 13).map (fun j => d.dramOf (13 * k + j))
  let hot := devs.foldl (fun a x => match x.1 with | some t => max a t | none => a) (-4096)
  let b := max (dramBand hot) (bandFall hot (d.fget (pgMemctl k) Reg.MEMCTL.REFRESH))
  d.fset (pgMemctl k) Reg.MEMCTL.REFRESH (if devs.any (fun x => decide (3 ≤ x.2)) then 2 else b)

/-- A DRAM device is read (R388, R389). -/
def Dev.dramRead (d : Dev) (i : Nat) (r : Option Int) : Dev :=
  let d := match r with
    | some t =>
      let d := d.modTherm (fun x => { x with dram := mset (fun _ => (none, 0)) x.dram i (some t, 0) })
      if 1680 ≤ t then d.ev pgThermal Reg.THERMAL.DRAM_OVER else d
    | none =>
      let k := (d.dramOf i).2 + 1
      let d := d.modTherm (fun x => { x with dram := mset (fun _ => (none, 0)) x.dram i ((d.dramOf i).1, min 3 k) })
      if k = 3 then d.ev pgThermal Reg.THERMAL.DRAM_FAIL else d
  d.refreshEval (i / 13)

end Sys2Proof.Machine
end

