-- ==== Sys2Proof/Machine/Drive.lean ====
section
/-! DEFINITION. A spoke's transport (chapters 6 and 7): write hold and restore, shifts and dwells, stops, parks, run-ups and
locates, the messages of the control link, cartridge memory transfers, load, calibration and unload, transport loss. -/

namespace Sys2Proof.Machine

/-- A command is held for want of a chest buffer (R272). -/
def Dev.bufHeld (d : Dev) : Bool := (List.range 8).any (fun m => (d.sp m).noBuf)

/-- What follows of itself on spoke `n`, in commands held for a buffer that has come free (R272), and in POWER, which waits for
cog reports (R26).
(DEDUCED, log entry 44.) -/
def Dev.follow (d : Dev) (n : Nat) : Dev :=
  let d := d.goOn n
  (if d.bufHeld then d.goOnAll else d).powerEval

/-- What follows of itself everywhere. -/
def Dev.followAll (d : Dev) : Dev := d.goOnAll.powerEval

/-- A well-formed frame has arrived on the control link (R191, R201). -/
def Dev.rxFrame (d : Dev) (n : Nat) : Dev := ((d.bump (pgLink n) Reg.LINK.RX_FRAMES 1).unit (pgLink n)).clr (pgLink n) Reg.LINK.SILENT

/-! ### Waveforms, write hold and restore (R145 to R148) -/

/-- No head temperature for 100 ms: the band is left unchanged. -/
def Dev.headTempStale (d : Dev) (n : Nat) : Dev := d.ev (pgWriter n) Reg.WRITER.HEAD_TEMP_STALE

/-- WAVE_BAND of band `k` written: the values of the band in force go out in the next sheet preamble. -/
def Dev.waveBand (d : Dev) (n k wcur amp dur pre : Nat) : Dev :=
  let pg := pgWriter n
  let d := (((d.fset pg (Reg.WRITER.WCUR k) wcur).fset pg (Reg.WRITER.OS_AMP k) amp).fset pg (Reg.WRITER.OS_DUR k) dur).fset pg
    (Reg.WRITER.PRECOMP k) pre
  if d.fget pg Reg.WRITER.BAND = k then d.modWr n (fun w => { w with bandPending := true }) else d

/-- SPn_SHOCK asserted, or negated. -/
def Dev.shock (d : Dev) (n : Nat) (on : Bool) : Dev := (d.modWr n (fun w => { w with shock := on })).evalHold n

/-- Do the conditions of R148 hold, but for the 100 µs that the command stands for? -/
def Dev.mayRestore (d : Dev) (n : Nat) : Bool := (d.sp n).wr.winh && !d.holdCond n && decide (4 ≤ (d.sp n).wr.pesGood)

/-- SPn_WINH_N is released, and GATE is 1 from the next boundary. -/
def Dev.writeRestore (d : Dev) (n : Nat) : Dev :=
  if d.mayRestore n then (d.modWr n (fun w => { w with winh := false })).clr (pgWriter n) Reg.WRITER.INHIBIT else d

/-! ### Shifts (R179 to R184) -/

/-- A shift completes: the speed is steady at the target. -/
def Dev.shiftComplete (d : Dev) (n : Nat) : Dev :=
  let pg := pgDr n
  if !d.fon pg Reg.DERAILLEUR.SHIFTING then d
  else
    let d := (((d.clr pg Reg.DERAILLEUR.SHIFTING).fset pg Reg.DERAILLEUR.CUR_COG (d.fget pg Reg.DERAILLEUR.TARGET_COG)).bump pg
      Reg.DERAILLEUR.SHIFTS 1)
    let f := d.fget (pgWriter n) Reg.WRITER.FILL_MIB
    let r := d.fget pg Reg.DERAILLEUR.RA_FILL_MIB
    let d := (d.modDrv n (fun x => { x with fillAtDone := f, raFillAtDone := r })).setMotion n 2
    let d := if d.fget pg Reg.DERAILLEUR.SHIFT_DWELL = 0 then (d.clr pg Reg.DERAILLEUR.DWELL).drEval n else d.ev pg Reg.DERAILLEUR.DWELL
    d.raLimit n

/-- The dwell ends, and the rule is evaluated.
(DESIGN CHOICE, log entry 3.) -/
def Dev.dwellEnd (d : Dev) (n : Nat) : Dev :=
  if d.fon (pgDr n) Reg.DERAILLEUR.DWELL then (d.clr (pgDr n) Reg.DERAILLEUR.DWELL).drEval n else d

/-- COG_REQ written: in host-assisted speed selection a shift starts at once. -/
def Dev.cogReq (d : Dev) (n v : Nat) : Dev :=
  let d := d.fset (pgDr n) Reg.DERAILLEUR.COG_REQ v
  if d.mode (pgDr n) = 1 && d.startCog n != (d.sp n).drv.tgtCog then d.shiftTo n (d.startCog n) else d

/-! ### Stops and parks (R176, R182, R185) -/

/-- Does the ladder wait for the tape to be parked (R241)? -/
def Ladder.parks (l : Ladder) : Bool := (l.phase == .reread || l.phase == .rebuild) && decide (l.stage ≤ 3)

/-- The tape comes to rest. A run that ended before the end of its wrap, a read stop or a stop of the ladder goes on to the park, against the
wrap's direction; a move that the stop broke goes on when it may.
(DESIGN CHOICE, log entry 30.) -/
def Dev.tapeStops (d : Dev) (n : Nat) : Dev :=
  let pg := pgMotion n
  let st := d.fget pg Reg.MOTION.STATE
  let x := (d.sp n).drv
  if x.streaming || x.tapeStopped || (st != 5 && st != 6) then d
  else
    let d := d.modDrv n (fun x => { x with tapeStopped := true, ctrlStop := false })
    let d := if x.reelFault || x.mechFault then d.setMotion n 7
      else if st = 5 || (d.rd n).stopped || ((d.lad n).parks && x.target.isNone) then (d.setMotion n 5).fput pg Reg.MOTION.DIR (!wrapForward x.head)
      else d.setMotion n 0
    (d.moveOn n).goOn n

/-- The tape is parked.
(DESIGN CHOICE, log entry 30.) -/
def Dev.parkDone (d : Dev) (n : Nat) : Dev :=
  let pg := pgMotion n
  if !(d.sp n).drv.tapeStopped || d.fget pg Reg.MOTION.STATE ≠ 5 || !d.mayMove n then d
  else
    let d := ((d.modDrv n (fun x => { x with parked := true })).setMotion n 0).ev pg Reg.MOTION.REPOSITION
    ((d.bump pg Reg.MOTION.REPOSITIONS 1).ladderStopped n).goOn n

/-- Servo is valid again, with the tape at rest (R170). -/
def Dev.servoBack (d : Dev) (n : Nat) : Dev :=
  d.modDrv n (fun x => { x with lost := false, invalidRun := 0 })

/-- May a write run begin (R185, R186, R188, R28)? -/
def Dev.mayRun (d : Dev) (n : Nat) : Bool :=
  let s := d.sp n
  d.mayMove n && (d.rd n).locating.isNone && (s.drv.turning || (s.drv.parked && s.drv.atWrite)) && !s.drv.streaming && s.drv.target.isNone && s.sess.eodInvalid &&
  !s.wr.haltHold && d.cartState n == 3 && tileCog (d.tiles n) != 0 && (!d.envGates n || (d.fon (pgMotion n) Reg.MOTION.ENV_OK && !d.envHold n)) && (!(s.wr.dueQ.isEmpty) || s.drv.turning)

/-- The tape runs up toward the next slot; or, in a read run that turns round, in the new direction (R186). -/
def Dev.runUpStart (d : Dev) (n : Nat) : Dev :=
  let d := d.sealNext n
  let x := (d.sp n).drv
  if x.runUp then d
  else if x.turning && (d.rd n).locating.isSome then
    if d.mayMove n then (d.modDrv n (fun x => { x with runUp := true, tapeStopped := false })).setMotion n 1 else d
  else if !d.mayRun n then d
  else d.runUpTo n (d.sp n).wr.wrap

/-- The run-up of a read run is over (R182, R186, R241): reading begins toward sheet `k`. With a tile cap that forbids streaming (R28) the run
waits, at rest. -/
def Dev.readRunUp (d : Dev) (n k : Nat) : Dev :=
  let x := (d.sp n).drv
  let d := (d.modDrv n (fun x => { x with runUp := false })).noteWrap n x.head
  let l := d.lad n
  if (l.phase == .reread || l.phase == .rebuild) && l.stage == 1 then d.ladderArrived n
  else
    let a := (d.rd n).lastPassed
    let d := d.modRd n (fun r => { r with locating := none })
    if !d.mayMove n || tileCog (d.tiles n) = 0 then
      ((d.modDrv n (fun x => { x with turning := false, tapeStopped := true, parked := true })).setMotion n 0).modRd n (fun r =>
        { r with stopped := true, noBuf := false, stopAt := none })
    else if x.turning then
      ((d.beginStream n (max x.tgtCog (d.capOf n)) true).lanesFrom n k).modRd n (fun r => { r with lastPassed := a })
    else (d.beginStream n (d.startCog n) true).lanesFrom n k

/-- The run-up is over: the run begins at the target cog, with the next slot's preamble, or the tape is parked again.
(DESIGN CHOICE, log entry 30.) -/
def Dev.runUpDone (d : Dev) (n : Nat) : Dev :=
  if !(d.sp n).drv.runUp then d
  else match (d.rd n).locating with
  | some k => d.readRunUp n k
  | none =>
    let c := if (d.sp n).drv.turning then max (d.sp n).drv.tgtCog (d.capOf n) else d.startCog n
    let ok := d.mayRun n
    let d := d.modDrv n (fun x => { x with runUp := false })
    if !ok then (d.modDrv n (fun x => { x with turning := false, parked := false })).setMotion n 5
    else (((d.noteWrap n (d.sp n).wr.wrap).beginStream n c false).lanesFrom n ((d.sp n).wr.dueQ.headD (0, 0)).1).runBegins n

/-- Does a locate's target stand (R187): servo valid on the target wrap, the velocity within 0.5 % of the target cog's, its frame 0.10 m to
0.60 m ahead? The locate of an unload is made at locate speed, to no cog: of it servo is asked.
(DEDUCED, log entry 32.) -/
def Dev.locateMet (d : Dev) (n w f c : Nat) : Bool :=
  let x := (d.sp n).drv
  let v : Int := (cogSpeed c : Nat) * (if wrapForward w then 1 else -1)
  let ahead : Int := match x.frameNo with
    | some (N, _) => if wrapForward w then (f : Int) - N else (N : Int) - f
    | none => 0
  d.fon (pgServo n) Reg.SERVO.VALID && x.head == w &&
  (x.unloadStep == 3 || (decide (200 * (x.lastVel - v).natAbs ≤ cogSpeed c) && decide (100000 ≤ 96 * ahead) && decide (96 * ahead ≤ 600000)))

/-- A locate completes (R187).
(DEDUCED, log entry 32.) -/
def Dev.locateDone (d : Dev) (n : Nat) : Dev :=
  match (d.sp n).drv.target with
  | none => d
  | some (w, f, c) =>
    if !d.mayMove n || d.fget (pgMotion n) Reg.MOTION.STATE != 3 || !d.locateMet n w f c then d
    else
      let rest (d : Dev) : Dev := (d.modDrv n (fun x => { x with tapeStopped := true })).setMotion n 0
      let d := (d.modDrv n (fun x => { x with target := none })).fput (pgMotion n) Reg.MOTION.DIR (wrapForward w)
      let l := d.lad n
      if (d.sp n).drv.unloadStep = 3 then rest (d.modDrv n (fun x => { x with unloadStep := 4 }))
      else if (l.phase == .reread || l.phase == .rebuild) && l.stage == 1 then (d.noteWrap n w).ladderArrived n
      else if (d.sp n).seek.final then (rest d).locateEnds n
      else match (d.rd n).locating with
        | some k =>
          let d := (d.noteWrap n w).modRd n (fun r => { r with locating := none })
          if tileCog (d.tiles n) = 0 then
            (rest (d.modDrv n (fun x => { x with parked := true }))).modRd n (fun r => { r with stopped := true, noBuf := false })
          else (d.beginStream n (d.startCog n) true).lanesFrom n k
        | none => rest (d.modDrv n (fun x => { x with atWrite := true, parked := true }))

/-- A read run that stopped for want of room, of a buffer or of tiles goes on: parked, the tape runs up toward the first sheet not yet held
(R28, R182, R185). -/
def Dev.readResume (d : Dev) (n : Nat) : Dev :=
  let r := d.rd n
  let pg := pgDr n
  let room := if r.noBuf then (d.pool.pickClass n 5).isSome && d.pool.configured
    else decide (d.fget pg Reg.DERAILLEUR.RA_FILL_MIB < d.fget pg Reg.DERAILLEUR.RA_LOW)
  if !r.stopped || !room || !(d.sp n).drv.tapeStopped || !(d.sp n).drv.parked || !(d.sp n).readsOn || (d.lad n).phase != .idle ||
    !d.mayMove n || tileCog (d.tiles n) = 0 then d
  else
    (d.modRd n (fun r => { r with locating := some r.nextSheet, stopped := false, noBuf := false })).runUpTo n ((d.sp n).placeOf r.nextSheet).1

/-! ### The environment (R188, R192) -/

/-- An ENV message. -/
def Dev.envMsg (d : Dev) (n : Nat) (tape head : Int) (rh : Nat) : Dev :=
  let pg := pgMotion n
  let d := ((d.rxFrame n).fset pg Reg.MOTION.TAPE_TEMP (toField 16 tape)).fset pg Reg.MOTION.RH rh
  let d := (d.headReading n head).modDrv n (fun x => { x with envInner := envInsideInner tape rh })
  let d := d.fput pg Reg.MOTION.ENV_OK (envInside tape rh)
  if envInside tape rh then d else d.envHoldBegin n

/-- No ENV message for 100 ms. -/
def Dev.envTimeout (d : Dev) (n : Nat) : Dev :=
  ((d.clr (pgMotion n) Reg.MOTION.ENV_OK).modDrv n (fun x => { x with envInner := false })).envHoldBegin n

/-- The hold ends. -/
def Dev.envHoldEnds (d : Dev) (n : Nat) : Dev :=
  if (d.sp n).drv.envInner then d.clr (pgMotion n) Reg.MOTION.ENV_HOLD else d

/-! ### Load and refusal (R194, R195) -/

/-- Is READY reached (R408)? -/
def Dev.moduleReady (d : Dev) : Bool := d.fon pgMgmt Reg.MGMT.READY

/-- A load begins when a cartridge is present and nothing hinders it (R409, R400). -/
def Dev.beginLoad (d : Dev) (n : Nat) : Dev :=
  let x := (d.sp n).drv
  if !d.moduleReady || d.fenced n || !x.present || (x.mechState != 1 && x.mechState != 3) || 1 < d.cartState n then d
  else
    let pg := pgMotion n
    let d := (((d.setCart n 2).loadPhase n 1).fset pg Reg.MOTION.REFUSE 0).fset pg Reg.MOTION.CM_DAMAGE 0
    let d := d.modRd n (fun r => { r with gainSum := [], gainBase := [], weak := [] })
    let d := (List.range 64).foldl (fun (e : Dev) l => (e.fset (lfe n l) (Reg.LANEFE.HEALTH (l % 16)) 0).fset (lfe n l)
      (Reg.LANEFE.GAIN_BASE (l % 16)) 0x7F) d
    (d.modSp n (fun s => { s with cart := {} })).cmStart n .loadManufacture false cmManufacture 64 []

/-- Step 2: the tape is threaded, unless it already is; step 3 follows. -/
def Dev.loadThread (d : Dev) (n : Nat) : Dev :=
  if (d.sp n).drv.threaded then d.loadPhase n 3 else (d.loadPhase n 2).mech n 1

/-- The manufacture area has been read. -/
def Dev.loadManufactured (d : Dev) (n : Nat) (area : List Byte) : Dev :=
  if !cmAreaOk 64 area then d.refuse n 1
  else if !isClassK area then d.refuse n 2
  else (d.modCart n (fun c => { c with manufacture := area })).cmStart n .loadFormatId false cmFormatId 64 []

/-- The format identification area has been read. -/
def Dev.loadFormatted (d : Dev) (n : Nat) (area : List Byte) : Dev :=
  if !cmAreaOk 64 area then
    ((d.fset (pgMotion n) Reg.MOTION.CM_DAMAGE 1).modCart n (fun c => { c with formatId := area, initialised := false })).loadThread n
  else
    let init := bitAt (byteAt area 1).toNat 0
    if init && (byteAt area 0).toNat != 1 then d.refuse n 3
    else (d.modCart n (fun c => { c with formatId := area, initialised := init })).loadThread n

/-- GENERATION of a partition table copy. -/
def partGen (area : List Byte) : Nat := natBE (area.take 4)

/-- The partitions that a copy lists. -/
def partsOf (area : List Byte) : List PartDef :=
  ((List.range 4).map (fun p => (⟨(byteAt area (4 + 2 * p)).toNat, (byteAt area (5 + 2 * p)).toNat⟩ : PartDef))).filter (fun p => p.wrapCount != 0)

/-- The copy of the partition table that is used: the valid one with the higher GENERATION (R83). -/
def usedTable (a b : List Byte) : Option (List Byte) :=
  let okA := cmAreaOk 256 a
  let okB := cmAreaOk 256 b
  if okA && okB then some (if partGen a < partGen b then b else a) else if okA then some a else if okB then some b else none

/-- The tables have been read: the load is complete (step 8), and an unclosed partition is closed (R414). -/
def Dev.loadDone (d : Dev) (n : Nat) : Dev :=
  let c := (d.sp n).cart
  let t := usedTable c.partA c.partB
  let d := if c.initialised && t.isNone then
      (d.fset (pgMotion n) Reg.MOTION.CM_DAMAGE 2).modCart n (fun c => { c with initialised := false })
    else d.modCart n (fun c => { c with parts := match t with | some a => if c.initialised then partsOf a else [] | none => [],
                                        generation := match t with | some a => partGen a | none => 0 })
  let d := d.modCart n (fun c => { c with usage := { c.usage with loads := c.usage.loads + 1 } })
  let d := ((d.loadPhase n 0).setCart n 3).ev (pgMotion n) Reg.MOTION.LOAD_DONE
  let d := ((d.modDrv n (fun x => { x with head := 0, tapeStopped := true, parked := false, atWrite := false })).setMotion n 0).ev (pgServo n)
    Reg.SERVO.VALID
  if !(d.sp n).cart.initialised then d
  else
    let d := (d.spoilSpoke n).enterPart n 0
    match (d.sp n).cart.unclosed with
    | some p => d.recovStart n p
    | none => d

/-- Step 7 begins. -/
def Dev.loadTables (d : Dev) (n : Nat) : Dev :=
  ((((d.loadPhase n 7).cmStart n .loadPartA false cmPartA 256 []).cmStart n .loadPartB false cmPartB 256 []).cmStart n .loadEod false
    cmEod 512 []).cmStart n .loadUsage false cmUsage 1024 []

/-- The end-of-data entries of a table read; a table whose CRC fails has no valid entry.
(DEDUCED, log entry 31.) -/
def eodsOf (area : List Byte) : List EodEntry :=
  (List.range 4).map (fun p =>
    let e := EodEntry.ofBytes ((area.drop (64 * p)).take 64)
    { e with valid := e.valid && cmAreaOk 512 area })

/-! ### FORMAT's cartridge memory writes (R83, R332) -/

/-- FORMAT in progress: its COUNT and wrap counts. -/
def Spoke.formatOf (s : Spoke) : Nat × List Nat :=
  match s.cur with
  | some j => match j.op with | .format c w => (c, w) | _ => (0, [])
  | none => (0, [])

/-- Is copy A the one written first: its CRC fails, or its GENERATION is the lower? With both copies alike the manual names neither: copy A.
(DESIGN CHOICE, log entry 29.) -/
def firstIsA (c : Cart) : Bool :=
  !cmAreaOk 256 c.partA || (cmAreaOk 256 c.partB && decide (partGen c.partA ≤ partGen c.partB))

/-- The copy's new contents: GENERATION one above the other copy's. -/
def newTable (c : Cart) (parts : List PartDef) : List Byte :=
  let other := if firstIsA c then c.partB else c.partA
  partTableArea ((if cmAreaOk 256 other then partGen other else 0) + 1) parts

/-- A FORMAT step's write has completed. -/
def Dev.formatWritten (d : Dev) (n : Nat) (data : List Byte) : Dev :=
  let c := (d.sp n).cart
  let f := (d.sp n).formatOf
  let step (k : Nat) (d : Dev) : Dev := d.modDrv n (fun x => { x with formatStep := k })
  match (d.sp n).drv.formatStep with
  | 1 =>
    let d := step 2 (d.modCart n (fun c => { c with formatId := data }))
    d.cmStart n .fmtPartFirst true (if firstIsA c then cmPartA else cmPartB) 256 (newTable c (formatParts f.1 f.2))
  | 2 =>
    let a := firstIsA c
    let d := step 3 (d.modCart n (fun c => { c with partA := if a then data else c.partA, partB := if a then c.partB else data, initialised := true,
                                                    parts := formatParts f.1 f.2, generation := partGen data }))
    d.cmStart n .fmtPartSecond true (if a then cmPartB else cmPartA) 256 data
  | 3 =>
    let d := step 4 (d.modCart n (fun c => { c with partA := data, partB := data, eods := [{}, {}, {}, {}] }))
    d.cmStart n .fmtEod true cmEod 512 (eodTableArea [{}, {}, {}, {}])
  | 4 => d.formatPart n 0
  | 20 => d.formatEnds n stSuccess
  | _ => d

/-! ### Cartridge memory transfers (R193, R339) -/

/-- Bytes put at a place of a byte string. -/
def spliceAt (l : List Byte) (off : Nat) (bs : List Byte) : List Byte := takePad 0 off l ++ bs ++ l.drop (off + bs.length)

/-- What a transfer at its end leads to. -/
def Dev.cmFinished (d : Dev) (n : Nat) (t : CmXfer) (ok : Bool) : Dev :=
  match t.use with
  | .loadManufacture => if ok then d.loadManufactured n t.data else d.refuse n 1
  | .loadFormatId => if ok then d.loadFormatted n t.data else d.refuse n 1
  | .loadPartA => if ok then d.modCart n (fun c => { c with partA := t.data }) else d.refuse n 1
  | .loadPartB => if ok then d.modCart n (fun c => { c with partB := t.data }) else d.refuse n 1
  | .loadEod => if ok then d.modCart n (fun c => { c with eods := eodsOf t.data }) else d.refuse n 1
  | .loadUsage =>
    if ok then (d.modCart n (fun c => { c with usage := if cmAreaOk 1024 t.data then Usage.ofArea t.data else {} })).loadDone n else d.refuse n 1
  | .eodInvalidate =>
    if ok then d.modSess n (fun s => { s with eodInvalid := true })
    else
      let p := (d.sp n).sess.part
      (d.modCart n (fun c => { c with eods := (takePad {} 4 c.eods).set p { (c.eods.getD p {}) with valid := true } })).halt n 5 0
  | .eodValidate =>
    match (d.sp n).recov with
    | some r =>
      let d := if ok then d.ev pgMgmt Reg.MGMT.RECOVERY else d
      if r.tries = 99 then
        let d := if ok then d
          else d.modCart n (fun c => { c with eods := (takePad {} 4 c.eods).set r.part { (c.eods.getD r.part {}) with valid := false } })
        d.recovEnds n true
      else ((if ok then d.closeDone n else d.closeCmFails n).recovEnds n true)
    | none =>
      let d := if ok && (d.sp n).hostLost then d.ev pgMgmt Reg.MGMT.HOST_LOSS_CLOSE else d
      if ok then d.closeDone n else d.closeCmFails n
  | .fmtId | .fmtPartFirst | .fmtPartSecond | .fmtEod => if ok then d.formatWritten n t.data else d.formatEnds n stCmError
  | .usage => if (d.sp n).drv.unloadStep = 2 then d.unloadLocate n else d
  | .hostRead j =>
    let moved := t.done
    (d.toHost j 0 (t.data.take moved)).complete j (if ok then stSuccess else stCmError) moved (t.len - moved)
  | .hostWrite j => d.complete j (if ok then stSuccess else stCmError) t.done (t.len - t.done)

/-- The transfer at the head ends; the next one's requests are sent. -/
def Dev.cmEnds (d : Dev) (n : Nat) (ok : Bool) : Dev :=
  match (d.sp n).drv.cm with
  | [] => d
  | t :: rest => ((d.modDrv n (fun x => { x with cm := rest, cmOut := [] })).cmFinished n t ok).cmPump n 4

/-- A CM_RSP (R192): the answer to an outstanding request. -/
def Dev.cmAnswer (d : Dev) (n tag status : Nat) (data : List Byte) : Dev :=
  let x := (d.sp n).drv
  match x.cmOut.find? (fun q => q.tag == tag), x.cm with
  | some q, t :: rest =>
    if status ≠ 0 then d.cmEnds n false
    else
      let t := { t with done := t.done + q.count, data := if t.isWrite then t.data else spliceAt t.data q.off (takePad 0 q.count data) }
      let d := d.modDrv n (fun x => { x with cm := t :: rest, cmOut := x.cmOut.filter (fun p => p.tag != tag) })
      if t.len ≤ t.done then d.cmEnds n true else d.cmPump n 4
  | _, _ => d

/-- An outstanding request sent again. -/
def Dev.cmResend (d : Dev) (n : Nat) (q : CmReq) : Dev :=
  match (d.sp n).drv.cm with
  | [] => d
  | t :: _ => d.ctl n 0x06 (bytesBE 1 q.tag ++ bytesBE 1 (b2n t.isWrite) ++ bytesBE 2 (t.off + q.off) ++ bytesBE 1 q.count ++
      (if t.isWrite then (t.data.drop q.off).take q.count else []))

/-- 5 ms without an answer: the request is sent again, at most three times.
(DESIGN CHOICE, log entry 3.) -/
def Dev.cmTimeout (d : Dev) (n tag : Nat) : Dev :=
  match (d.sp n).drv.cmOut.find? (fun q => q.tag == tag) with
  | none => d
  | some q =>
    if 3 ≤ q.resends then d.cmEnds n false
    else
      let d := d.modDrv n (fun x => { x with cmOut := x.cmOut.map (fun p => if p.tag = tag then { p with resends := p.resends + 1 } else p) })
      (d.cmResend n q).bump (pgLink n) Reg.LINK.CM_RETRY 1

/-! ### Messages from the transport (R192) -/

/-- The transport's faults are over: a tape that rested in fault rests, and a move that waits begins. -/
def Dev.faultOver (d : Dev) (n : Nat) : Dev :=
  if (d.sp n).drv.reelFault || (d.sp n).drv.mechFault then d
  else
    let x := (d.sp n).drv
    let parks := (d.rd n).stopped || (d.lad n).parks || (x.atWrite && !x.parked)
    (if d.fget (pgMotion n) Reg.MOTION.STATE = 7 then d.setMotion n (if parks then 5 else 0) else d).moveOn n

/-- A MOTION_STAT message; a reported fault brings a controlled stop (R176).
(DEDUCED, log entry 31.) -/
def Dev.motionStat (d : Dev) (n supply takeup tension fault : Nat) : Dev :=
  let d := (d.rxFrame n).fset (pgMotion n) Reg.MOTION.TENSION (min 2047 tension)
  let d := d.modDrv n (fun x => { x with dSupply := (supply + 2 ^ 32 - x.supplyCount) % 2 ^ 32, dTakeup := (takeup + 2 ^ 32 - x.takeupCount) % 2 ^ 32,
                                         supplyCount := supply % 2 ^ 32, takeupCount := takeup % 2 ^ 32, reelFault := fault != 0,
                                         tensionLow := x.tensionLow || decide (tension < 100) })
  if fault ≠ 0 then (if !(d.sp n).drv.tapeStopped && !(d.sp n).drv.ctrlStop then d.breakRun n else d) else d.faultOver n

/-- The cartridge has left the transport: an UNLOAD completes, and commands find no cartridge (R333). -/
def Dev.cartGone (d : Dev) (n : Nat) : Dev :=
  let un := (d.sp n).drv.unloadStep != 0
  let d := d.modDrv n (fun x => { x with unloadStep := 0, threaded := false, cm := [], cmOut := [] })
  let d := match (d.sp n).cur with
    | some j => match j.op with | .unload => if un then d.finish n stSuccess 0 0 0 else d | _ => d
    | none => d
  let d := (d.discardUnwritten n stWriteError).endAll n stNotReady
  let d := ((d.ladderGone n).endReading n).sessionClosed n
  let d := d.modSp n (fun s => { s with cart := {}, recov := none, posPart := 0, posObj := 0, sess := {} })
  let d := d.bitPut pgMgmt Reg.MGMT.RECOVERING n false
  let d := d.bitPut pgMgmt Reg.MGMT.HOLDING n false
  let d := (d.modDrv n (fun x => { x with tapeStopped := true, ctrlStop := false, runUp := false, turning := false, target := none })).setMotion n 0
  (d.setCart n 0).loadPhase n 0

/-- A MECH_STAT message. -/
def Dev.mechStat (d : Dev) (n state fault : Nat) : Dev :=
  let x := (d.sp n).drv
  let d := (d.rxFrame n).modDrv n (fun x => { x with mechState := state, mechFault := state == 6 || fault != 0,
                                                     threaded := if state = 3 then true else if state ≤ 1 then false else x.threaded })
  let d := d.faultOver n
  if state = 6 || fault != 0 then
    if d.cartState n = 2 && d.phase n = 2 then d.refuse n 6
    else if !x.tapeStopped && !x.ctrlStop then d.breakRun n else d
  else if state = 0 then (if d.cartState n = 0 then d else d.cartGone n)
  else if state = 1 then
    if x.unloadStep = 5 then (d.modDrv n (fun x => { x with unloadStep := 6 })).mech n 3
    else if d.cartState n = 5 && x.threaded then d.mech n 3
    else if d.cartState n = 0 then (d.setCart n 1).beginLoad n
    else d.beginLoad n
  else if state = 3 then
    if d.cartState n = 2 && d.phase n = 2 then d.loadPhase n 3
    else if d.cartState n ≤ 1 then d.beginLoad n else d
  else d

/-- An ACK (R192): a refused thread fails the threading. -/
def Dev.ackMsg (d : Dev) (n type status : Nat) : Dev :=
  let d := d.rxFrame n
  if type = 5 && status = 1 && d.cartState n == 2 && d.phase n == 2 then d.refuse n 6 else d

/-- A received frame is discarded and counted, when it is not well formed (R191); one that is comes as the message that it carries. -/
def Dev.badFrame (d : Dev) (n : Nat) (bytes : List Byte) : Dev :=
  if linkFrameOk bytes then d else (d.bump (pgLink n) Reg.LINK.RX_BAD 1).ev (pgLink n) Reg.LINK.BAD_FRAME

/-! ### Transport loss (R190, R413) -/

/-- Transport loss fences a present spoke with cause LOST. -/
def Dev.transportLost (d : Dev) (n : Nat) : Dev := if (d.sp n).drv.present then d.fence n 1 else d

def Dev.echoLost (d : Dev) (n : Nat) : Dev :=
  ((d.ev (pgLink n) Reg.LINK.ECHO_LOST).ev (pgLink n) Reg.LINK.ECHO_EVT).transportLost n

def Dev.linkSilent (d : Dev) (n : Nat) : Dev :=
  ((d.ev (pgLink n) Reg.LINK.SILENT).ev (pgLink n) Reg.LINK.SILENT_EVT).transportLost n

/-! ### Tension, servo and calibration (R177, R170, R194, R197, R207, R227) -/

/-- The tape runs in the calibration area for steps 4 to 6 of a load (R194). -/
def Dev.loadRuns (d : Dev) (n st : Nat) : Dev := (d.modDrv n (fun x => { x with tapeStopped := false })).setMotion n st

/-- Tension at rest has reached TENSION_SET; load step 4 follows on data band 2. -/
def Dev.tensionSet (d : Dev) (n : Nat) : Dev :=
  if !(d.sp n).drv.tapeStopped then d
  else
    let d := d.modDrv n (fun x => { x with needTension := false, tensionLow := false })
    if d.cartState n = 2 && d.phase n = 3 then ((d.loadPhase n 4).headTo n 0).loadRuns n 1 else d.moveOn n

/-- Servo re-acquired; load step 5 follows. -/
def Dev.servoAcquired (d : Dev) (n : Nat) : Dev :=
  if d.cartState n = 2 && d.phase n = 4 && !(d.sp n).drv.needTension then
    ((d.servoBack n).modDrv n (fun x => { x with errSums := [] })).loadPhase n 5 |>.loadRuns n 2
  else if (d.sp n).drv.lost && (d.sp n).drv.tapeStopped && !(d.sp n).drv.needTension then
    if d.cartState n = 2 then (d.servoBack n).loadRuns n 2 else (d.servoBack n).moveOn n
  else d

/-- A free move of at most `k` towards a target, of a value `x`. -/
def freeToward (free k : Nat) (x target : Int) : Int :=
  let m : Int := (min (target - x).natAbs (free % (k + 1)) : Nat)
  if x ≤ target then x + m else x - m

/-- A reader's mean error since the last calibration, none if it gave none. -/
def Drive.meanErr (x : Drive) (r : Nat) : Option Int :=
  match mget (fun _ => (0, 0)) x.errSums r with
  | (0, _) => none
  | (k, s) => some (s / (k : Int))

/-- A reader's mean error relative to the others (R197): less the mean of theirs. -/
def Drive.relErr (x : Drive) (r : Nat) : Option Int :=
  (x.meanErr r).map (fun e => e - meanInt (((List.range 4).filter (· != r)).filterMap x.meanErr))

/-- Each TRIM moved toward its reader's mean error relative to the others, by at most 2 nm: by how much is not stated.
(DESIGN CHOICE, log entry 11.) -/
def Dev.trimReaders (d : Dev) (n : Nat) : Dev :=
  (List.range 4).foldl (fun (e : Dev) r =>
    match (d.sp n).drv.relErr r with
    | none => e
    | some t =>
      let old := ofField 16 (e.fget (pgServo n) (Reg.SERVO.TRIM r))
      e.nextFree.fset (pgServo n) (Reg.SERVO.TRIM r) (toField 16 (freeToward e.freeVal 2 old t))) d

/-- TENSION_SET trimmed by at most 5 mN, within ±15 % of the value written, while TW_ERR lies outside ±0.30 µm: by how much, and which way,
is not stated.
(DESIGN CHOICE, log entry 11.) -/
def Dev.trimTension (d : Dev) (n : Nat) : Dev :=
  if (ofField 16 (d.fget (pgServo n) Reg.SERVO.TW_ERR)).natAbs ≤ 300 then d
  else
  let base : Int := (tensionEff (d.sp n).drv.tensionWritten : Nat)
  let v : Int := (tensionEff (d.fget (pgMotion n) Reg.MOTION.TENSION_SET) : Nat)
  let m : Int := (d.freeVal % 11 : Nat) - 5
  d.nextFree.fset (pgMotion n) Reg.MOTION.TENSION_SET (clampInt (base * 85 / 100) (base * 115 / 100) (v + m)).toNat

/-- Each lane's CTLE_BOOST moved by at most one code in the direction that lowers its error, from the next sheet preamble on (R207).
(DESIGN CHOICE, log entry 11.) -/
def Dev.trimBoost (d : Dev) (n : Nat) (dirs : List Int) : Dev :=
  (List.range 64).foldl (fun (e : Dev) l =>
    let f := Reg.LANEFE.CTLE_BOOST (l % 16)
    let old : Int := (e.fget (lfe n l) f : Nat)
    e.nextFree.modLane n l (fun c => { c with
      boostDue := some (clampInt 0 31 (old + clampInt (-1) 1 (dirs.getD l 0) * (e.freeVal % 2 : Nat))).toNat })) d

/-- Load step 5, one data band: its servo words have been checked and its errors gathered as its frames passed (R195, R172); the head goes to
the next band. After the last one the reader trims are written, but not in host-assisted calibration, and the head goes back to band 2.
(DEDUCED, log entry 31.) -/
def Dev.calStep5 (d : Dev) (n : Nat) (m : CalMeas) : Dev :=
  if !m.acquired then d.refuse n 5
  else
    let w := (d.sp n).drv.head
    let d := d.modDrv n (fun x => { x with word := none, wordUp := none })
    if w < 160 then d.headTo n (w + 32)
    else
      let d := if d.hostCal n then d
        else (List.range 4).foldl (fun (e : Dev) r => match (d.sp n).drv.relErr r with
          | none => e
          | some t => e.fset (pgServo n) (Reg.SERVO.TRIM r) (toField 16 t)) d
      ((d.modDrv n (fun x => { x with errSums := [] })).headTo n 0).loadPhase n 6

/-- The loop response identified (R194, R197): firmware sets the loop's fields by it, but not in host-assisted calibration. How it makes the
fields of the response the manual does not say: they are what is measured.
(DEDUCED, log entry 31.) -/
def Dev.setLoop (d : Dev) (n : Nat) (fit : Option LoopFit) : Dev :=
  match fit with
  | none => d
  | some f =>
    if d.hostCal n then d
    else [(Reg.SERVO.CROSSOVER_HZ, f.crossover), (Reg.SERVO.LEAD_RATIO, f.lead), (Reg.SERVO.INT_CORNER, f.corner),
      (Reg.SERVO.NOTCH0_FREQ, f.freq0), (Reg.SERVO.NOTCH0_Q, f.q0), (Reg.SERVO.NOTCH1_FREQ, f.freq1), (Reg.SERVO.NOTCH1_Q, f.q1)].foldl
        (fun (e : Dev) p => e.fset (pgServo n) p.1 p.2) d

/-- The sum of the two middle values of the lanes' noise powers: twice their median. -/
def twiceMedian (l : List Nat) : Nat :=
  let below (x : Nat) : Nat := (l.filter (fun y => decide (y < x))).length
  let upTo (x : Nat) : Nat := (l.filter (fun y => decide (y ≤ x))).length
  let nth (k : Nat) : Nat := (l.find? (fun x => decide (below x ≤ k) && decide (k < upTo x))).getD 0
  nth (l.length / 2) + nth ((l.length - 1) / 2)

/-- Load step 6 (R227): OFFSET, BIAS, head health, and the saved values of zone 2. -/
def Dev.calStep6 (d : Dev) (n : Nat) (m : CalMeas) : Dev :=
  let d := if d.hostCal n then d else d.setCtleFreq n (d.startCog n)
  let d := d.setLoop n m.fit
  let noise := takePad 0 64 m.noise
  let med2 := twiceMedian noise
  let d := (List.range 64).foldl (fun (e : Dev) l =>
    let e := e.fset (lfe n l) (Reg.LANEFE.OFFSET (l % 16)) (toField 6 (clampInt (-32) 31 (m.offsets.getD l 0)))
    let e := e.preampBias n l
    if 8 * noise.getD l 0 < med2 then e.setHealth n l 2 else e) d
  (if d.hostCal n then d else d.zoneChange n 2).loadTables n

/-- Firmware's calibration of a second (R197, R207), or a calibration step of a load.
(DEDUCED, log entry 31.) -/
def Dev.calibrate (d : Dev) (n : Nat) (m : CalMeas) : Dev :=
  if (d.stw (4 + n)).state ≠ 0 then d
  else if d.cartState n = 2 && d.phase n = 5 then d.calStep5 n m
  else if d.cartState n = 2 && d.phase n = 6 then d.calStep6 n m
  else if d.hostCal n || !(d.sp n).drv.streaming then d
  else (((d.trimReaders n).trimTension n).trimBoost n m.boost).modDrv n (fun x => { x with errSums := [] })

end Sys2Proof.Machine
end

