-- ==== Sys2Proof/Machine/Firmware.lean ====
section
/-! DEFINITION. Images and updates (R353 to R357), stewards and the bank switch (R407, R410, R411), and what firmware
answers to the management controller (R351, R352, R383). -/

namespace Sys2Proof.Machine

def Dev.modBoot (d : Dev) (f : Boot → Boot) : Dev := { d with boot := f d.boot }

/-! ### Images (R354, R355) -/

/-- The fields of an image, little-endian. -/
def imgNat (im : List Byte) (off n : Nat) : Nat := natLE ((im.drop off).take n)
def imgKey (im : List Byte) : Nat := imgNat im 4 1
def imgSvn (im : List Byte) : Nat := imgNat im 5 1
def imgVersion (im : List Byte) : Nat := imgNat im 8 4
def imgLength (im : List Byte) : Nat := imgNat im 12 4

/-- MAGIC, KEY_INDEX and LENGTH are as R354 states. -/
def imgFormed (im : List Byte) : Bool :=
  imgNat im 0 4 == 0x4B384657 && decide (imgKey im ≤ 1) && decide (4096 ≤ imgLength im) && decide (imgLength im ≤ 25165824)

/-- The image's signature verifies under a key that is not revoked. -/
def imgVerifies (im : List Byte) : Bool := !(imgKey im == 0 && Config.keyRevoked) && Config.imageSigned (imgKey im) im

/-- Why a counter value refuses the image, as UPD_STAT codes it; 0: it is valid. -/
def imgCode (counter : Nat) (im : List Byte) : Nat :=
  if !imgFormed im || im.length != imgLength im then 7
  else if !imgVerifies im then 4
  else if imgSvn im < counter then 5
  else if 64 < imgSvn im then 6 else 0

/-- The bytes of a flash slot, and the image that begins them. -/
def Slot.bytes : Slot → List Byte
  | .unknown k => Config.flashImage k
  | .image l => l
def Slot.imageOf (s : Slot) : List Byte := s.bytes.take (imgLength s.bytes)

/-- The slot selected at start-up: the valid image with the higher IMAGE_VERSION, A on a tie. -/
def Dev.bootChoice (d : Dev) : Option (Nat × List Byte) :=
  let a := d.boot.slotA.imageOf
  let b := d.boot.slotB.imageOf
  let okA := imgCode d.svnFuses a == 0
  let okB := imgCode d.svnFuses b == 0
  if okA && (!okB || decide (imgVersion b ≤ imgVersion a)) then some (0, a)
  else if okB then some (1, b) else none

/-- BOOT_STAT and IMAGE_VERSION report the image of the active banks. -/
def Dev.reportImage (d : Dev) : Dev :=
  let im := d.boot.active.getD []
  ((d.fset pgBoot Reg.BOOT.SLOT d.boot.activeSlot).fset pgBoot Reg.BOOT.SVN_RUN (imgSvn im)).fset pgBoot Reg.BOOT.IMAGE_VERSION
    (imgVersion im)

/-- The stewards run the active image: start-up's step 5, or a release from recovery. -/
def Dev.releaseStewards (d : Dev) : Dev := (d.reportImage.fset pgBoot Reg.BOOT.STATE 1)

/-! ### Updates (R356) -/

/-- UPD_CTRL.START: it opens the slot that the running image did not come from. -/
def Dev.updStart (d : Dev) : Dev :=
  let st := d.fget pgBoot Reg.BOOT.STATUS
  if st = 1 ∨ st = 2 then d
  else
    let d := d.modBoot (fun b => { b with recv := [], openSlot := 1 - b.activeSlot })
    (d.fset pgBoot Reg.BOOT.STATUS 1).clr pgBoot Reg.BOOT.WORDS

/-- WORDS shows the 32-bit words received; beyond its 23 bits it is a free value.
(DESIGN CHOICE, log entry 28.) -/
def Dev.showWords (d : Dev) : Dev :=
  let w := d.boot.recv.length / 4
  if w < 2 ^ 23 then d.fset pgBoot Reg.BOOT.WORDS w else d.nextFree.fset pgBoot Reg.BOOT.WORDS (d.freeVal % 2 ^ 23)

/-- UPD_DATA: 4 bytes more. -/
def Dev.updData (d : Dev) (v : Nat) : Dev :=
  if d.fget pgBoot Reg.BOOT.STATUS ≠ 1 then d
  else (d.modBoot (fun b => { b with recv := b.recv ++ bytesLE 4 v })).showWords

/-- UPD_CTRL.END. -/
def Dev.updEnd (d : Dev) : Dev := if d.fget pgBoot Reg.BOOT.STATUS = 1 then d.fset pgBoot Reg.BOOT.STATUS 2 else d

/-- An update ends with a failure code.
(DEDUCED, log entry 28.) -/
def Dev.updFails (d : Dev) (code : Nat) : Dev := (d.fset pgBoot Reg.BOOT.STATUS code).ev pgBoot Reg.BOOT.STAGE_FAIL

/-- A slot of the flash changed. -/
def Dev.setSlot (d : Dev) (k : Nat) (s : Slot) : Dev := d.modBoot (fun b => if k = 0 then { b with slotA := s } else { b with slotB := s })

/-- The verification ends: a failure code, or the image lies in flash and in the inactive banks. -/
def Dev.updDone (d : Dev) (flashOk : Bool) : Dev :=
  if d.fget pgBoot Reg.BOOT.STATUS ≠ 2 then d
  else
    let im := d.boot.recv
    let k := d.boot.openSlot
    match imgCode d.svnFuses im with
    | 0 =>
      if flashOk then
        let d := (d.setSlot k (.image im)).modBoot (fun b => { b with staged := some im, stagedSlot := k })
        (d.fset pgBoot Reg.BOOT.STATUS 3).ev pgBoot Reg.BOOT.STAGED
      else (d.nextFree.setSlot k (.unknown (2 + d.free))).updFails 8
    | 6 => (d.updFails 6).ev pgBoot Reg.BOOT.SVN_EXHAUSTED
    | c => d.updFails c

/-- UPD_CTRL.RELEASE: in recovery the staged image goes into bank 0, and the stewards are released. -/
def Dev.updRelease (d : Dev) : Dev :=
  if d.fget pgBoot Reg.BOOT.STATE ≠ 2 ∨ d.fget pgBoot Reg.BOOT.STATUS ≠ 3 then d
  else
    let d := d.modBoot (fun b => { b with active := b.staged, activeSlot := b.stagedSlot })
    (d.releaseStewards.fset pgMgmt Reg.MGMT.PHASE 5).modTherm (fun t => { t with steps := 5 :: t.steps })

/-! ### The security version counter (R357) -/

/-- The counter's aim: the SVN of the running image, which no valid image has above 64. -/
def Dev.svnAim (d : Dev) : Nat := min 64 (d.fget pgBoot Reg.BOOT.SVN_RUN)

def Dev.svnCommit (d : Dev) : Dev := if d.svnFuses < d.svnAim then d.ev pgBoot Reg.BOOT.BUSY else d

/-- The fuses are blown. -/
def Dev.svnDone (d : Dev) : Dev :=
  if !d.fon pgBoot Reg.BOOT.BUSY then d
  else ({ d with svnFuses := max d.svnFuses d.svnAim }.clr pgBoot Reg.BOOT.BUSY).ev pgBoot Reg.BOOT.SVN_RAISED

/-! ### Stewards (R407) -/

/-- The stewards have been released since the last reset. -/
def Dev.released (d : Dev) : Bool := d.fget pgBoot Reg.BOOT.STATE == 1

/-- A chip steward runs. -/
def Dev.chipStewards (d : Dev) : Bool := d.released && (List.range 4).any (fun i => (d.stw i).state == 0)

/-- SWITCH_STAT's code. -/
def Dev.switchStat (d : Dev) : Nat := d.fget pgMgmt Reg.MGMT.STATUS

/-- The work that waited for a steward goes on: its ladder's sequencing, its spoke's turn. -/
def Dev.stewardWork (d : Dev) (i : Nat) : Dev :=
  if i < 4 then d
  else
    let n := i - 4
    let d := if (d.lad n).phase = .boundary then d.rungOver n else d
    d.goOn n

/-- Every paused steward resumes on its own bank. -/
def Dev.resumePaused (d : Dev) : Dev :=
  let l := (List.range 12).filter (fun i => (d.stw i).state == 1)
  let d := l.foldl (fun (e : Dev) i => e.modStw i (fun x => { x with state := 0 })) (d.clr pgMgmt Reg.MGMT.PAUSED)
  l.foldl Dev.stewardWork d

/-- A bank switch is refused after GO (R410). -/
def Dev.switchRefused (d : Dev) : Dev := (d.fset pgMgmt Reg.MGMT.STATUS 5).resumePaused

/-- A steward fails. -/
def Dev.stewardFails (d : Dev) (i : Nat) : Dev :=
  let d := (d.modStw i (fun x => { x with state := 3 })).ev pgMgmt Reg.MGMT.STEWARD_FAILED
  let d := if d.switchStat = 1 then d.switchRefused else d
  if 4 ≤ i then d.fence (i - 4) 3 else d

/-- Expiries of the last 60 s. -/
def Stw.recent (x : Stw) (now : Nat) : List Nat := x.expiries.filter (fun t => decide (now < t + 60000000000))

/-- A watchdog expires: a steward that is paused or has failed has none running. Before the steward has paused, it refuses a bank switch
(R416). -/
def Dev.watchdog (d : Dev) (i : Nat) : Dev :=
  let x := d.stw i
  if !d.released || x.state == 1 || x.state == 3 then d
  else
    let l := d.now :: x.recent d.now
    let d := d.modStw i (fun y => { y with state := 2, expiries := l })
    let d := (d.bump pgMgmt Reg.MGMT.RESTARTS 1).ev pgMgmt Reg.MGMT.STEWARD_RESTART
    if 3 ≤ l.length then d.stewardFails i else if d.switchStat = 1 then d.switchRefused else d

/-- REVIVE: a failed steward restarts with its count cleared. -/
def Dev.revive (d : Dev) (i : Nat) : Dev :=
  if (d.stw i).state = 3 then d.modStw i (fun x => { x with state := 2, expiries := [] }) else d

/-- A restarted steward runs: its cartridge memory requests are sent again, and its work goes on. -/
def Dev.stewardRuns (d : Dev) (i : Nat) : Dev :=
  if (d.stw i).state ≠ 2 then d
  else
    let d := d.modStw i (fun x => { x with state := 0 })
    let d := if i < 4 then d else ((d.sp (i - 4)).drv.cmOut).foldl (fun e q => e.cmResend (i - 4) q) d
    let d := if d.switchStat = 2 && (List.range 12).all (fun k => (d.stw k).state == 0) then
        (d.fset pgMgmt Reg.MGMT.STATUS 3).ev pgMgmt Reg.MGMT.SWITCHED else d
    d.stewardWork i

/-! ### The bank switch (R410, R411) -/

/-- The banks of all twelve change together, and the measurements exchange images. -/
def Dev.exchange (d : Dev) : Dev :=
  let d := (List.range 12).foldl (fun (e : Dev) i => e.modStw i (fun x => { x with state := 2, bank := 1 - x.bank })) d
  (d.modBoot (fun b => { b with active := b.staged, staged := b.active, activeSlot := b.stagedSlot, stagedSlot := b.activeSlot })).reportImage

/-- SWITCH_CTRL.GO. -/
def Dev.switchGo (d : Dev) : Dev :=
  let refuse (c : Nat) : Dev := d.fset pgMgmt Reg.MGMT.STATUS c
  if d.switchStat = 1 ∨ d.switchStat = 2 then d
  else if d.fget pgBoot Reg.BOOT.STATUS ≠ 3 then refuse 4
  else if imgSvn (d.boot.staged.getD []) < d.svnFuses then refuse 7
  else if (List.range 12).any (fun i => (d.stw i).state == 3) then refuse 5
  else (d.fset pgMgmt Reg.MGMT.STATUS 1).clr pgMgmt Reg.MGMT.PAUSED

/-- A steward pauses; after the last of the twelve the banks switch. -/
def Dev.stewardPause (d : Dev) (i : Nat) : Dev :=
  if d.switchStat ≠ 1 || !d.released || (d.stw i).state != 0 then d
  else
    let d := (d.modStw i (fun x => { x with state := 1 })).bitPut pgMgmt Reg.MGMT.PAUSED i true
    if (List.range 12).all (fun k => (d.stw k).state == 1) then
      ((d.clr pgMgmt Reg.MGMT.PAUSED).fset pgMgmt Reg.MGMT.STATUS 2).exchange
    else d

/-- A steward has not paused in time. -/
def Dev.pauseTimeout (d : Dev) : Dev := if d.switchStat = 1 then d.switchRefused else d

/-- A steward does not report running in time: every steward goes back to its previous bank and restarts. -/
def Dev.switchRevert (d : Dev) : Dev :=
  if d.switchStat = 2 then ((d.exchange.fset pgMgmt Reg.MGMT.STATUS 6).ev pgMgmt Reg.MGMT.REVERTED) else d

/-! ### SPDM and PLDM (R351, R352, R383) -/

/-- Firmware answers with a code of SPDM 1.2 (PRESUMED) and a body; without a running chip steward nothing answers (R407).
(PRESUMED, log entry 40.) -/
def Dev.spdm (d : Dev) (code : Nat) (body : List Byte) : Dev := if d.chipStewards then d.emit (.spdm code body) else d

/-- ERROR. -/
def Dev.spdmError (d : Dev) : Dev := d.spdm 0x7F []

/-- The value of measurement block `k` (R352). -/
def Dev.measurement (d : Dev) (k : Nat) : List Byte :=
  if k = 1 then Config.bootRomDigest
  else if k = 2 then Config.sha512 (d.boot.active.getD [])
  else if k = 3 then (match d.boot.staged with | some im => Config.sha512 im | none => List.replicate 64 0)
  else if k = 4 then bytesLE 1 d.svnFuses
  else if k = 5 then bytesBE 8 d.keep.seq ++ d.keep.ledger
  else if k = 6 then bytesLE 1 0xA1 ++ bytesLE 1 Config.fuseBank ++ [0, 0]
  else []

/-- GET_MEASUREMENTS: index 0 asks how many blocks there are, 255 for all of them, 1 to 6 for one. -/
def Dev.getMeasurements (d : Dev) (index : Nat) (signed : Bool) (nonce : List Byte) : Dev :=
  if signed && !d.fon pgBoot Reg.BOOT.IDENTITY || (6 < index && index != 255) then d.spdmError
  else
    let body := if index = 0 then bytesLE 1 6 else if index = 255 then ((List.range 6).map (fun k => d.measurement (k + 1))).flatten else d.measurement index
    if signed then d.nextFree.spdm 0x60 (body ++ Config.identitySign (nonce ++ body) d.freeVal) else d.spdm 0x60 body

/-- GET_CERTIFICATE of a slot: `len` bytes of its chain from `off`. -/
def Dev.getCertificate (d : Dev) (slot off len : Nat) : Dev :=
  if slot ≤ 1 then d.spdm 0x02 (((Config.certChain slot).drop off).take len) else d.spdmError

/-- CHALLENGE of a slot: the digest of its chain, signed with the identity key. -/
def Dev.challenge (d : Dev) (slot : Nat) (nonce : List Byte) : Dev :=
  if 1 < slot || !d.fon pgBoot Reg.BOOT.IDENTITY then d.spdmError
  else
    let body := Config.sha512 (Config.certChain slot)
    d.nextFree.spdm 0x03 (body ++ Config.identitySign (nonce ++ body) d.freeVal)

/-- A PLDM firmware update: START, the image, END. -/
def Dev.pldmUpdate (d : Dev) (im : List Byte) : Dev :=
  if !d.chipStewards || d.fget pgBoot Reg.BOOT.STATUS == 1 || d.fget pgBoot Reg.BOOT.STATUS == 2 then d
  else
    (d.updStart.modBoot (fun b => { b with recv := im })).showWords.updEnd

/-- The numeric effecter of POWER_CAP. -/
def Dev.capEffecter (d : Dev) (v : Nat) : Dev := if d.chipStewards then (d.fset pgPower Reg.POWER.POWER_CAP v).requestStep else d

/-- The numeric sensors: an on-die sensor, T, the step in force, the P12V power. -/
def Dev.sensorRead (d : Dev) (k : Nat) : Dev :=
  if !d.chipStewards then d
  else d.emit (.pldm (
    if k < 26 then (d.sens k).last.getD 0
    else if k = 26 then ofField 16 (d.fget pgThermal Reg.THERMAL.T_MAX)
    else if k = 27 then (d.fget pgPower Reg.POWER.STEP : Int) else (d.fget pgPower Reg.POWER.P12V_POWER : Int)))

end Sys2Proof.Machine
end

