-- ==== Sys2Proof/Machine/Startup.lean ====
section
/-! DEFINITION. Supplies, resets and start-up (R386, R387, R391 to R393, R400, R408, R409), endpoints (R276, R278, R296,
R297), presence of transports (R409). -/

namespace Sys2Proof.Machine

/-! ### Supplies (R391 to R393) -/

/-- P3V3_STBY becomes good: everything but the fuses and the flash is as after power-on; MGMT_ADDR is sampled. -/
def Dev.standbyUp (d : Dev) (mv addr : Nat) : Dev :=
  let e : Dev := { free := d.free + 1, out := d.out, svnFuses := d.fusesCut, boot := d.flashCut, retireLog := d.retireLog,
                   endpts := (d.endpts.map (fun p => (p.1, { perst := p.2.perst }))).filter (fun p => !p.2.perst),
                   mgmtAddr := addr, therm := { stby := true } }
  (e.fset pgPower Reg.POWER.STBY_MV mv).fset pgPower Reg.POWER.GOOD 1

/-- P12V becomes good: PWR_EVT tells the brown-out or rail fault that took the rails down. -/
def Dev.p12Up (d : Dev) (mv : Nat) : Dev :=
  let d := d.fset pgPower Reg.POWER.P12V_MV mv
  if !d.therm.stby || d.therm.p12 then d
  else
    let d := if d.therm.brown then d.ev pgPower Reg.POWER.BROWNOUT else d
    let d := if d.therm.railFault then d.ev pgPower Reg.POWER.RAIL_FAULT else d
    d.modTherm (fun t => { t with p12 := true, brown := false, railFault := false })

/-- A brown-out: the rails fall as at a trip. -/
def Dev.brownOut (d : Dev) : Dev :=
  if !d.therm.p12 then d
  else d.powerDown.modTherm (fun t => { t with p12 := false, brown := true })

/-- A rail fault of main rail `r`: the module stays down until P12V has been removed. -/
def Dev.railFault (d : Dev) (r : Nat) : Dev :=
  if !d.therm.mains || r == 0 then d
  else ((d.fset pgPower Reg.POWER.FAULTED (2 ^ r)).powerDown).modTherm (fun t => { t with railFault := true })

/-- The restart after a trip (R387): THERM_EVT.TRIPPED tells of it. -/
def Dev.tripRestart (d : Dev) : Dev :=
  if !d.therm.tripped || d.therm.coolSince.isNone then d
  else (d.modTherm (fun t => { t with tripped := false })).ev pgThermal Reg.THERMAL.TRIPPED

/-- The power limit of the step in force is exceeded over 10 ms (R396); P12V_POWER reads the power in 0.1 W. -/
def Dev.overLimit (d : Dev) (power : Nat) : Dev :=
  let d := d.fset pgPower Reg.POWER.P12V_POWER power
  if 10 * stepWatts (d.fget pgPower Reg.POWER.STEP) < power then d.ev pgPower Reg.POWER.OVER_LIMIT else d

/-! ### Resets (R400) -/

/-- A module reset: as a main power-on, with the rails held up and the timebase kept. -/
def Dev.moduleReset (d : Dev) : Dev :=
  let e := d.mainReset.fset pgPower Reg.POWER.GOOD 0x3F
  let e : Dev := { e with now := d.now, crystal := d.crystal, latches := d.latches.filter (fun p => p.1 == latchNow) }
  (e.fset pgMgmt Reg.MGMT.PHASE 1).modTherm (fun t => { t with mains := d.therm.mains, steps := [1] })

/-- BOOT's report of the running image and ALARM's record of tampering stay through a reset of KEEP. -/
def keepStays : List (PageId × Fld) :=
  [(pgBoot, Reg.BOOT.STATE), (pgBoot, Reg.BOOT.SLOT), (pgBoot, Reg.BOOT.SVN_RUN), (pgBoot, Reg.BOOT.IMAGE_VERSION),
   (pgAlarm, Reg.ALARM.MESH), (pgAlarm, Reg.ALARM.LIGHT), (pgAlarm, Reg.ALARM.TEMP), (pgAlarm, Reg.ALARM.VOLTAGE),
   (pgAlarm, Reg.ALARM.TAMPER_CNT), (pgAlarm, Reg.ALARM.ZEROISE_CNT)]

/-- A KEEP reset: streams with ENC_MODE 1 end; the fills, the ledger at SEQ 0; no key and no identity is held. -/
def Dev.keepReset (d : Dev) : Dev :=
  let old := d.endEncrypted
  let e := old.resetRegion 2
  let e : Dev := { e with svnFuses := old.fusesCut, latches := old.latches.filter (fun p => decide (p.1 < latchIv)), free := old.free + 1,
                          boot := { old.flashCut with active := old.boot.active, staged := old.boot.staged,
                                                      activeSlot := old.boot.activeSlot, stagedSlot := old.boot.stagedSlot } }
  (keepStays.foldl (fun x f => Dev.carry old x f) e).keepFill

/-- KEEP is ready after a reset: are both private keys held (R350)? -/
def Dev.keepReady (d : Dev) (ok : Bool) : Dev := d.fput pgBoot Reg.BOOT.IDENTITY ok

/-! ### Start-up (R408, R409) -/

/-- Step `k` has been completed. -/
def Dev.stepped (d : Dev) (k : Nat) : Bool := d.therm.steps.contains k

/-- Step `k` is complete: PHASE reports it. -/
def Dev.phaseDone (d : Dev) (k : Nat) : Dev := (d.fset pgMgmt Reg.MGMT.PHASE k).modTherm (fun t => { t with steps := k :: t.steps })

/-- The steps that `k` waits for: the one before it; step 8 waits for step 5. -/
def Dev.stepDue (d : Dev) (k : Nat) : Bool :=
  !d.stepped k && (if k = 8 then d.stepped 5 else if k = 9 then d.stepped 7 && d.stepped 8 else d.stepped (k - 1))

/-- A sensor as the timebase begins again: its latest reading stands for that moment, and the windows of R381 begin there.
(DESIGN CHOICE, log entry 38.) -/
def Sens.restamp (s : Sens) : Sens := { s with hist := (s.hist.take 1).map (fun p => (0, p.2)) }

/-- Step 1: the main rails are in regulation. HBX_SPLIT is sampled, and the timebase counts from 0. -/
def Dev.railsUp (d : Dev) (split : Bool) : Dev :=
  if !d.therm.stby || !d.therm.p12 || d.therm.tripped || d.therm.railFault || d.therm.mains then d
  else
    let d : Dev := { d with split := split, now := 0, crystal := true }
    let d := ((d.fset pgPower Reg.POWER.GOOD 0x3F).modTherm (fun t => { t with mains := true, sens := t.sens.map (fun p => (p.1, p.2.restamp)) }))
    d.phaseDone 1

/-- Step 4: the image selected; without one BOOT is in recovery. -/
def Dev.flashVerified (d : Dev) : Dev :=
  match d.bootChoice with
  | some (k, im) => d.modBoot (fun b => { b with active := some im, activeSlot := k })
  | none => d.fset pgBoot Reg.BOOT.STATE 2

/-- Step 6: the channels of a mask have trained; one that has not is a fault, and step 6 does not complete. -/
def Dev.channelsTrained (d : Dev) (mask : Nat) : Dev :=
  let d := (List.range 4).foldl (fun (e : Dev) k => e.fput (pgMemctl k) Reg.MEMCTL.TRAINED (bitAt mask k)) d
  if mask % 16 = 15 then d.phaseDone 6 else d.ev pgMgmt Reg.MGMT.FAULT

/-- Blocks recorded as retired are retired again, unless PERSIST is 0 (R406). -/
def Dev.retireAgain (d : Dev) : Dev :=
  if !d.fon pgMgmt Reg.MGMT.PERSIST then d else d.retireLog.foldl (fun (e : Dev) pg => if e.fon pg Reg.HEADER.RETIRED then e else e.retireNow pg) d

/-- A start-up operation completes: the step it ends, and what follows from it. -/
def Dev.startUp (d : Dev) : StartStep → Dev
  | .rails split => d.railsUp split
  | .fills => if d.stepDue 2 then (d.keepFill.ev pgVmap Reg.VALIDMAP.READY).phaseDone 2 else d
  | .fuses ok => if d.stepDue 3 then (d.fput pgBoot Reg.BOOT.IDENTITY ok).phaseDone 3 else d
  | .flash => if d.stepDue 4 then d.flashVerified.phaseDone 4 else d
  | .release => if d.stepDue 5 && d.fget pgBoot Reg.BOOT.STATE != 2 then d.releaseStewards.phaseDone 5 else d
  | .trained m => if d.stepDue 6 && !d.fon pgMgmt Reg.MGMT.FAULT then d.channelsTrained m else d
  | .pool => if d.stepDue 7 then (if d.pool.configured then d else d.poolConfigDone).phaseDone 7 else d
  | .links => if d.stepDue 8 then ((List.range 8).foldl (fun (e : Dev) n =>
      (e.ev (pgLink n) Reg.LINK.CAD_ON).modDrv n (fun x => { x with present := true })) d).phaseDone 8 else d
  | .ready => if d.stepDue 9 then
      (List.range 8).foldl Dev.beginLoad ((d.retireAgain.ev pgMgmt Reg.MGMT.READY).phaseDone 9) else d

/-! ### Transports present and absent (R409) -/

/-- SPn_ECHO has shown no edge in the 10 ms after the LINK was enabled: nothing is loaded there. -/
def Dev.transportAbsent (d : Dev) (n : Nat) : Dev :=
  if d.fon (pgLink n) Reg.LINK.CAD_ON && d.cartState n == 0 then d.modDrv n (fun x => { x with present := false }) else d

/-- An absent spoke becomes present; a cartridge that its transport reports then loads. -/
def Dev.transportPresent (d : Dev) (n : Nat) : Dev :=
  if (d.sp n).drv.present || !d.fon (pgLink n) Reg.LINK.CAD_ON then d else (d.modDrv n (fun x => { x with present := true })).beginLoad n

/-! ### Endpoints (R276, R278, R296, R297) -/

/-- PEn_PERST_N is asserted: a link down if the link has been up since its last release. -/
def Dev.perstAssert (d : Dev) (e : Nat) : Dev :=
  if !d.epPresent e then d
  else
    let was := (d.ep e).wasUp && !(d.ep e).perst
    let d := if was then d.hostLoss e 1 else d
    (d.epReset e).modEp e (fun x => { x with perst := true, wasUp := false })

/-- PEn_PERST_N is released: the endpoint trains its link. -/
def Dev.perstRelease (d : Dev) (e : Nat) : Dev :=
  if !d.epPresent e then d else d.modEp e (fun x => { x with perst := false, wasUp := false })

/-- The data link layer reaches DL_Active with a width and a SPEED code. -/
def Dev.linkActive (d : Dev) (e width speed : Nat) : Dev :=
  if !d.epPresent e || (d.ep e).perst || !d.therm.mains then d else d.linkUp e width speed

/-- The data link layer leaves DL_Active. -/
def Dev.linkLost (d : Dev) (e : Nat) : Dev :=
  if !d.fon (pgPcie e) Reg.PCIE.LINK_UP then d
  else
    let d := ((d.clr (pgPcie e) Reg.PCIE.LINK_UP).fset (pgPcie e) Reg.PCIE.WIDTH 0).fset (pgPcie e) Reg.PCIE.SPEED 0
    d.hostLoss e 1

/-- Configuration requests are answered with RRS until step 7 is complete; in recovery the endpoints come up after step 4. -/
def Dev.cfgReady (d : Dev) : Bool := d.stepped 7 || (d.stepped 4 && d.fget pgBoot Reg.BOOT.STATE == 2)

/-- A configuration request for function `f` of endpoint `e`, which may write the Device Control registers. The physical function's rule for
its virtual functions.
(PRESUMED, log entry 49.) -/
def Dev.cfgRequest (d : Dev) (e f : Nat) (ctl : Option PciCtl) : Dev :=
  if !d.fon (pgPcie e) Reg.PCIE.LINK_UP then d
  else
    let d := if d.cfgReady then d.modEp e (fun x => { x with ready := true }) else d
    let d := match ctl with
      | some c => if d.cfgReady && f == 0 then d.modEp e (fun x => { x with ctl := c }) else d
      | none => d
    d.emit (.cfgReply (64 * e + f) (!d.cfgReady))

/-- A write of HB through the physical function is a beat, and a host that was lost has returned. -/
def Dev.heartbeat (d : Dev) (e v : Nat) : Dev :=
  let lost := d.fon (pgPcie e) Reg.PCIE.HOST_LOST
  let d := (d.fset (pgPcie e) Reg.PCIE.VALUE v).beat e
  if lost && !d.fon (pgPcie e) Reg.PCIE.HOST_LOST then d.hostReturns e else d

/-- WINDOW ms have passed after a beat without another. -/
def Dev.heartbeatMiss (d : Dev) (e : Nat) : Dev := if (d.ep e).beat.isSome then (d.modEp e (fun x => { x with beat := none })).hostLoss e 2 else d

end Sys2Proof.Machine
end

