-- ==== Sys2Proof/Machine/Chains.lean ====
section
/-! DEFINITION. Chains and gate FIFOs (chapter 2): a push and its parity replay, a pop, credits, a flush; a write and a pop
of a gate FIFO, and what the clocked side sees at its edges. -/

namespace Sys2Proof.Machine

/-! ### A chain (R35 to R38, R43) -/

/-- Chain `k` as its reset leaves it: its producer holds CH_CFG.GRANT credits, DEPTH at reset (R36, R49). -/
def chainReset (k : Nat) : Chain :=
  { depth := Config.chainDepth k, grantReg := Config.chainDepth k, grant := Config.chainDepth k, credits := Config.chainDepth k }

/-- A chain reset by a completed flush (R36, R43): CH_CFG, PEAK and the events stay. -/
def Chain.flushed (c : Chain) : Chain :=
  { c with grant := c.grantReg, credits := c.grantReg, words := [], transit := 0, itemOpen := false, flushBusy := false, drain := false,
           flushDone := true, popped := 0, begun := false, closing := false }

/-- The cut-through threshold in force (R38). -/
def Chain.threshold (c : Chain) : Nat :=
  let top := min c.depth c.grant
  if c.cutThresh = 0 then top else min c.cutThresh top

/-- Words of the item at the consumer's end that are present, and whether its EOI word is among them. -/
def itemPresent : List (CoreWord × Bool) → Nat × Bool
  | [] => (0, false)
  | w :: r => if w.1.eoi then (1, true) else ((itemPresent r).1 + 1, (itemPresent r).2)

/-- May the consumer take the word at the output: has it begun the item, or may it begin (R38)? -/
def Chain.mayPop (c : Chain) : Bool :=
  !c.words.isEmpty && (c.begun || decide (c.threshold ≤ c.popped + (itemPresent c.words).1) || (itemPresent c.words).2)

/-- The word at the output is popped; its credit starts back to the producer. -/
def Chain.pop (c : Chain) : Chain :=
  match c.words with
  | [] => c
  | w :: r => { c with words := r, transit := c.transit + 1, popWaits := false, popped := if w.1.eoi then 0 else c.popped + 1,
                       begun := !w.1.eoi }

/-- A word accepted from the producer: it falls through to the empty stage nearest the consumer. -/
def Chain.accept (c : Chain) (w : CoreWord) (substitute : Bool) : Chain :=
  { c with words := c.words ++ [(w, substitute)], credits := c.credits - 1, itemOpen := !w.eoi, peak := max c.peak (c.words.length + 1) }

/-- A word of a drain-to-end swallowed: its credit goes straight back (R43). -/
def Chain.swallow (c : Chain) (w : CoreWord) : Chain :=
  if w.eoi then c.flushed else { c with credits := c.credits - 1, transit := c.transit + 1 }

/-- A word that arrives at the receiver with good parity. -/
def Chain.take (c : Chain) (w : CoreWord) (substitute : Bool) : Chain :=
  if c.drain then c.swallow w else c.accept w substitute

/-- The flush point (R43). -/
def Chain.flush (c : Chain) : Chain :=
  if c.flushBusy then c
  else
    let c := { c with transit := c.transit + c.words.length, words := [], popped := 0, begun := false }
    if c.itemOpen then { c with flushBusy := true, drain := true, drainSeen := true } else c.flushed

/-- A returned credit reaches the producer (R36). -/
def Chain.creditBack (c : Chain) : Chain := if c.transit = 0 then c else { c with transit := c.transit - 1, credits := c.credits + 1 }

/-- The substitute word of R45. -/
def substituteWord : CoreWord := { soi := false, eoi := true, data := 0 }

/-- The region's substitute word enters once a credit allows it. -/
def Chain.close (c : Chain) : Chain :=
  if c.closing && c.credits != 0 then { c.take substituteWord true with closing := false } else c

/-- A producer block is retired: its open item is to be closed. -/
def Chain.retired (c : Chain) : Chain := if c.itemOpen then Chain.close { c with closing := true, latch := none } else c

/-! ### The blocks that produce (R13, R45) -/

/-- The page of the block that a cell belongs to. -/
def producerPage (id : ChainId) (cell : Nat) : PageId :=
  match id with
  | .tile n _ => pgLanefe n (cell / 16)
  | .decomp _ => pgCrypt cell
  | .comp _ => pgDma cell

/-- The chains that a block feeds. -/
def fedBy (pg : PageId) : List ChainId :=
  if 2048 ≤ pg ∧ pg < 4096 ∧ pg % 256 < 4 then (List.range 9).map (fun t => .tile (Fin.ofNat 8 (pg / 256)) (Fin.ofNat 9 t))
  else if pg = pgCrypt 0 ∨ pg = pgCrypt 1 then (List.range 17).map (fun i => .decomp (Fin.ofNat 17 i))
  else if pgDma 0 ≤ pg ∧ pg ≤ pgDma 3 then (List.range 17).map (fun i => .comp (Fin.ofNat 17 i))
  else []

/-- The cell that may push (R13): the one whose item is open, or the first that asks in the round. -/
def Chain.grants (c : Chain) (n : Nat) (asks : List Nat) : Option Nat :=
  if c.itemOpen then some c.holder else rrPick n c.next asks.contains

/-- Cell `i` of `n` is granted: the next search begins behind it. -/
def Chain.granted (c : Chain) (n i : Nat) : Chain := { c with next := (i + 1) % n, holder := i }

/-! ### The block that consumes (R33, R398) -/

/-- The page of a chain's consumer, and of a gate FIFO's receiving block. -/
def consumerPage : ChainId → PageId
  | .comp i => pgComp i
  | .decomp i => pgDecomp i
  | .tile n t => pgDetect n t
def gatePage : GateId → PageId
  | .sample n l => lfe n l
  | .writeLane n _ => pgWriter n
  | .pcieRx e | .pcieTx e => pgPcie e
  | .ddrRead c | .ddrWrite c => pgMemctl c
  | .mgmtRx | .mgmtTx => pgMgmt

/-- The work unit of a chain's consumer. -/
def consumerUnit : ChainId → Damage
  | .comp i => .comp i
  | .decomp i => .decomp i
  | .tile n t => .tileSegment n t false 0

/-- The work unit that a gate FIFO's word belongs to; of a write lane's word the channel is a free value `v`. -/
def gateUnit (v : Nat) : GateId → Damage
  | .sample n l => .laneSegment n l
  | .writeLane n w => .writerSegment n (Fin.ofNat 64 (32 * w.val + v % 32))
  | .pcieRx e | .pcieTx e => .other (pgPcie e) (pgPcie e) false
  | .ddrRead c | .ddrWrite c => .other (pgMemctl c) (pgMemctl c) false
  | .mgmtRx | .mgmtTx => .other pgMgmt pgMgmt false

/-- A replay is received (R33). -/
def Dev.replayed (d : Dev) (pg : PageId) : Dev := (d.bump pg Reg.HEADER.REPLAY_CNT 1).errEvent pg errReplay

/-- The fourth copy has failed (R33): the receiving block abandons its work unit. -/
def Dev.exhausted (d : Dev) (pg : PageId) (x : Damage) : Dev := (d.errEvent pg errReplayExhaust).damaged x

/-! ### The maps -/

def State.chain (s : State) (c : ChainId) : Chain := mget chainReset s.chains c.key
def State.setChain (s : State) (c : ChainId) (x : Chain) : State := { s with chains := mset chainReset s.chains c.key x }
def State.gate (s : State) (g : GateId) : Gate := mget (fun _ => {}) s.gates g.key
def State.setGate (s : State) (g : GateId) (x : Gate) : State := { s with gates := mset (fun _ => {}) s.gates g.key x }
def State.modDev (s : State) (f : Dev → Dev) : State := { s with dev := f s.dev }

/-! ### The rows of chains -/

/-- The pop that the consumer waits for, if the chain allows it now; marks out of sequence, and a substitute word, make the
consumer abandon its work unit (R32, R45). A consumer feeds no chain, so its retirement closes no item.
(DEDUCED, log entry 13, DEDUCED, log entry 15.) -/
def State.popChain (s : State) (id : ChainId) : State :=
  let c := s.chain id
  if !c.mayPop then s.setChain id { c with popWaits := true }
  else
    let bad := match c.words with | w :: _ => w.2 || w.1.soi == (c.popped != 0) | [] => false
    let s := s.setChain id c.pop
    if bad then s.modDev (fun d => d.damaged (consumerUnit id)) else s

/-- A pop that waits completes if the chain allows it now (R42). -/
def State.servePop (s : State) (id : ChainId) : State := if (s.chain id).popWaits then s.popChain id else s

/-- A producer that is retired has its open item on the chain closed with a substitute word (R45). -/
def State.closeItem (s : State) (pg : PageId) (id : ChainId) : State :=
  let c := s.chain id
  if c.itemOpen && producerPage id c.holder == pg then (s.setChain id c.retired).servePop id else s

/-- Producer blocks in service in `d` and retired in `e`. -/
def retiredProducers (d e : Dev) : List PageId :=
  ((List.range 8).flatMap (fun n => (List.range 4).map (pgLanefe n)) ++ [pgCrypt 0, pgCrypt 1]).filter
    (fun pg => !d.fon pg Reg.HEADER.RETIRED && e.fon pg Reg.HEADER.RETIRED)

/-- Work units abandoned as damaged, and what a retirement that follows does to chains (R45). -/
def State.damage (s : State) (f : Dev → Dev) : State :=
  let e := f s.dev
  (retiredProducers s.dev e).foldl (fun s pg => (fedBy pg).foldl (fun s id => s.closeItem pg id) s) { s with dev := e }

/-- A word received: with good parity it is accepted, and a waiting pop may complete with it (R42); otherwise the sender keeps
it, `copies` sent, or after the fourth copy it is given up: then the producer's item stays as it was, open or not.
(DESIGN CHOICE, log entry 13.) -/
def State.receive (s : State) (id : ChainId) (w : CoreWord) (err : BitVec 67) (copies : Nat) : State :=
  let c := s.chain id
  let x := w.wire ^^^ err.toNat
  if parityOk x then
    (s.setChain id ({ c with latch := none }.take (CoreWord.ofWire x) false)).servePop id
  else if 4 ≤ copies then
    (s.setChain id { c with latch := none }).damage (fun d => d.exhausted (consumerPage id) (consumerUnit id))
  else s.setChain id { c with latch := some (w, copies) }

/-- A push of `cell`, while the cells `asks` ask too (R13, R35, R36): one that is not granted waits.
(DEDUCED, log entry 13.) -/
def State.push (s : State) (id : ChainId) (cell : Nat) (asks : List Nat) (w : CoreWord) (err : BitVec 67) : Except Fault State :=
  let c := s.chain id
  if c.credits = 0 then .error .pushWithoutCredit
  else if c.latch.isSome || c.grants (producers id) (cell :: asks) != some cell then .ok s
  else .ok ((s.setChain id (c.granted (producers id) cell)).receive id w err 1)

/-- The consuming block abandons the unit that a flush cuts off (R43): no engine is charged with it, and nothing is counted. -/
def Dev.cutUnit (d : Dev) : ChainId → Dev
  | .comp i => { d with recs := d.recs.map (fun (r : PRec) => { r with blks := r.blks.map (fun (b : PBlk) =>
      if b.st = BlkSt.coding i.val then { b with st := .queued } else b) }) : Dev }.clr (pgComp i) Reg.COMP.ACTIVE
  | .decomp i => (((List.range 8).foldl (fun x n => x.modRs n (fun r => { r with
      blks := r.blks.map (fun b => if b.st == .coding i.val || b.st == .waitFar i.val then { b with st := .ncf } else b) })) d).clr
      (pgDecomp i) Reg.DECOMP.ACTIVE).clr (pgDecomp i) Reg.DECOMP.WAIT_FAR
  | .tile n t => d.damageOutcome (.tileSegment n t false 0)

/-- FLUSH: the consumer abandons an item that it has popped in part, which is no error (R43). -/
def State.flushChain (s : State) (id : ChainId) : State :=
  let c := s.chain id
  let s := s.setChain id c.flush
  if !c.flushBusy && c.popped != 0 then s.modDev (fun d => d.cutUnit id) else s

/-- A returned credit reaches the producer, or the region's substitute word that waits for it. -/
def State.creditChain (s : State) (id : ChainId) : State :=
  (s.setChain id (s.chain id).creditBack.close).servePop id

/-! ### Gate FIFOs (R39 to R42) -/

/-- Words present as the clocked side sees them, and as the self-timed side does (R40, R50). -/
def Gate.clkView (g : Gate) (clockedWrites : Bool) : Nat :=
  if clockedWrites then (g.wptr + 64 - g.seen.1) % 64 else (g.seen.1 + 64 - g.rptr) % 64
def Gate.coreView (g : Gate) : Nat := g.words.length

/-- A word enters; a word leaves. -/
def Gate.put (g : Gate) (w : CoreWord) : Gate := { g with words := g.words ++ [w], wptr := (g.wptr + 1) % 64 }
def Gate.get (g : Gate) : Gate :=
  { g with words := g.words.drop 1, rptr := (g.rptr + 1) % 64, popWaits := false, tries := 0,
           begun := match g.words with | w :: _ => !w.eoi | [] => g.begun }

/-- Does the reader see a word (R40)? -/
def Gate.sees (g : Gate) (clockedWrites : Bool) : Bool :=
  (if clockedWrites then g.coreView else g.clkView false) != 0 && !g.words.isEmpty

/-- Is the word at the output out of the sequence of R32? -/
def Gate.outOfSequence (g : Gate) : Bool := match g.words with | w :: _ => w.soi == g.begun | [] => false

/-- An edge of the clocked side: the synchroniser moves on, and a word held for space enters. -/
def Gate.edge (g : Gate) (clockedWrites : Bool) : Gate :=
  let g := { g with seen := (g.seen.2, if clockedWrites then g.rptr else g.wptr) }
  match g.held with
  | some w => if clockedWrites && decide (g.clkView true < 32) && decide (g.words.length < 32) then { g.put w with held := none } else g
  | none => g

/-- The block of a gate FIFO abandons the unit that a word belongs to. -/
def State.gateDamage (s : State) (id : GateId) (f : Dev → Damage → Dev) : State :=
  let v := s.dev.freeVal
  (s.modDev Dev.nextFree).damage (fun d => f d (gateUnit v id))

/-- A copy of the word at the output reaches the reader, who checks its parity (R33, R39): a good one is popped, with marks out of
sequence its block abandons the unit (R32); after the fourth bad one the word is given up. -/
def State.takeGate (s : State) (id : GateId) (err : BitVec 67) : State :=
  let g := s.gate id
  match g.words with
  | [] => s
  | w :: _ =>
    if parityOk (w.wire ^^^ err.toNat) then
      let s := s.setGate id g.get
      if g.outOfSequence then s.gateDamage id Dev.damaged else s
    else if 3 ≤ g.tries then (s.setGate id { g.get with begun := g.begun }).gateDamage id (fun d x => d.exhausted (gatePage id) x)
    else s.setGate id { g with tries := g.tries + 1 }

/-- A word received by a gate FIFO. -/
def State.receiveGate (s : State) (id : GateId) (w : CoreWord) (err : BitVec 67) (copies : Nat) : State :=
  let g := s.gate id
  let x := w.wire ^^^ err.toNat
  if parityOk x then
    let g := { g with latch := none }.put (CoreWord.ofWire x)
    let s := s.setGate id g
    if g.popWaits && id.clockedWrites then s.takeGate id 0 else s
  else if 4 ≤ copies then
    (s.setGate id { g with latch := none }).gateDamage id (fun d x => d.exhausted (gatePage id) x)
  else s.setGate id { g with latch := some (w, copies) }

/-- The tile that owns a lane abandons the segment in progress as damaged (R41). -/
def Dev.overrunLane (d : Dev) (id : GateId) : Dev :=
  match id with
  | .sample n l =>
    match (d.rd n).arriving l with
    | some t => match ((d.rd n).tileOf t).find? (fun s => s.lane == l.val && !s.ready) with
      | some s => (d.loseSegment n t s 0).countDamage (pgDetect n t)
      | none => d
    | none => d
  | _ => d

/-- A write (R39, R41): a self-timed producer without a credit is UB-1; a clocked one that sees no free entry holds its word, or
discards it where it cannot hold it. -/
def State.writeGate (s : State) (id : GateId) (w : CoreWord) (err : BitVec 67) : Except Fault State :=
  let g := s.gate id
  if g.latch.isSome || g.held.isSome then .ok s
  else if id.clockedWrites then
    if g.clkView true < 32 && g.words.length < 32 then .ok (s.receiveGate id w err 1)
    else if id.canHold then .ok (s.setGate id { g with held := some w })
    else .ok ((s.setGate id { g with overrun := true }).damage (fun d => d.overrunLane id))
  else if g.words.length < 32 then .ok (s.receiveGate id w err 1)
  else .error .pushWithoutCredit

/-- A pop. -/
def State.popGate (s : State) (id : GateId) (err : BitVec 67) : State :=
  let g := s.gate id
  if g.tries != 0 then s
  else if g.sees id.clockedWrites then s.takeGate id err
  else s.setGate id { g with popWaits := true }

/-- WORD_REPLAY: the sender of a hop sends the word in its latch again (R33); a producer whose chain a flush has left without
credits stalls with it (R37).
(DEDUCED, log entry 13.) -/
def State.replayWord (s : State) (err : BitVec 67) : Hop → State
  | .chain id =>
    match (s.chain id).latch with
    | none => s
    | some (w, k) =>
      if (s.chain id).credits = 0 then s else (s.modDev (fun d => d.replayed (consumerPage id))).receive id w err (k + 1)
  | .gate id =>
    match (s.gate id).latch with
    | some (w, k) => (s.modDev (fun d => d.replayed (gatePage id))).receiveGate id w err (k + 1)
    | none => if (s.gate id).tries = 0 then s else (s.modDev (fun d => d.replayed (gatePage id))).takeGate id err

/-! ### The clock, and resets of regions -/

/-- Does the clocked side of the gate FIFO of number `k` write (R50)? -/
def gateClocked (k : Nat) : Bool := decide (k < 512) || k == 528 || k == 529 || (decide (532 ≤ k) && decide (k < 536)) || k == 540

/-- The gate FIFO of a number. -/
def gateOfKey (k : Nat) : GateId :=
  if k < 512 then .sample (Fin.ofNat 8 (k / 64)) (Fin.ofNat 64 k)
  else if k < 528 then .writeLane (Fin.ofNat 8 ((k - 512) / 2)) (Fin.ofNat 2 k)
  else if k < 530 then .pcieRx (Fin.ofNat 2 k)
  else if k < 532 then .pcieTx (Fin.ofNat 2 k)
  else if k < 536 then .ddrRead (Fin.ofNat 4 k)
  else if k < 540 then .ddrWrite (Fin.ofNat 4 k)
  else if k = 540 then .mgmtRx else .mgmtTx

/-- A pop that waits completes if its reader now sees a word (R40, R42). -/
def State.serveGate (s : State) (id : GateId) : State :=
  let g := s.gate id
  if g.popWaits && g.sees id.clockedWrites then s.takeGate id 0 else s

/-- One period of the clocks: the timebase adds 20 ns once the crystal is stable (R19), and every gate FIFO's clocked side has an
edge.
(DESIGN CHOICE, log entry 2.) -/
def State.tick (s : State) : State :=
  let s := { s with dev := if s.dev.crystal then { s.dev with now := (s.dev.now + 20) % 2 ^ 64 } else s.dev,
                    gates := mmap (fun _ => {}) s.gates (fun k g => g.edge (gateClocked k)) }
  (s.gates.map (·.1)).foldl (fun s k => s.serveGate (gateOfKey k)) s

/-- The chains and gate FIFOs of spoke `n` as a reset of its region leaves them. -/
def State.resetSpokeHops (s : State) (n : Nat) : State :=
  { s with chains := s.chains.filter (fun p => decide (p.1 < 64 + 16 * n) || decide (80 + 16 * n ≤ p.1)),
           gates := s.gates.filter (fun p => !(decide (64 * n ≤ p.1) && decide (p.1 < 64 * n + 64)) && !(p.1 == 512 + 2 * n) && !(p.1 == 513 + 2 * n)) }

/-- Everything between the blocks as a reset of the whole module leaves it. -/
def State.resetHops (s : State) : State := { s with chains := [], gates := [] }

/-- A meaning that may take the main rails down: the chains and gate FIFOs go with them.
(DESIGN CHOICE, log entry 42.) -/
def State.powered (s : State) (f : Dev → Dev) : State :=
  let e := f s.dev
  if s.dev.therm.mains && !e.therm.mains then { s.resetHops with dev := e } else { s with dev := e }

end Sys2Proof.Machine
end

