-- ==== Sys2Proof/Machine/Regs.lean ====
section
/-! DEFINITION. BAR0 (chapter 16): what a register reads, what a write of a field stores, and who may reach a page
(R366, R368, R421 to R431). -/

namespace Sys2Proof.Machine

/-- What a command of the block comes to. -/
abbrev Res := Host.Outcome State Fault Refusal

/-! ### Who may reach a page (R355, R366, R368, R422, R427) -/

/-- What becomes of an access: carried out, answered as of nothing, or a PAGE violation. -/
inductive Access where
  | open | absent | violation
  deriving DecidableEq, Repr

/-- Does the listed page define a register at the 4-byte offset: the header, a row of its table, a chain or gate group (R422)? -/
def offDefined (pg : PageId) (off : Nat) : Bool :=
  decide (off < 0x040) || (pageRows pg).any (fun r => r.inReg off) ||
  (match pageOf pg with
   | some (.COMP, _) | some (.DECOMP, _) => decide (0x060 ≤ off) && decide (off < 0x070)
   | some (.DETECT, _) => decide (0x080 ≤ off) && decide (off < 0x090)
   | some (.LANEFE, _) => decide (0x300 ≤ off) && decide (off < 0x380)
   | _ => false)

/-- An access of `a` to a page. Firmware is never refused; in recovery only KEEP pages answer.
(DEDUCED, log entry 19.) -/
def Dev.access (d : Dev) (a : Accessor) (pg : PageId) : Access :=
  if (pageOf pg).isNone then .absent
  else
    match a with
    | .fw _ => .open
    | .fn _ _ =>
      let dom := d.domainOf a
      if d.fget pgBoot Reg.BOOT.STATE == 2 && pg / 256 != 2 then .absent
      else if dom < 2 then .open
      else if d.domFenced dom || d.prot kPage pg != dom then .violation else .open

/-- A PAGE violation of an accessor at a page (R366): a policy above 0 may end commands, and others go on. -/
def Dev.pageViolation (d : Dev) (a : Accessor) (pg : PageId) : Dev :=
  let e := (d.violation vPage pg (d.domainOf a)).errEvent pg errProt
  if d.policyOf vPage = 0 then e else e.followAll

/-- A write through BAR0: `k` when the page is open to the accessor. -/
def State.write (s : State) (a : Accessor) (pg : PageId) (k : State → Res) : Res :=
  match s.dev.access a pg with
  | .open => k s
  | .absent => .next s
  | .violation => .next (s.modDev (fun d => d.pageViolation a pg))

/-- A write of the register at `off`: an offset that the page does not define ignores it (R422). -/
def State.writeAt (s : State) (a : Accessor) (pg : PageId) (off : Nat) (k : State → Res) : Res :=
  if offDefined pg off then s.write a pg k else .next s

/-- A write whose effect is on the device alone. -/
def State.writeDev (s : State) (a : Accessor) (pg : PageId) (f : Dev → Dev) : Res := s.write a pg (fun s => .next (s.modDev f))

/-- Writes to RESET_CTRL, FENCE_CTRL and SWITCH_CTRL count only through domain 0 (R419). -/
def State.writeRoot (s : State) (a : Accessor) (f : State → State) : Res :=
  s.write a pgMgmt (fun s => .next (if s.dev.domainOf a = 0 then f s else s))

/-! ### The common header (R428) -/

def capChains : PageTy → Nat
  | .COMP | .DECOMP | .DETECT => 1
  | _ => 0
/-- Gate groups in a page: the chapters place them in LANEFE only, where CAPS.GATES is by design.
(DESIGN CHOICE, log entry 27.) -/
def capGates : PageTy → Nat
  | .LANEFE => 16
  | _ => 0
def capSiblings : PageTy → Nat
  | .DETECT | .DECODE => 8
  | .COMP | .DECOMP => 16
  | .CRYPT => 1
  | _ => 0
/-- Is BLK_CTRL.MODE writable? -/
def capMode : PageTy → Bool
  | .WRITER | .SERVO | .DERAILLEUR | .SAMPLEHOLD | .THERMAL => true
  | _ => false
/-- RETIRABLE: every SPOKE and PRESS page. -/
def capRetire (pg : PageId) : Bool := pg / 256 == 4 || decide (8 ≤ pg / 256)
/-- QUIESCE: every page outside CHIP. -/
def capQuiesce (pg : PageId) : Bool := decide (256 ≤ pg)

/-- Does a work unit of the block run? -/
def Dev.busy (d : Dev) (pg : PageId) (t : PageTy) (i : Nat) : Bool :=
  let n := pg / 256 - 8
  let x := d.sp n
  if d.fon pg Reg.HEADER.RETIRED then false
  else match t with
  | .COMP => d.fon pg Reg.COMP.ACTIVE || d.fon pg Reg.COMP.WAIT_BUF || d.fon pg Reg.COMP.FP_BUSY
  | .DECOMP => d.fon pg Reg.DECOMP.ACTIVE || d.fon pg Reg.DECOMP.WAIT_FAR || d.fon pg Reg.DECOMP.SUSPENDED
  | .KEYSTORE => d.fon pg Reg.KEYSTORE.BUSY
  | .BOOT => d.fget pg Reg.BOOT.STATUS == 2 || d.fon pg Reg.BOOT.BUSY
  | .POOL => d.pool.applying.isSome
  | .VALIDMAP => d.fon pg Reg.VALIDMAP.BUSY
  | .POWER => d.fon pg Reg.POWER.SLEWING
  | .DETECT | .DECODE => !(x.rd.tileOf i).isEmpty || d.fon (pgDetect n i) Reg.DETECT.ACTIVE
  | .WRITER => x.wr.running || d.fon pg Reg.WRITER.WRITING
  | .VERIFY => x.drv.streaming || x.wr.verifying.isSome
  | .LANEFE | .SERVO | .MOTION | .DERAILLEUR => x.drv.streaming
  | .SAMPLEHOLD => x.rd.ladder.phase != .idle
  | _ => false

def viewHeader (d : Dev) (pg : PageId) (t : PageTy) (i : Nat) (f : Fld) : Option Nat :=
  if f = Reg.HEADER.BLK_REGION then some (pg / 256)
  else if f = Reg.HEADER.BLK_TYPE then some t.code
  else if f = Reg.HEADER.BLK_INSTANCE then some i
  else if f = Reg.HEADER.CAPS_CHAINS then some (capChains t)
  else if f = Reg.HEADER.CAPS_GATES then some (capGates t)
  else if f = Reg.HEADER.CAPS_SIBLINGS then some (capSiblings t)
  else if f = Reg.HEADER.CAPS_RETIRABLE then some (b2n (capRetire pg))
  else if f = Reg.HEADER.CAPS_QUIESCE then some (b2n (capQuiesce pg))
  else if f = Reg.HEADER.BLK_CAPS_MODE then some (b2n (capMode t))
  else if f = Reg.HEADER.QUIESCED then some (b2n (d.fon pg Reg.HEADER.QUIESCED || d.fon pg Reg.HEADER.RETIRED || !d.fon pg Reg.HEADER.ENABLE))
  else if f = Reg.HEADER.BUSY then some (b2n (d.busy pg t i))
  else if f = Reg.HEADER.DOMAIN then some (d.prot kPage pg)
  else none

/-! ### What registers show of other state -/

/-- The reserve of spoke `n` in MB/s (R15, R431). -/
def Dev.reserveOf (d : Dev) (n : Nat) : Nat :=
  if (d.sp n).drv.streaming then 10000 * cogSpeed (d.fget (pgDr n) Reg.DERAILLEUR.CUR_COG) / 4500 else 0

def viewChip (d : Dev) (t : PageTy) (f : Fld) : Option Nat :=
  match t with
  | .IDENT =>
    if f = Reg.IDENT.FUSE_BANK then some (Config.fuseBank % 256)
    else if f = Reg.IDENT.DIE_SERIAL_LO then some (bitsOf Config.dieSerial 0 32)
    else if f = Reg.IDENT.DIE_SERIAL_HI then some (bitsOf Config.dieSerial 32 32)
    else if f = Reg.IDENT.MODULE_SERIAL_LO then some (bitsOf Config.moduleSerial 0 32)
    else if f = Reg.IDENT.MODULE_SERIAL_HI then some (bitsOf Config.moduleSerial 32 32)
    else none
  | _ =>
    if f = Reg.FELT.RESERVING then some ((List.range 8).foldl (fun a n => a + 2 ^ n * b2n (d.sp n).drv.streaming) 0)
    else ((List.range 8).find? (fun n => f == Reg.FELT.MBPS n)).map d.reserveOf

def viewThermal (d : Dev) (f : Fld) : Option Nat :=
  let s := d.sens (d.fget pgThermal Reg.THERMAL.SENS_SEL_SENSOR)
  let v := d.dramOf (d.fget pgThermal Reg.THERMAL.DEVICE)
  if f = Reg.THERMAL.FAILED then some (b2n (s.cause != 0))
  else if f = Reg.THERMAL.SENS_VAL_CAUSE then some s.cause
  else if f = Reg.THERMAL.SENS_VAL_READING then some (toField 16 (s.last.getD 0))
  else if f = Reg.THERMAL.MARKS then some ((List.range 26).foldl (fun a i => a + 2 ^ i * b2n ((d.sens i).cause != 0)) 0)
  else if f = Reg.THERMAL.UNREADABLE then some (b2n (decide (3 ≤ v.2)))
  else if f = Reg.THERMAL.BAND then some (match v.1 with | some x => dramBand x | none => 0)
  else if f = Reg.THERMAL.TEMP then some (toField 16 (v.1.getD 0))
  else none

def viewTimebase (d : Dev) (a : Nat) (f : Fld) : Option Nat :=
  if f = Reg.TIMEBASE.NOW_LO then some (bitsOf d.now 0 32)
  else if f = Reg.TIMEBASE.NOW_HI then some (d.latched latchNow a) else none

/-- The page that RET_SEL names. -/
def Dev.retSel (d : Dev) : PageId := 256 * d.fget pgMgmt Reg.MGMT.REGION + d.fget pgMgmt Reg.MGMT.PAGE

/-- MGMT (R419, R420): the module group in instance 0 only; three stewards in each instance. -/
def viewMgmt (d : Dev) (i : Nat) (f : Fld) : Option Nat :=
  let r := d.retSel
  if 0x040 ≤ f.off ∧ f.off < 0x080 ∧ i ≠ 0 then some 0
  else if f = Reg.MGMT.RETIRED then some (b2n (d.fon r Reg.HEADER.RETIRED))
  else if f = Reg.MGMT.RET_VIEW_NO_SPARE then some (b2n (d.fon r Reg.HEADER.NO_SPARE))
  else if f = Reg.MGMT.DAMAGE then some (min 255 (d.damageCount r))
  else
    match (List.range 3).find? (fun k => f == Reg.MGMT.STATE k || f == Reg.MGMT.BANK k || f == Reg.MGMT.RESTARTS_60S k) with
    | none => none
    | some k =>
      let x := d.stw (3 * i + k)
      some (if f = Reg.MGMT.STATE k then x.state else if f = Reg.MGMT.BANK k then x.bank else min 255 (x.recent d.now).length)

def viewKeystore (d : Dev) (a : Nat) (f : Fld) : Option Nat :=
  let s := d.slot (d.fget pgKeystore Reg.KEYSTORE.SLOT)
  if f = Reg.KEYSTORE.LOADED then some (b2n s.loaded)
  else if f = Reg.KEYSTORE.ZEROISED then some (b2n s.zeroised)
  else if f = Reg.KEYSTORE.KEK_USED then some s.kekUsed
  else if f = Reg.KEYSTORE.SLOT_ID_LO then some (bitsOf s.keyId 0 32)
  else if f = Reg.KEYSTORE.SLOT_ID_HI then some (bitsOf s.keyId 32 32)
  else if f = Reg.KEYSTORE.IV_COUNT_LO then some (bitsOf s.ivCount 0 32)
  else if f = Reg.KEYSTORE.IV_COUNT_HI then some (d.latched latchIv a)
  else none

def viewProtect (d : Dev) (a : Nat) (f : Fld) : Option Nat :=
  let k := d.fget pgProtect Reg.PROTECT.KIND
  let i := d.fget pgProtect Reg.PROTECT.INDEX
  if f = Reg.PROTECT.LIVE then some (protOf d.keep.prot k i)
  else if f = Reg.PROTECT.STAGED then some (protOf d.keep.staged k i)
  else if f = Reg.PROTECT.DIRTY then some (b2n (d.keep.staged != d.keep.prot))
  else if f = Reg.PROTECT.SEQ_LO then some (bitsOf d.keep.seq 0 32)
  else if f = Reg.PROTECT.SEQ_HI then some (d.latched latchSeq a)
  else ((List.range 16).find? (fun i => f == Reg.PROTECT.LEDGER_i i)).map (fun i => d.latched (latchLedger i) a)

def viewAlarm (d : Dev) (f : Fld) : Option Nat :=
  if f = Reg.ALARM.DOM_VIOL then some (mget (fun _ => 0) d.keep.domViol (d.fget pgAlarm Reg.ALARM.DOM_SEL_DOMAIN)) else none

def viewBoot (d : Dev) (f : Fld) : Option Nat :=
  if f = Reg.BOOT.COUNTER then some d.svnFuses
  else if f = Reg.BOOT.EXHAUSTED then some (b2n (d.svnFuses == 64))
  else if f = Reg.BOOT.STAGED_VERSION then some (match d.boot.staged with | some im => imgVersion im | none => 0)
  else none

/-- The ring that RING_SEL of RINGS instance `i` names. -/
def Dev.ringSel (d : Dev) (i : Nat) : Nat := 512 * i + d.fget (pgRings (512 * i)) Reg.RINGS.RING_SEL_RING

def viewRings (d : Dev) (i : Nat) (f : Fld) : Option Nat :=
  let q := d.ringSel i
  let s := d.sq q
  let c := d.cq q
  if f = Reg.RINGS.SQ_BASE_LO_ADDR then some s.wBaseLo
  else if f = Reg.RINGS.SQ_BASE_HI_ADDR_HI then some s.wBaseHi
  else if f = Reg.RINGS.SQ_CFG_SIZE then some s.size
  else if f = Reg.RINGS.CQ then some s.wCq
  else if f = Reg.RINGS.FETCH_BURST then some s.burst
  else if f = Reg.RINGS.SQ_CFG_FUNC then some s.wFunc
  else if f = Reg.RINGS.CREDIT then some s.creditReg
  else if f = Reg.RINGS.STALL_CREDIT then some (b2n (s.size != 0 && (s.creditReg == 0 || (decide (0 < s.pending) && s.credits == 0))))
  else if f = Reg.RINGS.SQ_STAT_MISMATCH then some (b2n (s.size != 0 && !d.sqServed q))
  else if f = Reg.RINGS.SQ_STAT_TAIL then some s.tail
  else if f = Reg.RINGS.SQ_STAT_HEAD then some s.head
  else if f = Reg.RINGS.OUTSTANDING then some s.outstanding
  else if f = Reg.RINGS.CREDITS then some s.credits
  else if f = Reg.RINGS.LAST_CID then some s.lastCid
  else if f = Reg.RINGS.CQ_BASE_LO_ADDR then some c.wBaseLo
  else if f = Reg.RINGS.CQ_BASE_HI_ADDR_HI then some c.wBaseHi
  else if f = Reg.RINGS.CQ_CFG_SIZE then some c.size
  else if f = Reg.RINGS.IRQ_EN then some (b2n c.irqEn)
  else if f = Reg.RINGS.VECTOR then some c.vector
  else if f = Reg.RINGS.AGG_COUNT then some c.aggCount
  else if f = Reg.RINGS.CQ_CFG_FUNC then some c.wFunc
  else if f = Reg.RINGS.AGG_TIME then some c.aggTime
  else if f = Reg.RINGS.PHASE then some (b2n c.phase)
  else if f = Reg.RINGS.FULL then some (b2n (!c.held.isEmpty))
  else if f = Reg.RINGS.CQ_STAT_HEAD then some c.head
  else if f = Reg.RINGS.CQ_STAT_TAIL then some c.tail
  else if f = Reg.RINGS.PENDING then some c.pendingMsg
  else none

/-- The non-posted requests of an endpoint's rings, and whether a landing runs through it (R303). -/
def viewDma (d : Dev) (i : Nat) (f : Fld) : Option Nat :=
  let e := i / 2
  if i % 2 = 1 then (if f = Reg.DMA.READS_OUT ∨ f = Reg.DMA.ACTIVE then some 0 else none)
  else if f = Reg.DMA.READS_OUT then some (d.readsOut e)
  else if f = Reg.DMA.ACTIVE then some (b2n ((List.range 8).any (fun n => (d.sp n).curStep == 2 &&
    (match (d.sp n).cur with | some j => funcEp j.fn == e | none => false))))
  else none

/-- A set as SET shows it (R133, R134). -/
def setView (x : PSet) (word : Bool) : Nat :=
  match x.stream with
  | none => 0
  | some st => if word then 2 ^ 31 + 2 ^ 16 * x.ck.idx.length + st % 65536 else min 0xFFFFFFFF (x.ck.span / 1048576)

def viewComp (d : Dev) (i : Nat) (f : Fld) : Option Nat :=
  let x := mget (fun _ => {}) d.encSets (d.fget (pgComp i) Reg.COMP.SET)
  if f = Reg.COMP.BOUND then some (b2n x.stream.isSome)
  else if f = Reg.COMP.ENTRIES then some (bitsOf (setView x true) 16 15)
  else if f = Reg.COMP.STREAM then some (bitsOf (setView x true) 0 16)
  else if f = Reg.COMP.SPAN_MIB then some (setView x false)
  else none

def viewDecomp (d : Dev) (i : Nat) (f : Fld) : Option Nat :=
  let x := mget (fun _ => {}) d.decSets (d.fget (pgDecomp i) Reg.DECOMP.SET)
  if f = Reg.DECOMP.SET_VIEW then some (setView x true)
  else if f = Reg.DECOMP.SPAN_MIB then some (setView x false)
  else none

/-- The owner and class that OWN_SEL names; a class of 6 or 7 acts as 5 (R274). -/
def Dev.ownerSel (d : Dev) : Nat × Nat := (d.fget pgPool Reg.POOL.OWNER, min 5 (d.fget pgPool Reg.POOL.CLASS))

/-- The owner window's own fields; an OWNER of 80 or more selects no owner (R274). -/
def isOwnerFld (f : Fld) : Bool :=
  f == Reg.POOL.RESERVE || f == Reg.POOL.OCC || f == Reg.POOL.UNDERFLOW || f == Reg.POOL.HOST_MANAGED

def viewPool (d : Dev) (f : Fld) : Option Nat :=
  let s := d.ownerSel
  if isOwnerFld f ∧ 80 ≤ s.1 then some 0
  else if f = Reg.POOL.RESERVE then some (d.pool.reserveOf s.1 s.2)
  else if f = Reg.POOL.OCC then some (d.pool.occOf s.1 s.2)
  else if f = Reg.POOL.UNDERFLOW then some (b2n (mget (fun _ => false) d.pool.underflow s.1))
  else if f = Reg.POOL.HOST_MANAGED then some (b2n (mget (fun _ => false) d.pool.hostManaged s.1))
  else ((List.range 6).find? (fun c => f == Reg.POOL.FREE c)).map d.pool.freeCount

def viewVmap (d : Dev) (f : Fld) : Option Nat :=
  let p := d.fget pgVmap Reg.VALIDMAP.PAGE_SEL_PAGE
  if f = Reg.VALIDMAP.VALID_PAGES then some d.vmValid.length
  else if f = Reg.VALIDMAP.FILL_PENDING then some (b2n (d.fillPending p))
  else if f = Reg.VALIDMAP.VALID then some (b2n (d.pageValid p))
  else none

/-- The tap that the equaliser window of LANEFE instance `i` names. -/
def Dev.tapSel (d : Dev) (pg : PageId) (i : Nat) : Nat :=
  (((16 * i + d.fget pg Reg.LANEFE.LANE) * 4 + d.fget pg Reg.LANEFE.ZONE) * 4 + d.fget pg Reg.LANEFE.SET) * 16 + d.fget pg Reg.LANEFE.TAP
def tapReset (key : Nat) : Nat := if key % 16 = 5 then 0x400 else 0

/-- A byte of a quality map (R224). -/
def QMap.byte (m : QMap) (k : Nat) : Nat :=
  let code (c p : Nat) : Nat := mget (fun _ => 7) m.codes (64 * p + c)
  if k < 4 then bitsOf m.sheet (8 * k) 8
  else if k = 4 then m.gen
  else if k = 5 then m.part
  else if k = 6 then m.wrap
  else if k = 7 then 16 * m.kind + 8 * b2n m.verify
  else if k < 16 then bitsOf m.time (8 * (k - 8)) 8
  else if k < 18 then bitsOf m.converged (8 * (k - 16)) 8
  else if k < 20 then bitsOf m.hdrFailed (8 * (k - 18)) 8
  else if k < 32 then 0
  else if k < 1056 then
    let c := (k - 32) / 16
    let p := 2 * ((k - 32) % 16)
    16 * code c p + code c (p + 1)
  else 0

/-- A 32-bit word whose bytes `b` gives. -/
def wordOf (b : Nat → Nat) (k : Nat) : Nat := b (4 * k) + 256 * b (4 * k + 1) + 65536 * b (4 * k + 2) + 16777216 * b (4 * k + 3)

/-- A word of a capture record (R248). -/
def CapRec.word (c : CapRec) (k : Nat) : Nat :=
  if k = 0 then c.lane + 2 ^ 8 * c.zone + 2 ^ 15 * b2n c.pinned + 2 ^ 16 * toField 16 c.align
  else if k = 1 then c.seg.sheet
  else if k = 2 then c.seg.row + 2 ^ 12 * c.seg.gen + 2 ^ 16 * c.seg.rwslot
  else wordOf (fun i => toField 8 (c.samples.getD i 0)) (k - 3)

def viewSpoke (d : Dev) (a : Nat) (pg : PageId) (t : PageTy) (i n : Nat) (f : Fld) : Option Nat :=
  match t with
  | .LANEFE => if f = Reg.LANEFE.COEF then some (mget tapReset (d.sp n).rd.taps (d.tapSel pg i)) else none
  | .DETECT =>
    if f = Reg.DETECT.SKEW then some (toField 11 ((d.sp n).rd.lane (d.fget pg Reg.DETECT.LANE)).skew)
    else if f = Reg.DETECT.MAP_DATA then
      some (match (d.sp n).rd.maps[d.fget pg Reg.DETECT.ENTRY]? with | some m => wordOf m.byte (d.fget pg Reg.DETECT.WORD) | none => 0)
    else none
  | .SERVO =>
    if f = Reg.SERVO.TPW_LO then some (bitsOf (d.sp n).drv.tpw 0 32)
    else if f = Reg.SERVO.TPW_HI then some (d.latched (latchTpw n) a) else none
  | .SAMPLEHOLD =>
    if f = Reg.SAMPLEHOLD.LOST_OBJ_LO then some (bitsOf (d.sp n).rd.lostObj 0 32)
    else if f = Reg.SAMPLEHOLD.LOST_OBJ_HI then some (d.latched (latchLost n) a)
    else if f = Reg.SAMPLEHOLD.CAP_DATA then
      some (match (d.sp n).rd.hold.find? (fun p => p.1 == d.fget pg Reg.SAMPLEHOLD.RECORD) with
        | some p => p.2.word (d.fget pg Reg.SAMPLEHOLD.WORD) | none => 0)
    else none
  | _ => none

/-- ENERGY and CORR_ERRS, which no command fills: free as soon as time has passed.
(DESIGN CHOICE, log entry 3.) -/
def viewGathered (d : Dev) (pg : PageId) (t : PageTy) (f : Fld) : Option Nat :=
  let gathers := match t with
    | .POWER => f == Reg.POWER.ENERGY
    | .PCIE => f == Reg.PCIE.CORR_ERRS
    | _ => false
  if gathers && d.now != 0 then some (Config.gathered pg f.off d.now (d.fget pg f) % 2 ^ f.w) else none

/-- What a field shows that is not held as a field of its own. -/
def viewFld (d : Dev) (a : Nat) (pg : PageId) (t : PageTy) (i : Nat) (f : Fld) : Option Nat :=
  if f.off < 0x040 then viewHeader d pg t i f
  else match t with
  | .IDENT | .FELT => viewChip d t f
  | .THERMAL => viewThermal d f
  | .TIMEBASE => viewTimebase d a f
  | .MGMT => viewMgmt d i f
  | .KEYSTORE => viewKeystore d a f
  | .PROTECT => viewProtect d a f
  | .ALARM => viewAlarm d f
  | .BOOT => viewBoot d f
  | .RINGS => viewRings d i f
  | .DMA => viewDma d i f
  | .PCIE => if f = Reg.PCIE.SPLIT then some (b2n d.split) else viewGathered d pg t f
  | .POWER => viewGathered d pg t f
  | .COMP => viewComp d i f
  | .DECOMP => viewDecomp d i f
  | .POOL => viewPool d f
  | .VALIDMAP => viewVmap d f
  | _ => (viewGathered d pg t f).or (viewSpoke d a pg t i (pg / 256 - 8) f)

/-- The page that holds a field: spoke-wide fields stand in instance 0 (R230, R231). -/
def homePage (pg : PageId) (t : PageTy) (i : Nat) (off : Nat) : PageId :=
  match t with
  | .DETECT => if (0x040 ≤ off ∧ off < 0x080) ∨ (0x098 ≤ off ∧ off < 0x0C0 ∧ off ≠ 0x0A0 ∧ off ≠ 0x0B0) then pg - i else pg
  | .DECODE => if off = 0x040 then pg - i else pg
  | _ => pg

/-- A field as accessor number `a` reads it: fields of W1P and WO access read 0. -/
def Dev.fldRead (d : Dev) (a : Nat) (pg : PageId) (t : PageTy) (i : Nat) (acc : Acc) (f : Fld) : Nat :=
  match acc with
  | .wo | .w1p => 0
  | _ => (viewFld d a pg t i f).getD (d.fget (homePage pg t i f.off) f)

/-! ### Chain and gate groups (R49, R50) -/

/-- The chain whose group a page holds, and the group's base. -/
def chainOf (t : PageTy) (i n : Nat) : Option (ChainId × Nat) :=
  match t with
  | .COMP => some (.comp (Fin.ofNat 17 i), 0x060)
  | .DECOMP => some (.decomp (Fin.ofNat 17 i), 0x060)
  | .DETECT => some (.tile (Fin.ofNat 8 n) (Fin.ofNat 9 i), 0x080)
  | _ => none

/-- A register of the chain group. -/
def Chain.reg (c : Chain) (k : Nat) : Nat :=
  if k = 0 then 2 ^ 16 * (c.cutThresh % 128) + 2 ^ 8 * (c.grantReg % 128) + c.depth % 128
  else if k = 4 then 2 ^ 25 * b2n c.flushBusy + 2 ^ 24 * b2n c.drain + 2 ^ 23 * b2n c.itemOpen + 2 ^ 16 * (c.credits % 128) +
    2 ^ 8 * (c.peak % 128) + c.words.length % 128
  else if k = 12 then 2 * b2n c.drainSeen + b2n c.flushDone
  else 0

/-- A register of the gate group. -/
def Gate.reg (g : Gate) (clockedWrites : Bool) (k : Nat) : Nat :=
  if k = 0 then 2 ^ 16 * g.clkView clockedWrites + 2 ^ 8 * (g.coreView % 64) + b2n clockedWrites
  else if k = 4 then b2n g.overrun else 0

/-- The register at `off` of a page's chain or gate group, if it lies there. -/
def State.hopReg (s : State) (t : PageTy) (i n off : Nat) : Option Nat :=
  match t with
  | .LANEFE =>
    if 0x300 ≤ off ∧ off < 0x380 then
      some ((s.gate (.sample (Fin.ofNat 8 n) (Fin.ofNat 64 (16 * i + (off - 0x300) / 8)))).reg true ((off - 0x300) % 8))
    else none
  | _ =>
    match chainOf t i n with
    | some (c, b) => if b ≤ off ∧ off < b + 16 then some ((s.chain c).reg (off - b)) else none
    | none => none

/-- SUM_FLAGS.EVENT: a W1C bit at or above offset 0x040 of the page is 1. -/
def State.eventBit (s : State) (a : Nat) (pg : PageId) (t : PageTy) (i : Nat) : Bool :=
  (t.rows.filter (fun r => r.acc == .w1c)).any (fun r => (List.range r.cnt).any (fun k => s.dev.fldRead a pg t i r.acc (r.fld (r.off + k * r.stride)) != 0)) ||
  (match chainOf t i (pg / 256 - 8) with | some (c, _) => (s.chain c).reg 12 != 0 | none => false) ||
  (t == .LANEFE && (List.range 16).any (fun l => (s.gate (.sample (Fin.ofNat 8 (pg / 256 - 8)) (Fin.ofNat 64 (16 * i + l)))).overrun))

/-- A 32-bit register as accessor number `a` reads it; absent pages and undefined offsets read 0 (R422). -/
def State.readReg (s : State) (a : Nat) (pg : PageId) (off : Nat) : Nat :=
  match pageOf pg with
  | none => 0
  | some (t, i) =>
    match s.hopReg t i (pg / 256 - 8) off with
    | some v => v
    | none =>
      ((pageRows pg).filter (fun r => r.inReg off)).foldl (fun x r =>
        let f := r.fld off
        x + 2 ^ r.lo * (if f = Reg.HEADER.EVENT then b2n (s.eventBit a pg t i) else s.dev.fldRead a pg t i r.acc f)) 0

/-- A read through BAR0: 0 where the page is not open or defines no register there (R422), and a PAGE violation where the rules call it one. -/
def State.read (s : State) (a : Accessor) (pg : PageId) (off : Nat) : State :=
  let send (x : State) (v : Nat) : State := x.modDev (fun d => d.emit (.readData a.num (4096 * pg + off) v))
  if !offDefined pg off then send s 0
  else match s.dev.access a pg with
  | .open => send s (s.readReg a.num pg off)
  | .absent => send s 0
  | .violation => send (s.modDev (fun d => d.pageViolation a pg)) 0

/-! ### Writes (R8, R423) -/

/-- The fields of a page that a row of their own writes: a plain register write leaves them. -/
def ownRow (t : PageTy) (f : Fld) : Bool :=
  f == Reg.HEADER.QUIESCE_REQ || f == Reg.HEADER.BLK_CTRL_MODE || f == Reg.HEADER.ENABLE ||
  (match t with
   | .WRITER => (decide (0x080 ≤ f.off) && decide (f.off < 0x0A0)) || f == Reg.WRITER.DEAD_MAP_LO || f == Reg.WRITER.DEAD_MAP_HI
   | .DERAILLEUR => f == Reg.DERAILLEUR.COG_REQ
   | .RINGS => f == Reg.RINGS.SQ_CFG_SIZE || f == Reg.RINGS.CQ_CFG_SIZE || f == Reg.RINGS.CREDIT
   | .PCIE => f == Reg.PCIE.WINDOW || f == Reg.PCIE.VALUE
   | .ALARM => f == Reg.ALARM.FENCE_LO || f == Reg.ALARM.FENCE_HI
   | .MEMCTL => f == Reg.MEMCTL.ARM
   | .BOOT => f == Reg.BOOT.UPD_DATA
   | .PROTECT => f == Reg.PROTECT.DOMAIN || f == Reg.PROTECT.COUNT
   | .SAMPLEHOLD => f == Reg.SAMPLEHOLD.NEXT
   | .MGMT => f == Reg.MGMT.KIND
   | _ => false)

/-- The bits of a 32-bit write that byte enables `be` let through. -/
def beMask (be : Nat) : Nat := (List.range 4).foldl (fun a k => a + (if bitAt be k then 2 ^ (8 * k) * 255 else 0)) 0

/-- A window field of RINGS instance `i` written. -/
def Dev.ringFld (d : Dev) (i : Nat) (f : Fld) (v : Nat) : Option Dev :=
  let q := d.ringSel i
  let sq (g : Sq → Sq) : Option Dev := some (d.modSq q g)
  let cq (g : Cq → Cq) : Option Dev := some (d.modCq q g)
  if f = Reg.RINGS.SQ_BASE_LO_ADDR then sq (fun s => { s with wBaseLo := v })
  else if f = Reg.RINGS.SQ_BASE_HI_ADDR_HI then sq (fun s => { s with wBaseHi := v })
  else if f = Reg.RINGS.CQ then sq (fun s => { s with wCq := v })
  else if f = Reg.RINGS.FETCH_BURST then sq (fun s => { s with burst := v })
  else if f = Reg.RINGS.SQ_CFG_FUNC then sq (fun s => { s with wFunc := v })
  else if f = Reg.RINGS.CQ_BASE_LO_ADDR then cq (fun c => { c with wBaseLo := v })
  else if f = Reg.RINGS.CQ_BASE_HI_ADDR_HI then cq (fun c => { c with wBaseHi := v })
  else if f = Reg.RINGS.IRQ_EN then cq (fun c => { c with irqEn := v != 0 })
  else if f = Reg.RINGS.VECTOR then cq (fun c => { c with vector := v })
  else if f = Reg.RINGS.AGG_COUNT then cq (fun c => { c with aggCount := v })
  else if f = Reg.RINGS.CQ_CFG_FUNC then cq (fun c => { c with wFunc := v })
  else if f = Reg.RINGS.AGG_TIME then cq (fun c => { c with aggTime := v })
  else none

/-- A field of the owner window of POOL written; HOST_MANAGED holds for host domains only (R271). -/
def Dev.ownerFld (d : Dev) (f : Fld) (v : Nat) : Option Dev :=
  let s := d.ownerSel
  if isOwnerFld f ∧ 80 ≤ s.1 then some d
  else if f = Reg.POOL.RESERVE then some { d with pool := { d.pool with reserve := mset reserveReset d.pool.reserve (8 * s.1 + s.2) v } }
  else if f = Reg.POOL.HOST_MANAGED then
    some (if s.1 < 16 then d else { d with pool := { d.pool with hostManaged := mset (fun _ => false) d.pool.hostManaged s.1 (v != 0) } })
  else none

/-- A field that other state holds, written as RW or RWH. -/
def Dev.putView (d : Dev) (pg : PageId) (t : PageTy) (i : Nat) (f : Fld) (v : Nat) : Option Dev :=
  let n := pg / 256 - 8
  match t with
  | .RINGS => d.ringFld i f v
  | .POOL => d.ownerFld f v
  | .ALARM =>
    if f = Reg.ALARM.DOM_VIOL then
      some (d.modKeep (fun k => { k with domViol := mset (fun _ => 0) k.domViol (d.fget pgAlarm Reg.ALARM.DOM_SEL_DOMAIN) v }))
    else none
  | .LANEFE => if f = Reg.LANEFE.COEF then some (d.modRd n (fun r => { r with taps := mset tapReset r.taps (d.tapSel pg i) v })) else none
  | _ => none

/-- The value that a write of a field stores: RUNG_EN's bit 0 reads 1 (R248), a ZONE of 3 stores 0 (R229). -/
def storedAs (t : PageTy) (f : Fld) (v : Nat) : Nat :=
  match t with
  | .SAMPLEHOLD => if f = Reg.SAMPLEHOLD.RUNG_EN then setBit v 0 else v
  | .LANEFE => if f = Reg.LANEFE.ZONE ∧ v = 3 then 0 else v
  | _ => v

/-- W1C bits `m` of a field cleared. A tamper bit stays while its condition lasts (R369); a sensor's mark is judged afresh
(R384); the slot's ZEROISED and the owner's UNDERFLOW lie behind their windows; the VALID bits of CE_INFO and UE_INFO clear their
register pair (R273). -/
def Dev.w1c (d : Dev) (pg : PageId) (t : PageTy) (f : Fld) (m : Nat) : Dev :=
  let plain : Dev := d.fset pg f (d.fget pg f &&& (m ^^^ (2 ^ f.w - 1)))
  match t with
  | .ALARM =>
    match (List.range 4).find? (fun k => f == tamperBit k) with
    | some k => if bitAt d.keep.tamperNow k then d else plain
    | none => if f = Reg.ALARM.ZEROISED ∧ m ≠ 0 then plain.modKeep (fun k => { k with zeroAll := false }) else plain
  | .THERMAL => if f = Reg.THERMAL.MARKS then d.clearMarks m else plain
  | .KEYSTORE =>
    if f = Reg.KEYSTORE.ZEROISED then
      (if m = 0 then d else d.modSlot (d.fget pgKeystore Reg.KEYSTORE.SLOT) (fun s => { s with zeroised := false }))
    else plain
  | .MEMCTL =>
    if f = Reg.MEMCTL.CE_INFO_VALID ∧ m ≠ 0 then
      ((plain.clr pg Reg.MEMCTL.CE_ADDR).clr pg Reg.MEMCTL.CE_INFO_SYNDROME).clr pg Reg.MEMCTL.CE_INFO_ADDR_HI
    else if f = Reg.MEMCTL.UE_INFO_VALID ∧ m ≠ 0 then
      (((plain.clr pg Reg.MEMCTL.UE_ADDR).clr pg Reg.MEMCTL.UE_INFO_SYNDROME).clr pg Reg.MEMCTL.UE_INFO_ADDR_HI).clr pg Reg.MEMCTL.LANES
    else plain
  | .POOL =>
    if f = Reg.POOL.UNDERFLOW then
      (if m = 0 ∨ 80 ≤ d.ownerSel.1 then d else { d with pool := { d.pool with underflow := mset (fun _ => false) d.pool.underflow d.ownerSel.1 false } })
    else plain
  | _ => plain

/-- One field of a written register: `v` and `m` are its part of the value and of the enabled bits. -/
def Dev.fldWrite (d : Dev) (pg : PageId) (t : PageTy) (i : Nat) (acc : Acc) (f : Fld) (v m : Nat) : Dev :=
  if ownRow t f || m == 0 then d
  else match acc with
  | .ro | .w1p => d
  | .w1c => d.w1c pg t f (v &&& m)
  | .wo => d.fset pg f (v &&& m)
  | .rw | .rwh =>
    let old := d.fldRead 0 pg t i acc f
    let new := (old &&& (m ^^^ (2 ^ f.w - 1))) ||| (v &&& m)
    match d.putView pg t i f new with
    | some e => e
    | none => d.fset (homePage pg t i f.off) f (storedAs t f new)

/-- What follows from a written register at once: the request of R382, the cap of R180, the read stop of R182, the tension
that R197 trims about. -/
def Dev.afterWrite (d : Dev) (t : PageTy) (n off : Nat) : Dev :=
  match t with
  | .POWER => if off = 0x040 then d.requestStep else d
  | .THERMAL => if off = 0x040 then d.requestStep else d
  | .DERAILLEUR => if off = 0x040 then (d.capEval n).powerEval else if off = 0x044 ∨ off = 0x048 then (d.raLimit n).drEval n else d
  | .WRITER => if off = 0x0C0 then d.pairWritten n else d
  | .MOTION => if off = 0x040 then d.modDrv n (fun x => { x with tensionWritten := d.fget (pgMotion n) Reg.MOTION.TENSION_SET }) else d
  | _ => d

/-- Biases changed by a write of a LANEFE page, from `d` to `e`, go to the preamplifier (R192, R204). -/
def Dev.biasSent (d e : Dev) (pg : PageId) (n i : Nat) : Dev :=
  (List.range 16).foldl (fun (x : Dev) k =>
    if e.fget pg (Reg.LANEFE.BIAS k) = d.fget pg (Reg.LANEFE.BIAS k) then x else x.preampBias n (16 * i + k)) e

/-- A register written: fields without a row of their own; what the write does to registers that do not take it: CHIP's
BLK_CTRL, the module group outside instance 0, UNITS and DAMAGED_UNITS of CHIP, RESET_CTRL outside domain 0. -/
def Dev.regWrite (d : Dev) (a : Accessor) (pg : PageId) (t : PageTy) (i off v be : Nat) : Dev :=
  let m := beMask be
  if (t == .MGMT && (i != 0 && decide (0x040 ≤ off) && decide (off < 0x080) || off == 0x044 && d.domainOf a != 0)) ||
     (decide (pg < 256) && (off == 0x030 || off == 0x034)) then d
  else
    let e := (((pageRows pg).filter (fun r => r.inReg off)).foldl (fun (e : Dev) r =>
      e.fldWrite pg t i r.acc (r.fld off) (bitsOf v r.lo r.w) (bitsOf m r.lo r.w)) d).afterWrite t (pg / 256 - 8) off
    if t = .LANEFE then d.biasSent e pg (pg / 256 - 8) i else e

/-! ### Writes of chain and gate groups -/

/-- Is the block quiesced for a change of a quiesce-only field? -/
def Dev.isQuiet (d : Dev) (pg : PageId) : Bool :=
  d.fon pg Reg.HEADER.QUIESCED || d.fon pg Reg.HEADER.RETIRED || !d.fon pg Reg.HEADER.ENABLE

/-- The pages that feed a chain. -/
def feeders (id : ChainId) : List PageId := ((List.range (producers id)).map (producerPage id)).eraseDups

/-- A quiesce-only field of the blocks `pgs` has been changed: those not quiesced are UB-4 (R23). -/
def Dev.changedOn (d : Dev) (pgs : List PageId) : Dev := (pgs.filter (fun pg => !d.isQuiet pg)).foldl Dev.unsettle d

/-- CH_CFG, CH_STAT or CH_EVT written (R49): CUT_THRESH and PEAK store, GRANT is held to DEPTH and is quiesce-only, events clear. -/
def State.chainWrite (s : State) (id : ChainId) (k v be : Nat) : State :=
  let c := s.chain id
  let m := beMask be
  let mix (old lo w : Nat) : Nat := (old &&& (bitsOf m lo w ^^^ (2 ^ w - 1))) ||| (bitsOf v lo w &&& bitsOf m lo w)
  if k = 0 then
    let g := min c.depth (mix c.grantReg 8 7)
    let s := s.setChain id { c with cutThresh := mix c.cutThresh 16 7, grantReg := g }
    if g = c.grantReg then s else s.modDev (fun d => d.changedOn (feeders id))
  else if k = 4 then s.setChain id { c with peak := mix c.peak 8 7 }
  else if k = 12 then
    s.setChain id { c with drainSeen := c.drainSeen && !bitAt (v &&& m) 1, flushDone := c.flushDone && !bitAt (v &&& m) 0 }
  else s

/-- Does a write change the quiesce-only field C3_MODE (R248)? -/
def Dev.setsC3Mode (d : Dev) (pg : PageId) (t : PageTy) (off v be : Nat) : Bool :=
  t == .SAMPLEHOLD && off == 0x040 && bitAt (beMask be) 16 && (bitAt v 16 != d.fon pg Reg.SAMPLEHOLD.C3_MODE)

/-- REGISTER_WRITE on an open page.
(DESIGN CHOICE, log entry 27.) -/
def State.writeReg (s : State) (a : Accessor) (pg : PageId) (off v be : Nat) : State :=
  match pageOf pg with
  | none => s
  | some (t, i) =>
    let n := pg / 256 - 8
    if t = .LANEFE ∧ 0x300 ≤ off ∧ off < 0x380 then
      let id : GateId := .sample (Fin.ofNat 8 n) (Fin.ofNat 64 (16 * i + (off - 0x300) / 8))
      if off % 8 = 4 ∧ bitAt (v &&& beMask be) 0 then s.setGate id { s.gate id with overrun := false } else s
    else
      match chainOf t i n with
      | some (c, b) => if b ≤ off ∧ off < b + 16 then s.chainWrite c (off - b) v be else s.modDev (fun d => d.regWrite a pg t i off v be)
      | none => s.modDev (fun d => (if d.setsC3Mode pg t off v be then d.changedOn [pg] else d).regWrite a pg t i off v be)

/-! ### BLK_CTRL (R23, R429) -/

/-- Has the block an item open on a chain that it feeds (R45)? -/
def State.feeding (s : State) (pg : PageId) : Bool :=
  (fedBy pg).any (fun id => (s.chain id).itemOpen && producerPage id (s.chain id).holder == pg)

/-- Does spoke `n` stand at a sheet boundary: no sheet passes a lane, and none is being written? -/
def Dev.betweenSheets (d : Dev) (n : Nat) : Bool :=
  (d.rd n).lanes.all (fun p => p.2.mode == .gap) && (d.sp n).wr.slot.isNone && !(d.sp n).wr.areaOn

/-- Has the block nothing in progress that it must finish before it is quiesced (R23, R45): its work unit, its item; a block that
streams reaches quiesce at a sheet boundary? -/
def State.mayQuiesce (s : State) (pg : PageId) : Bool :=
  match pageOf pg with
  | none => false
  | some (t, i) =>
    !s.feeding pg && (!s.dev.busy pg t i ||
      (decide (2048 ≤ pg) && (s.dev.sp (pg / 256 - 8)).drv.streaming && t != .SAMPLEHOLD && s.dev.betweenSheets (pg / 256 - 8)))

/-- QUIESCE_REQ: an idle block is quiesced at once.
(DEDUCED, log entry 16.) -/
def State.quiesceReq (s : State) (pg : PageId) : State :=
  match pageOf pg with
  | none => s
  | some (t, i) =>
    if !capQuiesce pg then s
    else
      let s := s.modDev (fun d => d.ev pg Reg.HEADER.QUIESCE_REQ)
      if s.dev.busy pg t i || s.feeding pg then s else s.modDev (fun d => d.setQuiesced pg)

/-- A block that was asked to quiesces, once it has nothing to finish. -/
def State.quiesced (s : State) (pg : PageId) : State :=
  if s.dev.fon pg Reg.HEADER.QUIESCE_REQ && s.mayQuiesce pg then s.modDev (fun d => d.setQuiesced pg) else s

/-- QUIESCE_REQ cleared: the block takes its next work unit, in the mode written. -/
def Dev.unquiesce (d : Dev) (pg : PageId) : Dev :=
  let d := (d.clr pg Reg.HEADER.QUIESCE_REQ).fset pg Reg.HEADER.MODE_IN_FORCE (d.fget pg Reg.HEADER.BLK_CTRL_MODE)
  if d.fon pg Reg.HEADER.RETIRED then d else d.clr pg Reg.HEADER.QUIESCED

/-- MODE written with QUIESCE_REQ cleared; in a page whose MODE reads 0 the write of it is ignored (R22). Changed while the block is
not quiesced, it is UB-4. -/
def Dev.modeChange (d : Dev) (pg : PageId) (v : Bool) : Dev :=
  match pageOf pg with
  | none => d
  | some (t, _) =>
    if !capMode t then (if capQuiesce pg then d.unquiesce pg else d)
    else ((if v != d.fon pg Reg.HEADER.BLK_CTRL_MODE then d.changedOn [pg] else d).fput pg Reg.HEADER.BLK_CTRL_MODE v).unquiesce pg

/-- The last serviceable COMP, DECOMP or CRYPT instance (R429). -/
def Dev.lastInstance (d : Dev) (pg : PageId) : Bool := pg / 256 == 4 && d.serviceable pg && (d.siblings pg).isEmpty

/-- ENABLE written: out of service with the block quiesced; back in service as QUIESCE_REQ clears. Changed while the block is not
quiesced, it is UB-4. -/
def Dev.blockEnable (d : Dev) (pg : PageId) (v : Bool) : Dev :=
  match pageOf pg with
  | none => d
  | some (t, _) =>
    if capSiblings t = 0 then d
    else if v = d.fon pg Reg.HEADER.ENABLE then (if v then d.unquiesce pg else d)
    else if !v && d.lastInstance pg then d
    else
      let d := (d.changedOn [pg]).fput pg Reg.HEADER.ENABLE v
      let d := if v then d.unquiesce pg else d
      if isTile pg then d.capEval (pg / 256 - 8) else d

/-! ### Errors forced (R399), accesses that are no access (R423) -/

/-- ERR_FORCE: every bit of the mask that the page has acts as an unmasked event. -/
def Dev.errForce (d : Dev) (pg : PageId) (mask : Nat) : Dev :=
  let bits := ((List.range 8).filter (fun b => bitAt mask b && (b != errOwnerUnderflow || pg == pgPool)))
  bits.foldl (fun (e : Dev) b => (e.bitPut pg Reg.HEADER.ERR_STAT b true).errCount pg b) d

/-- A request of another size or alignment through endpoint `e`. -/
def Dev.badAccess (d : Dev) (a : Accessor) (isRead : Bool) : Dev :=
  match a with
  | .fw _ => d
  | .fn e _ =>
    let d := (d.ev (pgPcie e) Reg.PCIE.UNCORR).bump (pgPcie e) Reg.PCIE.UNCORR_ERRS 1
    if isRead then d.emit (.unsupported a.num) else d

/-- A latch-making read (R425): the low word goes out, the rest is latched for the reader. -/
def State.latchRead (s : State) (a : Accessor) (pg : PageId) (off : Nat) (f : Dev → Dev) : State :=
  match s.dev.access a pg with
  | .open => (s.read a pg off).modDev f
  | _ => s.read a pg off

end Sys2Proof.Machine
end

