-- ==== Sys2Proof/Machine/Felt.lean ====
section
/-! DEFINITION. Shared crossings (chapter 1): the weighted classes of a region's link (R14), and the felt's accounting windows with the
spokes' reserves (R15). -/

namespace Sys2Proof.Machine

/-! ### Weighted classes (R14) -/

/-- The weights of the classes B to E. -/
def classWeight (k : Nat) : Nat := [8, 4, 2, 1].getD k 0

/-- The bytes of the largest item. -/
def itemMax : Nat := 4096

/-- Items granted, items that wait, the capacity left, in bytes. -/
structure Granting where
  granted : List XItem
  waiting : List XItem
  cap : Nat
  deriving DecidableEq, Repr

/-- The items of `l` that `f` picks, oldest first, as long as the next fits in `q` bytes and in the capacity; what is left of `q`. -/
def takeItems (f : XItem → Bool) : List XItem → Nat → Nat → Granting × Nat
  | [], q, cap => (⟨[], [], cap⟩, q)
  | x :: r, q, cap =>
    if !f x then
      let y := takeItems f r q cap
      ({ y.1 with waiting := x :: y.1.waiting }, y.2)
    else if x.bytes ≤ q ∧ x.bytes ≤ cap then
      let y := takeItems f r (q - x.bytes) (cap - x.bytes)
      ({ y.1 with granted := x :: y.1.granted }, y.2)
    else (⟨[], x :: r, cap⟩, q)

/-- What `f` picks is granted up to `q` bytes, after what was granted before. -/
def Granting.take (g : Granting) (f : XItem → Bool) (q : Nat) : Granting × Nat :=
  let y := takeItems f g.waiting q g.cap
  ({ y.1 with granted := g.granted ++ y.1.granted }, y.2)

/-- The turn of one class of the deficit round-robin: its credit grows by its weight in items, and its items are granted as far as
credit and capacity go; a class with nothing pending keeps no credit. A turn that the capacity cuts off goes on later. -/
def Arb.serve (a : Arb) (g : Granting) : Arb × Granting :=
  let k := a.turn
  let y := g.take (fun x => x.cls == k + 1) (a.deficit.getD k 0 + (if a.mid then 0 else itemMax * classWeight k))
  let next := y.1.waiting.find? (fun x => x.cls == k + 1)
  let cut : Bool := match next with | some x => decide (x.bytes ≤ y.2) | none => false
  ({ deficit := a.deficit.set k (if next.isNone then 0 else y.2), turn := if cut then k else (k + 1) % 4, mid := cut }, y.1)

/-- Turns of the classes B to E until nothing of them waits or the capacity is used. -/
def Arb.rounds : Nat → Arb → Granting → Arb × Granting
  | 0, a, g => (a, g)
  | n + 1, a, g =>
    if g.waiting.all (fun x => x.cls == 0) then (a, g)
    else
      let y := a.serve g
      if y.1.mid then y else Arb.rounds n y.1 y.2

/-- Class A is served first, then the others by deficit round-robin. -/
def Arb.share (a : Arb) (g : Granting) : Arb × Granting :=
  let g := (g.take (fun x => x.cls == 0) g.cap).1
  Arb.rounds (4 * (g.waiting.length + 1)) a g

/-- The items of region `x` in the order in which its link to the felt carries them. -/
def Dev.linkOrder (d : Dev) (x : Nat) (items : List XItem) : Dev × List XItem :=
  let l := items.filter (fun i => i.region == x)
  let y := (mget (fun _ => {}) d.felt.links x).share ⟨[], l, (l.map (·.bytes)).foldl (· + ·) 0⟩
  ({ d with felt := { d.felt with links := mset (fun _ => {}) d.felt.links x y.1 } }, y.2.granted)

/-! ### The accounting window (R15) -/

/-- The chest's peak of 204.8 GB/s in a window of 10 µs, in bytes. -/
def windowBytes : Nat := 2048000

/-- The bytes that spoke `n` reserves in a window: 10.0 GB/s × v / 4.50 m/s while it streams. -/
def Dev.reserveBytes (d : Dev) (n : Nat) : Nat :=
  100000 * cogSpeed (d.fget (pgDr n) Reg.DERAILLEUR.CUR_COG) / 4500 * b2n (d.sp n).drv.streaming

/-- Bytes asked for, or granted, by region `x`. -/
def bytesOf (x : Nat) (l : List XItem) : Nat := ((l.filter (fun i => i.region == x)).map (·.bytes)).foldl (· + ·) 0

/-- A window ends: the spokes' requests within their reserves are granted first, then what is left of the chest's bandwidth is shared by
the classes; what is not granted waits. OVER_RESERVE and GRANTED_MIB count (R431).
(DESIGN CHOICE, log entry 46.) -/
def Dev.windowEnds (d : Dev) (items : List XItem) : Dev :=
  let o := (List.range 16).foldl (fun (y : Dev × List XItem) x => let z := y.1.linkOrder x items; (z.1, y.2 ++ z.2)) (d, [])
  let d := o.1
  let g : Granting := ⟨[], d.felt.waiting ++ o.2, windowBytes⟩
  let g := (List.range 8).foldl (fun (g : Granting) n => (g.take (fun x => x.region == 8 + n) (d.reserveBytes n)).1) g
  let y := d.felt.arb.share g
  let d := { d with felt := { d.felt with waiting := y.2.waiting, arb := y.1 } }
  let d := (List.range 8).foldl (fun (e : Dev) n =>
    if e.reserveBytes n < bytesOf (8 + n) items then e.bump pgFelt (Reg.FELT.OVER_RESERVE n) 1 else e) d
  (List.range 16).foldl (fun (e : Dev) x =>
    if x = 0 ∨ x = 6 ∨ x = 7 then e else e.countMib pgFelt (Reg.FELT.GRANTED_MIB x) (200 + x) (bytesOf x y.2.granted)) d

end Sys2Proof.Machine
end

