-- ==== Sys2Proof/Machine/Signals.lean ====
section
/-! DEFINITION. The pins (chapter 17): what asserts ALERT_N (R449), the test access port (R452), and the pins a spoke drives
while the port drives the lands. -/

namespace Sys2Proof.Machine

/-! ### ALERT_N (R449) -/

/-- The tamper source. -/
def Dev.alertTamper (d : Dev) : Bool := d.fon pgAlarm Reg.ALARM.TAMPER

/-- The other sources. -/
def Dev.alertOthers (d : Dev) : Bool :=
  (d.fon pgAlarm Reg.ALARM.ZEROISED && d.keep.zeroAll) ||
  [Reg.THERMAL.SENS_FAILED, Reg.THERMAL.DRAM_OVER, Reg.THERMAL.DRAM_FAIL, Reg.THERMAL.TRIPPED].any (d.fon pgThermal) ||
  [Reg.POWER.BROWNOUT, Reg.POWER.RAIL_FAULT].any (d.fon pgPower) ||
  [Reg.MGMT.FENCE, Reg.MGMT.RETIRE, Reg.MGMT.MGMT_EVT_NO_SPARE, Reg.MGMT.STEWARD_FAILED, Reg.MGMT.FAULT].any (d.fon pgMgmt)

/-- Is ALERT_N asserted? -/
def Dev.alert (d : Dev) : Bool := d.alertTamper || (d.therm.mains && d.alertOthers)

/-! ### The test access port (R452) -/

/-- A present spoke is not fenced: the port may not drive the lands. -/
def Dev.tapGuarded (d : Dev) : Bool := (List.range 8).any (fun n => (d.sp n).drv.present && !d.fenced n)

/-- An instruction that drives the lands, or holds them, or floats them. -/
def TapInstr.drives : TapInstr → Bool
  | .extest | .clamp | .highz => true
  | _ => false

/-- Are the lands driven by the port? -/
def Dev.tapDrives (d : Dev) : Bool := d.tap.instr.drives && !d.tapGuarded

/-- SPn_WINH_N is held low: by the spoke's write hold (R147), or while the port drives the lands. -/
def Dev.winhLow (d : Dev) (n : Nat) : Bool := (d.sp n).wr.winh || d.tapDrives

/-- SPn_CAD runs. -/
def Dev.cadOn (d : Dev) (n : Nat) : Bool := d.fon (pgLink n) Reg.LINK.CAD_ON && !d.tapDrives

/-- The instruction as it acts: one that would drive the lands acts as SAMPLE/PRELOAD while the port is guarded. -/
def Dev.tapActs (d : Dev) (i : TapInstr) : TapInstr := if i.drives && d.tapGuarded then .sample else i

/-- An instruction of the port with the value shifted in; the port answers while the main rails are in regulation. Captured
land values are a free value; IDCODE's manufacturer field is the maker's own. -/
def Dev.tapGoes (d : Dev) (i : TapInstr) (value : Nat) : Dev :=
  if !d.therm.mains then d
  else
    let set (boundary : Nat) : Dev := { d with tap := { instr := i, boundary := boundary } }
    match d.tapActs i with
    | .bypass => (set d.tap.boundary).emit (.jtag 1 0)
    | .idcode => (set d.tap.boundary).emit (.jtag 32 (2 ^ 28 * 0x1 + 2 ^ 12 * 0xA8B4 + 2 * (Config.jtagMaker % 2048) + 1))
    | .sample => (((set value).nextFree).emit (.jtag 0 d.freeVal))
    | .extest => (((set value).nextFree).emit (.jtag 0 d.freeVal))
    | .clamp => (set d.tap.boundary).emit (.jtag 1 0)
    | .highz => (set d.tap.boundary).emit (.jtag 1 0)

/-- TRST_N is asserted: the port is reset, and nothing is driven by it. -/
def Dev.tapReset (d : Dev) : Dev := { d with tap := { d.tap with instr := .idcode } }

end Sys2Proof.Machine
end

