-- ==== Sys2Proof/Machine/Lift.lean ====
section
/-! DEFINITION. How an effect on a part of the block becomes the answer of a command: on the device, on one spoke and what then
follows of itself, everywhere, through BAR0, through a doorbell, from a ring. -/

namespace Sys2Proof.Machine

/-- An effect on the device alone. -/
def State.onDev (s : State) (f : Dev → Dev) : Res := .next (s.modDev f)

/-- An event of spoke `n`, and what follows of itself from it. -/
def State.onSpoke (s : State) (n : Nat) (f : Dev → Dev) : Res := .next (s.modDev (fun d => (f d).follow n))

/-- An event after which any spoke and any waiting command may go on. -/
def State.onAll (s : State) (f : Dev → Dev) : Res := .next (s.modDev (fun d => (f d).followAll))

/-- A step of the press: commands that a released buffer lets go on go on (R272). -/
def Dev.released' (d : Dev) : Dev := if d.bufHeld then d.followAll else d
def State.onPress (s : State) (f : Dev → Dev) : Res := .next (s.modDev (fun d => (f d).released'))

/-- A step of a read that the press serves: the spoke that it names goes on. -/
def Dev.servedRead (x : Dev × Option Nat) : Dev :=
  match x.2 with
  | some n => x.1.follow n
  | none => x.1
def State.onRead (s : State) (f : Dev → Dev × Option Nat) : Res := .next (s.modDev (fun d => Dev.servedRead (f d)))

/-- An effect that may be undefined behaviour. -/
def State.after (_ : State) : Except Fault State → Res
  | .ok s => .next s
  | .error x => .fault x

/-- A command fetched from a ring. -/
def State.host (s : State) (h : CmdHdr) (op : Op) (data : List Byte) : Res := s.onDev (fun d => d.submit h op data)

/-- A zeroisation, and what may go on after it. -/
def State.zeroised (s : State) (f : Dev → Dev) : State := s.modDev (fun d => (f d).followAll)

/-- A doorbell write through function `f` of endpoint `e` to ring `q` (R285): refused to a fenced domain as a PAGE violation (R368),
and to another function than the ring's as a DOORBELL violation. In recovery nothing answers (R355). -/
def State.doorbell (s : State) (e : Fin 2) (f : Fin 64) (q : Fin 4096) (b : Dev → Bell) : Res :=
  let d := s.dev
  let dom := d.domainOf (.fn e f)
  if d.fget pgBoot Reg.BOOT.STATE = 2 then .next s
  else if 2 ≤ dom && d.domFenced dom then .next (s.modDev (fun d => d.pageViolation (.fn e f) (pgRings q)))
  else
    match b d with
    | .done d => .next { s with dev := d }
    | .broken => .fault .doorbellOutOfRange
    | .badFunc => .next (s.modDev (fun d => ((if 2 ≤ dom then d.violation vDoorbell q dom else d).errEvent (pgRings q) errProt).followAll))

end Sys2Proof.Machine
end

