-- ==== Sys2Proof/Machine/Crossing.lean ====
section
/-! DEFINITION. What crosses between the blocks (chapter 2): words of chains and gate FIFOs, quiescing, modes; the timebase; the core supply. -/

namespace Sys2Proof.Machine

/-- CHAIN_PUSH (R35). What is offered, and the bits that the crossing flips. -/
def execChainPush (c : ChainId) (w : Offer) (err : BitVec 67) (s : State) : Res :=
  s.after (s.push c w.cell w.asks w.word err)

/-- CHAIN_POP (R36). -/
def execChainPop (c : ChainId) (s : State) : Res := .next (s.popChain c)

/-- CREDIT_RETURN (R36). -/
def execCreditReturn (c : ChainId) (s : State) : Res := .next (s.creditChain c)

/-- WORD_REPLAY (R33). -/
def execWordReplay (h : Hop) (err : BitVec 67) (s : State) : Res := .next (s.replayWord err h)

/-- GATE_FIFO_WRITE (R39). -/
def execGateFifoWrite (g : GateId) (w : CoreWord) (err : BitVec 67) (s : State) : Res := s.after (s.writeGate g w err)

/-- GATE_FIFO_POP (R40). -/
def execGateFifoPop (g : GatePop) (s : State) : Res := .next (s.popGate g.gate g.err)

/-- FLUSH (R43). A write of CH_CTRL in the page of the chain's consumer. -/
def execFlush (a : Accessor) (c : ChainId) (s : State) : Res := s.write a (consumerPage c) (fun s => .next (s.flushChain c))

/-- QUIESCE_REQ (R23). -/
def execQuiesceReq (a : Accessor) (page : Nat) (s : State) : Res := s.write a page (fun s => .next (s.quiesceReq page))

/-- BLOCK_QUIESCED (R23). -/
def execBlockQuiesced (page : Nat) (s : State) : Res := .next (s.quiesced page)

/-- MODE_CHANGE (R23). -/
def execModeChange (a : Accessor) (page : Nat) (mode : Bool) (s : State) : Res := s.writeDev a page (fun d => (d.modeChange page mode).followAll)

/-- BLOCK_ENABLE (R429). -/
def execBlockEnable (a : Accessor) (page : Nat) (enable : Bool) (s : State) : Res := s.writeDev a page (fun d => (d.blockEnable page enable).followAll)

/-- NOW_LO_READ (R20). -/
def execNowLoRead (a : Accessor) (s : State) : Res :=
  .next (s.latchRead a pgTimebase Reg.TIMEBASE.NOW_LO.off (fun d => d.latch latchNow a.num (bitsOf d.now 32 32)))

/-- SUPPLY_SETTLED (R25). -/
def execSupplySettled (s : State) : Res := s.onDev (fun d => d.supplySettled)

end Sys2Proof.Machine
end

