-- ==== Sys2Proof/Machine/Writing.lean ====
section
/-! DEFINITION. Writing and verifying (chapters 4 and 6). -/

namespace Sys2Proof.Machine

/-- A verdict as R151 gives it from what was read back, and what follows. -/
def Dev.verdict (d : Dev) (n : Nat) (seg : SegId) (found headerOk idOk : Bool) (res : SegResult) (data : List Byte) : Dev :=
  let v := verdictOf (d.inlineCap n == 0) found headerOk idOk res (d.fget (pgVerify n) Reg.VERIFY.ITERS_LIMIT)
    (d.fget (pgVerify n) Reg.VERIFY.LLR_FLOOR)
  d.takeVerdict n seg v (verdictRow (d.inlineCap n == 0) (found && headerOk && idOk) v res data)

/-- The dead marks of a mask cleared (R156): the channels count again from the next sheet copy begun. -/
def Dev.deadMapClear (d : Dev) (n mask : Nat) : Dev :=
  let gone := mask &&& d.deadMap n
  let d := d.modWr n (fun w => { w with sheets := w.sheets.map (fun s =>
    { s with copies := s.copies.map (fun c => { c with deadAtBegin := c.deadAtBegin ||| gone }) }) })
  ((List.range 64).filter (bitAt gone)).foldl (fun (e : Dev) ch => e.markDead n ch false) d

/-- PACKER_PLACE (R135). -/
def execPackerPlace (n : Fin 8) (s : State) : Res := s.onSpoke n (fun d => d.packPlace n)

/-- SHEET_SEAL (R91). -/
def execSheetSeal (n : Fin 8) (s : State) : Res := s.onSpoke n (fun d => d.sealNext n)

/-- POSTAMBLE_END (R152). -/
def execPostambleEnd (n : Fin 8) (s : State) : Res := s.onSpoke n (fun d => d.postambleEnd n)

/-- WRITE_FRAME (R142). `phase` is the servo phase code that the frame carries. -/
def execWriteFrame (n : Fin 8) (lane : Fin 2) (phase : Nat) (s : State) : Res := s.onSpoke n (fun d => d.writeFrame n lane phase)

/-- HEAD_TEMP_STALE (R145). -/
def execHeadTempStale (n : Fin 8) (s : State) : Res := s.onDev (fun d => d.headTempStale n)

/-- WAVE_BAND_WRITE (R145). -/
def execWaveBandWrite (a : Accessor) (n : Fin 8) (k : Fin 8) (wcur amp dur pre : Nat) (s : State) : Res :=
  s.writeDev a (pgWriter n) (fun d => d.waveBand n k wcur amp dur pre)

/-- SHOCK_ASSERT (R147). -/
def execShockAssert (n : Fin 8) (s : State) : Res := s.onDev (fun d => d.shock n true)

/-- SHOCK_NEGATE (R148). -/
def execShockNegate (n : Fin 8) (s : State) : Res := s.onDev (fun d => d.shock n false)

/-- WRITE_RESTORE (R148). -/
def execWriteRestore (n : Fin 8) (s : State) : Res := s.onDev (fun d => d.writeRestore n)

/-- VERDICT (R151). What was read back of the segment that was written as `seg`.
(DESIGN CHOICE, log entry 25, DESIGN CHOICE, log entry 26.) -/
def execVerdict (n : Fin 8) (seg : SegId) (found headerOk idOk : Bool) (res : SegResult) (data : List Byte) (s : State) : Res :=
  s.onSpoke n (fun d => d.verdict n seg found headerOk idOk res data)

/-- CLOSING_DWELL_END (R153). -/
def execClosingDwellEnd (n : Fin 8) (s : State) : Res := s.onSpoke n (fun d => d.closingDwellEnd n)

/-- VERIFY_DECODE_START (R157). -/
def execVerifyDecodeStart (n : Fin 8) (sheet gen : Nat) (s : State) : Res := s.onSpoke n (fun d => d.verifyStart n sheet gen)

/-- VERIFY_DECODE_DONE (R157). -/
def execVerifyDecodeDone (n : Fin 8) (s : State) : Res := s.onSpoke n (fun d => d.verifyDone n)

/-- DEAD_MAP_CLEAR (R156). -/
def execDeadMapClear (a : Accessor) (n : Fin 8) (mask : BitVec 64) (s : State) : Res :=
  s.writeDev a (pgWriter n) (fun d => d.deadMapClear n mask.toNat)

end Sys2Proof.Machine
end

