-- ==== Sys2Proof/Machine/Transport.lean ====
section
/-! DEFINITION. Servo, motion, speed and the control link (chapter 7). -/

namespace Sys2Proof.Machine

/-- SERVO_FRAME (R173): what the four readers time, and when the stripes of their C and D bursts pass. -/
def execServoFrame (n : Fin 8) (readers : List ReaderTimes) (cBursts dBursts : List (List Int)) (s : State) : Res :=
  s.onDev (fun d => d.servoFrame n (ReaderFrame.join readers cBursts dBursts))

/-- SERVO_LOST (R170). -/
def execServoLost (n : Fin 8) (s : State) : Res := s.onDev (fun d => d.servoLost n)

/-- SERVO_REACQUIRED (R170). -/
def execServoReacquired (n : Fin 8) (s : State) : Res := s.onSpoke n (fun d => d.servoAcquired n)

/-- REEL_CYCLE (R176), with the last cadence echo of its 100 µs. -/
def execReelCycle (n : ReelTurn) (s : State) : Res := s.onDev (fun d => d.reelCycle n.spoke n.echo)

/-- TENSION_FAULT (R177). -/
def execTensionFault (n : Fin 8) (s : State) : Res := s.onDev (fun d => d.tensionFault n)

/-- TENSION_ESTABLISHED (R177). -/
def execTensionEstablished (n : Fin 8) (s : State) : Res := s.onSpoke n (fun d => d.tensionSet n)

/-- SHIFT_COMPLETE (R179). -/
def execShiftComplete (n : Fin 8) (s : State) : Res := s.onSpoke n (fun d => d.shiftComplete n)

/-- DWELL_END (R181). -/
def execDwellEnd (n : Fin 8) (s : State) : Res := s.onDev (fun d => d.dwellEnd n)

/-- COG_REQ_WRITE (R183). -/
def execCogReqWrite (a : Accessor) (n : Fin 8) (cog : Nat) (s : State) : Res := s.writeDev a (pgDr n) (fun d => d.cogReq n cog)

/-- READ_RESUME (R182). -/
def execReadResume (n : Fin 8) (s : State) : Res := s.onSpoke n (fun d => d.readResume n)

/-- TAPE_STOPPED (R185). -/
def execTapeStopped (n : Fin 8) (s : State) : Res := s.onSpoke n (fun d => d.tapeStops n)

/-- PARK_COMPLETE (R185). -/
def execParkComplete (n : Fin 8) (s : State) : Res := s.onSpoke n (fun d => d.parkDone n)

/-- RUN_UP_START (R185). -/
def execRunUpStart (n : Fin 8) (s : State) : Res := s.onDev (fun d => d.runUpStart n)

/-- RUN_UP_COMPLETE (R185). -/
def execRunUpComplete (n : Fin 8) (s : State) : Res := s.onSpoke n (fun d => d.runUpDone n)

/-- LOCATE_COMPLETE (R187). -/
def execLocateComplete (n : Fin 8) (s : State) : Res := s.onSpoke n (fun d => d.locateDone n)

/-- ENV (R192). -/
def execEnv (n : Fin 8) (tapeTemp headTemp : Int) (rh : Nat) (s : State) : Res := s.onDev (fun d => d.envMsg n tapeTemp headTemp rh)

/-- ENV_TIMEOUT (R188). -/
def execEnvTimeout (n : Fin 8) (s : State) : Res := s.onDev (fun d => d.envTimeout n)

/-- ENV_HOLD_END (R188). -/
def execEnvHoldEnd (n : Fin 8) (s : State) : Res := s.onDev (fun d => d.envHoldEnds n)

/-- ECHO_LOST (R190). -/
def execEchoLost (n : Fin 8) (s : State) : Res := s.onAll (fun d => d.echoLost n)

/-- LINK_SILENT (R190). -/
def execLinkSilent (n : Fin 8) (s : State) : Res := s.onAll (fun d => d.linkSilent n)

/-- MOTION_STAT (R192). No register of the manual holds the hall state, and nothing is told of what follows from it.
(DEDUCED, log entry 33.) -/
def execMotionStat (n : Fin 8) (supply takeup tension hall fault : Nat) (s : State) : Res :=
  s.onSpoke n (fun d => d.motionStat n supply takeup tension fault)

/-- MECH_STAT (R192). No register of the manual holds the coarse position.
(DEDUCED, log entry 33.) -/
def execMechStat (n : Fin 8) (state fault coarse : Nat) (s : State) : Res := s.onSpoke n (fun d => d.mechStat n state fault)

/-- CM_RSP (R192). -/
def execCmRsp (n : Fin 8) (tag status : Nat) (data : List Byte) (s : State) : Res := s.onSpoke n (fun d => (d.rxFrame n).cmAnswer n tag status data)

/-- ACK (R192). Nothing is told of what follows from SEQ.
(DEDUCED, log entry 33.) -/
def execAck (n : Fin 8) (type seq status : Nat) (s : State) : Res := s.onSpoke n (fun d => d.ackMsg n type status)

/-- BAD_FRAME (R191): the bytes of the frame received, from its TYPE on. -/
def execBadFrame (n : LinkFrame) (s : State) : Res := s.onDev (fun d => d.badFrame n.spoke n.bytes)

/-- CM_REQ_TIMEOUT (R193). -/
def execCmReqTimeout (n : Fin 8) (tag : Nat) (s : State) : Res := s.onSpoke n (fun d => d.cmTimeout n tag)

/-- CALIBRATION_TICK (R197). -/
def execCalibrationTick (n : Fin 8) (m : CalMeas) (s : State) : Res := s.onSpoke n (fun d => d.calibrate n m)

end Sys2Proof.Machine
end

