-- ==== Sys2Proof/Machine/Reading.lean ====
section
/-! DEFINITION. The read channel, sheets read, the recovery ladder (chapters 4, 8 and 9). -/

namespace Sys2Proof.Machine

/-- SEGMENT_DUE (R218), with what the lane's signal gave since the segment before, 16 channel bits at a time: the amplitude, and the sums
of the timing errors found late and found early.
(DESIGN CHOICE, log entry 25.) -/
def execSegmentDue (n : Fin 8) (lane : Fin 64) (amp late early : List Nat) (s : State) : Res :=
  s.onDev (fun d => d.segmentDue n lane (LoopObs.join amp late early))

/-- SEGMENT_ARRIVED (R219). `dist`: the sync distances at the places searched; `hdr`: the header bits decoded at each. -/
def execSegmentArrived (n : Fin 8) (lane : Fin 64) (dist : List (Int × Nat)) (hdr : List (Int × List Bool)) (tone : Bool) (samples : List Int) (s : State) : Res :=
  s.onDev (fun d => d.segmentArrived n lane dist hdr tone samples)

/-- TILE_DECODE_DONE (R219).
(DESIGN CHOICE, log entry 25.) -/
def execTileDecodeDone (n : Fin 8) (tile : Fin 9) (bits : List Bool) (iters llr : Nat) (s : State) : Res :=
  s.onDev (fun d => d.tileDone n tile ⟨bits, iters, llr⟩)

/-- LOW_TONE (R216). -/
def execLowTone (n : Fin 8) (lane : ToneAt) (s : State) : Res := s.onDev (fun d => d.lowTone n lane.lane lane.place)

/-- HUNT (R217). -/
def execHunt (n : Fin 8) (lane : Fin 64) (s : State) : Res := s.onDev (fun d => d.hunt n lane)

/-- SPOKE_SYNC_LOST (R217). -/
def execSpokeSyncLost (n : Fin 8) (s : State) : Res := s.onSpoke n (fun d => (d.syncLost n).recovBlank n)

/-- SHEET_PASSED (R97). -/
def execSheetPassed (n : Fin 8) (sheet gen kind : Nat) (s : State) : Res := s.onSpoke n (fun d => d.sheetPassed n sheet gen kind)

/-- SECOND_DECODE (R97). -/
def execSecondDecode (n : Fin 8) (sheet : Nat) (s : State) : Res := s.onSpoke n (fun d => d.secondDecode n sheet)

/-- C2_DECODE_DONE (R96). -/
def execC2DecodeDone (n : Fin 8) (s : State) : Res := s.onSpoke n (fun d => d.c2Done n)

/-- REPLAY_START (R236). -/
def execReplayStart (n : Fin 8) (tile : Fin 9) (s : State) : Res := s.onSpoke n (fun d => d.replayStart n tile)

/-- REPLAY_DONE (R236). -/
def execReplayDone (n : Fin 8) (res : TileEnd) (bits hdr : List Bool) (s : State) : Res :=
  s.onSpoke n (fun d => d.replayDone n ⟨bits, res.iters, res.llr⟩ hdr)

/-- LADDER_DECODE_DONE (R233). -/
def execLadderDecodeDone (n : Fin 8) (s : State) : Res := s.onSpoke n (fun d => d.ladderDecodeDone n)

/-- C3_REBUILD_DONE (R99). -/
def execC3RebuildDone (n : Fin 8) (s : State) : Res := s.onSpoke n (fun d => d.c3Done n)

/-- LADDER_STEP_HANDOVER (R245). -/
def execLadderStepHandover (a : Accessor) (n : Fin 8) (s : State) : Res := s.writeDev a (pgSh n) (fun d => (d.ladderStep n 0).follow n)

/-- LADDER_STEP_RUNG (R245). NEXT is `k + 1`. -/
def execLadderStepRung (a : Accessor) (n : Fin 8) (k : Fin 8) (s : State) : Res := s.writeDev a (pgSh n) (fun d => (d.ladderStep n (k + 1)).follow n)

/-- LADDER_STEP_RAW (R245). -/
def execLadderStepRaw (a : Accessor) (n : Fin 8) (s : State) : Res := s.writeDev a (pgSh n) (fun d => (d.ladderStep n 9).follow n)

/-- LADDER_STEP_UNREADABLE (R245). -/
def execLadderStepUnreadable (a : Accessor) (n : Fin 8) (s : State) : Res := s.writeDev a (pgSh n) (fun d => (d.ladderStep n 15).follow n)

/-- HOST_WAIT_EXPIRY (R245). -/
def execHostWaitExpiry (n : Fin 8) (s : State) : Res := s.onSpoke n (fun d => d.hostWaitExpiry n)

/-- LOST_OBJ_LO_READ (R248). -/
def execLostObjLoRead (a : Accessor) (n : Fin 8) (s : State) : Res :=
  .next (s.latchRead a (pgSh n) Reg.SAMPLEHOLD.LOST_OBJ_LO.off (fun d => d.latch (latchLost n) a.num (bitsOf (d.rd n).lostObj 32 16)))

end Sys2Proof.Machine
end

