-- ==== Sys2Proof/Machine/Pressing.lean ====
section
/-! DEFINITION. The press (chapter 5) and PRESS.CRYPT (R361, R364). -/

namespace Sys2Proof.Machine

/-- A stream ends whose slot's IV counter is exhausted (R361), as at a zeroisation of the slot (R371).
(DEDUCED, log entry 36.) -/
def Dev.exhaustStream (d : Dev) (st : Nat) : Dev := (List.range 8).foldl Dev.zeroHalt (d.zeroStream st)

/-- The next frame encrypted. -/
def Dev.encryptNext (d : Dev) (c : Nat) : Dev :=
  match (d.frameEncrypt c).2 with
  | some st => ((d.frameEncrypt c).1).exhaustStream st
  | none => (d.frameEncrypt c).1

/-- COMPRESS_START (R121). -/
def execCompressStart (st : Nat) (s : State) : Res := s.onPress (fun d => d.compressStart st)

/-- FINGERPRINT_STEP (R122). -/
def execFingerprintStep (st : Nat) (s : State) : Res := s.onPress (fun d => d.fingerprintStep st)

/-- BLOCK_DISPATCH (R122). -/
def execBlockDispatch (e : Fin 17) (s : State) : Res := s.onPress (fun d => d.blockDispatch e)

/-- BLOCK_CODED (R109). `body` is what the engine coded; the manual leaves its choice to the engine (R113). -/
def execBlockCoded (e : Fin 17) (body : List Byte) (s : State) : Res := s.onPress (fun d => d.blockCoded e body)

/-- COMP_BUFFER_RETRY (R124). -/
def execCompBufferRetry (e : Fin 17) (s : State) : Res := s.onPress (fun d => d.compRetry e)

/-- DECOMP_DISPATCH (R126). -/
def execDecompDispatch (e : Fin 17) (s : State) : Res := s.onPress (fun d => d.decompDispatch e)

/-- DECOMP_RESUME (R127). -/
def execDecompResume (e : Fin 17) (s : State) : Res := s.onRead (fun d => d.decompResume e)

/-- FAR_REFERENCE_RESUME (R126). -/
def execFarReferenceResume (e : Fin 17) (s : State) : Res := s.onRead (fun d => d.farResume e)

/-- DECOMP_BLOCK_DONE (R130). -/
def execDecompBlockDone (e : Fin 17) (s : State) : Res := s.onRead (fun d => d.decompDone e)

/-- FRAME_ENCRYPT (R361). -/
def execFrameEncrypt (c : Fin 2) (s : State) : Res := s.onPress (fun d => d.encryptNext c)

/-- FRAME_DECRYPT (R364). -/
def execFrameDecrypt (c : Fin 2) (s : State) : Res := s.onRead (fun d => d.frameDecrypt c)

end Sys2Proof.Machine
end

