-- ==== Sys2Proof/Machine/Memory.lean ====
section
/-! DEFINITION. The chest, the pool and buffers (chapter 10). -/

namespace Sys2Proof.Machine

/-- An injection armed on channel `k` (R273). -/
def Dev.injArm (d : Dev) (k pattern lane : Nat) : Dev :=
  ((d.fset (pgMemctl k) Reg.MEMCTL.PATTERN pattern).fset (pgMemctl k) Reg.MEMCTL.LANE lane).ev (pgMemctl k) Reg.MEMCTL.ARM

/-- MEMORY_READ (R253). `reached` is the word address that the DRAM returned, `flips` what it returned wrong.
(DESIGN CHOICE, log entry 7.) -/
def execMemoryRead (reader : MemReader) (word reached : Nat) (flips : List (Nat × Nat)) (s : State) : Res :=
  s.onAll (fun d => d.memAccess (.read reader word reached flips))

/-- MEMORY_WRITE (R255). Each beat is its 64 bits and its eight byte enables. -/
def execMemoryWrite (word : Nat) (beats : List (Nat × Nat)) (s : State) : Res := s.onDev (fun d => d.memAccess (.write word beats))

/-- PAGE_FILL_DONE (R260). -/
def execPageFillDone (page : Nat) (s : State) : Res := s.onAll (fun d => d.pageFillDone page)

/-- VM_CLR (R261). -/
def execVmClr (a : Accessor) (s : State) : Res := s.writeDev a (pgVmap) (fun d => d.vmClrGo)

/-- VM_CLR_DONE (R261). -/
def execVmClrDone (s : State) : Res := s.onDev (fun d => d.vmClrDone)

/-- INJ_ARM (R273). -/
def execInjArm (a : Accessor) (k : Fin 4) (pattern lane : Nat) (s : State) : Res := s.writeDev a (pgMemctl k) (fun d => d.injArm k pattern lane)

/-- ALLOCATION (R267). -/
def execAllocation (owner size : Nat) (s : State) : Res := s.onDev (fun d => d.poolRequest owner size)

/-- INCREMENT (R269). -/
def execIncrement (h : Nat) (s : State) : Res := s.onDev (fun d => d.refUp h)

/-- DECREMENT (R269). -/
def execDecrement (h : Nat) (s : State) : Res := s.onDev (fun d => d.refDown h)

/-- APPLY (R265). -/
def execApply (a : Accessor) (s : State) : Res := s.writeDev a (pgPool) (fun d => d.poolApply)

/-- POOL_CONFIG_DONE (R265). -/
def execPoolConfigDone (s : State) : Res := s.onAll (fun d => d.poolConfigDone)

/-- NOBUF_WAIT_EXPIRY (R272). -/
def execNobufWaitExpiry (n : Fin 8) (s : State) : Res := s.onSpoke n (fun d => d.nobufExpiry n)

end Sys2Proof.Machine
end

