-- ==== Sys2Proof/Machine/HostLink.lean ====
section
/-! DEFINITION. Endpoints, rings, doorbells, heartbeat and host loss, BAR0 (chapters 11 and 16). -/

namespace Sys2Proof.Machine

/-- The owner of a failed transfer (R280): an entry is abandoned, or the command completes. -/
def Dev.ownerFails (d : Dev) : XferOwner → Dev
  | .entry q => d.fetchComplete q 1
  | .spoke n => d.transferFails n

/-- An error completion recorded (R280, R300). -/
def Dev.errorCompletion (d : Dev) (i : Nat) : CplError → Dev
  | .urCa => d.dmaFails i Reg.DMA.UR_CA
  | .poisoned => d.dmaFails i Reg.DMA.POISONED
  | .ecrc =>
    let d := (d.bump (pgDma i) Reg.DMA.FAILED 1).ev (pgPcie (i / 2)) Reg.PCIE.ECRC
    (d.ev (pgPcie (i / 2)) Reg.PCIE.UNCORR).bump (pgPcie (i / 2)) Reg.PCIE.UNCORR_ERRS 1

/-- SIZE written through the window of RINGS instance `i` (R284). A submission ring enabled that R282 stops is flagged. -/
def Dev.ringSize (d : Dev) (i : Nat) (cq : Bool) (size : Nat) : Dev :=
  let q := d.ringSel i
  if cq then
    if size = 0 then d.cqDisable q else if (d.cq q).size = 0 then d.cqEnable q size else d
  else
    if size = 0 then d.sqDisable q
    else if (d.sq q).size = 0 then
      let e := d.sqEnable q size
      if e.sqServed q then e else e.ringEvt q Reg.RINGS.RINGS_EVT_MISMATCH
    else d

/-- HB of endpoint `e` written: a beat through its physical function; through another function VALUE is stored (R296). -/
def Dev.hbWrite (d : Dev) (a : Accessor) (e v : Nat) : Dev :=
  if a.num = 64 * e then (d.heartbeat e v).followAll else d.fset (pgPcie e) Reg.PCIE.VALUE v

/-- PERST_ASSERT (R278). -/
def execPerstAssert (e : Fin 2) (s : State) : Res := s.onAll (fun d => d.perstAssert e)

/-- PERST_RELEASE (R278). -/
def execPerstRelease (e : Fin 2) (s : State) : Res := s.onDev (fun d => d.perstRelease e)

/-- LINK_UP (R278). -/
def execLinkUp (e : Fin 2) (width speed : Nat) (s : State) : Res := s.onDev (fun d => d.linkActive e width speed)

/-- LINK_DOWN (R297). -/
def execLinkDown (e : Fin 2) (s : State) : Res := s.onAll (fun d => d.linkLost e)

/-- CONFIGURATION_REQUEST (R278). -/
def execConfigurationRequest (e : Fin 2) (f : CfgReq) (s : State) : Res := s.onDev (fun d => d.cfgRequest e f.fn f.ctl)

/-- FUNCTION_LEVEL_RESET (R287). -/
def execFunctionLevelReset (e : Fin 2) (f : Fin 64) (s : State) : Res := s.onDev (fun d => d.flr (funcOf e f))

/-- BUS_MASTER_ENABLE (R279). -/
def execBusMasterEnable (e : Fin 2) (f : Fin 64) (s : State) : Res := s.onAll (fun d => d.busMaster (funcOf e f))

/-- VF_ENABLE (R294). -/
def execVfEnable (e : Fin 2) (s : State) : Res := s.onDev (fun d => d.vfEnable e)

/-- COMPLETION_TIMEOUT (R280). -/
def execCompletionTimeout (i : Fin 4) (x : XferOwner) (s : State) : Res := s.onAll (fun d => (d.dmaFails i Reg.DMA.CPL_TIMEOUT).ownerFails x)

/-- ERROR_COMPLETION (R280). -/
def execErrorCompletion (i : Fin 4) (x : XferOwner) (c : CplError) (s : State) : Res := s.onAll (fun d => (d.errorCompletion i c).ownerFails x)

/-- RING_ENABLE (R284). SIZE of the ring that the page's window names; a code of 0 disables it.
(DEDUCED, log entry 20.) -/
def execRingEnable (a : Accessor) (i : Fin 8) (cq : Bool) (size : Fin 16) (s : State) : Res :=
  s.writeDev a (pgRings (512 * i)) (fun d => d.ringSize i cq size)

/-- RING_DISABLE (R284). -/
def execRingDisable (a : Accessor) (i : Fin 8) (cq : Bool) (s : State) : Res := s.writeDev a (pgRings (512 * i)) (fun d => d.ringSize i cq 0)

/-- SQ_TAIL_DOORBELL (R286).
(DEDUCED, log entry 22.) -/
def execSqTailDoorbell (e : Fin 2) (f : Fin 64) (q : Fin 4096) (v : Nat) (s : State) : Res := s.doorbell e f q (fun d => d.sqBell q (funcOf e f) v)

/-- CQ_HEAD_DOORBELL (R287).
(DEDUCED, log entry 22.) -/
def execCqHeadDoorbell (e : Fin 2) (f : Fin 64) (q : Fin 4096) (v : Nat) (s : State) : Res := s.doorbell e f q (fun d => d.cqBell q (funcOf e f) v)

/-- SQ_CREDIT_WRITE (R288). -/
def execSqCreditWrite (a : Accessor) (i : Fin 8) (credit : Nat) (s : State) : Res :=
  s.writeDev a (pgRings (512 * i)) (fun d => d.creditWrite (d.ringSel i) credit)

/-- FETCH_TURN (R289). -/
def execFetchTurn (q : Fin 4096) (s : State) : Res := s.onDev (fun d => d.fetchTurn q)

/-- FETCH_COMPLETE (R289). `bad` entries of the turn were not read. -/
def execFetchComplete (q : Fin 4096) (bad : Nat) (s : State) : Res := s.onDev (fun d => d.fetchComplete q bad)

/-- AGG_TIMER_EXPIRY (R295). -/
def execAggTimerExpiry (q : Fin 4096) (s : State) : Res := s.onDev (fun d => d.aggExpiry q)

/-- HEARTBEAT (R296).
(DEDUCED, log entry 20.) -/
def execHeartbeat (a : Accessor) (e : Fin 2) (v : Nat) (s : State) : Res := s.writeDev a (pgPcie e) (fun d => d.hbWrite a e v)

/-- HB_WINDOW_WRITE (R296). -/
def execHbWindowWrite (a : Accessor) (e : Fin 2) (window : Nat) (s : State) : Res := s.writeDev a (pgPcie e) (fun d => d.hbWindow e window)

/-- HEARTBEAT_MISS (R296). -/
def execHeartbeatMiss (e : Fin 2) (s : State) : Res := s.onAll (fun d => d.heartbeatMiss e)

/-- HOLD_UNLOAD_TIMEOUT (R412). -/
def execHoldUnloadTimeout (n : Fin 8) (s : State) : Res := s.onDev (fun d => d.holdUnload n)

/-- BAR0_BAD_ACCESS (R423). -/
def execBar0BadAccess (a : Accessor) (isRead : Bool) (s : State) : Res := s.onDev (fun d => d.badAccess a isRead)

/-- REGISTER_WRITE (R8). `be` are the byte enables. -/
def execRegisterWrite (a : Accessor) (page off value be : Nat) (s : State) : Res := s.writeAt a page off (fun s => .next (s.writeReg a page off value be))

/-- DOMAIN_FENCE_LIFT (R368). -/
def execDomainFenceLift (a : Accessor) (lo hi : BitVec 32) (s : State) : Res := s.writeDev a (pgAlarm) (fun d => d.domLift lo.toNat hi.toNat)

end Sys2Proof.Machine
end

