-- ==== Sys2Proof/Machine/Commands.lean ====
section
/-! DEFINITION. The ring commands (chapter 12). Each is a command fetched: it begins at once, or waits for its turn. -/

namespace Sys2Proof.Machine

/-- NOP (R340). -/
def execNop (h : CmdHdr) (s : State) : Res := s.host h .nop []

/-- WRITE (R318). -/
def execWrite (h : CmdHdr) (more waitCommit anchorReq : Bool) (data : List Byte) (s : State) : Res := s.host h (.write more waitCommit anchorReq) data

/-- WRITE_ACCEPTED (R316).
(DEDUCED, log entry 24.) -/
def execWriteAccepted (n : Fin 8) (s : State) : Res := s.onSpoke n (fun d => d.writeAccepted n)

/-- WRITE_MARK (R319). -/
def execWriteMark (h : CmdHdr) (waitCommit : Bool) (count : Nat) (s : State) : Res := s.host h (.writeMark waitCommit count) []

/-- SYNC (R321). -/
def execSync (h : CmdHdr) (s : State) : Res := s.host h .sync []

/-- READ (R322). -/
def execRead (h : CmdHdr) (more : Bool) (s : State) : Res := s.host h (.read more) []

/-- LOCATE (R326). -/
def execLocate (h : CmdHdr) (object part : Nat) (toEod : Bool) (hint : Nat) (s : State) : Res := s.host h (.locate object part toEod hint) []

/-- SPACE (R327). -/
def execSpace (h : CmdHdr) (count : Int) (unit : Nat) (s : State) : Res := s.host h (.space count unit) []

/-- READ_POSITION (R328). -/
def execReadPosition (h : CmdHdr) (s : State) : Res := s.host h .readPosition []

/-- TAPE_STATUS (R334). -/
def execTapeStatus (h : CmdHdr) (s : State) : Res := s.host h .tapeStatus []

/-- CLOSE_SESSION (R331). -/
def execCloseSession (h : CmdHdr) (s : State) : Res := s.host h .closeSession []

/-- FORMAT (R332). -/
def execFormat (h : CmdHdr) (count : Nat) (wraps : List Nat) (s : State) : Res := s.host h (.format count wraps) []

/-- UNLOAD (R333). -/
def execUnload (h : CmdHdr) (s : State) : Res := s.host h .unload []

/-- CANCEL (R341). -/
def execCancel (h : CmdHdr) (s : State) : Res := s.host h .cancel []

/-- STREAM_OPEN (R330). -/
def execStreamOpen (h : CmdHdr) (params : Nat) (s : State) : Res := s.host h (.streamOpen params) []

/-- STREAM_SET (R330). -/
def execStreamSet (h : CmdHdr) (params : Nat) (s : State) : Res := s.host h (.streamSet params) []

/-- STREAM_CLOSE (R330).
(DEDUCED, log entry 24.) -/
def execStreamClose (h : CmdHdr) (s : State) : Res := s.host h .streamClose []

/-- STREAM_QUERY (R330). -/
def execStreamQuery (h : CmdHdr) (s : State) : Res := s.host h .streamQuery []

/-- SHEET_WRITE (R335). -/
def execSheetWrite (h : CmdHdr) (content : List Byte) (s : State) : Res := s.host h (.sheetWrite content) []

/-- SHEET_READ (R336). -/
def execSheetRead (h : CmdHdr) (source sheet mapAddr : Nat) (s : State) : Res := s.host h (.sheetRead source sheet mapAddr) []

/-- RAW_RELEASE (R337). -/
def execRawRelease (h : CmdHdr) (s : State) : Res := s.host h .rawRelease []

/-- BUF_ALLOC (R338). -/
def execBufAlloc (h : CmdHdr) (size : Nat) (s : State) : Res := s.host h (.bufAlloc size) []

/-- BUF_REF (R338). -/
def execBufRef (h : CmdHdr) (handle : Nat) (s : State) : Res := s.host h (.bufRef handle) []

/-- BUF_RELEASE (R338). -/
def execBufRelease (h : CmdHdr) (handle : Nat) (s : State) : Res := s.host h (.bufRelease handle) []

/-- BUF_LOAD (R338).
(DESIGN CHOICE, log entry 8.) -/
def execBufLoad (h : CmdHdr) (handle offset : Nat) (data : List Byte) (s : State) : Res := s.host h (.bufLoad handle offset data) []

/-- BUF_STORE (R338).
(DESIGN CHOICE, log entry 8.) -/
def execBufStore (h : CmdHdr) (handle offset : Nat) (s : State) : Res := s.host h (.bufStore handle offset) []

/-- CM_READ (R339). -/
def execCmRead (h : CmdHdr) (offset : Nat) (s : State) : Res := s.host h (.cmRead offset) []

/-- CM_WRITE (R339). -/
def execCmWrite (h : CmdHdr) (offset : Nat) (data : List Byte) (s : State) : Res := s.host h (.cmWrite offset data) []

/-- TAKEOVER (R298). -/
def execTakeover (h : CmdHdr) (s : State) : Res := s.host h .takeover []

end Sys2Proof.Machine
end

