-- ==== Sys2Proof/Machine/Keeping.lean ====
section
/-! DEFINITION. KEEP and firmware (chapter 13): the protection table, measurements, updates, keys, tampering. -/

namespace Sys2Proof.Machine

/-- VERSION of SPDM 1.2. -/
def Dev.getVersion (d : Dev) : Dev := d.spdm 0x04 (bytesLE 2 0x1200)

/-- CAPABILITIES: certificates, challenges and measurements with signature. -/
def Dev.getCapabilities (d : Dev) : Dev := d.spdm 0x61 (bytesLE 4 0x16)

/-- ALGORITHMS: RSASSA-PSS 4096, SHA-512 for the transcript and for measurements. -/
def Dev.negotiateAlgorithms (d : Dev) : Dev := d.spdm 0x63 (bytesLE 4 0x40 ++ bytesLE 4 4 ++ bytesLE 4 8)

/-- DIGESTS of the two certificate slots. -/
def Dev.getDigests (d : Dev) : Dev := d.spdm 0x01 (Config.sha512 (Config.certChain 0) ++ Config.sha512 (Config.certChain 1))

/-- The request codes that have rows of their own: what else arrives is answered with ERROR. -/
def Dev.spdmUnsupported (d : Dev) (code : Nat) : Dev :=
  if [0x81, 0x82, 0x83, 0x84, 0xE0, 0xE1, 0xE3].contains code then d else d.spdmError

/-- IV_COUNT latched for reader `a` (R373). -/
def Dev.latchIvCount (d : Dev) (a : Nat) : Dev :=
  d.latch latchIv a (bitsOf (d.slot (d.fget pgKeystore Reg.KEYSTORE.SLOT)).ivCount 32 32)

/-- SEQ and the ledger latched for reader `a` as one value (R374). -/
def Dev.latchLedgerAll (d : Dev) (a : Nat) : Dev :=
  (List.range 16).foldl (fun (e : Dev) i => e.latch (latchLedger i) a (natLE ((d.keep.ledger.drop (4 * i)).take 4)))
    (d.latch latchSeq a (bitsOf d.keep.seq 32 32))

/-- STAGE_SET (R346). -/
def execStageSet (a : Accessor) (dom count : Nat) (s : State) : Res := s.writeDev a (pgProtect) (fun d => d.stageSet dom count)

/-- DISCARD (R346). -/
def execDiscard (a : Accessor) (s : State) : Res := s.writeDev a (pgProtect) (fun d => d.discardStaged)

/-- COMMIT (R347). -/
def execCommit (a : Accessor) (s : State) : Res := s.writeDev a (pgProtect) (fun d => d.protCommit)

/-- GET_VERSION (R351). -/
def execGetVersion (s : State) : Res := s.onDev (fun d => d.getVersion)

/-- GET_CAPABILITIES (R351). -/
def execGetCapabilities (s : State) : Res := s.onDev (fun d => d.getCapabilities)

/-- NEGOTIATE_ALGORITHMS (R351). -/
def execNegotiateAlgorithms (s : State) : Res := s.onDev (fun d => d.negotiateAlgorithms)

/-- GET_DIGESTS (R351). -/
def execGetDigests (s : State) : Res := s.onDev (fun d => d.getDigests)

/-- GET_CERTIFICATE (R351). -/
def execGetCertificate (slot off len : Nat) (s : State) : Res := s.onDev (fun d => d.getCertificate slot off len)

/-- CHALLENGE (R351). -/
def execChallenge (slot : Nat) (nonce : List Byte) (s : State) : Res := s.onDev (fun d => d.challenge slot nonce)

/-- GET_MEASUREMENTS (R352). -/
def execGetMeasurements (index : Nat) (signed : Bool) (nonce : List Byte) (s : State) : Res := s.onDev (fun d => d.getMeasurements index signed nonce)

/-- SPDM_UNSUPPORTED_REQUEST (R351). `code` is the request code. -/
def execSpdmUnsupportedRequest (code : Nat) (s : State) : Res := s.onDev (fun d => d.spdmUnsupported code)

/-- PLDM_FIRMWARE_UPDATE (R356). -/
def execPldmFirmwareUpdate (image : List Byte) (s : State) : Res := s.onDev (fun d => d.pldmUpdate image)

/-- POWER_CAP_EFFECTER (R383). -/
def execPowerCapEffecter (v : Nat) (s : State) : Res := s.onDev (fun d => d.capEffecter v)

/-- NUMERIC_SENSOR_READ (R383). -/
def execNumericSensorRead (k : Nat) (s : State) : Res := s.onDev (fun d => d.sensorRead k)

/-- UPDATE_START (R356). -/
def execUpdateStart (a : Accessor) (s : State) : Res := s.writeDev a (pgBoot) (fun d => d.updStart)

/-- UPD_DATA (R356). -/
def execUpdData (a : Accessor) (v : BitVec 32) (s : State) : Res := s.writeDev a (pgBoot) (fun d => d.updData v.toNat)

/-- UPDATE_END (R356). -/
def execUpdateEnd (a : Accessor) (s : State) : Res := s.writeDev a (pgBoot) (fun d => d.updEnd)

/-- UPDATE_VERIFY_DONE (R356). `flashOk`: the flash read back as written. -/
def execUpdateVerifyDone (flashOk : Bool) (s : State) : Res := s.onDev (fun d => d.updDone flashOk)

/-- UPDATE_RELEASE (R356). -/
def execUpdateRelease (a : Accessor) (s : State) : Res := s.writeDev a (pgBoot) (fun d => d.updRelease)

/-- SVN_COMMIT (R357). -/
def execSvnCommit (a : Accessor) (s : State) : Res := s.writeDev a (pgBoot) (fun d => d.svnCommit)

/-- SVN_COMMIT_DONE (R357). -/
def execSvnCommitDone (s : State) : Res := s.onDev (fun d => d.svnDone)

/-- KEK_GO (R358).
(DEDUCED, log entry 36.) -/
def execKekGo (a : Accessor) (s : State) : Res := s.writeDev a (pgKeystore) (fun d => d.kekGo)

/-- KEK_LOAD_DONE (R358). -/
def execKekLoadDone (s : State) : Res := s.onDev (fun d => d.kekDone)

/-- KEY_GO (R358). -/
def execKeyGo (a : Accessor) (s : State) : Res := s.writeDev a (pgKeystore) (fun d => d.keyGo)

/-- KEY_LOAD_DONE (R358). -/
def execKeyLoadDone (s : State) : Res := s.onDev (fun d => d.keyDone)

/-- KEY_CLEAR (R358). -/
def execKeyClear (a : Accessor) (s : State) : Res := s.write a pgKeystore (fun s => .next (s.zeroised Dev.keyClear))

/-- KEK_CLEAR (R358). -/
def execKekClear (a : Accessor) (s : State) : Res := s.writeDev a (pgKeystore) (fun d => d.kekClear)

/-- IV_COUNT_LO_READ (R373). -/
def execIvCountLoRead (a : Accessor) (s : State) : Res :=
  .next (s.latchRead a pgKeystore Reg.KEYSTORE.IV_COUNT_LO.off (fun d => d.latchIvCount a.num))

/-- SEQ_LO_READ (R374). -/
def execSeqLoRead (a : Accessor) (s : State) : Res := .next (s.latchRead a pgProtect Reg.PROTECT.SEQ_LO.off (fun d => d.latchLedgerAll a.num))

/-- TPW_LO_READ (R198). -/
def execTpwLoRead (a : Accessor) (n : Fin 8) (s : State) : Res :=
  .next (s.latchRead a (pgServo n) Reg.SERVO.TPW_LO.off (fun d => d.latch (latchTpw n) a.num (bitsOf (d.sp n).drv.tpw 32 4)))

/-- TAMPER (R369). Condition `k` (0 voltage, 1 temperature, 2 light, 3 mesh) is met, or is gone. -/
def execTamper (k : Fin 4) (present : Bool) (s : State) : Res := .next (s.zeroised (fun d => d.tamper k present))

/-- ZEROISE_ALL (R370). -/
def execZeroiseAll (a : Accessor) (s : State) : Res := s.write a pgAlarm (fun s => .next (s.zeroised Dev.zeroiseAll))

end Sys2Proof.Machine
end

