-- ==== Sys2Proof/Machine/Environment.lean ====
section
/-! DEFINITION. Temperature and power (chapter 14). -/

namespace Sys2Proof.Machine

/-- THERMAL_SAMPLE (R380). Readings in units of 1/16 °C. -/
def execThermalSample (readings : List Int) (s : State) : Res := .next (s.powered (fun d => d.thermalSample readings))

/-- RATE_EVALUATION (R381). -/
def execRateEvaluation (s : State) : Res := s.onDev (fun d => d.rateEvaluation)

/-- TRIP_COMPARATOR (R385). -/
def execTripComparator (site : Fin 26) (s : State) : Res := .next (s.powered (fun d => d.trip 2 site 0))

/-- TRIP_RESTART (R387). -/
def execTripRestart (s : State) : Res := s.onDev (fun d => d.tripRestart)

/-- DRAM_TEMP_READ (R388). No reading: the read failed. -/
def execDramTempRead (i : Fin 52) (reading : Option Int) (s : State) : Res := s.onDev (fun d => d.dramRead i reading)

/-- OVER_LIMIT (R396). `power` in 0.1 W. -/
def execOverLimit (power : Nat) (s : State) : Res := s.onDev (fun d => d.overLimit power)

/-- P3V3_STBY_GOOD (R391). -/
def execP3v3StbyGood (mv mgmtAddr : Nat) (s : State) : Res := .next ((s.resetHops).modDev (fun d => d.standbyUp mv mgmtAddr))

/-- P12V_GOOD (R391). -/
def execP12vGood (mv : Nat) (s : State) : Res := s.onDev (fun d => d.p12Up mv)

/-- BROWN_OUT (R393). -/
def execBrownOut (s : State) : Res := .next (s.powered Dev.brownOut)

/-- RAIL_FAULT (R393). -/
def execRailFault (r : Fin 6) (s : State) : Res := .next (s.powered (fun d => d.railFault r))

end Sys2Proof.Machine
end

