-- ==== Sys2Proof/Machine/Service.lean ====
section
/-! DEFINITION. Damaged units, resets, fences, stewards, transports and the bank switch (chapter 15). -/

namespace Sys2Proof.Machine

/-- RESET_CTRL with KIND 3: TARGETs above 7 reset nothing (R400). -/
def State.resetTarget (s : State) (target : Fin 16) : State :=
  let s := s.modDev (fun d => d.fset pgMgmt Reg.MGMT.TARGET target)
  if 8 ≤ target.val then s else (s.resetSpokeHops target).modDev (fun d => (d.spokeReset target stNotReady).followAll)

/-- The spokes of a mask. -/
def spokesOf (mask : Nat) : List Nat := (List.range 8).filter (bitAt mask)

/-- FENCE_CTRL.SET: fences with cause ROOT (R401). -/
def Dev.fenceMask (d : Dev) (mask : Nat) : Dev := (spokesOf mask).foldl (fun (e : Dev) n => e.fence n 4) d

/-- FENCE_CTRL.LIFT: each fenced spoke of the mask is reset (R402). -/
def State.liftMask (s : State) (mask : Nat) : State :=
  ((((spokesOf mask).filter s.dev.fenced).foldl (fun (x : State) n => (x.resetSpokeHops n).modDev (fun d => d.lift n)) s)).modDev Dev.followAll

/-- What crosses into the block of a page, as a reset of the block leaves it: its chain, its sample paths. -/
def State.resetBlockHops (s : State) (pg : PageId) : State :=
  match pageOf pg with
  | none => s
  | some (t, i) =>
    let n := pg / 256 - 8
    match chainOf t i n with
    | some (c, _) => { s with chains := s.chains.filter (fun p => p.1 != c.key) }
    | none => if t = .LANEFE then { s with gates := s.gates.filter (fun p => !(decide (64 * n + 16 * i ≤ p.1) && decide (p.1 < 64 * n + 16 * i + 16))) } else s

/-- READMIT of the block that RET_SEL names (R406). -/
def State.readmitSel (s : State) : State :=
  let pg := 256 * s.dev.fget pgMgmt Reg.MGMT.REGION + s.dev.fget pgMgmt Reg.MGMT.PAGE
  let s := if s.dev.fon pg Reg.HEADER.RETIRED then s.resetBlockHops pg else s
  s.modDev (fun d => (d.readmit pg).followAll)

/-- WORK_UNIT_DAMAGED (R398). -/
def execWorkUnitDamaged (x : Damage) (s : State) : Res := .next (s.damage (fun d => (d.damaged x).followAll))

/-- ERR_FORCE (R399). -/
def execErrForce (a : Accessor) (page mask : Nat) (s : State) : Res := s.writeDev a (page) (fun d => d.errForce page mask)

/-- MODULE_RESET (R400). -/
def execModuleReset (a : Accessor) (s : State) : Res := s.writeRoot a (fun s => s.resetHops.modDev Dev.moduleReset)

/-- KEEP_RESET (R400). -/
def execKeepReset (a : Accessor) (s : State) : Res := s.writeRoot a (fun s => s.modDev (fun d => d.keepReset.followAll))

/-- SPOKE_RESET (R400). -/
def execSpokeReset (a : Accessor) (target : Fin 16) (s : State) : Res := s.writeRoot a (fun s => s.resetTarget target)

/-- SPOKE_FENCE_SET (R401). -/
def execSpokeFenceSet (a : Accessor) (mask : BitVec 8) (s : State) : Res :=
  s.writeRoot a (fun s => s.modDev (fun d => (d.fenceMask mask.toNat).followAll))

/-- SPOKE_FENCE_LIFT (R402). -/
def execSpokeFenceLift (a : Accessor) (mask : BitVec 8) (s : State) : Res := s.writeRoot a (fun s => s.liftMask mask.toNat)

/-- READMIT (R406). The block that RET_SEL names.
(DEDUCED, log entry 21.) -/
def execReadmit (a : Accessor) (s : State) : Res := s.write a pgMgmt (fun s => .next s.readmitSel)

/-- WATCHDOG_EXPIRY (R407). -/
def execWatchdogExpiry (i : Fin 12) (s : State) : Res := s.onAll (fun d => d.watchdog i)

/-- REVIVE (R407). -/
def execRevive (a : Accessor) (i : Fin 12) (s : State) : Res := s.writeDev a (pgMgmtI (i / 3)) (fun d => d.revive i)

/-- TRANSPORT_ABSENT (R409). -/
def execTransportAbsent (n : Fin 8) (s : State) : Res := s.onDev (fun d => d.transportAbsent n)

/-- TRANSPORT_PRESENT (R409). -/
def execTransportPresent (n : Fin 8) (s : State) : Res := s.onSpoke n (fun d => d.transportPresent n)

/-- SWITCH_GO (R410). -/
def execSwitchGo (a : Accessor) (s : State) : Res := s.writeRoot a (fun s => s.modDev Dev.switchGo)

/-- STEWARD_PAUSE (R410). -/
def execStewardPause (i : Fin 12) (s : State) : Res := s.onDev (fun d => d.stewardPause i)

/-- SWITCH_PAUSE_TIMEOUT (R410). -/
def execSwitchPauseTimeout (s : State) : Res := s.onDev (fun d => d.pauseTimeout)

/-- SWITCH_REVERT (R411). -/
def execSwitchRevert (s : State) : Res := s.onDev (fun d => d.switchRevert)

end Sys2Proof.Machine
end

