-- ==== Sys2Proof/Machine/Pins.lean ====
section
/-! DEFINITION. The test access port, accounting windows, receiver lock, and the rows added for start-up and BAR0 (R8, R15, R201, R294, R366, R400, R407, R408, R452). -/

namespace Sys2Proof.Machine

/-- BYPASS (R452). -/
def execBypass (value : Nat) (s : State) : Res := s.onDev (fun d => d.tapGoes .bypass value)

/-- IDCODE (R452). -/
def execIdcode (value : Nat) (s : State) : Res := s.onDev (fun d => d.tapGoes .idcode value)

/-- SAMPLE_PRELOAD (R452). -/
def execSamplePreload (value : Nat) (s : State) : Res := s.onDev (fun d => d.tapGoes .sample value)

/-- EXTEST (R452). -/
def execExtest (value : Nat) (s : State) : Res := s.onDev (fun d => d.tapGoes .extest value)

/-- CLAMP (R452). -/
def execClamp (value : Nat) (s : State) : Res := s.onDev (fun d => d.tapGoes .clamp value)

/-- HIGHZ (R452). -/
def execHighz (value : Nat) (s : State) : Res := s.onDev (fun d => d.tapGoes .highz value)

/-- ACCOUNTING_WINDOW (R15). The items asked for in the window, those of class A and the rest, each in the order of their requests. -/
def execAccountingWindow (first rest : List XItem) (s : State) : Res := s.onDev (fun d => d.windowEnds (first ++ rest))

/-- RX_LOCK_ACQUIRED (R201). -/
def execRxLockAcquired (n : Fin 8) (s : State) : Res := s.onDev (fun d => d.ev (pgLink n) Reg.LINK.RX_LOCK)

/-- RX_LOCK_LOST (R201). -/
def execRxLockLost (n : Fin 8) (s : State) : Res := s.onDev (fun d => d.clr (pgLink n) Reg.LINK.RX_LOCK)

/-- STEWARD_RUNNING (R407). -/
def execStewardRunning (i : Fin 12) (s : State) : Res := s.onDev (fun d => d.stewardRuns i)

/-- PAGE_VIOLATION_READ (R366). The reader may also own the page: then the read returns its register. -/
def execPageViolationRead (a : Accessor) (page off : Nat) (s : State) : Res := .next (s.read a page off)

/-- KEEP_READY (R400). -/
def execKeepReady (identityOk : Bool) (s : State) : Res := s.onDev (fun d => d.keepReady identityOk)

/-- START_UP_STEP_COMPLETED (R408). -/
def execStartUpStepCompleted (x : StartStep) (s : State) : Res := s.onAll (fun d => d.startUp x)

/-- TRST_N_ASSERT (R452).
(PRESUMED, log entry 39.) -/
def execTrstNAssert (s : State) : Res := s.onDev (fun d => d.tapReset)

/-- VECTOR_UNMASK (R294).
(DESIGN CHOICE, log entry 29.) -/
def execVectorUnmask (e : Fin 2) (f : Fin 64) (v : Fin 2048) (s : State) : Res := s.onDev (fun d => d.unmask (funcOf e f) v)

end Sys2Proof.Machine
end

