-- ==== Sys2Proof/Machine/Dispatch.lean ====
section
/-! DEFINITION. One arm per command: the meaning it calls. -/

namespace Sys2Proof.Machine

def exec (i : Instr) (s : State) : Host.Outcome State Fault Refusal :=
  match i with
  | .chainPush c w err => Sys2Proof.Machine.execChainPush c w err s
  | .chainPop c => Sys2Proof.Machine.execChainPop c s
  | .creditReturn c => Sys2Proof.Machine.execCreditReturn c s
  | .wordReplay h err => Sys2Proof.Machine.execWordReplay h err s
  | .gateFifoWrite g w err => Sys2Proof.Machine.execGateFifoWrite g w err s
  | .gateFifoPop g => Sys2Proof.Machine.execGateFifoPop g s
  | .flush a c => Sys2Proof.Machine.execFlush a c s
  | .quiesceReq a page => Sys2Proof.Machine.execQuiesceReq a page s
  | .blockQuiesced page => Sys2Proof.Machine.execBlockQuiesced page s
  | .modeChange a page mode => Sys2Proof.Machine.execModeChange a page mode s
  | .blockEnable a page enable => Sys2Proof.Machine.execBlockEnable a page enable s
  | .nowLoRead a => Sys2Proof.Machine.execNowLoRead a s
  | .supplySettled => Sys2Proof.Machine.execSupplySettled s
  | .packerPlace n => Sys2Proof.Machine.execPackerPlace n s
  | .sheetSeal n => Sys2Proof.Machine.execSheetSeal n s
  | .postambleEnd n => Sys2Proof.Machine.execPostambleEnd n s
  | .writeFrame n lane phase => Sys2Proof.Machine.execWriteFrame n lane phase s
  | .headTempStale n => Sys2Proof.Machine.execHeadTempStale n s
  | .waveBandWrite a n k wcur amp dur pre => Sys2Proof.Machine.execWaveBandWrite a n k wcur amp dur pre s
  | .shockAssert n => Sys2Proof.Machine.execShockAssert n s
  | .shockNegate n => Sys2Proof.Machine.execShockNegate n s
  | .writeRestore n => Sys2Proof.Machine.execWriteRestore n s
  | .verdict n seg found headerOk idOk res data => Sys2Proof.Machine.execVerdict n seg found headerOk idOk res data s
  | .closingDwellEnd n => Sys2Proof.Machine.execClosingDwellEnd n s
  | .verifyDecodeStart n sheet gen => Sys2Proof.Machine.execVerifyDecodeStart n sheet gen s
  | .verifyDecodeDone n => Sys2Proof.Machine.execVerifyDecodeDone n s
  | .deadMapClear a n mask => Sys2Proof.Machine.execDeadMapClear a n mask s
  | .servoFrame n readers cBursts dBursts => Sys2Proof.Machine.execServoFrame n readers cBursts dBursts s
  | .servoLost n => Sys2Proof.Machine.execServoLost n s
  | .servoReacquired n => Sys2Proof.Machine.execServoReacquired n s
  | .reelCycle n => Sys2Proof.Machine.execReelCycle n s
  | .tensionFault n => Sys2Proof.Machine.execTensionFault n s
  | .tensionEstablished n => Sys2Proof.Machine.execTensionEstablished n s
  | .shiftComplete n => Sys2Proof.Machine.execShiftComplete n s
  | .dwellEnd n => Sys2Proof.Machine.execDwellEnd n s
  | .cogReqWrite a n cog => Sys2Proof.Machine.execCogReqWrite a n cog s
  | .readResume n => Sys2Proof.Machine.execReadResume n s
  | .tapeStopped n => Sys2Proof.Machine.execTapeStopped n s
  | .parkComplete n => Sys2Proof.Machine.execParkComplete n s
  | .runUpStart n => Sys2Proof.Machine.execRunUpStart n s
  | .runUpComplete n => Sys2Proof.Machine.execRunUpComplete n s
  | .locateComplete n => Sys2Proof.Machine.execLocateComplete n s
  | .env n tapeTemp headTemp rh => Sys2Proof.Machine.execEnv n tapeTemp headTemp rh s
  | .envTimeout n => Sys2Proof.Machine.execEnvTimeout n s
  | .envHoldEnd n => Sys2Proof.Machine.execEnvHoldEnd n s
  | .echoLost n => Sys2Proof.Machine.execEchoLost n s
  | .linkSilent n => Sys2Proof.Machine.execLinkSilent n s
  | .motionStat n supply takeup tension hall fault => Sys2Proof.Machine.execMotionStat n supply takeup tension hall fault s
  | .mechStat n state fault coarse => Sys2Proof.Machine.execMechStat n state fault coarse s
  | .cmRsp n tag status data => Sys2Proof.Machine.execCmRsp n tag status data s
  | .ack n type seq status => Sys2Proof.Machine.execAck n type seq status s
  | .badFrame n => Sys2Proof.Machine.execBadFrame n s
  | .cmReqTimeout n tag => Sys2Proof.Machine.execCmReqTimeout n tag s
  | .calibrationTick n m => Sys2Proof.Machine.execCalibrationTick n m s
  | .segmentDue n lane amp late early => Sys2Proof.Machine.execSegmentDue n lane amp late early s
  | .segmentArrived n lane dist hdr tone samples => Sys2Proof.Machine.execSegmentArrived n lane dist hdr tone samples s
  | .tileDecodeDone n tile bits iters llr => Sys2Proof.Machine.execTileDecodeDone n tile bits iters llr s
  | .lowTone n lane => Sys2Proof.Machine.execLowTone n lane s
  | .hunt n lane => Sys2Proof.Machine.execHunt n lane s
  | .spokeSyncLost n => Sys2Proof.Machine.execSpokeSyncLost n s
  | .sheetPassed n sheet gen kind => Sys2Proof.Machine.execSheetPassed n sheet gen kind s
  | .secondDecode n sheet => Sys2Proof.Machine.execSecondDecode n sheet s
  | .c2DecodeDone n => Sys2Proof.Machine.execC2DecodeDone n s
  | .replayStart n tile => Sys2Proof.Machine.execReplayStart n tile s
  | .replayDone n res bits hdr => Sys2Proof.Machine.execReplayDone n res bits hdr s
  | .ladderDecodeDone n => Sys2Proof.Machine.execLadderDecodeDone n s
  | .c3RebuildDone n => Sys2Proof.Machine.execC3RebuildDone n s
  | .ladderStepHandover a n => Sys2Proof.Machine.execLadderStepHandover a n s
  | .ladderStepRung a n k => Sys2Proof.Machine.execLadderStepRung a n k s
  | .ladderStepRaw a n => Sys2Proof.Machine.execLadderStepRaw a n s
  | .ladderStepUnreadable a n => Sys2Proof.Machine.execLadderStepUnreadable a n s
  | .hostWaitExpiry n => Sys2Proof.Machine.execHostWaitExpiry n s
  | .lostObjLoRead a n => Sys2Proof.Machine.execLostObjLoRead a n s
  | .compressStart st => Sys2Proof.Machine.execCompressStart st s
  | .fingerprintStep st => Sys2Proof.Machine.execFingerprintStep st s
  | .blockDispatch e => Sys2Proof.Machine.execBlockDispatch e s
  | .blockCoded e body => Sys2Proof.Machine.execBlockCoded e body s
  | .compBufferRetry e => Sys2Proof.Machine.execCompBufferRetry e s
  | .decompDispatch e => Sys2Proof.Machine.execDecompDispatch e s
  | .decompResume e => Sys2Proof.Machine.execDecompResume e s
  | .farReferenceResume e => Sys2Proof.Machine.execFarReferenceResume e s
  | .decompBlockDone e => Sys2Proof.Machine.execDecompBlockDone e s
  | .frameEncrypt c => Sys2Proof.Machine.execFrameEncrypt c s
  | .frameDecrypt c => Sys2Proof.Machine.execFrameDecrypt c s
  | .memoryRead reader word reached flips => Sys2Proof.Machine.execMemoryRead reader word reached flips s
  | .memoryWrite word beats => Sys2Proof.Machine.execMemoryWrite word beats s
  | .pageFillDone page => Sys2Proof.Machine.execPageFillDone page s
  | .vmClr a => Sys2Proof.Machine.execVmClr a s
  | .vmClrDone => Sys2Proof.Machine.execVmClrDone s
  | .injArm a k pattern lane => Sys2Proof.Machine.execInjArm a k pattern lane s
  | .allocation owner size => Sys2Proof.Machine.execAllocation owner size s
  | .increment h => Sys2Proof.Machine.execIncrement h s
  | .decrement h => Sys2Proof.Machine.execDecrement h s
  | .apply a => Sys2Proof.Machine.execApply a s
  | .poolConfigDone => Sys2Proof.Machine.execPoolConfigDone s
  | .nobufWaitExpiry n => Sys2Proof.Machine.execNobufWaitExpiry n s
  | .perstAssert e => Sys2Proof.Machine.execPerstAssert e s
  | .perstRelease e => Sys2Proof.Machine.execPerstRelease e s
  | .linkUp e width speed => Sys2Proof.Machine.execLinkUp e width speed s
  | .linkDown e => Sys2Proof.Machine.execLinkDown e s
  | .configurationRequest e f => Sys2Proof.Machine.execConfigurationRequest e f s
  | .functionLevelReset e f => Sys2Proof.Machine.execFunctionLevelReset e f s
  | .busMasterEnable e f => Sys2Proof.Machine.execBusMasterEnable e f s
  | .vfEnable e => Sys2Proof.Machine.execVfEnable e s
  | .completionTimeout k x => Sys2Proof.Machine.execCompletionTimeout k x s
  | .errorCompletion k x c => Sys2Proof.Machine.execErrorCompletion k x c s
  | .ringEnable a k cq size => Sys2Proof.Machine.execRingEnable a k cq size s
  | .ringDisable a k cq => Sys2Proof.Machine.execRingDisable a k cq s
  | .sqTailDoorbell e f q v => Sys2Proof.Machine.execSqTailDoorbell e f q v s
  | .cqHeadDoorbell e f q v => Sys2Proof.Machine.execCqHeadDoorbell e f q v s
  | .sqCreditWrite a k credit => Sys2Proof.Machine.execSqCreditWrite a k credit s
  | .fetchTurn q => Sys2Proof.Machine.execFetchTurn q s
  | .fetchComplete q bad => Sys2Proof.Machine.execFetchComplete q bad s
  | .aggTimerExpiry q => Sys2Proof.Machine.execAggTimerExpiry q s
  | .heartbeat a e v => Sys2Proof.Machine.execHeartbeat a e v s
  | .hbWindowWrite a e window => Sys2Proof.Machine.execHbWindowWrite a e window s
  | .heartbeatMiss e => Sys2Proof.Machine.execHeartbeatMiss e s
  | .holdUnloadTimeout n => Sys2Proof.Machine.execHoldUnloadTimeout n s
  | .bar0BadAccess a isRead => Sys2Proof.Machine.execBar0BadAccess a isRead s
  | .registerWrite a page off value be => Sys2Proof.Machine.execRegisterWrite a page off value be s
  | .domainFenceLift a lo hi => Sys2Proof.Machine.execDomainFenceLift a lo hi s
  | .nop h => Sys2Proof.Machine.execNop h s
  | .write h more waitCommit anchorReq data => Sys2Proof.Machine.execWrite h more waitCommit anchorReq data s
  | .writeAccepted n => Sys2Proof.Machine.execWriteAccepted n s
  | .writeMark h waitCommit count => Sys2Proof.Machine.execWriteMark h waitCommit count s
  | .sync h => Sys2Proof.Machine.execSync h s
  | .read h more => Sys2Proof.Machine.execRead h more s
  | .locate h object part toEod hint => Sys2Proof.Machine.execLocate h object part toEod hint s
  | .space h count unit => Sys2Proof.Machine.execSpace h count unit s
  | .readPosition h => Sys2Proof.Machine.execReadPosition h s
  | .tapeStatus h => Sys2Proof.Machine.execTapeStatus h s
  | .closeSession h => Sys2Proof.Machine.execCloseSession h s
  | .format h count wraps => Sys2Proof.Machine.execFormat h count wraps s
  | .unload h => Sys2Proof.Machine.execUnload h s
  | .cancel h => Sys2Proof.Machine.execCancel h s
  | .streamOpen h params => Sys2Proof.Machine.execStreamOpen h params s
  | .streamSet h params => Sys2Proof.Machine.execStreamSet h params s
  | .streamClose h => Sys2Proof.Machine.execStreamClose h s
  | .streamQuery h => Sys2Proof.Machine.execStreamQuery h s
  | .sheetWrite h content => Sys2Proof.Machine.execSheetWrite h content s
  | .sheetRead h source sheet mapAddr => Sys2Proof.Machine.execSheetRead h source sheet mapAddr s
  | .rawRelease h => Sys2Proof.Machine.execRawRelease h s
  | .bufAlloc h size => Sys2Proof.Machine.execBufAlloc h size s
  | .bufRef h handle => Sys2Proof.Machine.execBufRef h handle s
  | .bufRelease h handle => Sys2Proof.Machine.execBufRelease h handle s
  | .bufLoad h handle offset data => Sys2Proof.Machine.execBufLoad h handle offset data s
  | .bufStore h handle offset => Sys2Proof.Machine.execBufStore h handle offset s
  | .cmRead h offset => Sys2Proof.Machine.execCmRead h offset s
  | .cmWrite h offset data => Sys2Proof.Machine.execCmWrite h offset data s
  | .takeover h => Sys2Proof.Machine.execTakeover h s
  | .stageSet a dom count => Sys2Proof.Machine.execStageSet a dom count s
  | .discard a => Sys2Proof.Machine.execDiscard a s
  | .commit a => Sys2Proof.Machine.execCommit a s
  | .getVersion => Sys2Proof.Machine.execGetVersion s
  | .getCapabilities => Sys2Proof.Machine.execGetCapabilities s
  | .negotiateAlgorithms => Sys2Proof.Machine.execNegotiateAlgorithms s
  | .getDigests => Sys2Proof.Machine.execGetDigests s
  | .getCertificate slot off len => Sys2Proof.Machine.execGetCertificate slot off len s
  | .challenge slot nonce => Sys2Proof.Machine.execChallenge slot nonce s
  | .getMeasurements index signed nonce => Sys2Proof.Machine.execGetMeasurements index signed nonce s
  | .spdmUnsupportedRequest code => Sys2Proof.Machine.execSpdmUnsupportedRequest code s
  | .pldmFirmwareUpdate image => Sys2Proof.Machine.execPldmFirmwareUpdate image s
  | .powerCapEffecter v => Sys2Proof.Machine.execPowerCapEffecter v s
  | .numericSensorRead k => Sys2Proof.Machine.execNumericSensorRead k s
  | .updateStart a => Sys2Proof.Machine.execUpdateStart a s
  | .updData a v => Sys2Proof.Machine.execUpdData a v s
  | .updateEnd a => Sys2Proof.Machine.execUpdateEnd a s
  | .updateVerifyDone flashOk => Sys2Proof.Machine.execUpdateVerifyDone flashOk s
  | .updateRelease a => Sys2Proof.Machine.execUpdateRelease a s
  | .svnCommit a => Sys2Proof.Machine.execSvnCommit a s
  | .svnCommitDone => Sys2Proof.Machine.execSvnCommitDone s
  | .kekGo a => Sys2Proof.Machine.execKekGo a s
  | .kekLoadDone => Sys2Proof.Machine.execKekLoadDone s
  | .keyGo a => Sys2Proof.Machine.execKeyGo a s
  | .keyLoadDone => Sys2Proof.Machine.execKeyLoadDone s
  | .keyClear a => Sys2Proof.Machine.execKeyClear a s
  | .kekClear a => Sys2Proof.Machine.execKekClear a s
  | .ivCountLoRead a => Sys2Proof.Machine.execIvCountLoRead a s
  | .seqLoRead a => Sys2Proof.Machine.execSeqLoRead a s
  | .tpwLoRead a n => Sys2Proof.Machine.execTpwLoRead a n s
  | .tamper k present => Sys2Proof.Machine.execTamper k present s
  | .zeroiseAll a => Sys2Proof.Machine.execZeroiseAll a s
  | .thermalSample readings => Sys2Proof.Machine.execThermalSample readings s
  | .rateEvaluation => Sys2Proof.Machine.execRateEvaluation s
  | .tripComparator site => Sys2Proof.Machine.execTripComparator site s
  | .tripRestart => Sys2Proof.Machine.execTripRestart s
  | .dramTempRead k reading => Sys2Proof.Machine.execDramTempRead k reading s
  | .overLimit power => Sys2Proof.Machine.execOverLimit power s
  | .p3v3StbyGood mv mgmtAddr => Sys2Proof.Machine.execP3v3StbyGood mv mgmtAddr s
  | .p12vGood mv => Sys2Proof.Machine.execP12vGood mv s
  | .brownOut => Sys2Proof.Machine.execBrownOut s
  | .railFault r => Sys2Proof.Machine.execRailFault r s
  | .workUnitDamaged x => Sys2Proof.Machine.execWorkUnitDamaged x s
  | .errForce a page mask => Sys2Proof.Machine.execErrForce a page mask s
  | .moduleReset a => Sys2Proof.Machine.execModuleReset a s
  | .keepReset a => Sys2Proof.Machine.execKeepReset a s
  | .spokeReset a target => Sys2Proof.Machine.execSpokeReset a target s
  | .spokeFenceSet a mask => Sys2Proof.Machine.execSpokeFenceSet a mask s
  | .spokeFenceLift a mask => Sys2Proof.Machine.execSpokeFenceLift a mask s
  | .readmit a => Sys2Proof.Machine.execReadmit a s
  | .watchdogExpiry k => Sys2Proof.Machine.execWatchdogExpiry k s
  | .revive a k => Sys2Proof.Machine.execRevive a k s
  | .transportAbsent n => Sys2Proof.Machine.execTransportAbsent n s
  | .transportPresent n => Sys2Proof.Machine.execTransportPresent n s
  | .switchGo a => Sys2Proof.Machine.execSwitchGo a s
  | .stewardPause k => Sys2Proof.Machine.execStewardPause k s
  | .switchPauseTimeout => Sys2Proof.Machine.execSwitchPauseTimeout s
  | .switchRevert => Sys2Proof.Machine.execSwitchRevert s
  | .bypass value => Sys2Proof.Machine.execBypass value s
  | .idcode value => Sys2Proof.Machine.execIdcode value s
  | .samplePreload value => Sys2Proof.Machine.execSamplePreload value s
  | .extest value => Sys2Proof.Machine.execExtest value s
  | .clamp value => Sys2Proof.Machine.execClamp value s
  | .highz value => Sys2Proof.Machine.execHighz value s
  | .accountingWindow first rest => Sys2Proof.Machine.execAccountingWindow first rest s
  | .rxLockAcquired n => Sys2Proof.Machine.execRxLockAcquired n s
  | .rxLockLost n => Sys2Proof.Machine.execRxLockLost n s
  | .stewardRunning k => Sys2Proof.Machine.execStewardRunning k s
  | .pageViolationRead a page off => Sys2Proof.Machine.execPageViolationRead a page off s
  | .keepReady identityOk => Sys2Proof.Machine.execKeepReady identityOk s
  | .startUpStepCompleted x => Sys2Proof.Machine.execStartUpStepCompleted x s
  | .trstNAssert => Sys2Proof.Machine.execTrstNAssert s
  | .vectorUnmask e f v => Sys2Proof.Machine.execVectorUnmask e f v s

end Sys2Proof.Machine
end

