-- ==== Sys2Proof/Safety.lean ====
section
/-! DEFINITION. What a sound state is, in the terms that claims use: every chain's credits add up (R36), every gate FIFO holds what
its pointers say (R39, R40), and what is held in sparse maps is in its one canonical form. -/

namespace Sys2Proof.Machine

/-- The canonical form of the chest's bytes: addresses strictly rising, no entry that reads as an unlisted byte. -/
def Memory.wf (m : List Host.Cell) : Bool := mwf (fun _ => 0) m

/-- A chain's credits, words and returning credits make up the grant in force, which no more than the stages hold (R36, R37). -/
def Chain.sound (k : Nat) (c : Chain) : Bool :=
  c.depth == Config.chainDepth k && decide (c.credits + c.words.length + c.transit = c.grant) && decide (c.grant ≤ c.depth) &&
  decide (c.grantReg ≤ c.depth)

/-- Words from pointer `x` to pointer `y`, which count modulo 64. -/
def behind (x y : Nat) : Nat := (y + 64 - x) % 64

/-- A gate FIFO's pointers lie in order: what the clocked side sees never lets it write a full FIFO or pop an empty one (R40). A
word in the sender's latch has its place. -/
def Gate.sound (clockedWrites : Bool) (g : Gate) : Bool :=
  decide (g.wptr < 64) && decide (g.rptr < 64) && decide (g.seen.1 < 64) && decide (g.seen.2 < 64) &&
  decide (behind g.rptr g.wptr = g.words.length) && decide (g.words.length ≤ 32) && (g.latch.isNone || g.held.isNone) &&
  (if clockedWrites then
    decide (behind g.rptr g.wptr ≤ behind g.seen.2 g.wptr) && decide (behind g.seen.2 g.wptr ≤ behind g.seen.1 g.wptr) &&
    decide (behind g.seen.1 g.wptr ≤ 32) && (g.latch.isNone || decide (behind g.seen.1 g.wptr < 32))
  else
    decide (behind g.rptr g.seen.1 ≤ behind g.rptr g.seen.2) && decide (behind g.rptr g.seen.2 ≤ behind g.rptr g.wptr) &&
    g.held.isNone && (g.latch.isNone || decide (g.words.length < 32)))

/-- The invariant of what crosses between the blocks. -/
def State.hopsSound (s : State) : Prop :=
  mwf chainReset s.chains = true ∧ mwf (fun _ => ({} : Gate)) s.gates = true ∧
  (∀ k, (mget chainReset s.chains k).sound k = true) ∧ (∀ k, (mget (fun _ => ({} : Gate)) s.gates k).sound (gateClocked k) = true)

/-- Command `c` completes in state `s`, and the state it leads to satisfies `P`. -/
def Completes (c : Instr) (s : State) (P : State → Prop) : Prop := ∃ t, exec c s = .next t ∧ P t

/-- Command `c` completes in state `s`: the device that it leaves itself satisfies `P`, and then comes what follows of itself on spoke
`n`, or everywhere. -/
def Leads (c : Instr) (s : State) (n : Nat) (P : Dev → Prop) : Prop := ∃ d : Dev, exec c s = .next { s with dev := d.follow n } ∧ P d
def LeadsAll (c : Instr) (s : State) (P : Dev → Prop) : Prop := ∃ d : Dev, exec c s = .next { s with dev := d.followAll } ∧ P d

/-- A latch-making read by `a` of the register at `off` of a page: it is sent as it stands, `v` is latched for `a` under `k`, nothing for any other
reader, and nothing else has changed. -/
def LatchedFor (a : Accessor) (pg : PageId) (off k v : Nat) (s t : State) : Prop :=
  t.dev.out = .readData a.num (4096 * pg + off) (s.readReg a.num pg off) :: s.dev.out ∧
  t.dev.latched k a.num = v ∧ (∀ j b, b ≠ a.num → t.dev.latched j b = s.dev.latched j b) ∧
  { t with dev := { t.dev with out := s.dev.out, latches := s.dev.latches } } = s

/-- The page of BAR0 that a command writes, and through whom; none for a command that is no write of a register. -/
def barWrite : Instr → Option (Accessor × PageId)
  | .flush a c => some (a, consumerPage c)
  | .quiesceReq a pg => some (a, pg)
  | .modeChange a pg _ => some (a, pg)
  | .blockEnable a pg _ => some (a, pg)
  | .waveBandWrite a n .. => some (a, pgWriter n)
  | .deadMapClear a n _ => some (a, pgWriter n)
  | .cogReqWrite a n _ => some (a, pgDr n)
  | .ladderStepHandover a n => some (a, pgSh n)
  | .ladderStepRung a n _ => some (a, pgSh n)
  | .ladderStepRaw a n => some (a, pgSh n)
  | .ladderStepUnreadable a n => some (a, pgSh n)
  | .vmClr a => some (a, pgVmap)
  | .injArm a k .. => some (a, pgMemctl k)
  | .apply a => some (a, pgPool)
  | .ringEnable a i .. => some (a, pgRings (512 * i))
  | .ringDisable a i _ => some (a, pgRings (512 * i))
  | .sqCreditWrite a i _ => some (a, pgRings (512 * i))
  | .heartbeat a e _ => some (a, pgPcie e)
  | .hbWindowWrite a e _ => some (a, pgPcie e)
  | .registerWrite a pg .. => some (a, pg)
  | .domainFenceLift a .. => some (a, pgAlarm)
  | .stageSet a .. => some (a, pgProtect)
  | .discard a => some (a, pgProtect)
  | .commit a => some (a, pgProtect)
  | .updateStart a => some (a, pgBoot)
  | .updData a _ => some (a, pgBoot)
  | .updateEnd a => some (a, pgBoot)
  | .updateRelease a => some (a, pgBoot)
  | .svnCommit a => some (a, pgBoot)
  | .kekGo a => some (a, pgKeystore)
  | .keyGo a => some (a, pgKeystore)
  | .keyClear a => some (a, pgKeystore)
  | .kekClear a => some (a, pgKeystore)
  | .zeroiseAll a => some (a, pgAlarm)
  | .errForce a pg _ => some (a, pg)
  | .moduleReset a => some (a, pgMgmt)
  | .keepReset a => some (a, pgMgmt)
  | .spokeReset a _ => some (a, pgMgmt)
  | .spokeFenceSet a _ => some (a, pgMgmt)
  | .spokeFenceLift a _ => some (a, pgMgmt)
  | .readmit a => some (a, pgMgmt)
  | .revive a i => some (a, pgMgmtI (i / 3))
  | .switchGo a => some (a, pgMgmt)
  | _ => none

/-- The commands that can change what crosses between the blocks: those of chains and gate FIFOs, register writes (CH_CFG, CH_STAT,
CH_EVT, GF_EVT), resets of a region, a readmission, a loss of the rails, and a damaged unit whose block retires (R45). -/
def touchesHops : Instr → Bool
  | .chainPush .. | .chainPop .. | .creditReturn .. | .wordReplay .. | .gateFifoWrite .. | .gateFifoPop .. | .flush .. => true
  | .registerWrite .. | .workUnitDamaged .. | .moduleReset .. | .spokeReset .. | .spokeFenceLift .. | .readmit .. => true
  | .p3v3StbyGood .. | .thermalSample .. | .tripComparator .. | .brownOut | .railFault .. => true
  | _ => false

/-- The host's command that a command of the block is: its header, what it asks for, and its data. -/
def ringCommand : Instr → Option (CmdHdr × Op × List Byte)
  | .nop h => some (h, .nop, [])
  | .write h more wait req data => some (h, .write more wait req, data)
  | .writeMark h wait count => some (h, .writeMark wait count, [])
  | .sync h => some (h, .sync, [])
  | .read h more => some (h, .read more, [])
  | .locate h o p eod hint => some (h, .locate o p eod hint, [])
  | .space h count unit => some (h, .space count unit, [])
  | .readPosition h => some (h, .readPosition, [])
  | .tapeStatus h => some (h, .tapeStatus, [])
  | .closeSession h => some (h, .closeSession, [])
  | .format h count wraps => some (h, .format count wraps, [])
  | .unload h => some (h, .unload, [])
  | .cancel h => some (h, .cancel, [])
  | .streamOpen h p => some (h, .streamOpen p, [])
  | .streamSet h p => some (h, .streamSet p, [])
  | .streamClose h => some (h, .streamClose, [])
  | .streamQuery h => some (h, .streamQuery, [])
  | .sheetWrite h content => some (h, .sheetWrite content, [])
  | .sheetRead h src sheet m => some (h, .sheetRead src sheet m, [])
  | .rawRelease h => some (h, .rawRelease, [])
  | .bufAlloc h size => some (h, .bufAlloc size, [])
  | .bufRef h x => some (h, .bufRef x, [])
  | .bufRelease h x => some (h, .bufRelease x, [])
  | .bufLoad h x off data => some (h, .bufLoad x off data, [])
  | .bufStore h x off => some (h, .bufStore x off, [])
  | .cmRead h off => some (h, .cmRead off, [])
  | .cmWrite h off data => some (h, .cmWrite off data, [])
  | .takeover h => some (h, .takeover, [])
  | _ => none

/-- The device with one more command fetched from ring `q`. -/
def Dev.fetched (d : Dev) (q : Nat) : Dev := { d with jobSeq := d.jobSeq + 1, live := d.live ++ [(d.jobSeq + 1, q)] }

/-- The device as a command that begins finds it: its buffer list has been read ahead (R463), and a free handle that it names has done
what UB-2 and UB-8 do. -/
def Dev.ready (d : Dev) (j : Job) : Dev := (if j.op.carries then d.listRead j else d).strayUse j

/-- A command begins as soon as it is fetched and passes the seven checks of R310. -/
abbrev Dev.passes (d : Dev) (j : Job) : Prop :=
  d.startsNow j = true ∧ d.check j = .ok ∧ (d.ready j).check7 j.hdr.target j = none

/-- What follows once a command of target `t` has begun. -/
def Dev.went (d : Dev) (t : Nat) : Dev := if t < 8 then d.goOn t else d.serve

/-- The device with the command in progress on spoke `n` set. -/
def Dev.inTurn (d : Dev) (n : Nat) (j : Job) : Dev := d.modSp n (fun s => { s with cur := some j, curStep := 0 })

/-- The device at the moment a command that waited for commitment begins (R309). -/
def Dev.committed (d : Dev) (n : Nat) (j : Job) : Dev :=
  ((d.inTurn n j).modSp n (fun s => { s with curStep := 1 })).modSp n (fun s => { s with curStep := 0 })

/-- Nothing stands before a command of R309 on spoke `n`: no object uncommitted, no close, no run, no failure before it. -/
abbrev Dev.nothingBefore (d : Dev) (n : Nat) (j : Job) : Prop :=
  (d.sp n).sess.closing = none ∧ (d.sp n).wr.running = false ∧ (d.sp n).wr.uncommitted = [] ∧ d.hostPacked n = false ∧ (d.sp n).failSeq < j.seq

end Sys2Proof.Machine
end

