-- ==== Sys2Proof/Certificates/Slice0/Obligations.lean ====
section
/-! DEFINITION. The statements for the provers. Each says in its docstring which rules of the manual it is about; what a command's
follow-on does of itself is named by the model's own functions (`Dev.follow`, `Dev.followAll`, `Dev.released'`). -/

open Sys2Proof Sys2Proof.Machine

/-! ### The block as a whole -/

/-- A step runs the command at the front of the queue, with the rest left (what the model calls a step).
Of the model itself: log entry 1. -/
def Obligations.StepRunsTheFrontCommand : Prop :=
  ∀ (c : Instr) (rest : List Instr) (s : State), s.pending = c :: rest → step s = exec c { s with pending := rest }

/-- With no command waiting a step is one 20 ns period of the clocks (log entry 2, DESIGN CHOICE). Where no pop of a gate FIFO waits, the
timebase counts once the crystal is stable, every gate FIFO's clocked side has an edge, and nothing else changes. Where the pop of one gate
FIFO waits, and its reader sees a word in sequence after the edge, the word is popped as well (R42), and nothing more happens. -/
def Obligations.EmptyQueueIsOneClockPeriod : Prop :=
  ∀ s : State, s.pending = [] → mwf (fun _ => ({} : Gate)) s.gates = true → ∀ d : Dev,
    d = { s.dev with now := if s.dev.crystal then (s.dev.now + 20) % 2 ^ 64 else s.dev.now } →
    ((∀ g : GateId, (s.gate g).popWaits = false) → ∃ t, step s = .next t ∧ t.pending = [] ∧ t.chains = s.chains ∧ t.dev = d ∧
      ∀ g : GateId, t.gate g = (s.gate g).edge g.clockedWrites) ∧
    (∀ g : GateId, (s.gate g).popWaits = true → (∀ g' : GateId, g' ≠ g → (s.gate g').popWaits = false) →
      ((s.gate g).edge g.clockedWrites).sees g.clockedWrites = true → ((s.gate g).edge g.clockedWrites).outOfSequence = false →
      ∃ t, step s = .next t ∧ t.pending = [] ∧ t.chains = s.chains ∧ t.dev = d ∧
        t.gate g = ((s.gate g).edge g.clockedWrites).get ∧
        ∀ g' : GateId, g' ≠ g → t.gate g' = (s.gate g').edge g'.clockedWrites)

/-- What no command does. It never stops the block, save that a push or a self-timed write without a credit does (UB-1) and a doorbell
value out of range does (UB-9), as R417 has it: every other command answers a next state, whatever the state. It never changes the queue
of those that wait behind it. Only the commands that `touchesHops` lists change a chain or a gate FIFO. -/
def Obligations.FramesOfQueueAndHops : Prop :=
  (∀ (c : Instr) (s : State), (∃ t, exec c s = .next t) ∨
    (exec c s = .fault .pushWithoutCredit ∧ ((∃ id w err, c = .chainPush id w err ∧ (s.chain id).credits = 0) ∨
      ∃ g w err, c = .gateFifoWrite g w err ∧ g.clockedWrites = false ∧ 32 ≤ (s.gate g).words.length)) ∨
    (exec c s = .fault .doorbellOutOfRange ∧ ∃ e f q v, c = .sqTailDoorbell e f q v ∨ c = .cqHeadDoorbell e f q v)) ∧
  (∀ (c : Instr) (s t : State), exec c s = .next t → t.pending = s.pending) ∧
  (∀ (c : Instr) (s t : State), touchesHops c = false → exec c s = .next t → t.chains = s.chains ∧ t.gates = s.gates)

/-- The credits of every chain and the pointers of every gate FIFO stay sound under every step (R36, R37, R40), that of a clock period
with no command waiting too.
Of the model itself: log entries 9, 13. -/
def Obligations.EveryStepKeepsHopsSound : Prop :=
  ∀ s t : State, s.hopsSound → step s = .next t → t.hopsSound

/-- A write of a register through a function: at a page that is not listed, or that does not answer, it changes nothing; at a listed
page of another domain it is recorded as a PAGE violation and does nothing else (R366, R422, R427). A plain write of an offset that the
page does not define is ignored. What a recorded PAGE violation may change while the policy for pages only counts: fields of the ALARM
page, the error fields of the page's header, and KEEP's count per domain.
Of the model itself: log entry 19. -/
def Obligations.WritesOutsideADomainOnlyRecord : Prop :=
  (∀ (c : Instr) (s : State) (a : Accessor) (pg : PageId), barWrite c = some (a, pg) →
    (∀ off v be, c = .registerWrite a pg off v be → offDefined pg off = true) →
    (s.dev.access a pg = .absent → exec c s = .next s) ∧
    (s.dev.access a pg = .violation → exec c s = .next (s.modDev (fun d => d.pageViolation a pg)))) ∧
  (∀ (s : State) (a : Accessor) (pg off v be : Nat), offDefined pg off = false → exec (.registerWrite a pg off v be) s = .next s) ∧
  (∀ (d : Dev) (a : Accessor) (pg : PageId), d.policyOf vPage = 0 →
    { d.pageViolation a pg with regs := d.regs, keep := d.keep } = d ∧
    (∀ (pg' : PageId) (f : Fld), f.lo < 32 → pg' ≠ pgAlarm → (pg' ≠ pg ∨ f.off < 0x010 ∨ 0x024 ≤ f.off) →
      (d.pageViolation a pg).fget pg' f = d.fget pg' f) ∧
    { (d.pageViolation a pg).keep with domViol := d.keep.domViol } = d.keep)

/-- Who reaches a page (R355, R366, R368, R422, R427): firmware every listed page; a function of domain 0 or 1 every listed page; a
function of a tenant domain only the listed pages whose PAGE entry names its domain, and none while its domain is fenced; in recovery
only KEEP pages answer functions.
Of the model itself: log entry 19. -/
def Obligations.WhoReachesAPage : Prop :=
  ∀ (d : Dev) (a : Accessor) (pg : PageId),
    (pageOf pg = none → d.access a pg = .absent) ∧
    (pageOf pg ≠ none → ∀ i, a = .fw i → d.access a pg = .open) ∧
    (pageOf pg ≠ none → ∀ e f, a = .fn e f →
      (d.fget pgBoot Reg.BOOT.STATE = 2 → pg / 256 ≠ 2 → d.access a pg = .absent) ∧
      (¬ (d.fget pgBoot Reg.BOOT.STATE = 2 ∧ pg / 256 ≠ 2) →
        (d.domainOf a < 2 → d.access a pg = .open) ∧
        (2 ≤ d.domainOf a → (d.access a pg = .open ↔ d.prot kPage pg = d.domainOf a ∧ d.domFenced (d.domainOf a) = false) ∧
          (d.access a pg ≠ .open → d.access a pg = .violation))))

/-! ### Chains and gate FIFOs (chapter 2) -/

/-- Of the cells that ask, the one granted asks, and none that asks lies nearer behind the pointer from which the search begins; while an
item is open its own cell alone is granted (R13, R35). A word pushed by the cell granted, with a credit and with good parity, stands at
the producer's end of the chain, one credit is spent, the item is open until its EOI word, and the next search begins behind the cell
(R31, R35, R36); a cell not granted waits. A chain that drains swallows the word, its credit on its way back, and ends its flush with the
item (R43). Where a pop waits, it goes on with the word (R42). A push without a credit is undefined behaviour UB-1 (R36, R417), and so is
the write of a full gate FIFO by a self-timed producer.
Of the model itself: log entry 13. -/
def Obligations.ChainPushes : Prop :=
  (∀ (x : Chain) (n : Nat) (asks : List Nat) (i : Nat), x.grants n asks = some i →
    (x.itemOpen = true → i = x.holder) ∧
    (x.itemOpen = false → i ∈ asks ∧ i < n ∧ ∀ j ∈ asks, j < n → (i + n - x.next % n) % n ≤ (j + n - x.next % n) % n)) ∧
  (∀ (s : State) (c : ChainId) (cell : Nat) (asks : List Nat) (w : CoreWord), (s.chain c).credits ≠ 0 → (s.chain c).latch = none →
    ((s.chain c).grants (producers c) (cell :: asks) ≠ some cell → ∀ err, exec (.chainPush c ⟨cell, asks, w⟩ err) s = .next s) ∧
    ((s.chain c).grants (producers c) (cell :: asks) = some cell →
      ((s.chain c).drain = false → (s.chain c).popWaits = false →
        exec (.chainPush c ⟨cell, asks, w⟩ 0) s = .next (s.setChain c { s.chain c with
          words := (s.chain c).words ++ [(w, false)], credits := (s.chain c).credits - 1, itemOpen := !w.eoi,
          peak := max (s.chain c).peak ((s.chain c).words.length + 1), next := (cell + 1) % producers c, holder := cell })) ∧
      ((s.chain c).drain = true → (s.chain c).popWaits = false → w.eoi = false →
        exec (.chainPush c ⟨cell, asks, w⟩ 0) s = .next (s.setChain c { s.chain c with
          credits := (s.chain c).credits - 1, transit := (s.chain c).transit + 1, next := (cell + 1) % producers c, holder := cell })) ∧
      ((s.chain c).drain = true → w.eoi = true → ∃ t, exec (.chainPush c ⟨cell, asks, w⟩ 0) s = .next t ∧ (t.chain c).words = [] ∧
        (t.chain c).drain = false ∧ (t.chain c).flushBusy = false ∧ (t.chain c).flushDone = true ∧
        (t.chain c).credits = (s.chain c).grantReg ∧ (t.chain c).transit = 0 ∧ (∀ c', c' ≠ c → t.chain c' = s.chain c')) ∧
      ((s.chain c).drain = false → (s.chain c).popWaits = true →
        exec (.chainPush c ⟨cell, asks, w⟩ 0) s = .next ((s.setChain c { s.chain c with
          words := (s.chain c).words ++ [(w, false)], credits := (s.chain c).credits - 1, itemOpen := !w.eoi,
          peak := max (s.chain c).peak ((s.chain c).words.length + 1), next := (cell + 1) % producers c, holder := cell }).popChain c)))) ∧
  (∀ (s : State) (c : ChainId) (cell : Nat) (asks : List Nat) (w : CoreWord) (err : BitVec 67), (s.chain c).credits = 0 →
    exec (.chainPush c ⟨cell, asks, w⟩ err) s = .fault .pushWithoutCredit) ∧
  (∀ (s : State) (g : GateId) (w : CoreWord) (err : BitVec 67), g.clockedWrites = false → (s.gate g).latch = none →
    (s.gate g).held = none → 32 ≤ (s.gate g).words.length → exec (.gateFifoWrite g w err) s = .fault .pushWithoutCredit)

/-- A flush with no item open gives the producer GRANT credits, from which on it may push, and an empty chain; it completes at once. A flush
while an item is open, whose words the consumer has not begun to pop, discards the words present and drains to the item's end. A flush of
a chain that drains already changes nothing. No other chain and no gate FIFO changes (R36, R37, R43). A sound chain holds at most the
grant in force, and the grant is no more than its stages.
Of the model itself: log entry 13. -/
def Obligations.FlushesAndGrants : Prop :=
  (∀ (s : State) (a : Accessor) (c : ChainId), s.dev.access a (consumerPage c) = .open →
    ((s.chain c).flushBusy = false → (s.chain c).itemOpen = false → ∃ t, exec (.flush a c) s = .next t ∧
      (t.chain c).credits = (s.chain c).grantReg ∧ (t.chain c).grant = (s.chain c).grantReg ∧ (t.chain c).words = [] ∧
      (t.chain c).transit = 0 ∧ (t.chain c).flushDone = true ∧ (∀ c', c' ≠ c → t.chain c' = s.chain c') ∧ t.gates = s.gates) ∧
    ((s.chain c).flushBusy = false → (s.chain c).itemOpen = true → (s.chain c).popped = 0 →
      exec (.flush a c) s = .next (s.setChain c { s.chain c with
        words := [], transit := (s.chain c).transit + (s.chain c).words.length, popped := 0, begun := false,
        flushBusy := true, drain := true, drainSeen := true })) ∧
    ((s.chain c).flushBusy = true → ∃ t, exec (.flush a c) s = .next t ∧ (∀ c', t.chain c' = s.chain c') ∧ t.gates = s.gates ∧ t.dev = s.dev)) ∧
  (∀ (s : State) (c : ChainId), s.hopsSound → (s.chain c).words.length ≤ (s.chain c).grant ∧ (s.chain c).grant ≤ (s.chain c).depth)

/-- A pop that the threshold of R38 allows takes the word nearest the consumer and starts its credit back (R36); one that it does not
allow waits: of an item not begun until the threshold's words or the item's end are there. A credit that arrives back is the producer's
again.
Of the model itself: log entry 15. -/
def Obligations.PopAndCreditReturn : Prop :=
  (∀ (s : State) (c : ChainId) (w : CoreWord) (r : List (CoreWord × Bool)), (s.chain c).words = (w, false) :: r →
    (s.chain c).mayPop = true → w.soi = ((s.chain c).popped == 0) →
    exec (.chainPop c) s = .next (s.setChain c { s.chain c with
      words := r, transit := (s.chain c).transit + 1, popWaits := false, popped := if w.eoi then 0 else (s.chain c).popped + 1,
      begun := !w.eoi })) ∧
  (∀ (s : State) (c : ChainId), (s.chain c).mayPop = false →
    exec (.chainPop c) s = .next (s.setChain c { s.chain c with popWaits := true })) ∧
  (∀ (s : State) (c : ChainId), (s.chain c).words ≠ [] → (s.chain c).begun = true → (s.chain c).mayPop = true) ∧
  (∀ (s : State) (c : ChainId), (s.chain c).begun = false → (itemPresent (s.chain c).words).2 = false →
    (s.chain c).popped + (itemPresent (s.chain c).words).1 < (s.chain c).threshold → (s.chain c).mayPop = false) ∧
  (∀ (s : State) (c : ChainId), (s.chain c).transit ≠ 0 → (s.chain c).closing = false → (s.chain c).popWaits = false →
    exec (.creditReturn c) s = .next (s.setChain c { s.chain c with
      transit := (s.chain c).transit - 1, credits := (s.chain c).credits + 1 }))

/-- A word whose parity fails is kept in the sender's latch and nothing of it is stored; its replay counts in the receiving block's
page, and the word enters when it arrives well; after a fourth copy that fails the word is given up with REPLAY_EXHAUST and the receiving
block's work unit is abandoned as damaged (R33). The same holds of a gate FIFO's write, and of its reader's side, where the word stays in
its entry until a good copy of it is popped (R39).
Of the model itself: log entry 13. -/
def Obligations.ParityReplay : Prop :=
  (∀ (s : State) (c : ChainId) (cell : Nat) (asks : List Nat) (w : CoreWord) (err : BitVec 67), (s.chain c).credits ≠ 0 →
    (s.chain c).latch = none → (s.chain c).grants (producers c) (cell :: asks) = some cell → parityOk (w.wire ^^^ err.toNat) = false →
    exec (.chainPush c ⟨cell, asks, w⟩ err) s = .next (s.setChain c
      { s.chain c with latch := some (w, 1), next := (cell + 1) % producers c, holder := cell })) ∧
  (∀ (s : State) (c : ChainId) (w : CoreWord) (k : Nat), (s.chain c).latch = some (w, k) → (s.chain c).credits ≠ 0 →
    (s.chain c).drain = false → (s.chain c).popWaits = false →
    exec (.wordReplay (.chain c) 0) s = .next ((s.modDev (fun d =>
        (d.bump (consumerPage c) Reg.HEADER.REPLAY_CNT 1).errEvent (consumerPage c) errReplay)).setChain c { s.chain c with
      latch := none, words := (s.chain c).words ++ [(w, false)], credits := (s.chain c).credits - 1, itemOpen := !w.eoi,
      peak := max (s.chain c).peak ((s.chain c).words.length + 1) })) ∧
  (∀ (s : State) (c : ChainId) (w : CoreWord) (k : Nat) (err : BitVec 67), (s.chain c).latch = some (w, k) → 3 ≤ k →
    (s.chain c).credits ≠ 0 → parityOk (w.wire ^^^ err.toNat) = false →
    exec (.wordReplay (.chain c) err) s = .next (((s.modDev (fun d =>
        (d.bump (consumerPage c) Reg.HEADER.REPLAY_CNT 1).errEvent (consumerPage c) errReplay)).setChain c
          { s.chain c with latch := none }).damage (fun d =>
            (d.errEvent (consumerPage c) errReplayExhaust).damaged (consumerUnit c)))) ∧
  (∀ (s : State) (g : GateId) (w : CoreWord) (err : BitVec 67), (s.gate g).latch = none → (s.gate g).held = none →
    (s.gate g).words.length < 32 → (g.clockedWrites = true → (s.gate g).clkView true < 32) → parityOk (w.wire ^^^ err.toNat) = false →
    exec (.gateFifoWrite g w err) s = .next (s.setGate g { s.gate g with latch := some (w, 1) })) ∧
  (∀ (s : State) (g : GateId) (w : CoreWord) (k : Nat), (s.gate g).latch = some (w, k) → (s.gate g).popWaits = false →
    exec (.wordReplay (.gate g) 0) s = .next ((s.modDev (fun d =>
        (d.bump (gatePage g) Reg.HEADER.REPLAY_CNT 1).errEvent (gatePage g) errReplay)).setGate g { s.gate g with
      latch := none, words := (s.gate g).words ++ [w], wptr := ((s.gate g).wptr + 1) % 64 })) ∧
  (∀ (s : State) (g : GateId) (w : CoreWord) (r : List CoreWord) (err : BitVec 67), (s.gate g).words = w :: r → (s.gate g).latch = none →
    parityOk (w.wire ^^^ err.toNat) = false → (s.gate g).tries < 3 →
    ((s.gate g).tries = 0 → (s.gate g).sees g.clockedWrites = true →
      exec (.gateFifoPop ⟨g, err⟩) s = .next (s.setGate g { s.gate g with tries := 1 })) ∧
    ((s.gate g).tries ≠ 0 → exec (.wordReplay (.gate g) err) s = .next ((s.modDev (fun d =>
      (d.bump (gatePage g) Reg.HEADER.REPLAY_CNT 1).errEvent (gatePage g) errReplay)).setGate g
        { s.gate g with tries := (s.gate g).tries + 1 })))

/-- A word written to a gate FIFO with a free entry in the writer's view stands at its end; a clocked writer that sees no free entry
holds its word where it can hold one, and elsewhere, on a sample path, loses it with OVERRUN and the segment in progress (R39 to R41). A
pop takes the oldest word where the reader sees one, and waits where it sees none (R40, R42).
Of the model itself: log entry 2. -/
def Obligations.GateFifos : Prop :=
  (∀ (s : State) (g : GateId) (w : CoreWord), (s.gate g).latch = none → (s.gate g).held = none →
    ((s.gate g).words.length < 32 → (g.clockedWrites = true → (s.gate g).clkView true < 32) → (s.gate g).popWaits = false →
      exec (.gateFifoWrite g w 0) s = .next (s.setGate g { s.gate g with
        words := (s.gate g).words ++ [w], wptr := ((s.gate g).wptr + 1) % 64 })) ∧
    (g.clockedWrites = true → 32 ≤ (s.gate g).clkView true → g.canHold = true → ∀ err,
      exec (.gateFifoWrite g w err) s = .next (s.setGate g { s.gate g with held := some w })) ∧
    (g.clockedWrites = true → 32 ≤ (s.gate g).clkView true → g.canHold = false → ∀ err,
      exec (.gateFifoWrite g w err) s = .next ((s.setGate g { s.gate g with overrun := true }).damage (fun d => d.overrunLane g)))) ∧
  (∀ (s : State) (g : GateId), (s.gate g).tries = 0 →
    (∀ (w : CoreWord) (r : List CoreWord), (s.gate g).words = w :: r → (g.clockedWrites = false → (s.gate g).clkView false ≠ 0) →
      w.soi = !(s.gate g).begun →
      exec (.gateFifoPop ⟨g, 0⟩) s = .next (s.setGate g { s.gate g with
        words := r, rptr := ((s.gate g).rptr + 1) % 64, popWaits := false, begun := !w.eoi, tries := 0 })) ∧
    ((s.gate g).words = [] ∨ (g.clockedWrites = false ∧ (s.gate g).clkView false = 0) → ∀ err,
      exec (.gateFifoPop ⟨g, err⟩) s = .next (s.setGate g { s.gate g with popWaits := true })))

/-! ### Quiescing, modes, service (R22, R23, R429) -/

/-- QUIESCE_REQ is set where the page has it, and the block is quiesced at once where it has neither a work unit in progress nor an item
open (R23, R428); a block asked to quiesce is quiesced once it has nothing to finish, and then what it does next is defined again. Of the
device only registers and the list of blocks under UB-4 change. A change of MODE while the block is quiesced comes into force as
QUIESCE_REQ clears in the same write, and ends QUIESCED; a page whose MODE reads 0 ignores MODE (R22). ENABLE takes a quiesced block out of
service and back; the last serviceable COMP, DECOMP or CRYPT instance keeps its ENABLE; a page without siblings ignores it (R429). A change
while the block is not quiesced is UB-4: it is made, and the block's work units are free values until it quiesces.
Of the model itself: log entries 16, 18. -/
def Obligations.QuiesceModeAndEnable : Prop :=
  (∀ (s : State) (a : Accessor) (pg : PageId) (t : PageTy) (i : Nat), pageOf pg = some (t, i) → s.dev.access a pg = .open →
    capQuiesce pg = true → ∃ u, exec (.quiesceReq a pg) s = .next u ∧ u.dev.fget pg Reg.HEADER.QUIESCE_REQ = 1 ∧
      u.dev.fget pg Reg.HEADER.QUIESCED = (if (s.dev.ev pg Reg.HEADER.QUIESCE_REQ).busy pg t i || s.feeding pg then
        s.dev.fget pg Reg.HEADER.QUIESCED else 1) ∧
      { u with dev := { u.dev with regs := s.dev.regs, ub4 := s.dev.ub4 } } = s) ∧
  (∀ (s : State) (pg : PageId), s.dev.fon pg Reg.HEADER.QUIESCE_REQ = true → s.mayQuiesce pg = true →
    ∃ u, exec (.blockQuiesced pg) s = .next u ∧ u.dev.fget pg Reg.HEADER.QUIESCED = 1 ∧ u.dev.unsettled pg = false ∧
      { u with dev := { u.dev with regs := s.dev.regs, ub4 := s.dev.ub4 } } = s) ∧
  (∀ (s : State) (a : Accessor) (pg : PageId) (t : PageTy) (i : Nat), pageOf pg = some (t, i) → s.dev.access a pg = .open →
    (∀ m : Bool,
      (capMode t = true → s.dev.isQuiet pg = true → exec (.modeChange a pg m) s = .next (s.modDev (fun d =>
        ((d.fput pg Reg.HEADER.BLK_CTRL_MODE m).unquiesce pg).followAll))) ∧
      (capMode t = true → s.dev.isQuiet pg = false → m ≠ s.dev.fon pg Reg.HEADER.BLK_CTRL_MODE →
        exec (.modeChange a pg m) s = .next (s.modDev (fun d =>
          (((d.unsettle pg).fput pg Reg.HEADER.BLK_CTRL_MODE m).unquiesce pg).followAll))) ∧
      (capMode t = false → capQuiesce pg = true → exec (.modeChange a pg m) s = .next (s.modDev (fun d => (d.unquiesce pg).followAll)))) ∧
    (∀ v : Bool,
      (capSiblings t = 0 → exec (.blockEnable a pg v) s = .next (s.modDev (fun d => d.followAll))) ∧
      (capSiblings t ≠ 0 → v ≠ s.dev.fon pg Reg.HEADER.ENABLE → v = false → s.dev.lastInstance pg = true →
        exec (.blockEnable a pg v) s = .next (s.modDev (fun d => d.followAll))) ∧
      (capSiblings t ≠ 0 → v ≠ s.dev.fon pg Reg.HEADER.ENABLE → isTile pg = false → (v = false → s.dev.lastInstance pg = false) →
        exec (.blockEnable a pg v) s = .next (s.modDev (fun d =>
          let e := (if d.isQuiet pg then d else d.unsettle pg).fput pg Reg.HEADER.ENABLE v
          (if v then e.unquiesce pg else e).followAll))))) ∧
  (∀ (d : Dev) (pg : PageId), (d.unquiesce pg).fget pg Reg.HEADER.QUIESCE_REQ = 0 ∧
    (d.unquiesce pg).fget pg Reg.HEADER.MODE_IN_FORCE = d.fget pg Reg.HEADER.BLK_CTRL_MODE ∧
    (d.fon pg Reg.HEADER.RETIRED = false → (d.unquiesce pg).fget pg Reg.HEADER.QUIESCED = 0) ∧
    { d.unquiesce pg with regs := d.regs } = d ∧ (d.unsettle pg).unsettled pg = true)

/-! ### Latch-making reads (R20, R198, R248, R373, R374, R425) -/

/-- A latch-making read through an accessor that reaches the page sends the low register of the pair to it, as it stands, and latches for
that accessor the rest of the value as it stands at that moment: NOW_HI, TPW_HI, LOST_OBJ_HI, IV_COUNT_HI, and SEQ_HI with the whole of
LEDGER. What it latched for any other reader, and every register field, is as before; the chains, the gate FIFOs and the queue too (R425). -/
def Obligations.LatchingReadsLatchForTheReader : Prop :=
  ∀ (s : State) (a : Accessor),
    (s.dev.access a pgTimebase = .open → Completes (.nowLoRead a) s (fun t =>
      LatchedFor a pgTimebase Reg.TIMEBASE.NOW_LO.off latchNow (bitsOf s.dev.now 32 32) s t)) ∧
    (∀ n : Fin 8, s.dev.access a (pgServo n) = .open → Completes (.tpwLoRead a n) s (fun t =>
      LatchedFor a (pgServo n) Reg.SERVO.TPW_LO.off (latchTpw n) (bitsOf (s.dev.sp n).drv.tpw 32 4) s t)) ∧
    (∀ n : Fin 8, s.dev.access a (pgSh n) = .open → Completes (.lostObjLoRead a n) s (fun t =>
      LatchedFor a (pgSh n) Reg.SAMPLEHOLD.LOST_OBJ_LO.off (latchLost n) (bitsOf (s.dev.rd n).lostObj 32 16) s t)) ∧
    (s.dev.access a pgKeystore = .open → Completes (.ivCountLoRead a) s (fun t =>
      LatchedFor a pgKeystore Reg.KEYSTORE.IV_COUNT_LO.off latchIv (bitsOf (s.dev.slot (s.dev.fget pgKeystore Reg.KEYSTORE.SLOT)).ivCount 32 32) s t)) ∧
    (s.dev.access a pgProtect = .open → Completes (.seqLoRead a) s (fun t =>
      LatchedFor a pgProtect Reg.PROTECT.SEQ_LO.off latchSeq (bitsOf s.dev.keep.seq 32 32) s t ∧
      ∀ i < 16, t.dev.latched (latchLedger i) a.num = natLE ((s.dev.keep.ledger.drop (4 * i)).take 4)))

/-! ### The writer (chapters 3, 4, 6) -/

/-- Where packing in hardware may go on, the packer gives the oldest object, once it is ready, its next entry: in the open sheet while that
has room; where it has none, that sheet is closed first, and the entry goes into a new sheet unless the closed one waits for its buffers;
with no sheet open one is opened. A packing step counts in UNITS (R70, R135). An entry stands where the sheet's payload ended, names the
object's stream, is FIRST where the object has no entry yet, and is no longer than what is left of the object (R68). Where packing may
not go on, nothing is placed. The oldest closed sheet is sealed once a C2 bank is free for it and the pool grants its buffers, and for the
first data sheet of a block the accumulators too: it joins the sheets due, its C2 parity counts, and packing may go on; without a bank
it waits, and without a buffer it waits, NOBUFS counts, and packing stops (R91, R93, R135, R272).
Of the model itself: log entry 44. -/
def Obligations.PackingAndSealing : Prop :=
  (∀ (s : State) (n : Fin 8) (o : Obj) (r : List Obj), (s.dev.sp n).wr.objs = o :: r → o.ready = true →
    (s.dev.mayPack n = false → exec (.packerPlace n) s = .next (s.modDev (fun d => d.follow n))) ∧
    (s.dev.mayPack n = true → ∀ d1 : Dev, d1 = s.dev.bump (pgWriter n) Reg.HEADER.UNITS 1 →
      (∀ x : Sheet, (s.dev.sp n).wr.openSheet.bind (s.dev.sp n).wr.sheet? = some x → fits o x = true →
        exec (.packerPlace n) s = .next (s.modDev (fun _ => ((d1.placeEntry n o x).closeRest n).follow n)) ∧
        (entryOf o x).offset = x.payloadEnd ∧ (entryOf o x).stream = o.stream ∧ (entryOf o x).first = !o.begun ∧
        (entryOf o x).length ≤ piecesLen o.pieces) ∧
      (∀ x : Sheet, (s.dev.sp n).wr.openSheet.bind (s.dev.sp n).wr.sheet? = some x → fits o x = false →
        Leads (.packerPlace n) s n (fun d =>
          (((d1.closeOpen n true).sp n).wr.nobuf = true → d = d1.closeOpen n true) ∧
          (((d1.closeOpen n true).sp n).wr.nobuf = false → d = ((d1.closeOpen n true).openAndPlace n o).closeRest n))) ∧
      ((s.dev.sp n).wr.openSheet.bind (s.dev.sp n).wr.sheet? = none →
        exec (.packerPlace n) s = .next (s.modDev (fun _ => ((d1.openAndPlace n o).closeRest n).follow n))))) ∧
  (∀ (s : State) (n : Fin 8) (k : Nat) (r : List Nat) (x : Sheet), (s.dev.sp n).wr.closedQ = k :: r → (s.dev.sp n).wr.sheet? k = some x →
    ((s.dev.sp n).wr.bankFor x = false → exec (.sheetSeal n) s = .next (s.modDev (fun d => d.follow n))) ∧
    ((s.dev.sp n).wr.bankFor x = true → ∀ e : Option Dev,
      e = (if x.kind = 2 then some s.dev else s.dev.takeAccs n (sheetBlock k)).bind (fun e => e.takeSheetBufs n x) →
      Leads (.sheetSeal n) s n (fun d =>
        (∀ e', e = some e' → d = e'.sealWith n x) ∧
        (e = none → (d.sp n).wr.nobuf = true ∧
          d.fget pgPool Reg.POOL.NOBUFS = satAdd (2 ^ Reg.POOL.NOBUFS.w - 1) (s.dev.fget pgPool Reg.POOL.NOBUFS) 1 ∧
          (d.sp n).wr.closedQ = k :: r)))) ∧
  (∀ (d : Dev) (n : Nat) (x : Sheet), x.kind = 2 → d.unsettled (pgWriter n) = false →
    d.sealWith n x = ((d.modWr n (fun w => { (w.modSheet x.num (fun y => { y with sealedF := true, bank := true })) with
      closedQ := w.closedQ.filter (· != x.num), dueQ := w.dueQ ++ [(x.num, 0)], nobuf := false })).bump (pgWriter n)
        Reg.WRITER.C2ENC_CNT 1).afterSeal n x)

/-- The last bit of a slot's postamble, sent on both lanes: the copy is marked, the bank freed, what waits is sealed or closed, and the next
slot judged (R137). Where none may begin, the closing pattern goes out on both lanes (R153); where one may, the area is fixed, and the
slot begins at once or, with rewrites to write, after the area. The closing pattern ends on both lanes once every verdict of the slot is
in: the final area is fixed and follows where it holds a rewrite, and otherwise the run ends; while a verdict is still to come nothing
happens (R153). A lane with nothing to write sends an idle control block; a lane that writes sends one frame, its control block with
SEQ, WINH and GATE and its 32 words, scrambled; the words are those of `frameWord`. GATE is 0 while the hold of R147 stands, and after it
until the next boundary, and the segments sent then are CUT (R140 to R142, R148, R149).
Of the model itself: log entries 3, 30, 48. -/
def Obligations.FramesAndClosingPatterns : Prop :=
  (∀ (s : State) (n : Fin 8) (cur : Nat × Nat), (s.dev.sp n).wr.slot = some cur → (s.dev.sp n).wr.slotSent = true → ∀ e : Dev,
    e = (((((s.dev.modWr n (fun w => w.markPostamble cur)).bankRelease n cur.1).sealNext n).advanceClose n).sealNext n) →
    Leads (.postambleEnd n) s n (fun d =>
      ((e.judgeSlot n).2 ≠ .none → d = (e.judgeSlot n).1.modWr n (fun w =>
        { w with stop := (e.judgeSlot n).2, lane0 := w.lane0 ++ [.closing], lane1 := w.lane1 ++ [.closing] })) ∧
      ((e.judgeSlot n).2 = .none → (((e.judgeSlot n).1.fixArea n cur).sp n).wr.areaOn = true →
        d = ((e.judgeSlot n).1.fixArea n cur).modWr n (fun w => { w with slotDue := true })) ∧
      ((e.judgeSlot n).2 = .none → (((e.judgeSlot n).1.fixArea n cur).sp n).wr.areaOn = false →
        d = ((e.judgeSlot n).1.fixArea n cur).beginSlot n))) ∧
  (∀ (s : State) (n : Fin 8) (cur : Nat × Nat), (s.dev.sp n).wr.slot = some cur → (s.dev.sp n).wr.lane0 = [.closing] →
    (s.dev.sp n).wr.lane1 = [.closing] →
    ((s.dev.sp n).wr.slotVerdictsIn cur = true → ∀ e : Dev, e = (s.dev.modWr n (fun w =>
        { w with lane0 := [], lane1 := [], frame0 := 0, frame1 := 0,
                 runUm := w.runUm + bitsToUm (zoneOfWrap w.wrap) (64 * max w.frame0 w.frame1) })).fixArea n cur →
      Leads (.closingDwellEnd n) s n (fun d =>
        ((e.sp n).wr.areaOn = true → d = e.modWr n (fun w => { w with ending := true })) ∧
        ((e.sp n).wr.areaOn = false → d = e.runEnds n (s.dev.sp n).wr.stop))) ∧
    ((s.dev.sp n).wr.slotVerdictsIn cur = false → exec (.closingDwellEnd n) s = .next (s.modDev (fun d => d.follow n)))) ∧
  (∀ (s : State) (n : Fin 8) (lane : Fin 2) (phase : Nat),
    ((s.dev.sp n).wr.lane lane = [] → Leads (.writeFrame n lane phase) s n (fun d =>
      d = (s.dev.modWr n (fun w => w.setLine lane (lineFrame ((s.dev.sp n).wr.scr lane) idleBlock []).1 w.winh)).emit
        (.frame n lane (lineFrame ((s.dev.sp n).wr.scr lane) idleBlock []).2))) ∧
    (∀ (st : Stage) (r : List Stage) (f tpw : Nat) (off : Bool), (s.dev.sp n).wr.lane lane = st :: r → f = (s.dev.sp n).wr.frame lane →
      tpw = s.dev.tpwAt n lane st f →
      off = ((s.dev.sp n).wr.winh || ((s.dev.sp n).wr.gated lane && !st.bounds f)) →
      ∀ x : Nat × List Nat, x = lineFrame ((s.dev.sp n).wr.scr lane) (ctrlBlock ((s.dev.sp n).wr.seq lane) phase off (if off then 0 else 0xFFFFFFFF))
        ((List.range 32).map (fun k => s.dev.frameWord n (32 * lane.val + k) tpw st f)) →
      ∀ e : Dev, e = (s.dev.modWr n (fun w => w.setLine lane x.1 off)).emit (.frame n lane x.2) →
      Leads (.writeFrame n lane phase) s n (fun d =>
        d = ((if off then e.cutLane n lane st f else e).bump (pgWriter n) Reg.HEADER.UNITS (st.endsAt lane f)).frameSent n lane st r f
          (((s.dev.sp n).wr.seq lane + 1) % 256) tpw)))

/-- A verdict as R151 gives it: FAIL of a segment not found, or with a wrong header or identity; with in-line iterations, FAIL of a row
that did not converge, LOW of a converged row with FREEWHEEL, an alternate alignment, too many iterations or too low an LLR, and PASS of
any other; without them FAIL of one with FREEWHEEL or an alternate alignment and PASS of any other. A verdict on a segment of a copy held
counts for its kind, is noted in the copy and gives the sheet decoder its row; LOW and FAIL make the segment a rewrite candidate, and
FAIL may make the channel dead (R152, R156). A fill segment is only counted, and the verdict on a CUT one is ignored. A verify decode
begins for a copy whose area has passed and whose verdicts are in, once for each copy, and keeps the settings of that moment; at its end
the sheet settles where it resolves with the headroom asked for (R157), and otherwise UNSETTLED is set and a copy ordered, or a close
sheet fails with the decode of its last copy (R155, R158); VFY_SHEET, SETTLED and HEADROOM tell the result.
Of the model itself: log entries 25, 26, 47. -/
def Obligations.VerdictsAndVerifyDecode : Prop :=
  (∀ (cap0 found hdr idOk : Bool) (r : SegResult) (il lf : Nat),
    ((found && hdr && idOk) = false → verdictOf cap0 found hdr idOk r il lf = .fail) ∧
    ((found && hdr && idOk) = true → cap0 = true →
      verdictOf cap0 found hdr idOk r il lf = if r.freewheel || r.altAlign then .fail else .pass) ∧
    ((found && hdr && idOk) = true → cap0 = false → r.converged = false → verdictOf cap0 found hdr idOk r il lf = .fail) ∧
    ((found && hdr && idOk) = true → cap0 = false → r.converged = true →
      (verdictOf cap0 found hdr idOk r il lf = .low ↔ r.freewheel = true ∨ r.altAlign = true ∨ (il ≠ 0 ∧ il ≤ r.iters) ∨ (lf ≠ 0 ∧ r.llr < lf)) ∧
      (verdictOf cap0 found hdr idOk r il lf = .pass ∨ verdictOf cap0 found hdr idOk r il lf = .low))) ∧
  (∀ (s : State) (n : Fin 8) (seg : SegId) (c : Copy) (found hdr idOk : Bool) (r : SegResult) (data : List Byte) (v : Verdict),
    ((s.dev.sp n).wr.sheet? seg.sheet).bind (fun x => x.copy? seg.gen) = some c →
    v = verdictOf (s.dev.inlineCap n == 0) found hdr idOk r (s.dev.fget (pgVerify n) Reg.VERIFY.ITERS_LIMIT)
      (s.dev.fget (pgVerify n) Reg.VERIFY.LLR_FLOOR) →
    (seg.fill = true → c.fillCuts.contains seg.row = true →
      exec (.verdict n seg found hdr idOk r data) s = .next (s.modDev (fun d => d.follow n))) ∧
    (seg.fill = false → c.cuts.contains (8 * seg.row + seg.rwslot) = true →
      exec (.verdict n seg found hdr idOk r data) s = .next (s.modDev (fun d => d.follow n))) ∧
    (seg.fill = true → c.fillCuts.contains seg.row = false → exec (.verdict n seg found hdr idOk r data) s =
      .next (s.modDev (fun d => ((d.countVerdict n (seg.row % 64) v).bump (pgVerify n) Reg.HEADER.UNITS 1).follow n))) ∧
    (seg.fill = false → c.cuts.contains (8 * seg.row + seg.rwslot) = false → ∀ e : Dev,
      e = ((s.dev.countVerdict n (seg.row % 64) v).bump (pgVerify n) Reg.HEADER.UNITS 1).modWr n (fun w =>
        (w.modCopy seg.sheet seg.gen (fun c => { c with verdicts := (8 * seg.row + seg.rwslot, v) :: c.verdicts })).takeRow seg.sheet seg.row
          (verdictRow (s.dev.inlineCap n == 0) (found && hdr && idOk) v r data)) →
      Leads (.verdict n seg found hdr idOk r data) s n (fun d =>
        (v = .pass → d = e) ∧ (v = .low → d = e.candidate n seg.sheet seg.gen seg.row) ∧
        (v = .fail → d = e.candidate n seg.sheet seg.gen seg.row ∨
          ∃ c', d = (e.candidate n seg.sheet seg.gen seg.row).deadCheck n seg.sheet (seg.row % 64) c')))) ∧
  (∀ (s : State) (n : Fin 8) (num gen : Nat) (c : Copy), ((s.dev.sp n).wr.sheet? num).bind (fun x => x.copy? gen) = some c →
    c.areaDone = true → c.verdictsIn = true → c.decoded = false → (s.dev.sp n).wr.verifying = none → s.dev.takesWork (pgVerify n) = true →
    exec (.verifyDecodeStart n num gen) s = .next (s.modDev (fun d =>
      (d.modWr n (fun w => { (w.modCopy num gen (fun c => { c with decoded := true })) with
        verifying := some ⟨num, gen, s.dev.fget (pgWriter n) Reg.WRITER.DEAD_COUNT, min 80 (s.dev.fget (pgVerify n) Reg.VERIFY.ERR_LIMIT),
          s.dev.fget (pgVerify n) Reg.VERIFY.RELEASE_HEADROOM⟩ })).follow n))) ∧
  (∀ (s : State) (n : Fin 8) (v : VDec) (x : Sheet), (s.dev.sp n).wr.verifying = some v → (s.dev.sp n).wr.sheet? v.sheet = some x →
    x.settled = false → s.dev.unsettled (pgVerify n) = false →
    ∀ (y : SheetDecode) (ok : Bool), y = c2Sheet x.rows (inlineErasures x.rows) v.limit →
    ok = (y.resolved && decide (settleHeadroom v.release v.dead ≤ y.headroom)) → ∀ e : Dev,
    e = (((((s.dev.bump (pgVerify n) Reg.HEADER.UNITS 1).modWr n (fun w => w.verifyOver v.sheet)).miscorr n y.changed.length).fset (pgVerify n)
        Reg.VERIFY.VFY_SHEET v.sheet).fput (pgVerify n) Reg.VERIFY.SETTLED (ok && !x.settled && !x.given)).fset (pgVerify n)
        Reg.VERIFY.OFF5C_HEADROOM y.headroom →
    Leads (.verifyDecodeDone n) s n (fun d =>
      (ok = true → x.given = false → d = e.settle n v.sheet) ∧
      ((ok = false ∨ x.given = true) → (x.isClose && v.gen == 3) = false → d = (e.ev (pgVerify n) Reg.VERIFY.UNSETTLED).orderCopy n v.sheet v.gen false) ∧
      ((ok = false ∨ x.given = true) → (x.isClose && v.gen == 3) = true →
        d = if x.kind = 4 then (e.ev (pgVerify n) Reg.VERIFY.UNSETTLED).eodFails n else e.ev (pgVerify n) Reg.VERIFY.UNSETTLED)))

/-- A shock holds writing off: SPn_WINH_N goes low with INHIBIT and its event, and both lanes' GATE goes to 0 (R147); when the shock is
over a hold that stands stays. Writing is restored, GATE following at the lanes' next boundary, where no condition of R147 holds and four
samples have been good (R148); while a condition holds nothing happens. Only the writer's page and the writer change. WAVE_BAND writes
store the band's four fields, and the band in force goes out with the next slot (R145, R146). DEAD_MAP writes clear the marks of their
mask; DEAD_COUNT counts those left, and the channels count again from the next copy begun (R156). A stale head temperature leaves
BAND (R145).
Of the model itself: log entry 3. -/
def Obligations.WriteHoldAndWriterRegisters : Prop :=
  (∀ (s : State) (n : Fin 8),
    ((s.dev.sp n).wr.winh = false → Completes (.shockAssert n) s (fun t =>
      (t.dev.sp n).wr = { (s.dev.sp n).wr with shock := true, winh := true, gated0 := true, gated1 := true } ∧
      t.dev.fget (pgWriter n) Reg.WRITER.INHIBIT = 1 ∧ t.dev.fget (pgWriter n) Reg.WRITER.INHIBIT_EVT = 1 ∧
      (∀ m, m ≠ n.val → t.dev.sp m = s.dev.sp m) ∧
      (∀ pg f, pg ≠ pgWriter n → t.dev.fget pg f = s.dev.fget pg f) ∧
      { t with dev := { t.dev with regs := s.dev.regs, spokes := s.dev.spokes } } = s)) ∧
    ((s.dev.sp n).wr.winh = true → Completes (.shockAssert n) s (fun t =>
      (t.dev.sp n).wr = { (s.dev.sp n).wr with shock := true } ∧ t.dev.regs = s.dev.regs)) ∧
    ((s.dev.sp n).wr.winh = true → Completes (.shockNegate n) s (fun t =>
      (t.dev.sp n).wr = { (s.dev.sp n).wr with shock := false } ∧ t.dev.regs = s.dev.regs ∧ (∀ m, m ≠ n.val → t.dev.sp m = s.dev.sp m))) ∧
    ((s.dev.sp n).wr.winh = true → s.dev.holdCond n = false → 4 ≤ (s.dev.sp n).wr.pesGood → Completes (.writeRestore n) s (fun t =>
      (t.dev.sp n).wr = { (s.dev.sp n).wr with winh := false } ∧ t.dev.fget (pgWriter n) Reg.WRITER.INHIBIT = 0 ∧
      (∀ m, m ≠ n.val → t.dev.sp m = s.dev.sp m))) ∧
    (s.dev.holdCond n = true → exec (.writeRestore n) s = .next s)) ∧
  (∀ (s : State) (a : Accessor) (n k : Fin 8) (wcur amp dur pre : Nat) (mask : BitVec 64), s.dev.access a (pgWriter n) = .open →
    Completes (.waveBandWrite a n k wcur amp dur pre) s (fun t =>
      t.dev.fget (pgWriter n) (Reg.WRITER.WCUR k) = wcur % 256 ∧ t.dev.fget (pgWriter n) (Reg.WRITER.OS_AMP k) = amp % 256 ∧
      t.dev.fget (pgWriter n) (Reg.WRITER.OS_DUR k) = dur % 16 ∧ t.dev.fget (pgWriter n) (Reg.WRITER.PRECOMP k) = pre % 64 ∧
      (t.dev.sp n).wr.bandPending = ((s.dev.sp n).wr.bandPending || s.dev.fget (pgWriter n) Reg.WRITER.BAND == k.val) ∧
      { t with dev := { t.dev with regs := s.dev.regs, spokes := s.dev.spokes } } = s) ∧
    Completes (.deadMapClear a n mask) s (fun t =>
      { t with dev := { t.dev with regs := s.dev.regs, spokes := s.dev.spokes } } = s ∧
      (∀ ch < 32, bitAt (t.dev.fget (pgWriter n) Reg.WRITER.DEAD_MAP_LO) ch =
        (bitAt (s.dev.fget (pgWriter n) Reg.WRITER.DEAD_MAP_LO) ch && !mask.getLsbD ch)) ∧
      (∀ ch < 32, bitAt (t.dev.fget (pgWriter n) Reg.WRITER.DEAD_MAP_HI) ch =
        (bitAt (s.dev.fget (pgWriter n) Reg.WRITER.DEAD_MAP_HI) ch && !mask.getLsbD (32 + ch))) ∧
      ((mask.toNat &&& s.dev.deadMap n) % 2 ^ 64 ≠ 0 → t.dev.fget (pgWriter n) Reg.WRITER.DEAD_COUNT = onesIn 64 (t.dev.deadMap n) % 128)) ∧
    Completes (.headTempStale n) s (fun t =>
      t.dev.fget (pgWriter n) Reg.WRITER.HEAD_TEMP_STALE = 1 ∧ t.dev.fget (pgWriter n) Reg.WRITER.BAND = s.dev.fget (pgWriter n) Reg.WRITER.BAND ∧
      { t with dev := { t.dev with regs := s.dev.regs } } = s))

/-! ### Servo, motion, speed, the control link (chapter 7) -/

/-- A servo frame gives READERS, the readers whose frame is valid. With a valid reader on each servo band the sample is valid (R170): VALID
is set, PES is the mean error of the valid readers (R172), and a sample beyond 90 nm starts the count of good samples again (R147); that of
a block under UB-4 is a free value. An invalid sample clears VALID, sets INVALID, counts in the run of invalid samples, holds the last
command and holds writing off. Servo is lost after 16 invalid samples in a row, and not before (R170); a tension reading out of the limits
of R177 is a tension fault, counted, and asks for tension afresh. Each brings a controlled stop of a tape in motion (R176): writing held
off, STATE 6, CTRL_STOP, the run's streaming ended. With the tape at rest, tension established and servo re-acquired clear these losses; in a load
they begin steps 4 and 5 (R194).
Of the model itself: log entries 18, 30, 41. -/
def Obligations.ServoAndTension : Prop :=
  (∀ (s : State) (n : Fin 8) (ts : List ReaderTimes) (cs ds : List (List Int)) (rs : List ReaderFrame), rs = ReaderFrame.join ts cs ds →
    Completes (.servoFrame n ts cs ds) s (fun t =>
      t.dev.fget (pgServo n) Reg.SERVO.READERS = readersMask rs % 2 ^ Reg.SERVO.READERS.w ∧
      (sampleValid (readersMask rs) = true → s.dev.unsettled (pgServo n) = false →
        t.dev.fget (pgServo n) Reg.SERVO.VALID = 1 ∧ (t.dev.sp n).drv.invalidRun = 0 ∧
        t.dev.fget (pgServo n) Reg.SERVO.PES = toField 16 (meanInt (s.dev.readerErrors n rs [0, 1, 2, 3])) % 65536 ∧
        (t.dev.sp n).wr.pesGood = (if 90 < (meanInt (s.dev.readerErrors n rs [0, 1, 2, 3])).natAbs then 0 else min 4 ((s.dev.sp n).wr.pesGood + 1))) ∧
      (sampleValid (readersMask rs) = false →
        t.dev.fget (pgServo n) Reg.SERVO.VALID = 0 ∧ t.dev.fget (pgServo n) Reg.SERVO.INVALID = 1 ∧
        (t.dev.sp n).drv.invalidRun = (s.dev.sp n).drv.invalidRun + 1 ∧ (t.dev.sp n).wr.pesGood = 0 ∧ (t.dev.sp n).wr.winh = true ∧
        (t.dev.sp n).drv.lastAct = (s.dev.sp n).drv.lastAct) ∧
      (∀ m, m ≠ n.val → t.dev.sp m = s.dev.sp m))) ∧
  (∀ (s : State) (n : Fin 8),
    ((s.dev.sp n).drv.invalidRun < 16 → exec (.servoLost n) s = .next s) ∧
    (16 ≤ (s.dev.sp n).drv.invalidRun → (s.dev.sp n).drv.lost = false → (s.dev.sp n).drv.tapeStopped = false → Completes (.servoLost n) s (fun t =>
      (t.dev.sp n).drv.lost = true ∧ t.dev.fget (pgServo n) Reg.SERVO.LOST = 1 ∧ t.dev.fget (pgMotion n) Reg.MOTION.STATE = 6 ∧
      t.dev.fget (pgMotion n) Reg.MOTION.CTRL_STOP = 1 ∧ (t.dev.sp n).drv.streaming = false ∧ (t.dev.sp n).wr.winh = true ∧
      (∀ m, m ≠ n.val → t.dev.sp m = s.dev.sp m))) ∧
    (s.dev.tensionBad n = true → (s.dev.sp n).drv.tapeStopped = false → Completes (.tensionFault n) s (fun t =>
      (t.dev.sp n).drv.needTension = true ∧ t.dev.fget (pgMotion n) Reg.MOTION.TENSION_FAULT = 1 ∧
      t.dev.fget (pgMotion n) Reg.MOTION.TENSION_FAULTS =
        satAdd (2 ^ Reg.MOTION.TENSION_FAULTS.w - 1) (s.dev.fget (pgMotion n) Reg.MOTION.TENSION_FAULTS) 1 ∧
      t.dev.fget (pgMotion n) Reg.MOTION.STATE = 6 ∧ (t.dev.sp n).drv.streaming = false ∧ (t.dev.sp n).wr.winh = true)) ∧
    (s.dev.tensionBad n = false → exec (.tensionFault n) s = .next s) ∧
    (s.dev.tensionBad n = true ↔ (s.dev.sp n).drv.tensionLow = true ∨
      (10 * s.dev.fget (pgMotion n) Reg.MOTION.TENSION < 7 * tensionEff (s.dev.fget (pgMotion n) Reg.MOTION.TENSION_SET) ∨
       13 * tensionEff (s.dev.fget (pgMotion n) Reg.MOTION.TENSION_SET) < 10 * s.dev.fget (pgMotion n) Reg.MOTION.TENSION))) ∧
  (∀ (s : State) (n : Fin 8), (s.dev.sp n).drv.tapeStopped = true →
    ∀ e : Dev, e = s.dev.modDrv n (fun x => { x with needTension := false, tensionLow := false }) →
    Leads (.tensionEstablished n) s n (fun d =>
      (s.dev.cartState n = 2 → s.dev.phase n = 3 → d = ((e.loadPhase n 4).headTo n 0).loadRuns n 1) ∧
      (¬ (s.dev.cartState n = 2 ∧ s.dev.phase n = 3) → d = e.moveOn n))) ∧
  (∀ (s : State) (n : Fin 8), (s.dev.sp n).drv.needTension = false →
    ∀ e : Dev, e = s.dev.modDrv n (fun x => { x with lost := false, invalidRun := 0 }) →
    (s.dev.cartState n = 2 → s.dev.phase n = 4 → Leads (.servoReacquired n) s n (fun d =>
      d = ((e.modDrv n (fun x => { x with errSums := [] })).loadPhase n 5).loadRuns n 2)) ∧
    (¬ (s.dev.cartState n = 2 ∧ s.dev.phase n = 4) → (s.dev.sp n).drv.lost = true → (s.dev.sp n).drv.tapeStopped = true →
      Leads (.servoReacquired n) s n (fun d => d = if s.dev.cartState n = 2 then e.loadRuns n 2 else e.moveOn n)))

/-- A reel cycle gives the radii of the reels that turned, from the velocity of the servo or, while it is invalid, of a tachometer (R176),
and sends one REEL message with the two currents, free values, for the manual gives no law for them (log entry 12); a fenced spoke sends
none (R192, R401). A cadence echo seen is ECHO_DELAY, and one within 200 ns ends ECHO_LOST (R190, R201). In step 4 of an unload the currents
are 0, which releases the tension, and step 5 begins (R196). -/
def Obligations.ReelCycles : Prop :=
  ∀ (s : State) (n : Fin 8) (echo : Option Nat),
    ((s.dev.sp n).drv.unloadStep ≠ 4 → Completes (.reelCycle ⟨n, echo⟩) s (fun t =>
      (t.dev.sp n).drv.reelI = (s.dev.freeVal % 65536, s.dev.nextFree.freeVal % 65536) ∧ t.dev.free = s.dev.free + 2 ∧
      (s.dev.fenced n = false → t.dev.out = .ctl n (linkFrame 2 (s.dev.sp n).drv.txSeq
        (bytesBE 2 (s.dev.freeVal % 65536) ++ bytesBE 2 (s.dev.nextFree.freeVal % 65536))) :: s.dev.out) ∧
      (s.dev.fenced n = true → t.dev.out = s.dev.out) ∧
      (∀ m, m ≠ n.val → t.dev.sp m = s.dev.sp m) ∧
      ((s.dev.sp n).drv.dSupply ≠ 0 → t.dev.fget (pgMotion n) Reg.MOTION.SUPPLY_R =
        reelRadius (s.dev.reelVelocity n) (s.dev.sp n).drv.dSupply % 65536) ∧
      (∀ e, echo = some e → s.dev.fon (pgLink n) Reg.LINK.CAD_ON = true →
        t.dev.fget (pgLink n) Reg.LINK.ECHO_DELAY = min 65535 e % 2 ^ Reg.LINK.ECHO_DELAY.w ∧
        (e ≤ 200 → t.dev.fget (pgLink n) Reg.LINK.ECHO_LOST = 0)))) ∧
    ((s.dev.sp n).drv.unloadStep = 4 → Completes (.reelCycle ⟨n, echo⟩) s (fun t =>
      (t.dev.sp n).drv.reelI = (0, 0) ∧ (t.dev.sp n).drv.unloadStep = 5 ∧ (t.dev.sp n).drv.needTension = true ∧ t.dev.free = s.dev.free))

/-- A shift ends in its target cog, and the dwell runs unless SHIFT_DWELL is 0 (R179, R181); at the dwell's end the rule is evaluated.
Every shift that the watermark rule asks for is one cog towards the wish, never beyond the cap and never while a shift or a dwell runs
(R180, R181); a pair that is UB-5 makes it a free cog within the cap.
Of the model itself: log entry 18. -/
def Obligations.CogsAndShifts : Prop :=
  (∀ (s : State) (n : Fin 8),
    (s.dev.fon (pgDr n) Reg.DERAILLEUR.SHIFTING = true → ∀ e : Dev,
      e = ((((s.dev.fset (pgDr n) Reg.DERAILLEUR.SHIFTING 0).fset (pgDr n) Reg.DERAILLEUR.CUR_COG
          (s.dev.fget (pgDr n) Reg.DERAILLEUR.TARGET_COG)).bump (pgDr n) Reg.DERAILLEUR.SHIFTS 1).modDrv n (fun x =>
        { x with fillAtDone := s.dev.fget (pgWriter n) Reg.WRITER.FILL_MIB,
                 raFillAtDone := s.dev.fget (pgDr n) Reg.DERAILLEUR.RA_FILL_MIB })).setMotion n 2 →
      Leads (.shiftComplete n) s n (fun d =>
        (s.dev.fget (pgDr n) Reg.DERAILLEUR.SHIFT_DWELL ≠ 0 → d = (e.fset (pgDr n) Reg.DERAILLEUR.DWELL 1).raLimit n) ∧
        (s.dev.fget (pgDr n) Reg.DERAILLEUR.SHIFT_DWELL = 0 → d = ((e.fset (pgDr n) Reg.DERAILLEUR.DWELL 0).drEval n).raLimit n))) ∧
    (s.dev.fon (pgDr n) Reg.DERAILLEUR.SHIFTING = false → exec (.shiftComplete n) s = .next (s.modDev (fun d => d.follow n))) ∧
    (s.dev.fon (pgDr n) Reg.DERAILLEUR.DWELL = true → exec (.dwellEnd n) s = .next (s.modDev (fun d =>
      (d.fset (pgDr n) Reg.DERAILLEUR.DWELL 0).drEval n))) ∧
    (s.dev.fon (pgDr n) Reg.DERAILLEUR.DWELL = false → exec (.dwellEnd n) s = .next s)) ∧
  (∀ (d : Dev) (n : Nat),
    ((d.sp n).drv.streaming = false ∨ d.mode (pgDr n) = 1 ∨ d.fon (pgDr n) Reg.DERAILLEUR.SHIFTING = true ∨
      d.fon (pgDr n) Reg.DERAILLEUR.DWELL = true → d.drEval n = d) ∧
    ((d.sp n).drv.streaming = true → d.mode (pgDr n) ≠ 1 → d.fon (pgDr n) Reg.DERAILLEUR.SHIFTING = false →
      d.fon (pgDr n) Reg.DERAILLEUR.DWELL = false → d.capOf n ≤ 12 → d.capOf n ≤ d.fget (pgDr n) Reg.DERAILLEUR.TARGET_COG →
      d.fget (pgDr n) Reg.DERAILLEUR.TARGET_COG ≤ 12 →
      d.capOf n ≤ (d.drEval n).fget (pgDr n) Reg.DERAILLEUR.TARGET_COG ∧ (d.drEval n).fget (pgDr n) Reg.DERAILLEUR.TARGET_COG ≤ 12 ∧
      (d.pairBroken n = false → d.unsettled (pgDr n) = false →
        ((d.shiftInputs n).1 = true → d.fget (pgDr n) Reg.DERAILLEUR.TARGET_COG < 12 →
          (d.drEval n).fget (pgDr n) Reg.DERAILLEUR.TARGET_COG = d.fget (pgDr n) Reg.DERAILLEUR.TARGET_COG + 1) ∧
        ((d.shiftInputs n) = (false, true) → d.capOf n < d.fget (pgDr n) Reg.DERAILLEUR.TARGET_COG →
          (d.drEval n).fget (pgDr n) Reg.DERAILLEUR.TARGET_COG = d.fget (pgDr n) Reg.DERAILLEUR.TARGET_COG - 1) ∧
        ((d.shiftInputs n) = (false, false) → d.drEval n = d))))

/-- In host-assisted speed selection the target is the slower of COG_REQ and the cap, watermarks do not move it, and a write of COG_REQ
starts a shift at once whatever the dwell; the stop of a run that starves (R137) and the RA_LIMIT stop come all the same; in the other
mode COG_REQ is only stored (R183). -/
def Obligations.HostAssistedSpeed : Prop :=
  (∀ (d : Dev) (n : Nat), d.mode (pgDr n) = 1 →
    d.startCog n = max (cogEff (d.fget (pgDr n) Reg.DERAILLEUR.COG_REQ)) (d.capOf n) ∧ d.drEval n = d ∧
    ((d.sp n).drv.streaming = true → (d.sp n).drv.reading = true → (d.rd n).ladder.stage ≠ 2 → d.fget (pgDr n) Reg.DERAILLEUR.CUR_COG = 12 →
      max (d.fget (pgDr n) Reg.DERAILLEUR.RA_LIMIT) (d.fget (pgDr n) Reg.DERAILLEUR.RA_HIGH) ≤ d.fget (pgDr n) Reg.DERAILLEUR.RA_FILL_MIB →
      d.raLimit n = (d.readStopDue n).modRd n (fun r => { r with stopped := true, noBuf := false })) ∧
    ((d.sp n).wr.stop = .none → d.fon (pgWriter n) Reg.HEADER.QUIESCE_REQ = false →
      slotAllowed (zoneOfWrap (d.sp n).wr.wrap) (d.sp n).wr.slotsUsed (d.sp n).wr.ahead = true →
      (d.sp n).wr.dueQ = [] → d.padCase n = false → (d.sp n).sess.closing = none →
      d.judgeSlot n = (d.fset (pgWriter n) Reg.WRITER.STARVE_STOP 1, .starve))) ∧
  (∀ (s : State) (a : Accessor) (n : Fin 8) (cog : Nat), s.dev.access a (pgDr n) = .open →
    (s.dev.mode (pgDr n) = 1 → Completes (.cogReqWrite a n cog) s (fun t =>
      t.dev.fget (pgDr n) Reg.DERAILLEUR.COG_REQ = cog % 16 ∧
      (t.dev.sp n).drv.tgtCog = max (cogEff (cog % 16)) (s.dev.capOf n) ∧
      (max (cogEff (cog % 16)) (s.dev.capOf n) ≠ (s.dev.sp n).drv.tgtCog → (s.dev.sp n).drv.streaming = true →
        t.dev.fget (pgDr n) Reg.DERAILLEUR.SHIFTING = 1 ∧
        t.dev.fget (pgDr n) Reg.DERAILLEUR.TARGET_COG = max (cogEff (cog % 16)) (s.dev.capOf n) % 16))) ∧
    (s.dev.mode (pgDr n) ≠ 1 → Completes (.cogReqWrite a n cog) s (fun t =>
      t.dev.fget (pgDr n) Reg.DERAILLEUR.COG_REQ = cog % 16 ∧
      (∀ f : Fld, f.slot ≠ Reg.DERAILLEUR.COG_REQ.slot → t.dev.fget (pgDr n) f = s.dev.fget (pgDr n) f) ∧
      { t with dev := { t.dev with regs := s.dev.regs } } = s)))

/-- The tape comes to rest: in fault, on its way to the park, or at rest (R176, R182, R185), and a move that waits goes on. A tape that the
motion loop repositions is parked, and counts (R185). A write run that may begin runs up toward its wrap, and a read run that turns round
runs up too (R185, R186). At the end of the run-up a write run that still may run begins at the start cog with its first slot, and one that
may not goes back to the park; a read run begins toward the sheet that it waits for. A locate whose target stands is complete: that toward
the place of a write leaves the tape parked there, and one whose target does not stand goes on (R187). A read run that stopped for want of
room goes on with a run-up once there is room (R182).
Of the model itself: log entry 32. -/
def Obligations.StopsParksAndRunUps : Prop :=
  (∀ (s : State) (n : Fin 8) (e : Dev),
    (s.dev.sp n).drv.streaming = false → (s.dev.sp n).drv.tapeStopped = false →
    (s.dev.fget (pgMotion n) Reg.MOTION.STATE = 5 ∨ s.dev.fget (pgMotion n) Reg.MOTION.STATE = 6) →
    e = s.dev.modDrv n (fun x => { x with tapeStopped := true, ctrlStop := false }) → Leads (.tapeStopped n) s n (fun d =>
      ((s.dev.sp n).drv.reelFault = true ∨ (s.dev.sp n).drv.mechFault = true → d = ((e.setMotion n 7).moveOn n).goOn n) ∧
      ((s.dev.sp n).drv.reelFault = false → (s.dev.sp n).drv.mechFault = false → s.dev.fget (pgMotion n) Reg.MOTION.STATE = 5 →
        d = (((e.setMotion n 5).fput (pgMotion n) Reg.MOTION.DIR (!wrapForward (s.dev.sp n).drv.head)).moveOn n).goOn n) ∧
      ((s.dev.sp n).drv.reelFault = false → (s.dev.sp n).drv.mechFault = false → s.dev.fget (pgMotion n) Reg.MOTION.STATE = 6 →
        (s.dev.rd n).stopped = false → (s.dev.lad n).parks = false → d = ((e.setMotion n 0).moveOn n).goOn n))) ∧
  (∀ (s : State) (n : Fin 8), (s.dev.sp n).drv.tapeStopped = true → s.dev.fget (pgMotion n) Reg.MOTION.STATE = 5 → s.dev.mayMove n = true →
    Leads (.parkComplete n) s n (fun d => d = (((((s.dev.modDrv n (fun x => { x with parked := true })).setMotion n 0).fset (pgMotion n)
      Reg.MOTION.REPOSITION 1).bump (pgMotion n) Reg.MOTION.REPOSITIONS 1).ladderStopped n).goOn n)) ∧
  (∀ (s : State) (n : Fin 8) (e : Dev), e = s.dev.sealNext n → (e.sp n).drv.runUp = false →
    (((e.sp n).drv.turning = false ∨ (e.rd n).locating = none) → e.mayRun n = true →
      exec (.runUpStart n) s = .next { s with dev := e.runUpTo n (e.sp n).wr.wrap }) ∧
    ((e.sp n).drv.turning = true → (e.rd n).locating ≠ none → e.mayMove n = true →
      exec (.runUpStart n) s = .next { s with dev := (e.modDrv n (fun x => { x with runUp := true, tapeStopped := false })).setMotion n 1 })) ∧
  (∀ (s : State) (n : Fin 8) (e : Dev), (s.dev.sp n).drv.runUp = true → e = s.dev.modDrv n (fun x => { x with runUp := false }) →
    ((s.dev.rd n).locating = none → s.dev.mayRun n = false → Leads (.runUpComplete n) s n (fun d =>
      d = (e.modDrv n (fun x => { x with turning := false, parked := false })).setMotion n 5)) ∧
    ((s.dev.rd n).locating = none → s.dev.mayRun n = true → (s.dev.sp n).drv.turning = false → Leads (.runUpComplete n) s n (fun d =>
      d = (((e.noteWrap n (s.dev.sp n).wr.wrap).beginStream n (s.dev.startCog n) false).lanesFrom n ((s.dev.sp n).wr.dueQ.headD (0, 0)).1).runBegins n)) ∧
    (∀ k, (s.dev.rd n).locating = some k → Leads (.runUpComplete n) s n (fun d => d = s.dev.readRunUp n k))) ∧
  (∀ (s : State) (n : Fin 8),
    ((s.dev.sp n).drv.target = none → exec (.locateComplete n) s = .next (s.modDev (fun d => d.follow n))) ∧
    (∀ w f c, (s.dev.sp n).drv.target = some (w, f, c) → s.dev.locateMet n w f c = false →
      exec (.locateComplete n) s = .next (s.modDev (fun d => d.follow n))) ∧
    (∀ w f c, (s.dev.sp n).drv.target = some (w, f, c) → s.dev.locateMet n w f c = true → s.dev.mayMove n = true →
      s.dev.fget (pgMotion n) Reg.MOTION.STATE = 3 → (s.dev.sp n).drv.unloadStep ≠ 3 → (s.dev.lad n).phase = .idle →
      (s.dev.sp n).seek.final = false → (s.dev.rd n).locating = none → Leads (.locateComplete n) s n (fun d =>
        d = (((((s.dev.modDrv n (fun x => { x with target := none })).fput (pgMotion n) Reg.MOTION.DIR (wrapForward w)).modDrv n (fun x =>
          { x with atWrite := true, parked := true })).modDrv n (fun x => { x with tapeStopped := true })).setMotion n 0)))) ∧
  (∀ (s : State) (n : Fin 8),
    ((s.dev.rd n).stopped = true → (s.dev.rd n).noBuf = false →
      s.dev.fget (pgDr n) Reg.DERAILLEUR.RA_FILL_MIB < s.dev.fget (pgDr n) Reg.DERAILLEUR.RA_LOW → (s.dev.sp n).drv.tapeStopped = true →
      (s.dev.sp n).drv.parked = true → (s.dev.sp n).readsOn = true → (s.dev.lad n).phase = .idle → s.dev.mayMove n = true →
      tileCog (s.dev.tiles n) ≠ 0 → Leads (.readResume n) s n (fun d =>
        d = (s.dev.modRd n (fun r => { r with locating := some r.nextSheet, stopped := false, noBuf := false })).runUpTo n
          ((s.dev.sp n).placeOf (s.dev.rd n).nextSheet).1)) ∧
    ((s.dev.rd n).stopped = false → exec (.readResume n) s = .next (s.modDev (fun d => d.follow n))))

/-- An ENV message gives its readings, and ENV_OK says whether they lie in the window of 10.0 to 45.0 °C and 20 to 80 %; without a message
for 100 ms ENV_OK is 0, and a write run that the window gates is held; a hold ends only inside the narrower window (R188, R192).
Calibration runs on a spoke whose steward runs (R197, R207, R227): at load step 5 a band without a servo signal ends the load, and a
band done takes the head to the next; while the tape streams trims move, by amounts the manual leaves open (log entry 11), a reader's by at
most 2 nm; while the steward does not run, or at rest, nothing is written.
Of the model itself: log entry 31. -/
def Obligations.EnvironmentAndCalibration : Prop :=
  (∀ (s : State) (n : Fin 8) (tape head : Int) (rh : Nat),
    Completes (.env n tape head rh) s (fun t =>
      t.dev.fget (pgMotion n) Reg.MOTION.TAPE_TEMP = toField 16 tape % 65536 ∧ t.dev.fget (pgMotion n) Reg.MOTION.RH = rh % 65536 ∧
      (t.dev.fget (pgMotion n) Reg.MOTION.ENV_OK = 1 ↔ (160 ≤ tape ∧ tape ≤ 720) ∧ 2000 ≤ rh ∧ rh ≤ 8000) ∧
      t.dev.fget (pgWriter n) Reg.WRITER.HEAD_TEMP = toField 16 head % 2 ^ Reg.WRITER.HEAD_TEMP.w ∧
      t.dev.fget (pgLink n) Reg.LINK.RX_FRAMES = satAdd (2 ^ Reg.LINK.RX_FRAMES.w - 1) (s.dev.fget (pgLink n) Reg.LINK.RX_FRAMES) 1) ∧
    Completes (.envTimeout n) s (fun t =>
      t.dev.fget (pgMotion n) Reg.MOTION.ENV_OK = 0 ∧ (t.dev.sp n).drv.envInner = false ∧
      (s.dev.envGates n = true → (s.dev.sp n).wr.running = true → t.dev.envHold n = true)) ∧
    ((s.dev.sp n).drv.envInner = true → Completes (.envHoldEnd n) s (fun t => t.dev.envHold n = false)) ∧
    ((s.dev.sp n).drv.envInner = false → exec (.envHoldEnd n) s = .next s)) ∧
  (∀ (s : State) (n : Fin 8) (m : CalMeas),
    ((s.dev.stw (4 + n)).state ≠ 0 → exec (.calibrationTick n m) s = .next (s.modDev (fun d => d.follow n))) ∧
    ((s.dev.stw (4 + n)).state = 0 → s.dev.cartState n = 2 → s.dev.phase n = 5 →
      (m.acquired = false → Leads (.calibrationTick n m) s n (fun d => d = s.dev.refuse n 5)) ∧
      (m.acquired = true → (s.dev.sp n).drv.head < 160 → Leads (.calibrationTick n m) s n (fun d =>
        d = (s.dev.modDrv n (fun x => { x with word := none, wordUp := none })).headTo n ((s.dev.sp n).drv.head + 32)))) ∧
    ((s.dev.stw (4 + n)).state = 0 → s.dev.cartState n = 2 → s.dev.phase n = 6 →
      Leads (.calibrationTick n m) s n (fun d => d = s.dev.calStep6 n m)) ∧
    ((s.dev.stw (4 + n)).state = 0 → s.dev.cartState n ≠ 2 → s.dev.hostCal n = false → (s.dev.sp n).drv.streaming = true →
      Leads (.calibrationTick n m) s n (fun d =>
        d = (((s.dev.trimReaders n).trimTension n).trimBoost n m.boost).modDrv n (fun x => { x with errSums := [] }))) ∧
    ((s.dev.stw (4 + n)).state = 0 → s.dev.cartState n ≠ 2 → (s.dev.sp n).drv.streaming = false →
      exec (.calibrationTick n m) s = .next (s.modDev (fun d => d.follow n)))) ∧
  (∀ (d : Dev) (n : Nat), ∀ r < 4, (ofField 16 ((d.trimReaders n).fget (pgServo n) (Reg.SERVO.TRIM r)) -
    ofField 16 (d.fget (pgServo n) (Reg.SERVO.TRIM r))).natAbs ≤ 2 ∨ 32766 ≤ (ofField 16 (d.fget (pgServo n) (Reg.SERVO.TRIM r))).natAbs)

/-- Transport loss, by a lost echo or by silence, fences a present spoke with cause LOST, and only a present one (R190, R413). -/
def Obligations.TransportLoss : Prop :=
  ∀ (s : State) (n : Fin 8),
    ((s.dev.sp n).drv.present = true →
      exec (.echoLost n) s = .next (s.modDev (fun d => ((((d.fset (pgLink n) Reg.LINK.ECHO_LOST 1).fset (pgLink n) Reg.LINK.ECHO_EVT 1).fence n 1)).followAll)) ∧
      exec (.linkSilent n) s = .next (s.modDev (fun d => ((((d.fset (pgLink n) Reg.LINK.SILENT 1).fset (pgLink n) Reg.LINK.SILENT_EVT 1).fence n 1)).followAll))) ∧
    ((s.dev.sp n).drv.present = false →
      exec (.echoLost n) s = .next (s.modDev (fun d => ((d.fset (pgLink n) Reg.LINK.ECHO_LOST 1).fset (pgLink n) Reg.LINK.ECHO_EVT 1).followAll)) ∧
      exec (.linkSilent n) s = .next (s.modDev (fun d => ((d.fset (pgLink n) Reg.LINK.SILENT 1).fset (pgLink n) Reg.LINK.SILENT_EVT 1).followAll)))

/-- A message counts in RX_FRAMES and ends SILENT. MOTION_STAT without a fault gives TENSION and the reels' counts (R176, R192); MECH_STAT
without a fault begins a load when a cartridge stands there, ends threading, and tells that the cartridge has gone (R194 to R196, R333);
CM_RSP answers its request, and ends the transfer with the last one or with an error (R193, R339); an ACK that refuses the thread
ends the load, and another changes nothing more (R192, R195). A frame that is not well formed, by its CRC, length or TYPE, is discarded and
counted (R191); a request unanswered for 5 ms goes out again three times and then ends its transfer with an error; RX_LOCK follows the
receiver (R193, R201).
Of the model itself: log entries 31, 33. -/
def Obligations.MessagesAndLinkErrors : Prop :=
  (∀ (s : State) (n : Fin 8), ∀ d0 : Dev,
    d0 = ((s.dev.bump (pgLink n) Reg.LINK.RX_FRAMES 1).bump (pgLink n) Reg.HEADER.UNITS 1).fset (pgLink n) Reg.LINK.SILENT 0 →
    (∀ supply takeup tension hall, Leads (.motionStat n supply takeup tension hall 0) s n (fun d => d =
      ((d0.fset (pgMotion n) Reg.MOTION.TENSION (min 2047 tension)).modDrv n (fun x =>
        { x with dSupply := (supply + 2 ^ 32 - x.supplyCount) % 2 ^ 32, dTakeup := (takeup + 2 ^ 32 - x.takeupCount) % 2 ^ 32,
                 supplyCount := supply % 2 ^ 32, takeupCount := takeup % 2 ^ 32, reelFault := false,
                 tensionLow := x.tensionLow || decide (tension < 100) })).faultOver n)) ∧
    (∀ coarse (e : Dev), e = (d0.modDrv n (fun x => { x with mechState := 0, mechFault := false, threaded := false })).faultOver n →
      (e.cartState n = 0 → Leads (.mechStat n 0 0 coarse) s n (fun d => d = e)) ∧
      (e.cartState n ≠ 0 → Leads (.mechStat n 0 0 coarse) s n (fun d => d = e.cartGone n))) ∧
    (∀ coarse (e : Dev), e = (d0.modDrv n (fun x => { x with mechState := 1, mechFault := false, threaded := false })).faultOver n →
      (s.dev.sp n).drv.unloadStep ≠ 5 → e.cartState n = 0 →
      Leads (.mechStat n 1 0 coarse) s n (fun d => d = (e.fset (pgMotion n) Reg.MOTION.CART_STATE 1).beginLoad n)) ∧
    (∀ coarse (e : Dev), e = (d0.modDrv n (fun x => { x with mechState := 3, mechFault := false, threaded := true })).faultOver n →
      e.cartState n = 2 → e.phase n = 2 → Leads (.mechStat n 3 0 coarse) s n (fun d => d = e.fset (pgMotion n) Reg.MOTION.PHASE 3)) ∧
    (∀ tag status data, (s.dev.sp n).drv.cmOut.find? (fun q => q.tag == tag) = none →
      Leads (.cmRsp n tag status data) s n (fun d => d = d0)) ∧
    (∀ tag status data q t r, (s.dev.sp n).drv.cmOut.find? (fun q => q.tag == tag) = some q → (s.dev.sp n).drv.cm = t :: r →
      (status ≠ 0 → Leads (.cmRsp n tag status data) s n (fun d => d = d0.cmEnds n false)) ∧
      (status = 0 → ∀ (t' : CmXfer) (e : Dev),
        t' = { t with done := t.done + q.count, data := if t.isWrite then t.data else spliceAt t.data q.off (takePad 0 q.count data) } →
        e = d0.modDrv n (fun x => { x with cm := t' :: r, cmOut := x.cmOut.filter (fun p => p.tag != tag) }) →
        Leads (.cmRsp n tag status data) s n (fun d => d = if t.len ≤ t.done + q.count then e.cmEnds n true else e.cmPump n 4))) ∧
    (∀ type seq status, ¬ (type = 5 ∧ status = 1 ∧ s.dev.cartState n = 2 ∧ s.dev.phase n = 2) →
      Leads (.ack n type seq status) s n (fun d => d = d0)) ∧
    (∀ seq, s.dev.cartState n = 2 → s.dev.phase n = 2 → Leads (.ack n 5 seq 1) s n (fun d => d = d0.refuse n 6))) ∧
  (∀ (s : State) (n : Fin 8),
    (∀ bytes, linkFrameOk bytes = false → Completes (.badFrame ⟨n, bytes⟩) s (fun t =>
      t.dev.fget (pgLink n) Reg.LINK.RX_BAD = satAdd (2 ^ Reg.LINK.RX_BAD.w - 1) (s.dev.fget (pgLink n) Reg.LINK.RX_BAD) 1 ∧
      t.dev.fget (pgLink n) Reg.LINK.BAD_FRAME = 1 ∧ { t with dev := { t.dev with regs := s.dev.regs } } = s)) ∧
    (∀ tag q, (s.dev.sp n).drv.cmOut.find? (fun q => q.tag == tag) = some q →
      (3 ≤ q.resends → Leads (.cmReqTimeout n tag) s n (fun d => d = s.dev.cmEnds n false)) ∧
      (q.resends < 3 → Leads (.cmReqTimeout n tag) s n (fun d => d = (((s.dev.modDrv n (fun x => { x with
        cmOut := x.cmOut.map (fun p => if p.tag = tag then { p with resends := p.resends + 1 } else p) })).cmResend n q).bump
          (pgLink n) Reg.LINK.CM_RETRY 1)))) ∧
    (∀ tag, (s.dev.sp n).drv.cmOut.find? (fun q => q.tag == tag) = none →
      exec (.cmReqTimeout n tag) s = .next (s.modDev (fun d => d.follow n))) ∧
    Completes (.rxLockAcquired n) s (fun t => t.dev.fget (pgLink n) Reg.LINK.RX_LOCK = 1 ∧ { t with dev := { t.dev with regs := s.dev.regs } } = s) ∧
    Completes (.rxLockLost n) s (fun t => t.dev.fget (pgLink n) Reg.LINK.RX_LOCK = 0 ∧ { t with dev := { t.dev with regs := s.dev.regs } } = s))

/-! ### The read channel, sheets, the ladder (chapters 4, 8, 9) -/

/-- On an enabled lane the AGC moves GAIN one step at a time, never above 120 and not at all in HOLD, and the timing loop stays within
±3.0 %, its frequency frozen in HOLD (R206, R209). A segment that comes due outside gap search, on a lane that does not hunt, goes to the
pick of the tiles; where every tile is full it is dropped with SEG_DROP on each; the context moves on, and after the last position of
its sheet the lane goes into gap search (R216, R218). A disabled lane takes no part. When its last sample arrives, the tries of R213 are
made, unless it was dropped; a header found leaves the segment with its tile, ready, and governs the lane's context (R215); without one
the segment is not decoded and HDR_FAIL_CNT counts (R214). Tone in a segment slot of a rewrite area takes the lane into gap search (R216). On a
lane with nothing due outside gap search nothing happens.
Of the model itself: log entries 25, 34. -/
def Obligations.Segments : Prop :=
  (∀ (target gain : Nat) (held : Bool) (c : LaneCtx) (o : LoopObs), gain ≤ 120 →
    (agcStep target (c, held, gain) o).2.2 ≤ 120 ∧ (agcStep target (c, held, gain) o).2.2 ≤ gain + 1 ∧
    gain ≤ (agcStep target (c, held, gain) o).2.2 + 1 ∧
    ((agcStep target (c, held, gain) o).2.1 = true → (agcStep target (c, held, gain) o).2.2 = gain ∧
      (loopStep true c o).freq = c.freq) ∧ (loopStep false c o).freq.natAbs ≤ 64424509) ∧
  (∀ (s : State) (n : Fin 8) (l : Fin 64) (amp late early : List Nat) (obs : List LoopObs), obs = LoopObs.join amp late early →
    (s.dev.fon (lfe n l) (Reg.LANEFE.ENABLE (l % 16)) = false → exec (.segmentDue n l amp late early) s = .next s) ∧
    (s.dev.fon (lfe n l) (Reg.LANEFE.ENABLE (l % 16)) = true → ∀ (d : Dev) (x : TileSeg) (a : Nat → Dev), d = s.dev.loops n l obs →
      ((d.rd n).lane l).mode = .locked → ((d.rd n).lane l).inArea = false →
      x = { lane := l, seg := ⟨((d.rd n).lane l).sheet, 64 * ((d.rd n).lane l).pos + l, ((d.rd n).lane l).gen, 0, false⟩,
            kind := ((d.rd n).lane l).kind, inArea := false, first := ((d.rd n).lane l).first, cap := d.inlineCap n } →
      (∀ t, a t = (d.setTile n t ((d.rd n).tileOf t ++ [x])).modLane n l (fun c => { c with first := false })) →
      (∀ t, d.pickTile n = some t → ((d.rd n).lane l).pos < 31 →
        exec (.segmentDue n l amp late early) s = .next (s.modDev (fun _ => (a t).modLane n l (fun c => { c with pos := c.pos + 1 })))) ∧
      (∀ t, d.pickTile n = some t → ((d.rd n).lane l).pos = 31 →
        exec (.segmentDue n l amp late early) s = .next (s.modDev (fun _ => ((a t).modLane n l (fun c => { c with pos := 0 })).laneMode n l .gap))) ∧
      (d.pickTile n = none → Completes (.segmentDue n l amp late early) s (fun u => ∀ t < 9, u.dev.fget (pgDetect n t) Reg.DETECT.SEG_DROP = 1)))) ∧
  (∀ (s : State) (n : Fin 8) (l : Fin 64) (dist : List (Int × Nat)) (hdr : List (Int × List Bool)) (tone : Bool) (samples : List Int),
    ((s.dev.rd n).arriving l = none → ((s.dev.rd n).lane l).mode ≠ .gap → exec (.segmentArrived n l dist hdr tone samples) s = .next s) ∧
    (∀ t x, (s.dev.rd n).arriving l = some t → ((s.dev.rd n).tileOf t).find? (fun y => y.lane == l.val && !y.ready) = some x →
      (tone = true → x.inArea = true → exec (.segmentArrived n l dist hdr tone samples) s = .next (s.modDev (fun d =>
        ((d.setTile n t (updSeg l (fun _ => none) ((d.rd n).tileOf t))).modLane n l (fun c => { c with inArea := false })).laneMode n l .gap))) ∧
      (tone = false ∨ x.inArea = false → ∀ r : Aligned,
        r = (if t = 9 then unsearched else s.dev.searchOf n l x.first dist hdr) → ∀ e : Dev, e = (s.dev.laneCount n l r).positionSeen n l r.hdr.isSome →
        (∀ h, r.hdr = some h → exec (.segmentArrived n l dist hdr tone samples) s = .next (s.modDev (fun _ =>
          (e.setTile n t (updSeg l (fun y => some { y with
            ready := true, seg := h.id, kind := h.kind, inArea := h.kind == 5 || h.rwslot != 0, freewheel := r.freewheel,
            altAlign := r.altAlign, align := r.ofs, samples := samples }) ((e.rd n).tileOf t))).rebase n l h r.ofs))) ∧
        (r.hdr = none → Completes (.segmentArrived n l dist hdr tone samples) s (fun u =>
          u.dev.fget (lfe n l) (Reg.LANEFE.HDR_FAIL_CNT (l % 16)) =
            satAdd (2 ^ (Reg.LANEFE.HDR_FAIL_CNT (l % 16)).w - 1) (s.dev.fget (lfe n l) (Reg.LANEFE.HDR_FAIL_CNT (l % 16))) 1)))))

/-- The header tries take at most the two nearest of the offsets examined whose distance is within the threshold, and the flywheel
alignment, and a header is used only if it passes at the alignment tried; it is FREEWHEEL exactly where there was no candidate (R213). A
tile finishes its oldest ready segment and no other: CONVERGED is what the checks of the descrambled codeword say, and ITERS is at most
the cap, and equal to it where the codeword did not converge (R89, R219); the segment counts, and the row is delivered (R222, R231).
Of the model itself: log entries 25, 34. -/
def Obligations.HeadersAndTiles : Prop :=
  (∀ (l thresh : Nat) (examined : Int → Bool) (dist : List (Int × Nat)) (hdr : List (Int × List Bool)),
    (∀ h, (alignOf l examined thresh dist hdr).hdr = some h → headerAt l hdr (alignOf l examined thresh dist hdr).ofs = some h ∧
      (alignOf l examined thresh dist hdr).ofs ∈ triesOf (candsOf examined thresh dist)) ∧
    (∀ k ∈ triesOf (candsOf examined thresh dist), k = 0 ∨ (∃ p ∈ dist, p.1 = k ∧ examined k = true ∧ p.2 ≤ thresh)) ∧
    ((triesOf (candsOf examined thresh dist)).length ≤ 3) ∧
    ((alignOf l examined thresh dist hdr).hdr ≠ none →
      ((alignOf l examined thresh dist hdr).freewheel = true ↔ candsOf examined thresh dist = []))) ∧
  (∀ (o : TileOut) (seg : SegId) (lane cap : Nat) (fw alt : Bool),
    ((tileResult o seg lane cap fw alt).converged = true ↔ o.bits.length = 36864 ∧ c1Check (tileWord o seg lane) = true) ∧
    (tileResult o seg lane cap fw alt).iters ≤ cap ∧
    ((tileResult o seg lane cap fw alt).converged = false → (tileResult o seg lane cap fw alt).iters = cap)) ∧
  (∀ (s : State) (n : Fin 8) (t : Fin 9) (o : TileOut),
    (((s.dev.rd n).tileOf t).find? (·.ready) = none → exec (.tileDecodeDone n t o.bits o.iters o.llr) s = .next s) ∧
    (∀ x, ((s.dev.rd n).tileOf t).find? (·.ready) = some x → s.dev.unsettled (pgDetect n t) = false → s.dev.unsettled (pgDecode n t) = false →
      s.dev.unsettled (lfe n x.lane) = false → ∀ r : SegResult, r = tileResult o x.seg x.lane x.cap x.freewheel x.altAlign →
      Completes (.tileDecodeDone n t o.bits o.iters o.llr) s (fun u =>
        (u.dev.rd n).tileOf t = ((s.dev.rd n).tileOf t).erase x ∧
        u.dev.fget (pgDecode n t) Reg.DECODE.LAST_ITERS = r.iters % 2 ^ Reg.DECODE.LAST_ITERS.w ∧
        u.dev.fget (pgDecode n t) Reg.DECODE.SEGS_DECODED =
          satAdd (2 ^ Reg.DECODE.SEGS_DECODED.w - 1) (s.dev.fget (pgDecode n t) Reg.DECODE.SEGS_DECODED) 1 ∧
        (r.converged = true → u.dev.fget (pgDecode n t) Reg.DECODE.CONV_CNT =
          satAdd (2 ^ Reg.DECODE.CONV_CNT.w - 1) (s.dev.fget (pgDecode n t) Reg.DECODE.CONV_CNT) 1) ∧
        (r.converged = false → u.dev.fget (pgDecode n t) Reg.DECODE.NONCONV = 1))))

/-- A lane in gap search that meets the low tone begins its sheet at position 0, locked, its first segment searched for from the tone on
(R216). A locked lane without a candidate four times hunts (R217). A spoke that has seen 64 positions without a header loses sync on all its tiles, and
every lane goes into gap search (R217).
Of the model itself: log entry 34. -/
def Obligations.GapHuntAndSync : Prop :=
  ∀ (s : State) (n : Fin 8) (l : Fin 64) (place : Int),
    (((s.dev.rd n).lane l).mode ≠ .gap → exec (.lowTone n ⟨l, place⟩) s = .next s) ∧
    (((s.dev.rd n).lane l).mode = .gap → exec (.lowTone n ⟨l, place⟩) s = .next (s.modDev (fun d =>
      (d.modLane n l (fun c => { c with
        sheet := ((s.dev.rd n).toneSheet l).sheet, gen := ((s.dev.rd n).toneSheet l).gen, kind := ((s.dev.rd n).toneSheet l).kind,
        pos := 0, inArea := false, misses := 0, known := true, first := true, place := place })).laneMode n l .locked))) ∧
    (((s.dev.rd n).lane l).mode = .locked → 4 ≤ ((s.dev.rd n).lane l).misses →
      exec (.hunt n l) s = .next (s.modDev (fun d => d.laneMode n l .hunt))) ∧
    (((s.dev.rd n).lane l).mode ≠ .locked ∨ ((s.dev.rd n).lane l).misses < 4 → exec (.hunt n l) s = .next s) ∧
    (64 ≤ (s.dev.rd n).noHeader → Leads (.spokeSyncLost n) s n (fun d => ∃ d1 : Dev, d = d1.recovBlank n ∧
      d1.fget (pgDet0 n) Reg.DETECT.SPOKE_SYNC = 0 ∧ (∀ t < 9, d1.fget (pgDetect n t) Reg.DETECT.SYNC_LOST = 1) ∧ (d1.rd n).noHeader = 0 ∧
      ∀ k < 64, ((d1.rd n).lane k).mode = .gap)) ∧
    ((s.dev.rd n).noHeader < 64 → Leads (.spokeSyncLost n) s n (fun d => d = s.dev.recovBlank n))

/-- While the spoke does not read for the host, a sheet that passes closes its map and counts in the lanes' health (R224, R226); while it
reads, the sheet is met, counts in SHEETS_READ, and one that no decode has had waits for the decoder (R97). A decode that resolves the sheet
is its last; one that does not is final when it was the second (R97). A sheet decoded once and not resolved is due again when the two
slots after it have passed. A replay takes the next held record of the rung to a free tile and shows ACTIVE; one without a free or
serviceable tile does not begin; at its end ACTIVE clears, its result is a copy of the row, and the next record
follows; after the last of rung 1 the sheet is decoded again where a row was gained, and otherwise the rung is over (R236, R238).
Of the model itself: log entries 3, 25, 50. -/
def Obligations.SheetDecodesAndReplays : Prop :=
  (∀ (s : State) (n : Fin 8) (num gen kind : Nat) (d1 : Dev), d1 = ((s.dev.closeMap n num gen kind).healthCopy n).boostsDue n → d1.hostCal n = true →
    ((d1.sp n).drv.reading = false → Leads (.sheetPassed n num gen kind) s n (fun d => d = d1)) ∧
    (∀ (d2 : Dev) (x : RSheet), (d1.sp n).drv.reading = true → (d1.lad n).phase = .idle → (d1.rd n).stopped = false → (d1.rd n).stopAt = none →
      d2 = (((d1.modUsage n (fun u => { u with sheetsRead := u.sheetsRead + 1 })).meetSheet n num kind gen).modRd n (fun r =>
        { r with nextSheet := max r.nextSheet (num + 1), gaps := if r.nextSheet < num then r.gaps ++ [(r.nextSheet, num)] else r.gaps })).modRd n
          (fun r => { r with lastPassed := some num }) →
      (d2.rd n).sheet? num = some x → x.decodes = 0 → Leads (.sheetPassed n num gen kind) s n (fun d =>
        d = (d2.modSheetR n num (fun z => { z with passed := true, kind := kind })).c2Next n))) ∧
  (∀ (s : State) (n : Fin 8),
    ((s.dev.rd n).sheets.find? (·.busy) = none → Leads (.c2DecodeDone n) s n (fun d => d = s.dev)) ∧
    (∀ (x : RSheet) (y : SheetDecode) (e : Dev), (s.dev.rd n).sheets.find? (·.busy) = some x → s.dev.unsettled (pgVerify n) = false →
      y = c2Sheet x.rows (inlineErasures x.rows) x.limit →
      e = (s.dev.bump (pgVerify n) Reg.HEADER.UNITS 1).modSheetR n x.num (fun z => { z.decoded y with busy := false }) →
      Leads (.c2DecodeDone n) s n (fun d =>
        (y.resolved = true → d = ((((e.c2Regs n x y).sheetResolved n x.num).modSheetR n x.num RSheet.takeLate).c2Next n)) ∧
        (y.resolved = false → x.decodes < 2 → d = (e.modSheetR n x.num RSheet.takeLate).c2Next n) ∧
        (y.resolved = false → 2 ≤ x.decodes → ∀ z, (((e.c2Regs n x y).modSheetR n x.num (fun t => { t with final := true })).rd n).sheet? x.num = some z →
          d = ((((e.c2Regs n x y).modSheetR n x.num (fun t => { t with final := true })).learnIndex n z).modSheetR n x.num RSheet.takeLate).c2Next n))) ∧
    (∀ num x, (s.dev.lad n).phase = .idle → (s.dev.rd n).stopAt = none → (s.dev.rd n).sheet? num = some x → x.decodes = 1 → x.final = false →
      x.busy = false → Leads (.secondDecode n num) s n (fun d => d = (s.dev.modSheetR n num (fun z => { z with again := true })).c2Next n))) ∧
  (∀ (s : State) (n : Fin 8) (t : Fin 9),
    ((s.dev.lad n).phase = .replay → (s.dev.lad n).replay = none → s.dev.tileTakes n t = true → s.dev.takesWork (pgSh n) = true →
      ((s.dev.rd n).tileOf t) = [] → (∀ k < 9, ((s.dev.rd n).tileOf k).length ≤ 8) → ∀ slot c, s.dev.nextReplay n (s.dev.lad n).inRung = some (slot, c) →
      Leads (.replayStart n t) s n (fun d =>
        d = (s.dev.modLad n (fun l => { l with replay := some (t.val, slot) })).fset (pgDetect n t) Reg.DETECT.ACTIVE 1)) ∧
    (s.dev.tileTakes n t = false → Leads (.replayStart n t) s n (fun d => d = s.dev)) ∧
    (∀ (o : TileOut) hdr, (s.dev.lad n).replay = none → Leads (.replayDone n ⟨o.iters, o.llr⟩ o.bits hdr) s n (fun d => d = s.dev)) ∧
    (∀ (o : TileOut) hdr k slot, (s.dev.lad n).replay = some (k, slot) → (s.dev.rd n).hold.find? (fun p => p.1 == slot) = none →
      Leads (.replayDone n ⟨o.iters, o.llr⟩ o.bits hdr) s n (fun d =>
        d = ((s.dev.modLad n (fun l => { l with replay := none })).fset (pgDetect n k) Reg.DETECT.ACTIVE 0).bump (pgSh n) Reg.HEADER.UNITS 1)) ∧
    (∀ (o : TileOut) hdr k slot (c : CapRec) (e : Dev), (s.dev.lad n).replay = some (k, slot) →
      (s.dev.rd n).hold.find? (fun p => p.1 == slot) = some (slot, c) →
      s.dev.unsettled (pgSh n) = false → s.dev.unsettled (pgDetect n k) = false → s.dev.unsettled (pgDecode n k) = false →
      (s.dev.lad n).inRung = 1 →
      (∀ r : SegResult, r = tileResult o c.seg c.lane (s.dev.lad n).lim.iters c.freewheel c.altAlign →
        e = (((((s.dev.modLad n (fun l => { l with replay := none })).fset (pgDetect n k) Reg.DETECT.ACTIVE 0).bump (pgSh n) Reg.HEADER.UNITS 1).modRd n
          (fun r => { r with hold := r.hold.map (fun p => if p.1 == slot then (p.1, { p.2 with tried := p.2.tried + 1 }) else p) })).tileCount n k r).deliverRow n
            c.seg c.kind { converged := r.converged, suspect := false, llr := r.llr, data := tileRow o c.seg c.lane, iters := r.iters,
                           freewheel := r.freewheel, altAlign := r.altAlign, gen := c.seg.gen, rwslot := c.seg.rwslot } true) →
      Leads (.replayDone n ⟨o.iters, o.llr⟩ o.bits hdr) s n (fun d =>
        ((e.nextReplay n 1).isSome = true → d = e) ∧
        ((e.nextReplay n 1).isSome = false → (e.lad n).gained = true →
          (d.lad n).phase = .decode ∧ (d.sp n).drv = (e.sp n).drv) ∧
        ((e.nextReplay n 1).isSome = false → (e.lad n).gained = false → d = e.afterRung n))))

/-- The ladder's own decode gives the sheet what C2 makes of its rows (R96, R233). A rebuild from the other members counts and resolves the
sheet, or counts as failed and ends the rung (R99). NEXT acts only while the ladder waits for the host: HANDOVER lets it climb on by itself, a rung
ordered runs where it has work and else the ladder waits again, RAW holds the sheet and declares it unreadable, UNREADABLE declares it
(R243, R245); a wait that runs out is as UNREADABLE.
Of the model itself: log entry 30. -/
def Obligations.LadderSteps : Prop :=
  ∀ (s : State) (a : Accessor) (n k : Fin 8),
    (∀ x, (s.dev.rd n).sheet? (s.dev.lad n).work = some x → (s.dev.lad n).phase = .decode → (s.dev.lad n).rung = 0 → s.dev.unsettled (pgVerify n) = false →
      Leads (.ladderDecodeDone n) s n (fun d =>
        d = s.dev.modSheetR n x.num (fun t => t.decoded (c2Sheet x.rows (inlineErasures x.rows) x.limit)))) ∧
    ((s.dev.rd n).sheet? (s.dev.lad n).work = none → Leads (.ladderDecodeDone n) s n (fun d => d = s.dev)) ∧
    (∀ (x : RSheet) (e : Dev), (s.dev.rd n).sheet? (s.dev.lad n).work = some x → (s.dev.lad n).phase = .decode →
      1 ≤ (s.dev.lad n).rung → (s.dev.lad n).rung < 5 → s.dev.unsettled (pgVerify n) = false →
      e = s.dev.modSheetR n x.num (fun t => t.decoded (c2Sheet x.rows (inlineErasures x.rows) x.limit)) →
      Leads (.ladderDecodeDone n) s n (fun d => d = e.decodeOver n)) ∧
    (∀ rows, (s.dev.lad n).phase = .rebuild → (s.dev.lad n).stage = 4 → (s.dev.lad n).wanted = [] → s.dev.rebuild n (s.dev.lad n).sheet = some rows →
      Leads (.c3RebuildDone n) s n (fun d => d = ((((s.dev.fset (pgVerify n) Reg.VERIFY.C3_DONE 1).bump (pgVerify n) Reg.VERIFY.C3_RECON 1).modSheetR
        n (s.dev.lad n).sheet (fun x => { x with fixed := rows, failed := [], allFailed := false })).ladderResolved n))) ∧
    ((s.dev.lad n).phase = .rebuild → (s.dev.lad n).stage = 4 → (s.dev.lad n).wanted = [] → s.dev.rebuild n (s.dev.lad n).sheet = none →
      Leads (.c3RebuildDone n) s n (fun d =>
        d = ((s.dev.fset (pgVerify n) Reg.VERIFY.C3_FAIL 1).bump (pgVerify n) Reg.VERIFY.C3_FAILED 1).rungOver n)) ∧
    (s.dev.access a (pgSh n) = .open → (s.dev.lad n).phase ≠ .waitHost →
      Leads (.ladderStepHandover a n) s n (fun d => d = s.dev) ∧ Leads (.ladderStepRung a n k) s n (fun d => d = s.dev) ∧
      Leads (.ladderStepRaw a n) s n (fun d => d = s.dev) ∧ Leads (.ladderStepUnreadable a n) s n (fun d => d = s.dev)) ∧
    (s.dev.access a (pgSh n) = .open → (s.dev.lad n).phase = .waitHost →
      Leads (.ladderStepHandover a n) s n (fun d =>
        d = (s.dev.modLad n (fun l => { l with auto := true, phase := .decode })).climb n 9 ((s.dev.lad n).top + 1)) ∧
      (∀ e : Dev, e = s.dev.modLad n (fun l => { l with stepped := true, auto := false, rung := k + 1, phase := .decode }) →
        Leads (.ladderStepRung a n k) s n (fun d =>
          (e.startRung n (k + 1) = none → d = (e.modLad n (fun l => { l with top := max l.top (k + 1) })).waitHost n) ∧
          (∀ f, e.startRung n (k + 1) = some f → f.rungRuns n = true → d = f) ∧
          (∀ f, e.startRung n (k + 1) = some f → f.rungRuns n = false → d = f.waitHost n))) ∧
      Leads (.ladderStepRaw a n) s n (fun d => d = ((s.dev.holdRaw n).declareUnreadable n (s.dev.lad n).sheet).ladderIdle n) ∧
      Leads (.ladderStepUnreadable a n) s n (fun d => d = (s.dev.declareUnreadable n (s.dev.lad n).sheet).ladderIdle n) ∧
      (s.dev.fget (pgSh n) Reg.SAMPLEHOLD.HOST_WAIT ≠ 0 →
        Leads (.hostWaitExpiry n) s n (fun d => d = (s.dev.declareUnreadable n (s.dev.lad n).sheet).ladderIdle n))) ∧
    (s.dev.fget (pgSh n) Reg.SAMPLEHOLD.HOST_WAIT = 0 → Leads (.hostWaitExpiry n) s n (fun d => d = s.dev))

/-! ### The press (chapters 5, 13) -/

/-- A record starts once enough of it has landed, START_THRESH or the whole of it, and its stream has a lead engine, whose fingerprint unit then
shows FP_BUSY (R121, R122, R133); without such a record nothing happens. Chunk by chunk the unit takes the record; at its end the last block
is closed, in an empty block where no further byte is left (R108, R114). The oldest queued block of all streams that may code goes to a free
engine of the press, which is then ACTIVE; at the end the engine is free, the block counts, RAW_BLOCKS too where it stays raw (R109, R122,
R133), and it goes to the output, or, of an encrypted stream, to a frame. An engine that waits for a buffer goes on (R124).
Of the model itself: log entries 25, 30. -/
def Obligations.RecordsAndBlocksCoded : Prop :=
  (∀ (s : State) (st : Nat),
    (findRec (fun r => r.stream == st && !r.started && !r.cut) s.dev.recs = none →
      exec (.compressStart st) s = .next (s.modDev (fun d => d.released'))) ∧
    (∀ i r, findRec (fun r => r.stream == st && !r.started && !r.cut) s.dev.recs = some i → s.dev.recs.getD i { stream := 0, spoke := 0 } = r →
      (r.mayStart = true ↔ (r.more = false ∧ r.num ≠ none) ∨ (r.startThresh ≠ 0 ∧ 1024 * r.startThresh ≤ r.len)) ∧
      (r.mayStart = false → exec (.compressStart st) s = .next (s.modDev (fun d => d.released'))) ∧
      (r.mayStart = true → ((s.dev.takeLead st).stream st).lead = none →
        exec (.compressStart st) s = .next (s.modDev (fun d => (d.takeLead st).released'))) ∧
      (∀ e, r.mayStart = true → ((s.dev.takeLead st).stream st).lead = some e → exec (.compressStart st) s = .next (s.modDev (fun d =>
        (((d.takeLead st).modRec i (fun r => { r with started := true })).fpShow e).released')))) ∧
    (findRec (fun r => r.stream == st && r.started && !r.cut) s.dev.recs = none →
      exec (.fingerprintStep st) s = .next (s.modDev (fun d => d.released'))) ∧
    (∀ i r, findRec (fun r => r.stream == st && r.started && !r.cut) s.dev.recs = some i → s.dev.recs.getD i { stream := 0, spoke := 0 } = r →
      ((s.dev.piecesBytes r.src).drop r.pos = [] → r.more = false → r.num ≠ none →
        exec (.fingerprintStep st) s = .next (s.modDev (fun d =>
          (({ d with blkSeq := d.blkSeq + 1 }.modRec i (fun x => x.closeBlock d.blkSeq x.pos true)).recChunked i).released'))) ∧
      (∀ l k, (s.dev.piecesBytes r.src).drop r.pos = l → l ≠ [] → chunkAt l 0 0 = (k, true) →
        exec (.fingerprintStep st) s = .next (s.modDev (fun d =>
          (d.takeChunk i (l.take k) true ((!r.more && r.num.isSome) && k == l.length)).released'))) ∧
      (∀ l k, (s.dev.piecesBytes r.src).drop r.pos = l → l ≠ [] → chunkAt l 0 0 = (k, false) →
        (r.more = false → r.num ≠ none → exec (.fingerprintStep st) s = .next (s.modDev (fun d => (d.takeChunk i l false true).released'))) ∧
        (r.more = true ∨ r.num = none → exec (.fingerprintStep st) s = .next (s.modDev (fun d => d.released')))))) ∧
  (∀ (l : List (Nat × Nat × Nat)) (p : Nat × Nat), oldestBlk l = some p → ∃ q, (q, p) ∈ l ∧ ∀ x ∈ l, q ≤ x.1) ∧
  (∀ (s : State) (e : Fin 17),
    (s.dev.compFree e = false → exec (.blockDispatch e) s = .next (s.modDev (fun d => d.released'))) ∧
    (∀ i k, s.dev.compFree e = true → oldestBlk (s.dev.codable e) = some (i, k) → exec (.blockDispatch e) s = .next (s.modDev (fun d =>
      ((d.modBlk i k (fun b => { b with st := .coding e, eng := e })).fset (pgComp e) Reg.COMP.ACTIVE 1).released'))) ∧
    (s.dev.fon (pgComp e) Reg.COMP.WAIT_BUF = false → exec (.compBufferRetry e) s = .next (s.modDev (fun d => d.released'))) ∧
    (∀ i k, s.dev.fon (pgComp e) Reg.COMP.WAIT_BUF = true →
      findRecBlk (fun r => match r.blks with | b :: _ => b.eng == e.val && b.st == .finished | [] => false) (fun _ => true) s.dev.recs = some (i, k) →
      exec (.compBufferRetry e) s = .next (s.modDev (fun d => ((d.fset (pgComp e) Reg.COMP.WAIT_BUF 0).flush i).released')))) ∧
  (∀ (s : State) (e : Fin 17) (body : List Byte),
    (findRecBlk (fun _ => true) (fun b => b.st == .coding e) s.dev.recs = none →
      exec (.blockCoded e body) s = .next (s.modDev (fun d => d.released'))) ∧
    (∀ (i k : Nat) (r : PRec) (b : PBlk) (host : List Byte) (x : List Byte × Bool),
      findRecBlk (fun _ => true) (fun b => b.st == .coding e) s.dev.recs = some (i, k) → s.dev.unsettled (pgComp e) = false →
      r = s.dev.recs.getD i { stream := 0, spoke := 0 } → b = s.dev.blk i k → host = ((s.dev.piecesBytes r.src).drop b.off).take b.len →
      x = blockBytes r.coding (s.dev.fget (pgComp e) Reg.COMP.MATCH_DEPTH != 0) b host body →
      ∃ d1 : Dev, exec (.blockCoded e body) s = .next (s.modDev (fun _ => ((d1.modBlk i k (fun b =>
          { b with st := if r.enc then .toCrypt else .finished, bytes := x.1,
                   outClass := outClassEff (s.dev.fget (pgComp e) Reg.COMP.OUT_CLASS) })).flush i).released')) ∧
        d1.fget (pgComp e) Reg.COMP.ACTIVE = 0 ∧
        d1.fget (pgComp e) Reg.COMP.BLOCKS = satAdd (2 ^ Reg.COMP.BLOCKS.w - 1) (s.dev.fget (pgComp e) Reg.COMP.BLOCKS) 1 ∧
        (x.2 = false → host ≠ [] → d1.fget (pgComp e) Reg.COMP.RAW_BLOCKS =
          satAdd (2 ^ Reg.COMP.RAW_BLOCKS.w - 1) (s.dev.fget (pgComp e) Reg.COMP.RAW_BLOCKS) 1) ∧
        d1.recs = s.dev.recs))

/-- Every block is coded and then compared (R109): the coded form is kept exactly where the stream codes, it stands for the block and it is
shorter than raw; any other block of bytes is stored raw; the blocks of a record are together never longer than its host bytes and 16
bytes a block; with CODING 0 every block of bytes is stored raw. -/
def Obligations.BlocksNeverGrow : Prop :=
  (∀ (coding near : Bool) (l : List (PBlk × List Byte × List Byte)),
    ((l.map (fun x => (blockBytes coding near x.1 x.2.1 x.2.2).1.length)).foldl (· + ·) 0 ≤
      (l.map (fun x => x.2.1.length)).foldl (· + ·) 0 + 16 * l.length)) ∧
  (∀ (near : Bool) (b : PBlk) (host body : List Byte), host ≠ [] → (blockBytes false near b host body).2 = false ∧
    (blockBytes false near b host body).1.drop 16 = host) ∧
  ∀ (coding near : Bool) (b : PBlk) (host body : List Byte), host ≠ [] →
    ((blockBytes coding near b host body).2 = true → (blockBytes coding near b host body).1.length < host.length + 16) ∧
    ((blockBytes coding near b host body).2 = false → (blockBytes coding near b host body).1.length = host.length + 16 ∧
      (blockBytes coding near b host body).1.drop 16 = host) ∧
    ((blockBytes coding near b host body).2 = true ↔ coding = true ∧ body.length + 16 < host.length + 16 ∧ bodyOk near host body b.refs = true)

/-- A stored block of a read goes to a free engine, which is then ACTIVE, the reads in turn (R13, R126). At its end the block is decoded,
where no block of its stream stands before it or it has no far reference; one with a far reference waits, and goes on when it stands first (R126). A
suspended engine goes on with the next destination (R127); with none nothing happens. A serviceable instance of CRYPT, not quiescing, encrypts the
next block under its slot's counter, which moves on by one; at the counter's end its stream ends (R361). It checks and decrypts the next
frame of a read: one that is in order gives its block, and counts; one that fails is checked once more, and then given up, with FAIL_STREAM
(R364). An instance that takes no work does nothing.
Of the model itself: log entries 10, 25, 36. -/
def Obligations.BlocksDecodedAndFrames : Prop :=
  (∀ (s : State) (e : Fin 17),
    (s.dev.decompFree e = false → exec (.decompDispatch e) s = .next (s.modDev (fun d => d.released'))) ∧
    (∀ n i, s.dev.decompFree e = true → s.dev.nextRBlk (pgDecomp e) (fun b => b.st == .ncf && b.failedOn != some e.val) = some (n, i) →
      exec (.decompDispatch e) s = .next (s.modDev (fun d =>
        (((d.grant (pgDecomp e) 8 n).modRBlk n i (fun b => { b with st := .coding e, eng := e })).fset (pgDecomp e) Reg.DECOMP.ACTIVE 1).released'))) ∧
    (s.dev.findRBlk (fun b => b.st == .coding e) = none → exec (.decompBlockDone e) s = .next s) ∧
    (∀ n i r b, s.dev.findRBlk (fun b => b.st == .coding e) = some (n, i) → s.dev.rs n = some r → r.blks[i]? = some b →
      (i = 0 ∨ b.usesFar = false → exec (.decompBlockDone e) s = .next (s.modDev (fun d =>
        ((d.bump (pgDecomp e) Reg.HEADER.UNITS 1).decodeAt n i e).follow n))) ∧
      (i ≠ 0 → b.usesFar = true → exec (.decompBlockDone e) s = .next (s.modDev (fun d =>
        ((d.modRBlk n i (fun b => { b with st := .waitFar e })).fset (pgDecomp e) Reg.DECOMP.WAIT_FAR 1).follow n)))) ∧
    (s.dev.findRBlk (fun b => b.st == .waitFar e) = none →
      exec (.farReferenceResume e) s = .next (s.modDev (fun d => d.fset (pgDecomp e) Reg.DECOMP.WAIT_FAR 0))) ∧
    (∀ n i, s.dev.findRBlk (fun b => b.st == .waitFar e) = some (n, i) →
      (i = 0 → exec (.farReferenceResume e) s = .next (s.modDev (fun d =>
        ((((d.fset (pgDecomp e) Reg.DECOMP.WAIT_FAR 0).bump (pgDecomp e) Reg.HEADER.UNITS 1).decodeAt n 0 e).follow n)))) ∧
      (i ≠ 0 → exec (.farReferenceResume e) s = .next (s.modDev (fun d => d.follow n)))) ∧
    (∀ n r, n < 8 → s.dev.rs n = some r → r.susp = some e.val → r.raw = false → 0 < r.left →
      (∀ m < n, ∀ x, s.dev.rs m = some x → x.susp ≠ some e.val ∨ x.raw = true ∨ x.left = 0) →
      exec (.decompResume e) s = .next (s.modDev (fun d =>
        ((d.fset (pgDecomp e) Reg.DECOMP.SUSPENDED 0).modRs n (fun r => { r with susp := none, mid := none })).follow n))) ∧
    ((∀ m < 8, ∀ x, s.dev.rs m = some x → x.susp ≠ some e.val ∨ x.raw = true ∨ x.left = 0) → exec (.decompResume e) s = .next s)) ∧
  (∀ (s : State) (c : Fin 2),
    (s.dev.serviceable (pgCrypt c) = false ∨ s.dev.takesWork (pgCrypt c) = false →
      exec (.frameEncrypt c) s = .next (s.modDev (fun d => d.released')) ∧ exec (.frameDecrypt c) s = .next s) ∧
    (∀ (n i k : Nat) (r : PRec) (g : Dev), s.dev.serviceable (pgCrypt c) = true → s.dev.takesWork (pgCrypt c) = true →
      s.dev.unsettled (pgCrypt c) = false → s.dev.toEncrypt c = some (n, i, k) → r = s.dev.recs.getD i { stream := 0, spoke := 0 } →
      g = s.dev.grant (pgCrypt c) 8 n →
      ((s.dev.slot r.slot).ivCount < 2 ^ 64 → exec (.frameEncrypt c) s = .next (s.modDev (fun _ =>
        (((((g.modSlot r.slot (fun x => { x with ivCount := x.ivCount + 1 })).modBlk i k (fun b => { b with
          st := .finished, bytes := makeFrame (s.dev.slot r.slot) (s.dev.blk i k).first (s.dev.blk i k).last (s.dev.blk i k).bytes })).bump
            (pgCrypt c) Reg.CRYPT.FRAMES_ENC 1).bump (pgCrypt c) Reg.HEADER.UNITS 1).flush i).released'))) ∧
      (2 ^ 64 ≤ (s.dev.slot r.slot).ivCount → exec (.frameEncrypt c) s = .next (s.modDev (fun _ =>
        ((g.fset (pgCrypt c) Reg.CRYPT.COUNTER_END 1).exhaustStream r.stream).released')))) ∧
    (∀ (n i : Nat) (r : ReadSt) (b : RBlk) (g : Dev), s.dev.serviceable (pgCrypt c) = true → s.dev.takesWork (pgCrypt c) = true →
      s.dev.unsettled (pgCrypt c) = false → s.dev.nextRBlk (pgCrypt c) (fun b => b.st == .frame) = some (n, i) →
      s.dev.rs n = some r → r.blks[i]? = some b → g = s.dev.grant (pgCrypt c) 8 n → ∀ f : Except FrameFault (List Byte),
      f = openFrame (s.dev.slot (parSlot r.par)) b.first (r.whole && r.buf.isEmpty && i + 1 == r.blks.length) r.lastIv b.bytes →
      exec (.frameDecrypt c) s = .next (s.modDev (fun _ => Dev.follow (match f with
        | .ok p => (((g.modRs n (fun r => { r with lastIv := some (frameCounter b.bytes) })).modRBlk n i (fun b =>
            { b with st := .ncf, bytes := p, failedOn := none })).bump (pgCrypt c) Reg.CRYPT.FRAMES_DEC 1).bump (pgCrypt c) Reg.HEADER.UNITS 1
        | .error x => if b.failedOn = none then (g.frameFails c x).modRBlk n i (fun b => { b with failedOn := some c })
            else ((g.frameFails c x).modRBlk n i (fun b => { b with st := .done, bad := true })).fset (pgCrypt c) Reg.CRYPT.FAIL_STREAM r.stream) n))))

/-! ### The chest, the pool and buffers (chapter 10) -/

/-- A read of a word (R253, R256, R257, R259): an invalid page answers zeros and counts in ZERO_READS; a word whose eight syndromes are
good changes nothing but the count of accesses; the first corrected lane and the lowest uncorrectable lane are recorded, and an
uncorrectable word is its reader's fault; an accumulator goes on from the bytes returned (R93). An access that must wait is made after
those before it (R260).
Of the model itself: log entries 7, 45. -/
def Obligations.MemoryReads : Prop :=
  ∀ (s : State) (by_ : MemReader) (word reached : Nat) (flips : List (Nat × Nat)),
    (s.dev.memMustWait (.read by_ word reached flips) = true →
      exec (.memoryRead by_ word reached flips) s = .next (s.modDev (fun d =>
        ({ d with memWaits := d.memWaits ++ [.read by_ word reached flips] } : Dev).followAll))) ∧
    (s.dev.memMustWait (.read by_ word reached flips) = false →
      (s.dev.pageValid (word / 512) = false →
        exec (.memoryRead by_ word reached flips) s = .next (s.modDev (fun d =>
          ((d.bump pgVmap Reg.VALIDMAP.ZERO_READS 1).bump (pgOfWord word) Reg.HEADER.UNITS 1).followAll))) ∧
      (s.dev.pageValid (word / 512) = true →
        ((∀ j < 8, diagnose (s.dev.laneSyndrome word reached flips j) = .good) →
          exec (.memoryRead by_ word reached flips) s = .next (s.modDev (fun d => (d.bump (pgOfWord word) Reg.HEADER.UNITS 1).followAll))) ∧
        (∀ j < 8, (diagnose (s.dev.laneSyndrome word reached flips j)).corrected = true →
          (∀ i < j, diagnose (s.dev.laneSyndrome word reached flips i) = .good) →
          (∀ i < 8, (diagnose (s.dev.laneSyndrome word reached flips i)).lost = false) →
          exec (.memoryRead by_ word reached flips) s = .next (s.modDev (fun d =>
            ((d.memCorrected word j (s.dev.laneSyndrome word reached flips j)).bump (pgOfWord word) Reg.HEADER.UNITS 1).followAll))) ∧
        (∀ j < 8, (diagnose (s.dev.laneSyndrome word reached flips j)).lost = true →
          (∀ i < 8, i ≠ j → diagnose (s.dev.laneSyndrome word reached flips i) = .good) →
          exec (.memoryRead by_ word reached flips) s = .next (s.modDev (fun d =>
            ((((d.memUncorr word (2 ^ j) (s.dev.laneSyndrome word reached flips j)
              (decide (diagnose (s.dev.laneSyndrome word reached flips j) = .odd))).readerFault by_).accWrong by_ word reached flips [j]).bump
                (pgOfWord word) Reg.HEADER.UNITS 1).followAll)))))

/-- The check code corrects every single error and detects every double one (R251 to R253): a word read from where it was written
with one bit of a byte's thirteen flipped is corrected, and with two flipped is uncorrectable. It also finds every word returned from
another address, but for the one whose 33 word-address bits are all inverted (R254). -/
def Obligations.CheckCodeCorrectsOneDetectsTwo : Prop :=
  (∀ (d : Dev) (word reached : Nat), word < 2 ^ 33 → reached < 2 ^ 33 → word ≠ reached → word ^^^ reached ≠ 2 ^ 33 - 1 →
    (∀ j < 8, mget (fun _ => 0) d.chestBad (8 * reached + j) = 0) → ∃ j < 8, diagnose (d.laneSyndrome word reached [] j) = .even) ∧
  ∀ (d : Dev) (word j : Nat) (flips : List (Nat × Nat)), mget (fun _ => 0) d.chestBad (8 * word + j) = 0 →
    (flips.getD j (0, 0)).1 < 256 → (flips.getD j (0, 0)).2 < 32 →
    (onesIn 8 (flips.getD j (0, 0)).1 + onesIn 5 (flips.getD j (0, 0)).2 = 0 →
      diagnose (d.laneSyndrome word word flips j) = .good) ∧
    (onesIn 8 (flips.getD j (0, 0)).1 + onesIn 5 (flips.getD j (0, 0)).2 = 1 →
      (diagnose (d.laneSyndrome word word flips j)).corrected = true ∧
      ∀ k < 8, (flips.getD j (0, 0)).1 = 2 ^ k → diagnose (d.laneSyndrome word word flips j) = .data k) ∧
    (onesIn 8 (flips.getD j (0, 0)).1 + onesIn 5 (flips.getD j (0, 0)).2 = 2 →
      (diagnose (d.laneSyndrome word word flips j)).lost = true)

/-- A write stores the enabled bytes and no other (R255), in an invalid page beside zeros (R260); its first pages become valid, and an
armed injection goes into the byte it names once (R273). The bytes keep their canonical form. A clear makes its pages, and no other,
invalid (R261); it waits for zero-fills, and a second one while it runs is ignored.
Of the model itself: log entries 6, 45. -/
def Obligations.MemoryWritesFillsAndClears : Prop :=
  (∀ (s : State) (word : Nat) (beats : List (Nat × Nat)), s.dev.memMustWait (.write word beats) = false →
    (∀ a, s.dev.pageValid (a / 4096) = false → mget (fun _ => 0) s.dev.chest a = 0) →
    Completes (.memoryWrite word beats) s (fun t =>
      (∀ a, t.dev.chestByte a = if word ≤ a / 8 ∧ a / 8 < word + beats.length ∧ bitAt (beats.getD (a / 8 - word) (0, 0)).2 (a % 8) = true
        then BitVec.ofNat 8 (bitsOf (beats.getD (a / 8 - word) (0, 0)).1 (8 * (a % 8)) 8) else s.dev.chestByte a) ∧
      (∀ p, s.dev.pageValid p = true → t.dev.pageValid p = true) ∧
      (Memory.wf s.dev.chest = true → Memory.wf t.dev.chest = true) ∧ t.dev.pool = s.dev.pool ∧ t.dev.spokes = s.dev.spokes)) ∧
  (∀ (s : State) (word : Nat) (beats : List (Nat × Nat)), s.dev.memMustWait (.write word beats) = true →
    exec (.memoryWrite word beats) s = .next (s.modDev (fun d => { d with memWaits := d.memWaits ++ [.write word beats] }))) ∧
  (∀ (s : State) (p : Nat), s.dev.fillPending p = true → s.dev.memWaits = [] → s.dev.pool.dying = [] →
    exec (.pageFillDone p) s = .next (s.modDev (fun d =>
      (({ d with vmFill := mset (fun _ => false) d.vmFill p false } : Dev).bump pgVmap Reg.VALIDMAP.FILLS 1).followAll))) ∧
  (∀ (s : State) (a : Accessor), s.dev.access a pgVmap = .open →
    (s.dev.fon pgVmap Reg.VALIDMAP.BUSY = true → exec (.vmClr a) s = .next s) ∧
    (s.dev.fon pgVmap Reg.VALIDMAP.BUSY = false → s.dev.fget pgVmap Reg.VALIDMAP.COUNT = 0 →
      exec (.vmClr a) s = .next (s.modDev (fun d => d.fset pgVmap Reg.VALIDMAP.CLR_DONE 1))) ∧
    (s.dev.fon pgVmap Reg.VALIDMAP.BUSY = false → s.dev.fget pgVmap Reg.VALIDMAP.COUNT ≠ 0 →
      s.dev.fget pgVmap Reg.VALIDMAP.VM_CLR_BASE_PAGE + s.dev.fget pgVmap Reg.VALIDMAP.COUNT ≤ 16777216 →
      exec (.vmClr a) s = .next (s.modDev (fun d => ({ d with vmClr := some (d.fget pgVmap Reg.VALIDMAP.VM_CLR_BASE_PAGE,
        d.fget pgVmap Reg.VALIDMAP.COUNT) } : Dev).fset pgVmap Reg.VALIDMAP.BUSY 1)))) ∧
  (∀ (s : State) (b k : Nat), s.dev.vmClr = some (b, k) →
    ((∀ e ∈ s.dev.vmFill, ¬ (b ≤ e.1 ∧ e.1 < b + k)) → mwf (fun _ => false) s.dev.vmValid = true → Memory.wf s.dev.chest = true →
      Completes .vmClrDone s (fun t =>
      (∀ p, t.dev.pageValid p = if b ≤ p ∧ p < b + k then false else s.dev.pageValid p) ∧
      (∀ a, t.dev.chestByte a = if b ≤ a / 4096 ∧ a / 4096 < b + k then 0 else s.dev.chestByte a) ∧
      Memory.wf t.dev.chest = true ∧
      t.dev.vmClr = none ∧ t.dev.fget pgVmap Reg.VALIDMAP.BUSY = 0 ∧ t.dev.fget pgVmap Reg.VALIDMAP.CLR_DONE = 1)) ∧
    (∀ e ∈ s.dev.vmFill, b ≤ e.1 → e.1 < b + k → exec .vmClrDone s = .next s)) ∧
  (∀ (s : State) (a : Accessor) (k : Fin 4) (pattern lane : Nat), s.dev.access a (pgMemctl k) = .open →
    Completes (.injArm a k pattern lane) s (fun t => t.dev.fget (pgMemctl k) Reg.MEMCTL.ARM = 1 ∧
      t.dev.fget (pgMemctl k) Reg.MEMCTL.PATTERN = pattern % 2 ^ Reg.MEMCTL.PATTERN.w ∧
      t.dev.fget (pgMemctl k) Reg.MEMCTL.LANE = lane % 2 ^ Reg.MEMCTL.LANE.w ∧ { t with dev := { t.dev with regs := s.dev.regs } } = s))

/-- The pool (R265 to R272): a request of an owner takes the head of the first class at or above its own that may be taken from, with one
reference; NOBUF counts and takes nothing; before the pool is configured a request waits; a number that is no owner's is given nothing.
Counts of references go up and down by one, 255 is permanent, and the release of a withdrawn handle is dropped. Of a free handle a
reference or a release is UB-8 or UB-2 (R417): the free list of its class is free values from then on, and no descriptor and no byte of the chest changes. A
layout with buffers allocated is refused. A write held for NOBUF fails at the end of NOBUF_WAIT (R272).
Of the model itself: log entries 18, 29. -/
def Obligations.BufferPool : Prop :=
  (∀ (s : State) (o size : Nat),
    (owners.contains o = false → exec (.allocation o size) s = .next s) ∧
    (owners.contains o = true → s.dev.pool.configured = true → s.dev.pool.applying = none → size ≤ 8388608 →
      (∀ c, s.dev.pool.pickClass o (classFor size) = some c → Completes (.allocation o size) s (fun t =>
        t.dev.pool = (s.dev.pool.popFree c).give o c (s.dev.pool.nextHandle c) ∧
        t.dev.pool.descOf (s.dev.pool.nextHandle c) = ⟨1, o⟩ ∧ t.dev.pool.occOf o c = s.dev.pool.occOf o c + 1 ∧
        t.dev.fget pgPool Reg.POOL.ALLOCS = satAdd (2 ^ 32 - 1) (s.dev.fget pgPool Reg.POOL.ALLOCS) 1 ∧
        t.dev.fget pgPool Reg.POOL.FALLBACKS = (if c = classFor size then s.dev.fget pgPool Reg.POOL.FALLBACKS else
          satAdd (2 ^ 32 - 1) (s.dev.fget pgPool Reg.POOL.FALLBACKS) 1) ∧ t.dev.chest = s.dev.chest ∧ t.dev.spokes = s.dev.spokes)) ∧
      (s.dev.pool.pickClass o (classFor size) = none →
        exec (.allocation o size) s = .next (s.modDev (fun d => d.bump pgPool Reg.POOL.NOBUFS 1)))) ∧
    (owners.contains o = true → s.dev.pool.configured = true → s.dev.pool.applying = none → 8388608 < size →
      exec (.allocation o size) s = .next (s.modDev (fun d => d.bump pgPool Reg.POOL.NOBUFS 1))) ∧
    (owners.contains o = true → (s.dev.pool.configured = false ∨ s.dev.pool.applying ≠ none) → exec (.allocation o size) s =
      .next (s.modDev (fun d => { d with pool := { d.pool with waits := d.pool.waits ++ [(o, size)] } })))) ∧
  (∀ (s : State) (h : Nat),
    (s.dev.pool.isFree h = true → exec (.increment h) s = .next (s.modDev (fun d => d.wildFree h)) ∧
      exec (.decrement h) s = .next (s.modDev (fun d => d.wildFree h))) ∧
    ((s.dev.wildFree h).pool.desc = s.dev.pool.desc ∧ (s.dev.wildFree h).chest = s.dev.chest ∧ (s.dev.wildFree h).regs = s.dev.regs) ∧
    ((s.dev.pool.descOf h).count = 255 → exec (.increment h) s = .next s) ∧
    (0 < (s.dev.pool.descOf h).count → (s.dev.pool.descOf h).count < 254 → exec (.increment h) s = .next (s.modDev (fun d =>
      { d.bump pgPool Reg.HEADER.UNITS 1 with
          pool := { d.pool with desc := mset (fun _ => {}) d.pool.desc h (Desc.mk ((d.pool.descOf h).count + 1) (d.pool.descOf h).owner) } }))) ∧
    ((s.dev.pool.descOf h).count = 254 → Completes (.increment h) s (fun t => (t.dev.pool.descOf h).count = 255 ∧
      t.dev.fget pgPool Reg.POOL.SAT_PIN = 1 ∧
      t.dev.fget pgPool Reg.POOL.SAT_PINNED = satAdd (2 ^ Reg.POOL.SAT_PINNED.w - 1) (s.dev.fget pgPool Reg.POOL.SAT_PINNED) 1)) ∧
    (s.dev.pool.lost.contains h = true → (s.dev.pool.descOf h).count = 0 → exec (.decrement h) s = .next s ∧ exec (.increment h) s = .next s) ∧
    (s.dev.pool.lost.contains h = false →
      ((s.dev.pool.descOf h).count = 255 → exec (.decrement h) s = .next s) ∧
      (1 < (s.dev.pool.descOf h).count → (s.dev.pool.descOf h).count < 255 → exec (.decrement h) s = .next (s.modDev (fun d =>
        { d.bump pgPool Reg.HEADER.UNITS 1 with
          pool := { d.pool with desc := mset (fun _ => {}) d.pool.desc h (Desc.mk ((d.pool.descOf h).count - 1) (d.pool.descOf h).owner) } }))) ∧
      ((s.dev.pool.descOf h).count = 1 → s.dev.bufFilling h = false → exec (.decrement h) s = .next (s.modDev (fun d =>
        ((d.bump pgPool Reg.HEADER.UNITS 1).freeBuf h).afterFree))))) ∧
  (∀ (d : Dev) (h c : Nat), d.pool.classOf h = some c →
    (d.freeBuf h).pool.nextHandle c = h ∧ ((d.freeBuf h).pool.descOf h).count = 0 ∧
    (∀ p, d.pool.bufAddr h / 4096 ≤ p → p < d.pool.bufAddr h / 4096 + classSize c / 4096 → mwf (fun _ => false) d.vmValid = true →
      (d.freeBuf h).pageValid p = false)) ∧
  (∀ (s : State) (a : Accessor), s.dev.access a pgPool = .open →
    (s.dev.pool.applying ≠ none → exec (.apply a) s = .next s) ∧
    (s.dev.pool.applying = none → s.dev.pool.desc ≠ [] → Completes (.apply a) s (fun t =>
      t.dev.fget pgPool Reg.POOL.CFG_REFUSED = 1 ∧ t.dev.pool = s.dev.pool)) ∧
    (s.dev.pool.applying = none → s.dev.cfgBad s.dev.stagedCounts = false →
      exec (.apply a) s = .next (s.modDev (fun d => { d with pool := { d.pool with applying := some d.stagedCounts } })))) ∧
  (∀ (s : State) (cs : List Nat), s.dev.trained = true → s.dev.pool.configured = true → s.dev.pool.applying = some cs → s.dev.pool.waits = [] →
    exec .poolConfigDone s = .next (s.modDev (fun d =>
      ((((({ d with pool := d.pool.laidOut cs } : Dev).describe cs).fset pgPool Reg.POOL.CFG_DONE 1).fset pgPool Reg.POOL.CONFIGURED 1).goOnAll).followAll))) ∧
  (∀ (s : State) (n : Fin 8),
    ((s.dev.sp n).noBuf = true → s.dev.fget pgPool Reg.POOL.NOBUF_WAIT ≠ 0 → s.dev.pool.configured = true →
      exec (.nobufWaitExpiry n) s = .next (s.modDev (fun d => (d.landFails n stOutOfBuffer).follow n))) ∧
    ((s.dev.sp n).noBuf = false ∨ s.dev.fget pgPool Reg.POOL.NOBUF_WAIT = 0 →
      exec (.nobufWaitExpiry n) s = .next (s.modDev (fun d => d.follow n))))

/-! ### Endpoints, rings, doorbells, heartbeats, BAR0 (chapters 11 and 16) -/

/-- A link that comes up shows its width and speed; one that is lost loses its host if it was up; PERST holds an endpoint in reset and is
a link down only if the link had been up; an absent endpoint takes no part (R276, R278, R297). A configuration request is answered, with
a retry status until start-up is far enough, and one of the physical function may set the endpoint's Device Control fields (R278, R279). A Function
Level Reset disables the function's rings and its enables; setting Bus Master Enable sends what it held, in order; setting VF Enable
brings the written K into force; clearing a vector's mask sends the message it held, once (R279, R287, R294).
Of the model itself: log entries 29, 30, 49. -/
def Obligations.EndpointsAndFunctions : Prop :=
  (∀ (s : State) (e : Fin 2),
    (∀ width speed, s.dev.epPresent e = true → (s.dev.ep e).perst = false → s.dev.therm.mains = true → Completes (.linkUp e width speed) s (fun t =>
      t.dev.fget (pgPcie e) Reg.PCIE.LINK_UP = 1 ∧ t.dev.fget (pgPcie e) Reg.PCIE.WIDTH = width % 2 ^ Reg.PCIE.WIDTH.w ∧
      t.dev.fget (pgPcie e) Reg.PCIE.SPEED = speed % 2 ^ Reg.PCIE.SPEED.w ∧ t.dev.ep e = { s.dev.ep e with wasUp := true } ∧
      { t with dev := { t.dev with regs := s.dev.regs, endpts := s.dev.endpts } } = s)) ∧
    (∀ width speed, (s.dev.epPresent e = false ∨ (s.dev.ep e).perst = true) → exec (.linkUp e width speed) s = .next s) ∧
    (s.dev.fon (pgPcie e) Reg.PCIE.LINK_UP = true → exec (.linkDown e) s = .next (s.modDev (fun d =>
      (((((d.fset (pgPcie e) Reg.PCIE.LINK_UP 0).fset (pgPcie e) Reg.PCIE.WIDTH 0).fset (pgPcie e) Reg.PCIE.SPEED 0).hostLoss e 1)).followAll))) ∧
    (s.dev.fon (pgPcie e) Reg.PCIE.LINK_UP = false → exec (.linkDown e) s = .next (s.modDev Dev.followAll)) ∧
    (s.dev.epPresent e = true → (s.dev.ep e).wasUp = true → (s.dev.ep e).perst = false → exec (.perstAssert e) s =
      .next (s.modDev (fun d => ((((d.hostLoss e 1).epReset e).modEp e (fun x => { x with perst := true, wasUp := false })).followAll)))) ∧
    (s.dev.epPresent e = true → (s.dev.ep e).wasUp = false → exec (.perstAssert e) s =
      .next (s.modDev (fun d => (((d.epReset e).modEp e (fun x => { x with perst := true, wasUp := false })).followAll)))) ∧
    (s.dev.epPresent e = false → exec (.perstAssert e) s = .next (s.modDev Dev.followAll) ∧ exec (.perstRelease e) s = .next s) ∧
    (s.dev.epPresent e = true → Completes (.perstRelease e) s (fun t => t.dev.ep e = { s.dev.ep e with perst := false, wasUp := false } ∧
      { t with dev := { t.dev with endpts := s.dev.endpts } } = s)) ∧
    (∀ (f : Fin 64) ctl, s.dev.fon (pgPcie e) Reg.PCIE.LINK_UP = true → Completes (.configurationRequest e ⟨f, ctl⟩) s (fun t =>
      t.dev.out = .cfgReply (64 * e + f) (!s.dev.cfgReady) :: s.dev.out ∧ (s.dev.cfgReady = true → (t.dev.ep e).ready = true) ∧
      (s.dev.cfgReady = false → t.dev.ep e = s.dev.ep e) ∧ (∀ c, s.dev.cfgReady = true → f.val = 0 → ctl = some c → (t.dev.ep e).ctl = c) ∧
      (f.val ≠ 0 ∨ ctl = none → (t.dev.ep e).ctl = (s.dev.ep e).ctl) ∧ { t with dev := { t.dev with endpts := s.dev.endpts, out := s.dev.out } } = s)) ∧
    (∀ (f : Fin 64) ctl, s.dev.fon (pgPcie e) Reg.PCIE.LINK_UP = false → exec (.configurationRequest e ⟨f, ctl⟩) s = .next s)) ∧
  (∀ (s : State) (e : Fin 2) (f : Fin 64),
    Completes (.functionLevelReset e f) s (fun t => t.dev.func (funcOf e f) = {} ∧ { t.dev with
      regs := s.dev.regs, funcs := s.dev.funcs, sqs := s.dev.sqs, cqs := s.dev.cqs, vecMasked := s.dev.vecMasked, vecPending := s.dev.vecPending,
      endpts := s.dev.endpts } = s.dev ∧ (f.val ≠ 0 → t.dev.endpts = s.dev.endpts) ∧ (mwf (fun _ => true) s.dev.vecMasked = true → ∀ v < 2048,
          mget (fun _ => true) t.dev.vecMasked (2048 * funcOf e f + v) = true)) ∧
    exec (.busMasterEnable e f) s = .next (s.modDev (fun d => ({ d.modFunc (funcOf e f) (fun x => { x with bme := true, held := [] }) with
      out := (d.func (funcOf e f)).held.reverse ++ d.out } : Dev).followAll)) ∧
    Completes (.vfEnable e) s (fun t => (t.dev.ep e).vfOn = true ∧
      (∀ k, k = min 5 (s.dev.fget (pgMsix e) Reg.MSIX.K) → t.dev.fget (pgMsix e) Reg.MSIX.VF_VECTORS = 2 ^ k ∧
        t.dev.fget (pgMsix e) Reg.MSIX.PF_VECTORS = 2048 - 63 * 2 ^ k) ∧
      { t with dev := { t.dev with regs := s.dev.regs, endpts := s.dev.endpts } } = s) ∧
    (∀ v : Fin 2048, s.dev.vectorsOf (funcOf e f) ≤ v → exec (.vectorUnmask e f v) s = .next s) ∧
    (∀ v : Fin 2048, v.val < s.dev.vectorsOf (funcOf e f) → Completes (.vectorUnmask e f v) s (fun t =>
      mget (fun _ => true) t.dev.vecMasked (2048 * funcOf e f + v) = false ∧ mget (fun _ => false) t.dev.vecPending (2048 * funcOf e f + v) = false ∧
      (mget (fun _ => false) s.dev.vecPending (2048 * funcOf e f + v) = true → (s.dev.func (funcOf e f)).bme = true →
        t.dev.out = .msix (funcOf e f) v :: s.dev.out) ∧
      (mget (fun _ => false) s.dev.vecPending (2048 * funcOf e f + v) = false →
        { t with dev := { t.dev with vecMasked := s.dev.vecMasked, vecPending := s.dev.vecPending } } = s))))

/-- A fetch turn reads up to 8 pending entries, no more than FETCH_BURST, the credits, the ring's end and the outstanding limits allow, of the
ring whose turn it is (R279, R282, R288, R289); a ring that R282 does not serve is flagged. A turn's end moves HEAD past its entries and
counts them; a message waits no longer than AGG_TIME (R295). A transfer that fails is counted in its DMA instance with its reason and
reported by its endpoint; an entry whose read failed is abandoned; a command's transfer that fails ends the command (R280, R300).
Of the model itself: log entries 8, 20, 49. -/
def Obligations.FetchesAndFailedTransfers : Prop :=
  (∀ x : Sq, x.turnSize ≤ 8 ∧ x.turnSize ≤ x.credits ∧ x.turnSize ≤ x.pending - x.inTurns ∧
    x.turnSize ≤ ringEntries x.size - (x.head + x.inTurns) % ringEntries x.size) ∧
  (∀ (d : Dev) (e q : Nat), d.nextRing e = some q → d.fetchable q = true) ∧
  (∀ (s : State) (q : Fin 4096),
    ((s.dev.sq q).size = 0 ∨ (s.dev.sq q).heldNobuf = true → exec (.fetchTurn q) s = .next s) ∧
    ((s.dev.sq q).size ≠ 0 → (s.dev.sq q).heldNobuf = false → s.dev.sqServed q = false → Completes (.fetchTurn q) s (fun t =>
      t.dev.fget (pgRings q) Reg.RINGS.RINGS_EVT_MISMATCH = 1 ∧ { t with dev := { t.dev with regs := s.dev.regs } } = s)) ∧
    ((s.dev.sq q).size ≠ 0 → (s.dev.sq q).heldNobuf = false → s.dev.sqServed q = true →
      s.dev.nextRing (funcEp (s.dev.sq q).func) ≠ some q.val → exec (.fetchTurn q) s = .next s) ∧
    (∀ (x : Sq) (k a e : Nat) (l : List Out), x = s.dev.sq q → k = x.turnSize → a = x.entryAddr ((x.head + x.inTurns) % ringEntries x.size) →
      e = funcEp x.func → l = (Out.fetchRead x.func a (64 * k)).pieces (s.dev.ep e).ctl → x.size ≠ 0 → x.heldNobuf = false → s.dev.sqServed q = true →
      s.dev.nextRing e = some q.val → s.dev.turnsOf e < 16 → s.dev.readsOut e + (readPieces 64 (s.dev.ep e).ctl.readReq a (64 * k)).length ≤ s.dev.readLimit e →
      Completes (.fetchTurn q) s (fun t =>
        t.dev.sq q = { x with credits := x.credits - k, turns := x.turns ++ [k] } ∧ (∀ r, r ≠ q.val → t.dev.sq r = s.dev.sq r) ∧
        (t.dev.ep e).served = some q.val ∧ t.dev.out = l.reverse ++ s.dev.out)) ∧
    (∀ bad, (s.dev.sq q).turns = [] → exec (.fetchComplete q bad) s = .next s) ∧
    (∀ k r, (s.dev.sq q).turns = k :: r → (s.dev.sq q).size ≠ 0 → Completes (.fetchComplete q 0) s (fun t =>
      (t.dev.sq q).head = ((s.dev.sq q).head + k) % ringEntries (s.dev.sq q).size ∧ (t.dev.sq q).outstanding = (s.dev.sq q).outstanding + k ∧
      (t.dev.sq q).turns = r ∧ t.dev.fget (pgRings q) Reg.RINGS.FETCHED = satAdd (2 ^ Reg.RINGS.FETCHED.w - 1) (s.dev.fget (pgRings q) Reg.RINGS.FETCHED) k ∧
      (∀ x, x ≠ q.val → t.dev.sq x = s.dev.sq x) ∧ { t with dev := { t.dev with sqs := s.dev.sqs, regs := s.dev.regs } } = s)) ∧
    ((s.dev.cq q).pendingMsg = 0 ∨ (s.dev.cq q).irqEn = false → exec (.aggTimerExpiry q) s = .next s) ∧
    ((s.dev.cq q).pendingMsg ≠ 0 → (s.dev.cq q).irqEn = true → (s.dev.cq q).vector < s.dev.vectorsOf (s.dev.cq q).func →
      mget (fun _ => true) s.dev.vecMasked (2048 * (s.dev.cq q).func + (s.dev.cq q).vector) = false → (s.dev.func (s.dev.cq q).func).bme = true →
      Completes (.aggTimerExpiry q) s (fun t => t.dev.cq q = { s.dev.cq q with pendingMsg := 0 } ∧
        t.dev.out = .msix (s.dev.cq q).func (s.dev.cq q).vector :: s.dev.out))) ∧
  (∀ (s : State) (i : Fin 4),
    (∀ (q : Fin 4096) k r, (s.dev.sq q).turns = k :: r →
      exec (.completionTimeout i (.entry q)) s = .next (s.modDev (fun d => ((d.dmaFails i Reg.DMA.CPL_TIMEOUT).fetchComplete q 1).followAll)) ∧
      exec (.errorCompletion i (.entry q) .urCa) s = .next (s.modDev (fun d => ((d.dmaFails i Reg.DMA.UR_CA).fetchComplete q 1).followAll))) ∧
    (∀ (q : Fin 4096), (s.dev.sq q).turns = [] →
      exec (.completionTimeout i (.entry q)) s = .next (s.modDev (fun d => ((((d.bump (pgDma i) Reg.DMA.FAILED 1).fset (pgDma i) Reg.DMA.CPL_TIMEOUT 1).fset
        (pgPcie (i / 2)) Reg.PCIE.UNCORR 1).bump (pgPcie (i / 2)) Reg.PCIE.UNCORR_ERRS 1).followAll)) ∧
      exec (.errorCompletion i (.entry q) .urCa) s = .next (s.modDev (fun d => ((((d.bump (pgDma i) Reg.DMA.FAILED 1).fset (pgDma i) Reg.DMA.UR_CA 1).fset
        (pgPcie (i / 2)) Reg.PCIE.UNCORR 1).bump (pgPcie (i / 2)) Reg.PCIE.UNCORR_ERRS 1).followAll)) ∧
      exec (.errorCompletion i (.entry q) .poisoned) s = .next (s.modDev (fun d => ((((d.bump (pgDma i) Reg.DMA.FAILED 1).fset (pgDma i) Reg.DMA.POISONED 1).fset
        (pgPcie (i / 2)) Reg.PCIE.UNCORR 1).bump (pgPcie (i / 2)) Reg.PCIE.UNCORR_ERRS 1).followAll))) ∧
    (∀ (n : Fin 8) (e : Dev), e = s.dev.dmaFails i Reg.DMA.CPL_TIMEOUT → LeadsAll (.completionTimeout i (.spoke n)) s (fun d =>
      ((s.dev.sp n).cur = none → d = e) ∧
      (∀ j, (s.dev.sp n).cur = some j → (∀ m w r, j.op = .write m w r → d = e.landFails n stHostMemory) ∧
        (∀ m, j.op = .read m → d = e.readStops n stHostMemory) ∧
        (∀ x y z, j.op = .sheetRead x y z → d = e.finish n stHostMemory 0 (hdrLen j.hdr) 0)))) ∧
    (∀ (q : Fin 4096), (s.dev.sq q).turns = [] → exec (.errorCompletion i (.entry q) .ecrc) s = .next (s.modDev (fun d =>
      ((((d.bump (pgDma i) Reg.DMA.FAILED 1).fset (pgPcie (i / 2)) Reg.PCIE.ECRC 1).fset
        (pgPcie (i / 2)) Reg.PCIE.UNCORR 1).bump (pgPcie (i / 2)) Reg.PCIE.UNCORR_ERRS 1).followAll))))

/-- A ring's enable latches what was written for it with head and tail 0 and the full grant of credits or the first phase; SIZE 0
disables it, keeping HEAD and TAIL; raising SQ_CREDIT raises the credits by the difference (R284, R288); a ring enabled that R282 does not
serve is flagged. No other ring changes. A submission tail within the entries that software owns becomes TAIL, and one beyond them is UB-9; a
completion head within the entries in use becomes HEAD, and one beyond them is UB-9; through another function than the ring's it is a
violation and moves nothing; a disabled ring's doorbell only holds its value (R285 to R287).
Of the model itself: log entries 17, 20, 22. -/
def Obligations.RingsAndDoorbells : Prop :=
  (∀ (s : State) (a : Accessor) (i : Fin 8) (q : Nat), s.dev.access a (pgRings (512 * i)) = .open → s.dev.ringSel i = q →
    (∀ size : Fin 16, size.val ≠ 0 → (s.dev.sq q).size = 0 → Completes (.ringEnable a i false size) s (fun t => t.dev.sq q = { s.dev.sq q with
      size := size, baseLo := (s.dev.sq q).wBaseLo, baseHi := (s.dev.sq q).wBaseHi, cq := (s.dev.sq q).wCq, func := (s.dev.sq q).wFunc,
      head := 0, tail := 0, turns := [], credits := min (s.dev.sq q).creditReg (ringEntries size - 1) } ∧
      (∀ r, r ≠ q → t.dev.sq r = s.dev.sq r) ∧ (t.dev.sqServed q = false → t.dev.fget (pgRings q) Reg.RINGS.RINGS_EVT_MISMATCH = 1) ∧
      (t.dev.sqServed q = true → t.dev.regs = s.dev.regs) ∧ { t with dev := { t.dev with sqs := s.dev.sqs, regs := s.dev.regs } } = s)) ∧
    (∀ size : Fin 16, size.val ≠ 0 → (s.dev.cq q).size = 0 → Completes (.ringEnable a i true size) s (fun t => t.dev.cq q = { s.dev.cq q with
      size := size, baseLo := (s.dev.cq q).wBaseLo, baseHi := (s.dev.cq q).wBaseHi, func := (s.dev.cq q).wFunc,
      head := 0, tail := 0, phase := true, pendingMsg := 0, held := [] } ∧
      (∀ r, r ≠ q → t.dev.cq r = s.dev.cq r) ∧ { t with dev := { t.dev with cqs := s.dev.cqs } } = s)) ∧
    (∀ size : Fin 16, size.val ≠ 0 → (s.dev.sq q).size ≠ 0 → exec (.ringEnable a i false size) s = .next s) ∧
    (∀ size : Fin 16, size.val ≠ 0 → (s.dev.cq q).size ≠ 0 → exec (.ringEnable a i true size) s = .next s) ∧
    Completes (.ringDisable a i false) s (fun t => t.dev.sq q = { s.dev.sq q with size := 0 } ∧
      (∀ r, r ≠ q → t.dev.sq r = s.dev.sq r) ∧ { t with dev := { t.dev with sqs := s.dev.sqs } } = s) ∧
    ((s.dev.cq q).held = [] → Completes (.ringDisable a i true) s (fun t => t.dev.cq q = { s.dev.cq q with size := 0, pendingMsg := 0 } ∧
      (∀ r, r ≠ q → t.dev.cq r = s.dev.cq r) ∧ { t with dev := { t.dev with cqs := s.dev.cqs } } = s)) ∧
    (∀ v, Completes (.sqCreditWrite a i v) s (fun t =>
      ((s.dev.sq q).size = 0 → t.dev.sq q = { s.dev.sq q with creditReg := v % 4096 }) ∧
      ((s.dev.sq q).size ≠ 0 → (s.dev.sq q).creditReg ≤ v % 4096 → t.dev.sq q = { s.dev.sq q with
        creditReg := v % 4096, credits := (s.dev.sq q).credits + (min (v % 4096) (ringEntries (s.dev.sq q).size - 1) -
          min (s.dev.sq q).creditReg (ringEntries (s.dev.sq q).size - 1)) }) ∧
      ((s.dev.sq q).size ≠ 0 → v % 4096 < (s.dev.sq q).creditReg → t.dev.sq q = { s.dev.sq q with
        creditReg := v % 4096, credits := min (s.dev.sq q).credits
          (min (v % 4096) (ringEntries (s.dev.sq q).size - 1) - (s.dev.sq q).outstanding - (s.dev.sq q).inTurns) }) ∧
      (∀ r, r ≠ q → t.dev.sq r = s.dev.sq r) ∧ { t with dev := { t.dev with sqs := s.dev.sqs } } = s))) ∧
  (∀ (s : State) (e : Fin 2) (f : Fin 64) (q : Fin 4096) (v : Nat), s.dev.fget pgBoot Reg.BOOT.STATE ≠ 2 → s.dev.domainOf (.fn e f) < 2 →
    ((s.dev.sq q).size = 0 → Completes (.sqTailDoorbell e f q v) s (fun t => t.dev.sq q = { s.dev.sq q with bell := v % 2 ^ 32 } ∧
      { t with dev := { t.dev with sqs := s.dev.sqs } } = s)) ∧
    ((s.dev.sq q).size ≠ 0 → (s.dev.sq q).func = funcOf e f → ∀ n, n = ringEntries (s.dev.sq q).size →
      ((v % n + n - (s.dev.sq q).tail) % n ≤ (n - 1) - (s.dev.sq q).pending → Completes (.sqTailDoorbell e f q v) s (fun t =>
        t.dev.sq q = { s.dev.sq q with bell := v % 2 ^ 32, tail := v % n } ∧ (∀ r, r ≠ q.val → t.dev.sq r = s.dev.sq r) ∧
        { t with dev := { t.dev with sqs := s.dev.sqs } } = s)) ∧
      ((n - 1) - (s.dev.sq q).pending < (v % n + n - (s.dev.sq q).tail) % n → exec (.sqTailDoorbell e f q v) s = .fault .doorbellOutOfRange)) ∧
    ((s.dev.sq q).size ≠ 0 → (s.dev.sq q).func ≠ funcOf e f →
      exec (.sqTailDoorbell e f q v) s = .next (s.modDev (fun d => (d.errEvent (pgRings q) errProt).followAll))) ∧
    ((s.dev.cq q).size = 0 → Completes (.cqHeadDoorbell e f q v) s (fun t => t.dev.cq q = { s.dev.cq q with bell := v % 2 ^ 32 } ∧
      { t with dev := { t.dev with cqs := s.dev.cqs } } = s)) ∧
    ((s.dev.cq q).size ≠ 0 → (s.dev.cq q).func = funcOf e f → ∀ n, n = ringEntries (s.dev.cq q).size →
      ((s.dev.cq q).held = [] → (v % n + n - (s.dev.cq q).head) % n ≤ (s.dev.cq q).used → Completes (.cqHeadDoorbell e f q v) s (fun t =>
        t.dev.cq q = { s.dev.cq q with bell := v % 2 ^ 32, head := v % n } ∧ (∀ r, r ≠ q.val → t.dev.cq r = s.dev.cq r) ∧
        { t with dev := { t.dev with cqs := s.dev.cqs } } = s)) ∧
      ((s.dev.cq q).used < (v % n + n - (s.dev.cq q).head) % n → exec (.cqHeadDoorbell e f q v) s = .fault .doorbellOutOfRange)) ∧
    ((s.dev.cq q).size ≠ 0 → (s.dev.cq q).func ≠ funcOf e f →
      exec (.cqHeadDoorbell e f q v) s = .next (s.modDev (fun d => (d.errEvent (pgRings q) errProt).followAll))))

/-- A beat through the physical function starts the window that WINDOW gives, and with the link up it ends a host loss; through another function
VALUE is stored and no more; WINDOW 0 ends the test; a miss is a host loss with cause 2; a hold ends with an unload only where UNLOAD_MIN
says (R296, R297, R412).
Of the model itself: log entries 3, 20. -/
def Obligations.HeartbeatsAndHolds : Prop :=
  ∀ (s : State) (a : Accessor) (e : Fin 2),
    (s.dev.access a (pgPcie e) = .open →
      (∀ v, a.num = 64 * e.val → s.dev.fon (pgPcie e) Reg.PCIE.HOST_LOST = false → exec (.heartbeat a e v) s = .next (s.modDev (fun d =>
        ((d.fset (pgPcie e) Reg.PCIE.VALUE v).modEp e (fun x => { x with
          beat := (if d.fget (pgPcie e) Reg.PCIE.WINDOW = 0 then none else some (d.now, d.fget (pgPcie e) Reg.PCIE.WINDOW)) })).followAll))) ∧
      (∀ v, a.num = 64 * e.val → s.dev.fon (pgPcie e) Reg.PCIE.HOST_LOST = true → s.dev.fon (pgPcie e) Reg.PCIE.LINK_UP = true →
        exec (.heartbeat a e v) s = .next (s.modDev (fun d =>
          (((((((d.fset (pgPcie e) Reg.PCIE.VALUE v).modEp e (fun x => { x with
            beat := (if d.fget (pgPcie e) Reg.PCIE.WINDOW = 0 then none else some (d.now, d.fget (pgPcie e) Reg.PCIE.WINDOW)) })).fset (pgPcie e)
              Reg.PCIE.HOST_LOST 0).fset (pgPcie e) Reg.PCIE.TAKEN_OVER 0).fset (pgPcie e) Reg.PCIE.CAUSE 0).hostReturns e).followAll)))) ∧
      (∀ v, a.num ≠ 64 * e.val → Completes (.heartbeat a e v) s (fun t => t.dev.fget (pgPcie e) Reg.PCIE.VALUE = v % 2 ^ Reg.PCIE.VALUE.w ∧
        { t with dev := { t.dev with regs := s.dev.regs } } = s)) ∧
      (∀ v, Completes (.hbWindowWrite a e v) s (fun t => t.dev.fget (pgPcie e) Reg.PCIE.WINDOW = v % 65536 ∧
        (v % 65536 = 0 → (t.dev.ep e).beat = none) ∧ (v % 65536 ≠ 0 → t.dev.ep e = s.dev.ep e) ∧
        { t with dev := { t.dev with regs := s.dev.regs, endpts := s.dev.endpts } } = s))) ∧
    ((s.dev.ep e).beat ≠ none → exec (.heartbeatMiss e) s = .next (s.modDev (fun d =>
      ((d.modEp e (fun x => { x with beat := none })).hostLoss e 2).followAll))) ∧
    ((s.dev.ep e).beat = none → exec (.heartbeatMiss e) s = .next (s.modDev Dev.followAll)) ∧
    (∀ n : Fin 8, (bitAt (s.dev.fget pgMgmt Reg.MGMT.HOLDING) n = false ∨ s.dev.fget pgMgmt Reg.MGMT.UNLOAD_MIN = 0 →
        exec (.holdUnloadTimeout n) s = .next s) ∧
      (bitAt (s.dev.fget pgMgmt Reg.MGMT.HOLDING) n = true → s.dev.fget pgMgmt Reg.MGMT.UNLOAD_MIN ≠ 0 →
        exec (.holdUnloadTimeout n) s = .next (s.modDev (fun d => (((d.bitPut pgMgmt Reg.MGMT.HOLDING n false).modSp n
          (fun x => { x with hostLost := false })).beginUnload n).goOn n))))

/-- An access of another size or alignment is counted by its endpoint, and a read of that kind is answered as unsupported (R423); a write
never changes a read-only register, and that of a writable one changes the page it names (R8, R422); a write of the domain fences' registers
clears the bits named (R368); a read that violates answers zeros (R366).
Of the model itself: log entry 19. -/
def Obligations.AccessesThroughBar0 : Prop :=
  ∀ (s : State) (a : Accessor),
    (∀ (e : Fin 2) (f : Fin 64) (isRead : Bool), a = .fn e f → Completes (.bar0BadAccess a isRead) s (fun t =>
      t.dev.fget (pgPcie e) Reg.PCIE.UNCORR = 1 ∧
      t.dev.fget (pgPcie e) Reg.PCIE.UNCORR_ERRS = satAdd (2 ^ Reg.PCIE.UNCORR_ERRS.w - 1) (s.dev.fget (pgPcie e) Reg.PCIE.UNCORR_ERRS) 1 ∧
      t.dev.out = (if isRead then [Out.unsupported a.num] else []) ++ s.dev.out ∧ { t with dev := { t.dev with regs := s.dev.regs, out := s.dev.out } } = s)) ∧
    (∀ (i : Fin 12) (isRead : Bool), a = .fw i → exec (.bar0BadAccess a isRead) s = .next s) ∧
    (∀ v be : Nat, s.dev.access a pgIdent = .open →
      Completes (.registerWrite a pgIdent 0x004 v be) s (fun t => ∀ r, t.readReg r pgIdent 0x004 = s.readReg r pgIdent 0x004)) ∧
    (∀ v : Nat, s.dev.access a pgPool = .open → Completes (.registerWrite a pgPool Reg.POOL.NOBUF_WAIT.off v 0xF) s (fun t =>
      t.dev.fget pgPool Reg.POOL.NOBUF_WAIT = bitsOf v Reg.POOL.NOBUF_WAIT.lo Reg.POOL.NOBUF_WAIT.w ∧
      (∀ pg, pg ≠ pgPool → t.dev.page pg = s.dev.page pg) ∧ t.chains = s.chains ∧ t.gates = s.gates)) ∧
    (∀ lo hi : BitVec 32, s.dev.access a pgAlarm = .open → Completes (.domainFenceLift a lo hi) s (fun t =>
      t.dev.fget pgAlarm Reg.ALARM.FENCE_LO = (s.dev.fget pgAlarm Reg.ALARM.FENCE_LO &&& (lo.toNat ^^^ 0xFFFFFFFF)) ∧
      t.dev.fget pgAlarm Reg.ALARM.FENCE_HI = (s.dev.fget pgAlarm Reg.ALARM.FENCE_HI &&& (hi.toNat ^^^ 0xFFFFFFFF)) ∧
      { t with dev := { t.dev with regs := s.dev.regs } } = s)) ∧
    (∀ pg off, s.dev.access a pg = .violation → exec (.pageViolationRead a pg off) s = .next (s.modDev (fun d =>
      (d.pageViolation a pg).emit (.readData a.num (4096 * pg + off) 0))))

/-! ### Ring commands (chapter 12) -/

/-- A fetched command begins at once where nothing stands before it, and otherwise waits behind the commands of its spoke, or of the
module (R308, R309). Its checks come before its effect: the first that fails gives its status, and for a resource that its domain does not
own a violation as well (R310, R311). Before check 7 a command with data reads its buffer list ahead (R463), and a free handle named does
what UB-2 and UB-8 leave open; a command with neither finds the device as it was.
Of the model itself: log entries 18, 23. -/
def Obligations.FetchedCommandsBeginOrWait : Prop :=
  ∀ (c : Instr) (h : CmdHdr) (op : Op) (data : List Byte) (s : State) (j : Job) (d0 e : Dev), ringCommand c = some (h, op, data) →
    j = s.dev.jobOf h op data → d0 = s.dev.fetched h.sq → e = d0.ready j →
    (op.carries = false → j.handles = [] → e = d0) ∧
    (∀ x, op.carries = false → j.handles = [x] → j.targetOk = true → d0.pool.isFree x = true → e = d0.wildFree x) ∧
    (d0.startsNow j = false →
      (h.target < 8 → j.targetOk = true → exec c s = .next (s.modDev (fun _ => d0.modSp h.target (fun x => { x with waiting := x.waiting ++ [j] })))) ∧
      (¬ (h.target < 8 ∧ j.targetOk = true) → exec c s = .next (s.modDev (fun _ => { d0 with modWaiting := d0.modWaiting ++ [j] })))) ∧
    (d0.startsNow j = true →
      (∀ code, d0.check j = .status code → exec c s = .next (s.modDev (fun _ => (e.complete j code 0 0).went h.target))) ∧
      (∀ k i, d0.check j = .prot k i → exec c s = .next (s.modDev (fun _ => ((e.cmdViolation j k i).complete j stProtection 0 0).went h.target))) ∧
      (∀ code, d0.check j = .ok → e.check7 h.target j = some code → exec c s = .next (s.modDev (fun _ => (e.complete j code 0 0).went h.target))))

/-- The order of the checks (R310): a fenced spoke before a cartridge that is not ready, that before a cartridge without a format; then the
stream's binding, then an open record, then a buffer list without an end (R315).
Of the model itself: log entries 17, 23. -/
def Obligations.ChecksAreInOrder : Prop :=
  ∀ (d : Dev) (j : Job),
    (j.targetOk = false → d.check j = .status stInvalidField) ∧
    (∀ k i, j.targetOk = true → d.resourceFault j = some (k, i) → d.check j = .prot k i) ∧
    (j.targetOk = true → d.resourceFault j = none → j.hdr.target < 8 →
      (d.fenced j.hdr.target = true → d.check j = .status stFenced) ∧
      (d.fenced j.hdr.target = false → j.op.isTape = true → d.cartState j.hdr.target ≠ 3 → d.check j = .status stNotReady) ∧
      (d.fenced j.hdr.target = false → j.op.needsFormat = true → d.cartState j.hdr.target = 3 → (d.sp j.hdr.target).cart.initialised = false →
        d.check j = .status stBlank) ∧
      (d.fenced j.hdr.target = false → d.cartState j.hdr.target = 3 → (d.sp j.hdr.target).cart.initialised = true → d.check j = .ok)) ∧
    (∀ more wait req, j.op = .write more wait req → (d.stream j.hdr.stream).isOpen = false → d.check7 j.hdr.target j = some stSequence) ∧
    (∀ more wait req, j.op = .write more wait req → (d.stream j.hdr.stream).isOpen = true → (d.stream j.hdr.stream).spoke ≠ j.hdr.target →
      d.check7 j.hdr.target j = some stInvalidField) ∧
    (∀ st, j.op = .sync → (d.sp j.hdr.target).recStream = some st → d.check7 j.hdr.target j = some stSequence) ∧
    (d.bindFault j = none → d.recordFault j.hdr.target j = none → j.op.carries = true → j.hdr.dmode = 2 → j.hdr.dlen ≠ 0 →
      hdrList j.hdr = none → d.check7 j.hdr.target j = some stInvalidField)

/-- The commands that run at once (R308, R328, R330, R334, R338 to R341): each completes with the status and the result that its rule
gives, and no other effect than those named; the rest of what changes is the completion and what then begins (`Dev.went`). A takeover turns
the reason of the lost host's closes into 0x05 (R298). A release without a reference of the domain's own is UB-3.
Of the model itself: log entries 8, 18, 44. -/
def Obligations.QueriesAndModuleCommands : Prop :=
  (∀ (s : State) (h : CmdHdr) (n : Fin 8) (x : Nat), ∀ d0 : Dev, d0 = s.dev.fetched h.sq →
    (∀ j, j = s.dev.jobOf h .nop [] → d0.passes j →
      exec (.nop h) s = .next (s.modDev (fun _ => (d0.complete j stSuccess 0 0).went h.target))) ∧
    (h.target = n →
      (∀ j, j = s.dev.jobOf h .readPosition [] → d0.passes j → exec (.readPosition h) s =
        .next (s.modDev (fun _ => (d0.complete j stSuccess (d0.positionWord n) (d0.hintOf n (d0.sp n).posObj)).went n))) ∧
      (∀ j, j = s.dev.jobOf h .tapeStatus [] → d0.passes j → exec (.tapeStatus h) s =
        .next (s.modDev (fun _ => (d0.complete j stSuccess (d0.tapeStatusWord n).1 (d0.tapeStatusWord n).2).went n))) ∧
      (∀ j, j = s.dev.jobOf h .cancel [] → d0.passes j → exec (.cancel h) s =
        .next (s.modDev (fun _ => ((d0.cancel n j.dom).1.complete j stSuccess (d0.cancel n j.dom).2 0).went n))) ∧
      (∀ j e off, j = s.dev.jobOf h (.cmRead off) [] → e = d0.ready j → d0.passes j →
        (e.xferLen h = 0 → exec (.cmRead h off) s = .next (s.modDev (fun _ => (e.complete j stSuccess 0 0).went n))) ∧
        (e.xferLen h ≠ 0 → exec (.cmRead h off) s =
          .next (s.modDev (fun _ => (e.cmStart n (.hostRead j) false off (e.xferLen h) []).went n)))) ∧
      (∀ j e off data len, j = s.dev.jobOf h (.cmWrite off data) [] → e = d0.ready j → d0.passes j → len = e.xferLen h →
        (len = 0 → exec (.cmWrite h off data) s = .next (s.modDev (fun _ => (e.complete j stSuccess 0 0).went n))) ∧
        (h.dmode ≠ 3 → len ≠ 0 → exec (.cmWrite h off data) s =
          .next (s.modDev (fun _ => ((e.fromHost j len).cmStart n (.hostWrite j) true off len (takePad 0 len data)).went n))) ∧
        (h.dmode = 3 → len ≠ 0 → exec (.cmWrite h off data) s = .next (s.modDev (fun _ =>
          ((e.fromHost j len).cmStart n (.hostWrite j) true off len (e.chestGet (e.pool.bufAddr (hdrHandle h) + hdrOff h) len)).went n))))) ∧
    (h.target = 8 →
      (∀ j, j = s.dev.jobOf h .streamQuery [] → d0.passes j → exec (.streamQuery h) s =
        .next (s.modDev (fun _ => (d0.complete j stSuccess (d0.stream h.stream).params
          (2 ^ 31 * b2n (d0.stream h.stream).isOpen + (d0.stream h.stream).spoke)).serve))) ∧
      (∀ j, j = s.dev.jobOf h .takeover [] → d0.passes j → d0.takeoverRefused (funcEp j.fn) = true → exec (.takeover h) s =
        .next (s.modDev (fun _ => (d0.complete j stTakeoverRefused 0 0).serve))) ∧
      (∀ j e, j = s.dev.jobOf h .takeover [] → d0.passes j → d0.takeoverRefused (funcEp j.fn) = false →
        e = (List.range 8).foldl (fun (x : Dev) k => if (x.sp k).owner = 1 - funcEp j.fn then
          x.modSess k (fun y => { y with closing := if y.closing = some 2 && !y.closeBuilt then some 5 else y.closing }) else x)
          (d0.takeover (funcEp j.fn)) →
        exec (.takeover h) s = .next (s.modDev (fun _ => (e.complete j stSuccess 0 0).serve))) ∧
      (∀ j, j = s.dev.jobOf h (.bufAlloc x) [] → d0.passes j →
        (d0.hostManaged j.dom = false → exec (.bufAlloc h x) s = .next (s.modDev (fun _ => (d0.complete j stSequence 0 0).serve))) ∧
        (d0.hostManaged j.dom = true → (d0.alloc (16 + j.dom) x).2 = none →
          exec (.bufAlloc h x) s = .next (s.modDev (fun _ => ((d0.alloc (16 + j.dom) x).1.complete j stOutOfBuffer 0 0).serve))) ∧
        (∀ b, d0.hostManaged j.dom = true → (d0.alloc (16 + j.dom) x).2 = some b →
          exec (.bufAlloc h x) s = .next (s.modDev (fun _ => (((d0.alloc (16 + j.dom) x).1.addRef j.dom b).complete j stSuccess b 0).serve)))) ∧
      (∀ j e r, j = s.dev.jobOf h (.bufRef x) [] → e = d0.ready j → d0.passes j → e.hostManaged j.dom = true → r = (e.incRef x).addRef j.dom x →
        exec (.bufRef h x) s = .next (s.modDev (fun _ => (r.complete j stSuccess (r.pool.descOf x).count 0).serve))) ∧
      (∀ j e r, j = s.dev.jobOf h (.bufRelease x) [] → e = d0.ready j → d0.passes j → e.hostManaged j.dom = true → r = e.releaseBy j.dom x →
        exec (.bufRelease h x) s = .next (s.modDev (fun _ => (r.complete j stSuccess (r.pool.descOf x).count 0).serve))) ∧
      (∀ j e off data k, j = s.dev.jobOf h (.bufLoad x off data) [] → e = d0.ready j → d0.passes j → e.hostManaged j.dom = true →
        k = min (hdrLen h) (e.pool.bufSize x - off) → exec (.bufLoad h x off data) s = .next (s.modDev (fun _ =>
          (((e.chestPut (e.pool.bufAddr (e.aim x) + off) (takePad 0 k data)).fromHost j k).complete j stSuccess k (hdrLen h - k)).serve))) ∧
      (∀ j e off k, j = s.dev.jobOf h (.bufStore x off) [] → e = d0.ready j → d0.passes j → e.hostManaged j.dom = true →
        k = min (hdrLen h) (e.pool.bufSize x - off) → exec (.bufStore h x off) s = .next (s.modDev (fun _ =>
          ((e.toHost j 0 (e.chestGet (e.pool.bufAddr (e.aim x) + off) k)).complete j stSuccess k (hdrLen h - k)).serve))))) ∧
  (∀ (d : Dev) (dom x : Nat),
    (d.pool.isFree x = false → d.aim x = x) ∧
    (d.domRef dom x ≠ 0 → d.releaseBy dom x = { d with pool := { d.pool with domRefs := mmod (fun _ => 0) d.pool.domRefs (2 ^ 24 * dom + x) (· - 1) } }.decRef x) ∧
    (d.domRef dom x = 0 → d.releaseBy dom x = if d.freeVal % 2 = 0 then d.nextFree.decRef x else d.nextFree))

/-- Commands that write (R316 to R321, R330): a WRITE at its turn lands its data, or is refused in the order of its rules; landed, it is
accepted with the next object number, or refused where its own blocks are no NCF (R132); marks are accepted one after another; a SYNC with
nothing uncommitted completes at once; a stream is opened, changed and closed, with its key slot checked (R360).
Of the model itself: log entry 24. -/
def Obligations.WritesMarksAndStreams : Prop :=
  (∀ (d : Dev) (st p : Nat), ∀ k, k = parKeep p →
    (parEnc k = 3 → d.paramsFault st p = (some stInvalidField, d)) ∧ (parEnc k ≠ 1 → parEnc k ≠ 3 → d.paramsFault st p = (none, d)) ∧
    (parEnc k = 1 → d.owns (d.prot kStream st) kKeyslot (parSlot k) = false → d.paramsFault st p = (some stKeyUnavailable,
      (d.violation vKeyslot (parSlot k) (d.prot kStream st)).errEvent pgKeystore errProt)) ∧
    (parEnc k = 1 → d.owns (d.prot kStream st) kKeyslot (parSlot k) = true → (d.slot (parSlot k)).loaded = false →
      d.paramsFault st p = (some stKeyUnavailable, d)) ∧
    (parEnc k = 1 → d.owns (d.prot kStream st) kKeyslot (parSlot k) = true → (d.slot (parSlot k)).loaded = true →
      d.paramsFault st p = (none, d))) ∧
  (∀ (s : State) (h : CmdHdr) (n : Fin 8), h.target = n → ∀ d0 : Dev, d0 = s.dev.fetched h.sq →
    (∀ j e more wait req data, j = s.dev.jobOf h (.write more wait req) data → e = d0.ready j → d0.passes j →
      (e.hostPacked n = true → exec (.write h more wait req data) s = .next (s.modDev (fun _ => ((e.inTurn n j).finish n stSequence 0 0 0).went n))) ∧
      (e.hostPacked n = false → e.fon (pgWriter n) Reg.WRITER.HALTED = true →
        exec (.write h more wait req data) s = .next (s.modDev (fun _ => ((e.inTurn n j).finish n stWriteError 0 0 0).went n))) ∧
      (e.hostPacked n = false → e.fon (pgWriter n) Reg.WRITER.HALTED = false → (e.sp n).posObj ≠ (e.sp n).eodOf (e.sp n).sess.part →
        exec (.write h more wait req data) s = .next (s.modDev (fun _ => ((e.inTurn n j).finish n stNotAtEnd 0 0 0).went n))) ∧
      (e.hostPacked n = false → e.fon (pgWriter n) Reg.WRITER.HALTED = false → (e.sp n).posObj = (e.sp n).eodOf (e.sp n).sess.part →
        ((e.sp n).bytesLeft < chargeOf h.dlen + (e.sp n).wr.charges → exec (.write h more wait req data) s = .next (s.modDev (fun _ =>
          ((e.inTurn n j).finish n stPartitionFull 0 0 0).went n))) ∧
        (chargeOf h.dlen + (e.sp n).wr.charges ≤ (e.sp n).bytesLeft → exec (.write h more wait req data) s = .next (s.modDev (fun _ =>
          (((e.inTurn n j).modSp n (fun x => { x with curStep := 2 })).land n).went n))))) ∧
    (∀ j more wait req, (s.dev.sp n).cur = some j → j.op = .write more wait req → (s.dev.sp n).curStep = 2 → s.dev.landed n j = true →
      (s.dev.fon (pgWriter n) Reg.WRITER.HALTED = true →
        exec (.writeAccepted n) s = .next (s.modDev (fun d => (d.landFails n stWriteError).follow n))) ∧
      (∀ (x : Stream) (p : Nat) (src : List Piece) (d1 : Dev), s.dev.fon (pgWriter n) Reg.WRITER.HALTED = false → x = s.dev.stream j.hdr.stream →
        p = (if x.recOpen then x.params else x.next.getD x.params) → src = (s.dev.sp n).landBufs.filter (fun q => decide (0 < q.len)) →
        d1 = s.dev.decRefs (((s.dev.sp n).landBufs.filter (fun q => q.len == 0)).map (·.handle)) →
        (parNcf p = true → parEnc p ≠ 2 → walkPart true more (s.dev.piecesBytes (s.dev.supplied n j.hdr.stream ++ src)) = none →
          (x.recOpen = false → exec (.writeAccepted n) s = .next (s.modDev (fun d => (d.landFails n stNcfRefused).follow n))) ∧
          (x.recOpen = true → exec (.writeAccepted n) s = .next (s.modDev (fun d => (d.partRefused n stNcfRefused).follow n)))) ∧
        (∀ d2, parNcf p = false → d2 = (if x.recOpen then d1.laterPart n j more src [] [] else d1.firstPart n j more req src [] []) →
          exec (.writeAccepted n) s = .next (s.modDev (fun _ =>
            (d2.accepted n j wait ((d2.sp n).sess.nextObj - 1) ((d2.sp n).sess.nextObj - 1)).follow n))))) ∧
    ((s.dev.sp n).cur = none → exec (.writeAccepted n) s = .next (s.modDev (fun d => d.follow n))) ∧
    (∀ j wait c, j = s.dev.jobOf h (.writeMark wait c) [] → d0.passes j →
      (d0.hostPacked n = true → exec (.writeMark h wait c) s = .next (s.modDev (fun _ => ((d0.inTurn n j).finish n stSequence 0 0 0).went n))) ∧
      (d0.hostPacked n = false → d0.fon (pgWriter n) Reg.WRITER.HALTED = true →
        exec (.writeMark h wait c) s = .next (s.modDev (fun _ => ((d0.inTurn n j).finish n stWriteError 0 0 0).went n))) ∧
      (d0.hostPacked n = false → d0.fon (pgWriter n) Reg.WRITER.HALTED = false → (d0.sp n).posObj = (d0.sp n).eodOf (d0.sp n).sess.part →
        ((d0.sp n).bytesLeft < 16 * c + (d0.sp n).wr.charges → exec (.writeMark h wait c) s = .next (s.modDev (fun _ =>
          ((d0.inTurn n j).finish n stPartitionFull 0 0 0).went n))) ∧
        (16 * c + (d0.sp n).wr.charges ≤ (d0.sp n).bytesLeft →
          (c = 0 → exec (.writeMark h wait c) s = .next (s.modDev (fun _ =>
            ((d0.inTurn n j).finish n stSuccess ((d0.sp n).eodOf (d0.sp n).sess.part) 0 0).went n))) ∧
          (∀ d1, c ≠ 0 → d1 = (d0.inTurn n j).addMarks n j c → exec (.writeMark h wait c) s = .next (s.modDev (fun _ =>
            (({ d1 with streams := d1.streams.map (fun (x : Nat × Stream) => (x.1, if x.2.spoke = n then { x.2 with anchorDue := true } else x.2)) } : Dev).accepted
              n j wait ((d0.sp n).eodOf (d0.sp n).sess.part) ((d0.sp n).eodOf (d0.sp n).sess.part + c - 1)).went n)))))) ∧
    (∀ j, j = s.dev.jobOf h .sync [] → d0.passes j → d0.hostPacked n = false → (d0.sp n).wr.objs = [] → (d0.sp n).wr.placed = [] →
      ((d0.sp n).wr.failed = [] → exec (.sync h) s = .next (s.modDev (fun _ =>
        (((d0.inTurn n j).modSp n (fun x => { x with syncCover := [] })).finish n stSuccess (d0.sp n).sess.nextObj 0 0).went n))) ∧
      ((d0.sp n).wr.failed ≠ [] → exec (.sync h) s = .next (s.modDev (fun _ =>
        ((((d0.inTurn n j).modSp n (fun x => { x with syncCover := [] })).modWr n (fun w => { w with failed := [] })).finish n
          (failCode (d0.sp n).wr.failed) (d0.sp n).lowestUncommitted 0 0).went n)))) ∧
    (∀ j p q, j = s.dev.jobOf h (.streamOpen p) [] → d0.passes j → q = (d0.inTurn n j).paramsFault h.stream p →
      ((d0.stream h.stream).isOpen = true →
        exec (.streamOpen h p) s = .next (s.modDev (fun _ => ((d0.inTurn n j).finish n stSequence 0 0 0).went n))) ∧
      (∀ code, (d0.stream h.stream).isOpen = false → q.1 = some code →
        exec (.streamOpen h p) s = .next (s.modDev (fun _ => (q.2.finish n code 0 0 0).went n))) ∧
      ((d0.stream h.stream).isOpen = false → q.1 = none → exec (.streamOpen h p) s = .next (s.modDev (fun _ =>
        ((q.2.modStream h.stream (fun _ => { isOpen := true, spoke := n, params := parKeep p })).finish n stSuccess 0 0 0).went n)))) ∧
    (∀ j p q, j = s.dev.jobOf h (.streamSet p) [] → d0.passes j → q = (d0.inTurn n j).paramsFault h.stream p →
      (∀ code, q.1 = some code → exec (.streamSet h p) s = .next (s.modDev (fun _ => (q.2.finish n code 0 0 0).went n))) ∧
      (q.1 = none → exec (.streamSet h p) s = .next (s.modDev (fun _ =>
        ((q.2.modStream h.stream (fun x => { x with next := some (parKeep p) })).finish n stSuccess 0 0 0).went n)))) ∧
    (∀ j, j = s.dev.jobOf h .streamClose [] → d0.passes j →
      ((d0.sp n).wr.ofStream h.stream = false ∨ d0.fon (pgWriter n) Reg.WRITER.HALTED = true →
        exec (.streamClose h) s = .next (s.modDev (fun _ => (((d0.inTurn n j).unbind h.stream).finish n stSuccess 0 0 0).went n))) ∧
      ((d0.sp n).wr.ofStream h.stream = true → d0.fon (pgWriter n) Reg.WRITER.HALTED = false →
        exec (.streamClose h) s = .next (s.modDev (fun _ => (d0.inTurn n j).went n)))))

/-- Commands that read, move or exchange sheets (R309, R322, R326, R327, R331 to R333, R335 to R337): those of R309 begin once nothing stands
before them, and otherwise wait; a close of the session comes before a move to another partition (R326); a close with no session open
completes with the end of data; a held sheet is released.
Of the model itself: log entries 32, 35. -/
def Obligations.ReadsMovesAndSheets : Prop :=
  ∀ (s : State) (h : CmdHdr) (n : Fin 8), h.target = n → ∀ d0 : Dev, d0 = s.dev.fetched h.sq →
    (∀ j e more, j = s.dev.jobOf h (.read more) [] → e = d0.ready j → d0.passes j →
      (e.nothingBefore n j → exec (.read h more) s = .next (s.modDev (fun _ => ((e.committed n j).beginRead n j more).went n))) ∧
      ((e.sp n).wr.uncommitted ≠ [] → e.fon (pgWriter n) Reg.WRITER.HALTED = false → (e.sp n).failSeq = 0 →
        exec (.read h more) s = .next (s.modDev (fun _ => ((e.inTurn n j).modSp n (fun x => { x with curStep := 1 })).went n)))) ∧
    (∀ j o p eod hint, j = s.dev.jobOf h (.locate o p eod hint) [] → d0.passes j → d0.nothingBefore n j →
      (p = (d0.sp n).posPart → exec (.locate h o p eod hint) s = .next (s.modDev (fun _ => ((d0.committed n j).beginLocate n o hint eod).went n))) ∧
      (p ≠ (d0.sp n).posPart → (d0.sp n).sess.isOpen = false → exec (.locate h o p eod hint) s = .next (s.modDev (fun _ =>
        (((d0.committed n j).enterPart n p).beginLocate n o hint eod).went n))) ∧
      (p ≠ (d0.sp n).posPart → (d0.sp n).sess.isOpen = true → exec (.locate h o p eod hint) s = .next (s.modDev (fun _ =>
        (((d0.committed n j).modSp n (fun x => { x with curStep := 3 })).closeSession n 1).went n)))) ∧
    (∀ j k u, j = s.dev.jobOf h (.space k u) [] → d0.passes j → d0.nothingBefore n j →
      exec (.space h k u) s = .next (s.modDev (fun _ => ((d0.committed n j).beginSpace n k u).went n))) ∧
    (∀ j, j = s.dev.jobOf h .closeSession [] → d0.passes j → d0.nothingBefore n j →
      ((d0.sp n).sess.isOpen = false → exec (.closeSession h) s = .next (s.modDev (fun _ =>
        ((d0.committed n j).finish n stSuccess ((d0.sp n).eodOf (d0.sp n).sess.part) 0 0).went n))) ∧
      (∀ e, (d0.sp n).sess.isOpen = true → e = ((d0.committed n j).modSp n (fun x => { x with curStep := 3 })).closeSession n 1 →
        exec (.closeSession h) s = .next (s.modDev (fun _ => (if (e.sp n).sess.isOpen then e else e.closeAnswer n stSuccess).went n)))) ∧
    (∀ j k w, j = s.dev.jobOf h (.format k w) [] → d0.passes j → d0.nothingBefore n j →
      exec (.format h k w) s = .next (s.modDev (fun _ => ((d0.committed n j).beginFormat n k).went n))) ∧
    (∀ j, j = s.dev.jobOf h .unload [] → d0.passes j → d0.nothingBefore n j →
      exec (.unload h) s = .next (s.modDev (fun _ => ((d0.committed n j).beginUnload n).went n))) ∧
    (∀ j e k m, j = s.dev.jobOf h (.sheetRead 0 k m) [] → e = d0.ready j → d0.passes j → (e.lad n).raw = none →
      exec (.sheetRead h 0 k m) s = .next (s.modDev (fun _ => ((e.inTurn n j).finish n stSequence 0 0 0).went n))) ∧
    (∀ j e k m x p, j = s.dev.jobOf h (.sheetRead 0 k m) [] → e = d0.ready j → d0.passes j → (e.lad n).raw = some (x, p) →
      exec (.sheetRead h 0 k m) s = .next (s.modDev (fun _ =>
        ((((e.inTurn n j).sendSheet n j x p m false).rawRelease n).bump (pgSh n) Reg.SAMPLEHOLD.RAW_DELIVERED 1).went n))) ∧
    (∀ j e k m, j = s.dev.jobOf h (.sheetRead 1 k m) [] → e = d0.ready j → d0.passes j → e.nothingBefore n j →
      exec (.sheetRead h 1 k m) s = .next (s.modDev (fun _ => ((e.committed n j).sheetReadOn n j k m).went n))) ∧
    (∀ j, j = s.dev.jobOf h .rawRelease [] → d0.passes j →
      exec (.rawRelease h) s = .next (s.modDev (fun _ => (((d0.inTurn n j).rawRelease n).finish n stSuccess 0 0 0).went n))) ∧
    (∀ j e content, j = s.dev.jobOf h (.sheetWrite content) [] → e = d0.ready j → d0.passes j →
      (∀ code, (e.inTurn n j).sheetWriteRefused n j = some code →
        exec (.sheetWrite h content) s = .next (s.modDev (fun _ => ((e.inTurn n j).finish n code 0 0 0).went n))) ∧
      ((e.inTurn n j).sheetWriteRefused n j = none → exec (.sheetWrite h content) s = .next (s.modDev (fun _ =>
        ((((e.inTurn n j).modSp n (fun x => { x with curStep := 2 })).land n).sheetAccepted n).went n))))

/-! ### KEEP and firmware (chapter 13) -/

/-- The protection table (R345 to R349): entries are staged within their kind; a discard copies the live table; a commit is refused in the
order of R347, and otherwise the staged table is live, SEQ is one higher and the ledger is a step further.
Of the model itself: log entry 10. -/
def Obligations.ProtectionTable : Prop :=
  ∀ (s : State) (a : Accessor), s.dev.access a pgProtect = .open →
    (∀ dom k, s.dev.fget pgProtect Reg.PROTECT.KIND < 7 → Completes (.stageSet a dom k) s (fun t =>
      (∀ kind i, kind < 7 → i < kindCount kind → protOf t.dev.keep.staged kind i =
        if kind = s.dev.fget pgProtect Reg.PROTECT.KIND ∧ s.dev.fget pgProtect Reg.PROTECT.INDEX ≤ i ∧
          i < s.dev.fget pgProtect Reg.PROTECT.INDEX + min k 4096 then dom % 64 else protOf s.dev.keep.staged kind i) ∧
      { t with dev := { t.dev with keep := { t.dev.keep with staged := s.dev.keep.staged } } } = s)) ∧
    (∀ dom k, 7 ≤ s.dev.fget pgProtect Reg.PROTECT.KIND → exec (.stageSet a dom k) s = .next s) ∧
    Completes (.discard a) s (fun t => t.dev.keep.staged = s.dev.keep.prot ∧
      { t with dev := { t.dev with keep := { t.dev.keep with staged := s.dev.keep.staged } } } = s) ∧
    (s.dev.commitRefusal ≠ 0 → Completes (.commit a) s (fun t => t.dev.fget pgProtect Reg.PROTECT.REFUSE = s.dev.commitRefusal ∧
      t.dev.fget pgProtect Reg.PROTECT.COMMIT_REFUSED = 1 ∧ { t with dev := { t.dev with regs := s.dev.regs } } = s)) ∧
    (s.dev.commitRefusal = 0 → Completes (.commit a) s (fun t => t.dev.keep = { s.dev.keep with
      prot := s.dev.keep.staged, seq := s.dev.keep.seq + 1, ledger := ledgerStep s.dev.keep.ledger (s.dev.keep.seq + 1) s.dev.keep.staged } ∧
      t.dev.fget pgProtect Reg.PROTECT.COMMITTED = 1 ∧
      { t with dev := { t.dev with keep := s.dev.keep, regs := s.dev.regs } } = s)) ∧
    (∀ f < 128, protOf s.dev.keep.staged kFunc f = 1 → s.dev.commitRefusal = 1) ∧
    ((∀ f < 128, 2 ≤ protOf s.dev.keep.staged kFunc f) → s.dev.commitRefusal = 2)

/-- What firmware answers (R351, R352, R383): each request with its response's code while a chip steward runs, and nothing otherwise; with no
identity, what would be signed is refused. The codes are those of SPDM 1.2 (log entry 40, PRESUMED). An update's image through PLDM is
received whole; beyond 2^25 bytes WORDS is free. -/
def Obligations.MeasurementsAreAnswered : Prop :=
  (∀ (s : State), s.dev.chipStewards = true →
    exec .getVersion s = .next (s.modDev (fun d => d.emit (.spdm 0x04 [0, 0x12]))) ∧
    exec .getCapabilities s = .next (s.modDev (fun d => d.emit (.spdm 0x61 [0x16, 0, 0, 0]))) ∧
    exec .negotiateAlgorithms s = .next (s.modDev (fun d => d.emit (.spdm 0x63 [0x40, 0, 0, 0, 4, 0, 0, 0, 8, 0, 0, 0]))) ∧
    exec .getDigests s = .next (s.modDev (fun d => d.emit (.spdm 0x01 (Config.sha512 (Config.certChain 0) ++ Config.sha512 (Config.certChain 1))))) ∧
    (∀ slot off len, (slot ≤ 1 → exec (.getCertificate slot off len) s = .next (s.modDev (fun d =>
        d.emit (.spdm 0x02 (((Config.certChain slot).drop off).take len))))) ∧
      (2 ≤ slot → exec (.getCertificate slot off len) s = .next (s.modDev (fun d => d.emit (.spdm 0x7F []))))) ∧
    (∀ slot nonce, slot ≤ 1 → s.dev.fon pgBoot Reg.BOOT.IDENTITY = true → exec (.challenge slot nonce) s = .next (s.modDev (fun d =>
      ({ d with free := d.free + 1 } : Dev).emit (.spdm 0x03 (Config.sha512 (Config.certChain slot) ++
        Config.identitySign (nonce ++ Config.sha512 (Config.certChain slot)) (Config.freeValue d.free)))))) ∧
    (∀ slot nonce, s.dev.fon pgBoot Reg.BOOT.IDENTITY = false →
      exec (.challenge slot nonce) s = .next (s.modDev (fun d => d.emit (.spdm 0x7F [])))) ∧
    (∀ nonce, exec (.getMeasurements 0 false nonce) s = .next (s.modDev (fun d => d.emit (.spdm 0x60 [6]))) ∧
      exec (.getMeasurements 255 false nonce) s = .next (s.modDev (fun d => d.emit (.spdm 0x60
        (((List.range 6).map (fun k => d.measurement (k + 1))).flatten))))) ∧
    (∀ k nonce, 1 ≤ k → k ≤ 6 → s.dev.fon pgBoot Reg.BOOT.IDENTITY = true → exec (.getMeasurements k true nonce) s = .next (s.modDev (fun d =>
      ({ d with free := d.free + 1 } : Dev).emit (.spdm 0x60 (d.measurement k ++
        Config.identitySign (nonce ++ d.measurement k) (Config.freeValue d.free)))))) ∧
    (∀ k nonce, s.dev.fon pgBoot Reg.BOOT.IDENTITY = false →
      exec (.getMeasurements k true nonce) s = .next (s.modDev (fun d => d.emit (.spdm 0x7F [])))) ∧
    (∀ k nonce, 1 ≤ k → k ≤ 6 → exec (.getMeasurements k false nonce) s = .next (s.modDev (fun d => d.emit (.spdm 0x60 (d.measurement k))))) ∧
    (∀ k nonce, 6 < k → k ≠ 255 → exec (.getMeasurements k false nonce) s = .next (s.modDev (fun d => d.emit (.spdm 0x7F [])))) ∧
    (∀ code, [0x81, 0x82, 0x83, 0x84, 0xE0, 0xE1, 0xE3].contains code = false →
      exec (.spdmUnsupportedRequest code) s = .next (s.modDev (fun d => d.emit (.spdm 0x7F []))))) ∧
  (∀ (s : State), s.dev.chipStewards = false → exec .getVersion s = .next s ∧ exec .getDigests s = .next s ∧
    ∀ k v, exec (.numericSensorRead k) s = .next s ∧ exec (.powerCapEffecter v) s = .next s ∧ exec (.pldmFirmwareUpdate []) s = .next s) ∧
  (∀ (d : Dev), d.measurement 4 = [BitVec.ofNat 8 d.svnFuses] ∧ d.measurement 5 = bytesBE 8 d.keep.seq ++ d.keep.ledger ∧
    (d.boot.staged = none → d.measurement 3 = List.replicate 64 0)) ∧
  (∀ (s : State) (k : Nat), s.dev.chipStewards = true → k < 26 →
    exec (.numericSensorRead k) s = .next (s.modDev (fun d => d.emit (.pldm ((d.sens k).last.getD 0))))) ∧
  (∀ (s : State), s.dev.chipStewards = true →
    exec (.numericSensorRead 26) s = .next (s.modDev (fun d => d.emit (.pldm (ofField 16 (d.fget pgThermal Reg.THERMAL.T_MAX))))) ∧
    exec (.numericSensorRead 27) s = .next (s.modDev (fun d => d.emit (.pldm (d.fget pgPower Reg.POWER.STEP)))) ∧
    exec (.numericSensorRead 28) s = .next (s.modDev (fun d => d.emit (.pldm (d.fget pgPower Reg.POWER.P12V_POWER))))) ∧
  (∀ (s : State) (v : Nat), s.dev.chipStewards = true →
    exec (.powerCapEffecter v) s = .next (s.modDev (fun d => (d.fset pgPower Reg.POWER.POWER_CAP v).requestStep))) ∧
  (∀ (s : State) (im : List Byte), s.dev.chipStewards = true → s.dev.fget pgBoot Reg.BOOT.STATUS ≠ 1 → s.dev.fget pgBoot Reg.BOOT.STATUS ≠ 2 →
    Completes (.pldmFirmwareUpdate im) s (fun t => t.dev.boot = { s.dev.boot with recv := im, openSlot := 1 - s.dev.boot.activeSlot } ∧
      t.dev.fget pgBoot Reg.BOOT.STATUS = 2 ∧ (im.length < 2 ^ 25 → t.dev.fget pgBoot Reg.BOOT.WORDS = im.length / 4) ∧
      { t with dev := { t.dev with boot := s.dev.boot, regs := s.dev.regs, free := s.dev.free } } = s))

/-- Updates (R354 to R357): START opens the slot that the running image is not in; data follow; END begins the verification, which ends with
the first failing check or with the image staged; RELEASE acts only in recovery; the counter is only ever raised. WORDS is stated below its
23 bits, beyond which it is free.
Of the model itself: log entries 10, 28. -/
def Obligations.FirmwareUpdates : Prop :=
  ∀ (s : State) (a : Accessor),
    (s.dev.access a pgBoot = .open →
      (s.dev.fget pgBoot Reg.BOOT.STATUS ≠ 1 → s.dev.fget pgBoot Reg.BOOT.STATUS ≠ 2 → Completes (.updateStart a) s (fun t =>
        t.dev.boot = { s.dev.boot with recv := [], openSlot := 1 - s.dev.boot.activeSlot } ∧ t.dev.fget pgBoot Reg.BOOT.STATUS = 1 ∧
        t.dev.fget pgBoot Reg.BOOT.WORDS = 0 ∧ { t with dev := { t.dev with boot := s.dev.boot, regs := s.dev.regs } } = s)) ∧
      (s.dev.fget pgBoot Reg.BOOT.STATUS = 1 ∨ s.dev.fget pgBoot Reg.BOOT.STATUS = 2 → exec (.updateStart a) s = .next s) ∧
      (∀ v : BitVec 32, s.dev.fget pgBoot Reg.BOOT.STATUS = 1 → Completes (.updData a v) s (fun t =>
        t.dev.boot = { s.dev.boot with recv := s.dev.boot.recv ++ bytesLE 4 v.toNat } ∧
        (s.dev.boot.recv.length + 4 < 2 ^ 25 → t.dev.fget pgBoot Reg.BOOT.WORDS = (s.dev.boot.recv.length + 4) / 4) ∧
        { t with dev := { t.dev with boot := s.dev.boot, regs := s.dev.regs, free := s.dev.free } } = s)) ∧
      (∀ v : BitVec 32, s.dev.fget pgBoot Reg.BOOT.STATUS ≠ 1 → exec (.updData a v) s = .next s ∧ exec (.updateEnd a) s = .next s) ∧
      (s.dev.fget pgBoot Reg.BOOT.STATUS = 1 → exec (.updateEnd a) s = .next (s.modDev (fun d => d.fset pgBoot Reg.BOOT.STATUS 2))) ∧
      (s.dev.fget pgBoot Reg.BOOT.STATE ≠ 2 → exec (.updateRelease a) s = .next s) ∧
      (s.dev.fget pgBoot Reg.BOOT.STATE = 2 → s.dev.fget pgBoot Reg.BOOT.STATUS = 3 → Completes (.updateRelease a) s (fun t =>
        t.dev.boot = { s.dev.boot with active := s.dev.boot.staged, activeSlot := s.dev.boot.stagedSlot } ∧
        t.dev.fget pgBoot Reg.BOOT.STATE = 1 ∧ t.dev.fget pgMgmt Reg.MGMT.PHASE = 5 ∧
        t.dev.fget pgBoot Reg.BOOT.IMAGE_VERSION = imgVersion (s.dev.boot.staged.getD []) % 2 ^ Reg.BOOT.IMAGE_VERSION.w)) ∧
      (s.dev.svnFuses < s.dev.svnAim → exec (.svnCommit a) s = .next (s.modDev (fun d => d.fset pgBoot Reg.BOOT.BUSY 1))) ∧
      (s.dev.svnAim ≤ s.dev.svnFuses → exec (.svnCommit a) s = .next s)) ∧
    (∀ ok, s.dev.fget pgBoot Reg.BOOT.STATUS ≠ 2 → exec (.updateVerifyDone ok) s = .next s) ∧
    (∀ ok c, s.dev.fget pgBoot Reg.BOOT.STATUS = 2 → c = imgCode s.dev.svnFuses s.dev.boot.recv → Completes (.updateVerifyDone ok) s (fun t =>
      (c ≠ 0 → t.dev.fget pgBoot Reg.BOOT.STATUS = c ∧ t.dev.fget pgBoot Reg.BOOT.STAGE_FAIL = 1 ∧
        (c = 6 → t.dev.fget pgBoot Reg.BOOT.SVN_EXHAUSTED = 1) ∧ { t with dev := { t.dev with regs := s.dev.regs } } = s) ∧
      (c = 0 → ok = true → t.dev.boot.staged = some s.dev.boot.recv ∧ t.dev.boot.stagedSlot = s.dev.boot.openSlot ∧
        t.dev.boot.active = s.dev.boot.active ∧ t.dev.fget pgBoot Reg.BOOT.STATUS = 3 ∧ t.dev.fget pgBoot Reg.BOOT.STAGED = 1 ∧
        { t with dev := { t.dev with boot := s.dev.boot, regs := s.dev.regs } } = s) ∧
      (c = 0 → ok = false → t.dev.fget pgBoot Reg.BOOT.STATUS = 8 ∧ t.dev.fget pgBoot Reg.BOOT.STAGE_FAIL = 1 ∧
        t.dev.boot.staged = s.dev.boot.staged))) ∧
    (s.dev.fon pgBoot Reg.BOOT.BUSY = true → Completes .svnCommitDone s (fun t => t.dev.svnFuses = max s.dev.svnFuses s.dev.svnAim ∧
      t.dev.fget pgBoot Reg.BOOT.BUSY = 0 ∧ t.dev.fget pgBoot Reg.BOOT.SVN_RAISED = 1 ∧
      { t with dev := { t.dev with svnFuses := s.dev.svnFuses, regs := s.dev.regs } } = s)) ∧
    (s.dev.fon pgBoot Reg.BOOT.BUSY = false → exec .svnCommitDone s = .next s)

/-- Keys (R358, R369, R370, R372, R373): a load is refused in the order of its codes, and otherwise KEYSTORE is busy until it ends; a slot loaded
starts its IV counter at 0; a key that does not unwrap is counted; a load met by a zeroisation leaves nothing; a cleared slot is empty, and
a bound one is zeroised. A tamper condition that is met zeroises every slot and KEK and is counted; one that is gone leaves its bit to software.
Of the model itself: log entries 10, 36. -/
def Obligations.KeyLoadsAndZeroisation : Prop :=
  (∀ (s : State) (a : Accessor),
    (s.dev.access a pgKeystore = .open →
      (s.dev.fon pgKeystore Reg.KEYSTORE.BUSY = true → exec (.kekGo a) s = .next s ∧ exec (.keyGo a) s = .next s) ∧
      (s.dev.fon pgKeystore Reg.KEYSTORE.BUSY = false →
        (s.dev.tamperLatched = true → Completes (.kekGo a) s (fun t => t.dev.fget pgKeystore Reg.KEYSTORE.RESULT = 4 ∧
          t.dev.fget pgKeystore Reg.KEYSTORE.DONE = 1)) ∧
        (s.dev.tamperLatched = false → s.dev.fon pgBoot Reg.BOOT.IDENTITY = false → Completes (.kekGo a) s (fun t =>
          t.dev.fget pgKeystore Reg.KEYSTORE.RESULT = 5)) ∧
        (s.dev.tamperLatched = false → s.dev.fon pgBoot Reg.BOOT.IDENTITY = true → Completes (.kekGo a) s (fun t =>
          t.dev.keep = { s.dev.keep with ksLoad := some (.kek (s.dev.fget pgKeystore Reg.KEYSTORE.KEK) (s.dev.keyIn 512)) } ∧
          t.dev.fget pgKeystore Reg.KEYSTORE.BUSY = 1 ∧ { t with dev := { t.dev with keep := s.dev.keep, regs := s.dev.regs } } = s)) ∧
        (s.dev.slotBound (s.dev.fget pgKeystore Reg.KEYSTORE.SLOT) = true → Completes (.keyGo a) s (fun t => t.dev.fget pgKeystore Reg.KEYSTORE.RESULT = 1)) ∧
        (s.dev.slotBound (s.dev.fget pgKeystore Reg.KEYSTORE.SLOT) = false → s.dev.kek (s.dev.fget pgKeystore Reg.KEYSTORE.KEK) = [] →
          Completes (.keyGo a) s (fun t => t.dev.fget pgKeystore Reg.KEYSTORE.RESULT = 2)) ∧
        (s.dev.slotBound (s.dev.fget pgKeystore Reg.KEYSTORE.SLOT) = false → s.dev.kek (s.dev.fget pgKeystore Reg.KEYSTORE.KEK) ≠ [] →
          s.dev.tamperLatched = true → Completes (.keyGo a) s (fun t => t.dev.fget pgKeystore Reg.KEYSTORE.RESULT = 4)) ∧
        (s.dev.slotBound (s.dev.fget pgKeystore Reg.KEYSTORE.SLOT) = false → s.dev.kek (s.dev.fget pgKeystore Reg.KEYSTORE.KEK) ≠ [] →
          s.dev.tamperLatched = false → Completes (.keyGo a) s (fun t => t.dev.keep = { s.dev.keep with
            ksLoad := some (.key (s.dev.fget pgKeystore Reg.KEYSTORE.SLOT) (s.dev.fget pgKeystore Reg.KEYSTORE.KEK)
              (s.dev.kek (s.dev.fget pgKeystore Reg.KEYSTORE.KEK)) (s.dev.keyIn 40)
              (2 ^ 32 * s.dev.fget pgKeystore Reg.KEYSTORE.KEY_ID_HI + s.dev.fget pgKeystore Reg.KEYSTORE.KEY_ID_LO)
              (s.dev.fget pgKeystore Reg.KEYSTORE.IV_FIXED)) } ∧ t.dev.fget pgKeystore Reg.KEYSTORE.BUSY = 1))) ∧
      Completes (.kekClear a) s (fun t => t.dev.kek (s.dev.fget pgKeystore Reg.KEYSTORE.KEK) = [] ∧
        (∀ k, k ≠ s.dev.fget pgKeystore Reg.KEYSTORE.KEK → mwf (fun _ => ([] : List Byte)) s.dev.keep.keks = true → t.dev.kek k = s.dev.kek k) ∧
        bitAt (t.dev.fget pgKeystore Reg.KEYSTORE.KEK_VALID) (s.dev.fget pgKeystore Reg.KEYSTORE.KEK) = false ∧
        t.dev.fget pgKeystore Reg.KEYSTORE.DONE = 1) ∧
      (s.dev.slotBound (s.dev.fget pgKeystore Reg.KEYSTORE.SLOT) = false → exec (.keyClear a) s = .next (s.modDev (fun d =>
        ((d.modSlot (d.fget pgKeystore Reg.KEYSTORE.SLOT) (fun x => { x with loaded := false, key := List.replicate 32 0 })).fset pgKeystore
          Reg.KEYSTORE.DONE 1).followAll))) ∧
      (s.dev.slotBound (s.dev.fget pgKeystore Reg.KEYSTORE.SLOT) = true → exec (.keyClear a) s = .next (s.modDev (fun d =>
        ((d.zeroise [d.fget pgKeystore Reg.KEYSTORE.SLOT] false).fset pgKeystore Reg.KEYSTORE.DONE 1).followAll)))) ∧
    (s.dev.keep.ksLoad = none → exec .kekLoadDone s = .next s ∧ exec .keyLoadDone s = .next s) ∧
    (∀ k ct, s.dev.keep.ksLoad = some (.kek k ct) → Completes .kekLoadDone s (fun t => t.dev.keep.ksLoad = none ∧
      t.dev.fget pgKeystore Reg.KEYSTORE.DONE = 1 ∧ t.dev.fget pgKeystore Reg.KEYSTORE.BUSY = 0 ∧
      (∀ key, Config.oaepDecrypt ct = some key → key.length = 32 → t.dev.fget pgKeystore Reg.KEYSTORE.RESULT = 0 ∧
        (s.dev.keep.ksCancelled = false → t.dev.kek k = key)) ∧
      (s.dev.keep.ksCancelled = true → t.dev.keep.keks = s.dev.keep.keks) ∧
      (Config.oaepDecrypt ct = none → t.dev.fget pgKeystore Reg.KEYSTORE.RESULT = 6 ∧ t.dev.keep.keks = s.dev.keep.keks))) ∧
    (∀ x k kek ct keyId ivFixed, s.dev.keep.ksLoad = some (.key x k kek ct keyId ivFixed) → Completes .keyLoadDone s (fun t => t.dev.keep.ksLoad = none ∧
      (∀ key, Config.keyUnwrap kek ct = some key → key.length = 32 → t.dev.fget pgKeystore Reg.KEYSTORE.RESULT = 0 ∧
        (∀ y, y ≠ x → t.dev.slot y = s.dev.slot y) ∧ (s.dev.keep.ksCancelled = true → t.dev.keep.slots = s.dev.keep.slots) ∧
        (s.dev.keep.ksCancelled = false → t.dev.slot x =
          { s.dev.slot x with loaded := true, key := key, keyId := keyId, ivFixed := ivFixed, ivCount := 0, kekUsed := k })) ∧
      (Config.keyUnwrap kek ct = none → t.dev.fget pgKeystore Reg.KEYSTORE.RESULT = 3 ∧
        t.dev.fget pgKeystore Reg.KEYSTORE.UNWRAP_FAIL = 1 ∧ t.dev.keep.slots = s.dev.keep.slots)))) ∧
  ((∀ (s : State) (k : Fin 4),
    exec (.tamper k true) s = .next (s.modDev (fun d => ((((d.modKeep (fun x => { x with tamperNow := putBit x.tamperNow k true })).fset pgAlarm (tamperBit k)
      1).bump pgAlarm Reg.ALARM.TAMPER_CNT 1).fset pgAlarm Reg.ALARM.TAMPER 1).zeroiseAll.followAll)) ∧
    exec (.tamper k false) s = .next (s.modDev (fun d => (d.modKeep (fun x => { x with tamperNow := putBit x.tamperNow k false })).followAll))) ∧
  (∀ (s : State) (a : Accessor), s.dev.access a pgAlarm = .open → exec (.zeroiseAll a) s = .next (s.modDev (fun d => d.zeroiseAll.followAll))))

/-! ### Temperature and power (chapters 1, 2 and 14) -/

/-- The step rule (R380): four values of T at or above a step's threshold raise the step to it at once, three degrees below it they lower it,
and in between it stays. Fewer than four values change nothing. A sample of the 26 sensors (R379, R380, R382, R385, R386), taken while VSTBY
is in regulation: T is the maximum of what the sensors count for; a trip condition is recorded and takes the main rails down; otherwise the step
of the last four values of T is requested, unless THERMAL was changed unquiesced.
Of the model itself: log entries 25, 38. -/
def Obligations.ThermalSamplesAndSteps : Prop :=
  (∀ (ts : List Int) (s : Nat), s ≤ 7 →
    (ts.length < 4 → tempStep ts s = s) ∧
    (ts.length = 4 → tempStep ts s ≤ 7) ∧
    (ts.length = 4 → ∀ k, s < k → k ≤ 7 → (∀ t ∈ ts, thrOf k ≤ t) → k ≤ tempStep ts s) ∧
    (ts.length = 4 → ∀ k, s < k → k ≤ 7 → (∃ t ∈ ts, t < thrOf k) → tempStep ts s < k) ∧
    (ts.length = 4 → 0 < s → (∃ t ∈ ts, thrOf s - 48 ≤ t) → s ≤ tempStep ts s) ∧
    (ts.length = 4 → 0 < s → (∀ t ∈ ts, t < thrOf s - 48) → (∃ t ∈ ts, t < thrOf s) → tempStep ts s < s)) ∧
  (∀ (s : State) (rs : List Int) (d1 d2 : Dev) (top : Int),
    (s.dev.therm.stby = false → exec (.thermalSample rs) s = .next s) ∧
    (s.dev.therm.stby = true →
    d1 = (List.range 13).foldl (Dev.samplePair rs) ((List.range 26).foldl (Dev.sampleOne rs) s.dev) →
    top = ((List.range 26).map d1.effReading).foldl max (d1.effReading 0) →
    d2 = (((d1.modTherm (fun x => { x with lastT := (top :: x.lastT).take 4, coolSince := if d1.coolEnough then some (x.coolSince.getD d1.now) else none })).fset
      pgThermal Reg.THERMAL.T_MAX (toField 16 top)).fset pgThermal Reg.THERMAL.HOTTEST (((List.range 26).find? (fun i => d1.effReading i == top)).getD 0)).fset
      pgThermal Reg.THERMAL.FAST (b2n (rs.any (fun r => decide (1520 ≤ r)))) →
    (d1.therm.tripped = true ∨ d1.therm.mains = false → Completes (.thermalSample rs) s (fun t => t.dev = d2)) ∧
    (d1.therm.tripped = false → d1.therm.mains = true → d1.tripCond = none → s.dev.therm.mains = true → d2.unsettled pgThermal = false →
      (d2.fset pgThermal Reg.THERMAL.TEMP_STEP (tempStep d2.therm.lastT (d2.fget pgThermal Reg.THERMAL.TEMP_STEP))).requestStep.therm.mains = true →
      exec (.thermalSample rs) s = .next (s.modDev (fun _ =>
        (d2.fset pgThermal Reg.THERMAL.TEMP_STEP (tempStep d2.therm.lastT (d2.fget pgThermal Reg.THERMAL.TEMP_STEP))).requestStep))) ∧
    (∀ cause i r, d1.therm.tripped = false → d1.therm.mains = true → d1.tripCond = some (cause, i, r) → s.dev.therm.mains = true →
      Completes (.thermalSample rs) s (fun t => t.dev.therm.tripped = true ∧ t.dev.therm.mains = false ∧ t.chains = [] ∧ t.gates = [] ∧
        t.dev.fget pgThermal Reg.THERMAL.TRIP_INFO_CAUSE = cause % 4 ∧ t.dev.fget pgThermal Reg.THERMAL.TRIP_INFO_SENSOR = i % 32 ∧
        t.dev.spokes = [] ∧ t.dev.chest = []))))

/-- The other temperature and power events (R24 to R26, R381, R385, R387 to R389, R396): path B's comparator trips the module; the restart
tells of it; a DRAM device that is too hot or cannot be read says so and decides the refresh band of its channel; the supply, settled, puts
its step in force; a slow rise of one and the same sensor adds a step only after 3 s, and 10 s of calm take it away; power above the limit says so.
Of the model itself: log entries 3, 25. -/
def Obligations.ThermalAndPowerEvents : Prop :=
  ∀ (s : State),
    (∀ site : Fin 26, s.dev.therm.tripped = false → Completes (.tripComparator site) s (fun t => t.dev.therm.tripped = true ∧
      t.dev.therm.mains = false ∧ t.dev.fget pgThermal Reg.THERMAL.TRIP_INFO_CAUSE = 2 ∧ t.dev.fget pgThermal Reg.THERMAL.TRIP_INFO_SENSOR = site ∧
      t.dev.fget pgThermal Reg.THERMAL.TRIP_CNT = satAdd (2 ^ 32 - 1) (s.dev.fget pgThermal Reg.THERMAL.TRIP_CNT) 1 ∧
      (s.dev.therm.mains = true → t.chains = [] ∧ t.gates = []))) ∧
    (∀ site : Fin 26, s.dev.therm.tripped = true → exec (.tripComparator site) s = .next s) ∧
    (s.dev.therm.tripped = true → s.dev.therm.coolSince ≠ none → Completes .tripRestart s (fun t =>
      t.dev.therm = { s.dev.therm with tripped := false } ∧ t.dev.fget pgThermal Reg.THERMAL.TRIPPED = 1 ∧
      { t with dev := { t.dev with therm := s.dev.therm, regs := s.dev.regs } } = s)) ∧
    (s.dev.therm.tripped = false ∨ s.dev.therm.coolSince = none → exec .tripRestart s = .next s) ∧
    (∀ (i : Fin 52) (x : Int), Completes (.dramTempRead i (some x)) s (fun t => t.dev.dramOf i = (some x, 0) ∧
      (∀ j, j ≠ i.val → t.dev.dramOf j = s.dev.dramOf j) ∧
      t.dev.fget pgThermal Reg.THERMAL.DRAM_OVER = (if 1680 ≤ x then 1 else s.dev.fget pgThermal Reg.THERMAL.DRAM_OVER) ∧
      (1520 ≤ x → t.dev.fget (pgMemctl (i / 13)) Reg.MEMCTL.REFRESH = 2))) ∧
    (∀ (i : Fin 52), Completes (.dramTempRead i none) s (fun t =>
      t.dev.dramOf i = ((s.dev.dramOf i).1, min 3 ((s.dev.dramOf i).2 + 1)) ∧
      ((s.dev.dramOf i).2 = 2 → t.dev.fget pgThermal Reg.THERMAL.DRAM_FAIL = 1) ∧
      (2 ≤ (s.dev.dramOf i).2 → t.dev.fget (pgMemctl (i / 13)) Reg.MEMCTL.REFRESH = 2))) ∧
    (∀ power, Completes (.overLimit power) s (fun t => t.dev.fget pgPower Reg.POWER.P12V_POWER = power % 2 ^ Reg.POWER.P12V_POWER.w ∧
      t.dev.fget pgPower Reg.POWER.OVER_LIMIT = (if 10 * stepWatts (s.dev.fget pgPower Reg.POWER.STEP) < power then 1 else
        s.dev.fget pgPower Reg.POWER.OVER_LIMIT) ∧ { t with dev := { t.dev with regs := s.dev.regs } } = s)) ∧
    (s.dev.fon pgPower Reg.POWER.SLEWING = false → exec .supplySettled s = .next s) ∧
    (s.dev.fon pgPower Reg.POWER.SLEWING = true → s.dev.therm.supply ≠ s.dev.fget pgPower Reg.POWER.STEP → exec .supplySettled s = .next (s.modDev (fun d =>
      ((((((d.fset pgPower Reg.POWER.SLEWING 0).fset pgPower Reg.POWER.STEP d.therm.supply).fset pgPower Reg.POWER.STEP_CHANGE 1).bump pgPower
        Reg.POWER.STEP_CHANGES 1).recal 14).powerEval)))) ∧
    (∀ (e : Dev) (on : Bool), e = s.dev.modTherm (fun x => { x with
        sens := x.sens.map (fun p => (p.1, { p.2 with hotSince := if p.2.steep s.dev.now then some (p.2.hotSince.getD s.dev.now) else none })),
        calmSince := if (List.range 26).any (fun i => (s.dev.sens i).steep s.dev.now) then none else some (x.calmSince.getD s.dev.now) }) →
      on = e.therm.sens.any (fun p => p.2.hotSince.any (fun t0 => decide (t0 + 3000000000 ≤ s.dev.now))) →
      (s.dev.fon pgThermal Reg.THERMAL.RATE_ADD = false → on = true → exec .rateEvaluation s =
        .next (s.modDev (fun _ => ((e.fset pgThermal Reg.THERMAL.RATE_ADD 1).fset pgThermal Reg.THERMAL.RATE_EVT 1).requestStep))) ∧
      (s.dev.fon pgThermal Reg.THERMAL.RATE_ADD = false → on = false → exec .rateEvaluation s = .next (s.modDev (fun _ => e.requestStep))) ∧
      (∀ t0, s.dev.fon pgThermal Reg.THERMAL.RATE_ADD = true → e.therm.calmSince = some t0 →
        (t0 + 10000000000 ≤ s.dev.now → exec .rateEvaluation s = .next (s.modDev (fun _ => (e.fset pgThermal Reg.THERMAL.RATE_ADD 0).requestStep))) ∧
        (s.dev.now < t0 + 10000000000 → exec .rateEvaluation s = .next (s.modDev (fun _ => e.requestStep)))) ∧
      (s.dev.fon pgThermal Reg.THERMAL.RATE_ADD = true → e.therm.calmSince = none →
        exec .rateEvaluation s = .next (s.modDev (fun _ => e.requestStep))))

/-- Supplies (R391 to R393, R400): the standby rail begins a machine of which only what is not volatile is kept; a brown-out or a rail fault
takes the main rails, and all that lies between the blocks, down; what happened is told when P12V is good again.
Of the model itself: log entries 5, 42. -/
def Obligations.Supplies : Prop :=
  ∀ (s : State),
    (∀ mv addr, s.dev.fon pgBoot Reg.BOOT.BUSY = false → Completes (.p3v3StbyGood mv addr) s (fun t => t.chains = [] ∧ t.gates = [] ∧
      t.dev.spokes = [] ∧ t.dev.chest = [] ∧ t.dev.keep = {} ∧ t.dev.therm = { stby := true } ∧ t.dev.svnFuses = s.dev.svnFuses ∧
      t.dev.mgmtAddr = addr ∧ t.dev.retireLog = s.dev.retireLog ∧ t.dev.fget pgPower Reg.POWER.STBY_MV = mv % 2 ^ Reg.POWER.STBY_MV.w ∧
      t.pending = s.pending)) ∧
    (∀ mv addr, Completes (.p3v3StbyGood mv addr) s (fun t => s.dev.svnFuses ≤ t.dev.svnFuses ∧
      t.dev.svnFuses ≤ max s.dev.svnFuses (min 64 (s.dev.fget pgBoot Reg.BOOT.SVN_RUN)))) ∧
    (∀ mv, s.dev.therm.stby = false ∨ s.dev.therm.p12 = true → exec (.p12vGood mv) s = .next (s.modDev (fun d => d.fset pgPower Reg.POWER.P12V_MV mv))) ∧
    (∀ mv, s.dev.therm.stby = true → s.dev.therm.p12 = false → Completes (.p12vGood mv) s (fun t =>
      t.dev.therm = { s.dev.therm with p12 := true, brown := false, railFault := false } ∧
      t.dev.fget pgPower Reg.POWER.P12V_MV = mv % 2 ^ Reg.POWER.P12V_MV.w ∧
      (s.dev.therm.brown = true → t.dev.fget pgPower Reg.POWER.BROWNOUT = 1) ∧ (s.dev.therm.railFault = true → t.dev.fget pgPower Reg.POWER.RAIL_FAULT = 1) ∧
      { t with dev := { t.dev with therm := s.dev.therm, regs := s.dev.regs } } = s)) ∧
    (s.dev.therm.p12 = false → exec .brownOut s = .next s) ∧
    (s.dev.therm.p12 = true → s.dev.therm.mains = true → Completes .brownOut s (fun t => t.dev.therm.p12 = false ∧ t.dev.therm.mains = false ∧
      t.dev.therm.brown = true ∧ t.chains = [] ∧ t.gates = [] ∧ t.dev.spokes = [] ∧ t.dev.chest = [])) ∧
    (∀ r : Fin 6, r.val = 0 ∨ s.dev.therm.mains = false → exec (.railFault r) s = .next s) ∧
    (∀ r : Fin 6, r.val ≠ 0 → s.dev.therm.mains = true → Completes (.railFault r) s (fun t => t.dev.therm.railFault = true ∧ t.dev.therm.mains = false ∧
      t.dev.fget pgPower Reg.POWER.FAULTED = 2 ^ r.val ∧ t.chains = [] ∧ t.gates = []))

/-! ### Damage, resets, fences, stewards (chapter 15) -/

/-- A damaged unit has its outcome and is counted in its block's page, with its error event; a retired block counts none; with LIMIT 0 none
retires (R397 to R399, R403). A forced error sets the bits the page has. A readmitted block starts from its reset values, and one that is not retired only
loses its count (R406).
Of the model itself: log entry 21. -/
def Obligations.DamageErrorsAndReadmission : Prop :=
  (∀ (s : State) (x : Damage), exec (.workUnitDamaged x) s = .next (s.damage (fun d => ((d.damageOutcome x).countDamage (damagePage x)).followAll))) ∧
  (∀ (s : State) (n : Fin 8), exec (.workUnitDamaged (.link n)) s =
    .next (s.damage (fun d => ((d.bump (pgLink n) Reg.LINK.RX_BAD 1).countDamage (pgLink n)).followAll))) ∧
  (∀ (d : Dev) (pg : PageId), (d.fon pg Reg.HEADER.RETIRED = true → d.countDamage pg = d) ∧
    (d.fon pg Reg.HEADER.RETIRED = false → d.fget pgMgmt Reg.MGMT.LIMIT = 0 →
      (d.countDamage pg).fget pg Reg.HEADER.DAMAGED_UNITS = satAdd (2 ^ 32 - 1) (d.fget pg Reg.HEADER.DAMAGED_UNITS) 1 ∧
      bitAt ((d.countDamage pg).fget pg Reg.HEADER.ERR_STAT) 7 = true ∧ (d.countDamage pg).spokes = d.spokes)) ∧
  (∀ (s : State) (a : Accessor) (pg : PageId) (mask : Nat), s.dev.access a pg = .open → Completes (.errForce a pg mask) s (fun t =>
    (∀ b < 8, bitAt (t.dev.fget pg Reg.HEADER.ERR_STAT) b =
      (bitAt (s.dev.fget pg Reg.HEADER.ERR_STAT) b || (bitAt mask b && (b != 5 || pg == pgPool)))) ∧
    { t with dev := { t.dev with regs := s.dev.regs } } = s)) ∧
  (∀ (s : State) (a : Accessor) (pg : PageId) (i : Nat), s.dev.access a pgMgmt = .open →
    pg = 256 * s.dev.fget pgMgmt Reg.MGMT.REGION + s.dev.fget pgMgmt Reg.MGMT.PAGE → pageOf pg = some (.CRYPT, i) →
    s.dev.fon pg Reg.HEADER.RETIRED = true → pg / 256 = 4 → exec (.readmit a) s = .next (s.modDev (fun d =>
      ({ d.resetPage pg with retire := mdel pg d.retire, retireLog := d.retireLog.filter (· != pg) } : Dev).followAll))) ∧
  (∀ (s : State) (a : Accessor) (pg : PageId), s.dev.access a pgMgmt = .open →
    pg = 256 * s.dev.fget pgMgmt Reg.MGMT.REGION + s.dev.fget pgMgmt Reg.MGMT.PAGE → pageOf pg ≠ none →
    s.dev.fon pg Reg.HEADER.RETIRED = false → pg / 256 < 8 → exec (.readmit a) s = .next (s.modDev (fun d =>
      ({ d.fset pg Reg.HEADER.NO_SPARE 0 with retire := mdel pg d.retire, retireLog := d.retireLog.filter (· != pg) } : Dev).followAll)))

/-- Resets and fences of RESET_CTRL and FENCE_CTRL count through domain 0 only (R400 to R402, R419): they end what crosses into the reset
region, fence with cause ROOT, and lift by resetting the spoke. KEEP is reset with its keys and its table; the module as at a power-on. A
spoke whose transport shows no edge is absent, and present again its cartridge loads (R409).
Of the model itself: log entry 37. -/
def Obligations.ResetsAndFences : Prop :=
  ∀ (s : State) (a : Accessor), s.dev.access a pgMgmt = .open →
    (s.dev.domainOf a ≠ 0 → ∀ (target : Fin 16) (mask : BitVec 8), exec (.moduleReset a) s = .next s ∧ exec (.keepReset a) s = .next s ∧
      exec (.spokeReset a target) s = .next s ∧ exec (.spokeFenceSet a mask) s = .next s ∧ exec (.spokeFenceLift a mask) s = .next s ∧
      exec (.switchGo a) s = .next s) ∧
    (s.dev.domainOf a = 0 →
      Completes (.moduleReset a) s (fun t => t.chains = [] ∧ t.gates = [] ∧ t.dev.spokes = [] ∧ t.dev.sqs = [] ∧ t.dev.streams = [] ∧
        t.dev.chest = [] ∧ t.dev.now = s.dev.now ∧ t.dev.therm.mains = s.dev.therm.mains ∧ t.dev.therm.steps = [1] ∧
        t.dev.fget pgMgmt Reg.MGMT.PHASE = 1 ∧ t.pending = s.pending) ∧
      Completes (.keepReset a) s (fun t => t.chains = s.chains ∧ t.gates = s.gates ∧ t.pending = s.pending) ∧
      (∀ d : Dev, d.keepReset.keep = { ledger := ledgerStep (List.replicate 64 0) 0 [], tamperNow := d.endEncrypted.keep.tamperNow } ∧
        d.keepReset.boot.active = d.endEncrypted.boot.active) ∧
      (∀ target : Fin 16, 8 ≤ target.val → exec (.spokeReset a target) s = .next (s.modDev (fun d => d.fset pgMgmt Reg.MGMT.TARGET target))) ∧
      (∀ target : Fin 16, target.val < 8 → exec (.spokeReset a target) s =
        .next (((s.modDev (fun d => d.fset pgMgmt Reg.MGMT.TARGET target)).resetSpokeHops target).modDev (fun d => (d.spokeReset target stNotReady).followAll))) ∧
      (∀ n : Fin 8, exec (.spokeFenceSet a (BitVec.ofNat 8 (2 ^ n.val))) s = .next (s.modDev (fun d => (d.fence n 4).followAll))) ∧
      (∀ n : Fin 8, s.dev.fenced n = true →
        exec (.spokeFenceLift a (BitVec.ofNat 8 (2 ^ n.val))) s = .next (((s.resetSpokeHops n).modDev (fun d => d.lift n)).modDev Dev.followAll)) ∧
      (∀ n : Fin 8, s.dev.fenced n = false → exec (.spokeFenceLift a (BitVec.ofNat 8 (2 ^ n.val))) s = .next (s.modDev Dev.followAll))) ∧
    (∀ n : Fin 8,
      (s.dev.fon (pgLink n) Reg.LINK.CAD_ON = true → s.dev.cartState n = 0 → Completes (.transportAbsent n) s (fun t =>
        (t.dev.sp n).drv.present = false ∧ (∀ k, k ≠ n.val → t.dev.sp k = s.dev.sp k) ∧ { t with dev := { t.dev with spokes := s.dev.spokes } } = s)) ∧
      (s.dev.fon (pgLink n) Reg.LINK.CAD_ON = false ∨ s.dev.cartState n ≠ 0 → exec (.transportAbsent n) s = .next s) ∧
      ((s.dev.sp n).drv.present = false → s.dev.fon (pgLink n) Reg.LINK.CAD_ON = true → exec (.transportPresent n) s =
        .next (s.modDev (fun d => ((d.modDrv n (fun x => { x with present := true })).beginLoad n).follow n))) ∧
      ((s.dev.sp n).drv.present = true ∨ s.dev.fon (pgLink n) Reg.LINK.CAD_ON = false →
        exec (.transportPresent n) s = .next (s.modDev (fun d => d.follow n))))

/-- Stewards and the bank switch (R407, R410, R411, R416): a watchdog's expiry restarts its steward, and before the steward has paused it refuses a
bank switch; the third within 60 s fails it; a failed steward is revived only on request; GO is refused in the order of its codes; the banks
change after the twelfth pause, and change back when a steward does not report running.
Of the model itself: log entries 3, 30. -/
def Obligations.StewardsAndBanks : Prop :=
  ∀ (s : State) (i : Fin 12),
    (s.dev.released = false ∨ (s.dev.stw i).state = 1 ∨ (s.dev.stw i).state = 3 → exec (.watchdogExpiry i) s = .next (s.modDev Dev.followAll)) ∧
    (∀ e, s.dev.released = true → (s.dev.stw i).state ≠ 1 → (s.dev.stw i).state ≠ 3 → e = ((s.dev.modStw i (fun x => { x with
        state := 2, expiries := s.dev.now :: (s.dev.stw i).recent s.dev.now })).bump pgMgmt Reg.MGMT.RESTARTS 1).fset pgMgmt Reg.MGMT.STEWARD_RESTART 1 →
      (((s.dev.stw i).recent s.dev.now).length < 2 → s.dev.switchStat ≠ 1 → exec (.watchdogExpiry i) s = .next (s.modDev (fun _ => e.followAll))) ∧
      (((s.dev.stw i).recent s.dev.now).length < 2 → s.dev.switchStat = 1 →
        exec (.watchdogExpiry i) s = .next (s.modDev (fun _ => ((e.fset pgMgmt Reg.MGMT.STATUS 5).resumePaused).followAll))) ∧
      (2 ≤ ((s.dev.stw i).recent s.dev.now).length → exec (.watchdogExpiry i) s = .next (s.modDev (fun _ => (e.stewardFails i).followAll)))) ∧
    (∀ a : Accessor, s.dev.access a (pgMgmtI (i / 3)) = .open →
      ((s.dev.stw i).state = 3 → Completes (.revive a i) s (fun t => t.dev.stw i = { s.dev.stw i with state := 2, expiries := [] } ∧
        (∀ k, k ≠ i.val → t.dev.stw k = s.dev.stw k) ∧ { t with dev := { t.dev with stws := s.dev.stws } } = s)) ∧
      ((s.dev.stw i).state ≠ 3 → exec (.revive a i) s = .next s)) ∧
    ((s.dev.stw i).state ≠ 2 → exec (.stewardRunning i) s = .next s) ∧
    ((s.dev.stw i).state = 2 → i.val < 4 → s.dev.switchStat ≠ 2 → exec (.stewardRunning i) s =
      .next (s.modDev (fun d => d.modStw i (fun x => { x with state := 0 })))) ∧
    ((s.dev.stw i).state = 2 → 4 ≤ i.val → s.dev.switchStat ≠ 2 → exec (.stewardRunning i) s =
      .next (s.modDev (fun d => ((d.sp (i - 4)).drv.cmOut.foldl (fun e q => e.cmResend (i - 4) q)
        (d.modStw i (fun x => { x with state := 0 }))).stewardWork i))) ∧
    (s.dev.switchStat = 1 → s.dev.released = true → (s.dev.stw i).state = 0 → (∃ k < 12, k ≠ i.val ∧ (s.dev.stw k).state ≠ 1) →
      exec (.stewardPause i) s = .next (s.modDev (fun d => (d.modStw i (fun x => { x with state := 1 })).bitPut pgMgmt Reg.MGMT.PAUSED i true))) ∧
    (s.dev.switchStat = 1 → s.dev.released = true → (s.dev.stw i).state = 0 → (∀ k < 12, k ≠ i.val → (s.dev.stw k).state = 1) →
      Completes (.stewardPause i) s (fun t => t.dev.switchStat = 2 ∧ t.dev.fget pgMgmt Reg.MGMT.PAUSED = 0 ∧
        (∀ k < 12, (t.dev.stw k).bank = 1 - (s.dev.stw k).bank ∧ (t.dev.stw k).state = 2) ∧
        t.dev.boot = { s.dev.boot with
          active := s.dev.boot.staged, staged := s.dev.boot.active, activeSlot := s.dev.boot.stagedSlot, stagedSlot := s.dev.boot.activeSlot })) ∧
    (s.dev.switchStat ≠ 1 → exec (.stewardPause i) s = .next s ∧ exec .switchPauseTimeout s = .next s) ∧
    (s.dev.switchStat = 1 → exec .switchPauseTimeout s = .next (s.modDev (fun d => (d.fset pgMgmt Reg.MGMT.STATUS 5).resumePaused))) ∧
    (s.dev.switchStat ≠ 2 → exec .switchRevert s = .next s) ∧
    (s.dev.switchStat = 2 → Completes .switchRevert s (fun t => t.dev.switchStat = 6 ∧ t.dev.fget pgMgmt Reg.MGMT.REVERTED = 1 ∧
      ∀ k < 12, (t.dev.stw k).bank = 1 - (s.dev.stw k).bank ∧ (t.dev.stw k).state = 2)) ∧
    (∀ a : Accessor, s.dev.access a pgMgmt = .open → s.dev.domainOf a = 0 → s.dev.switchStat ≠ 1 → s.dev.switchStat ≠ 2 →
      (s.dev.fget pgBoot Reg.BOOT.STATUS ≠ 3 → exec (.switchGo a) s = .next (s.modDev (fun d => d.fset pgMgmt Reg.MGMT.STATUS 4))) ∧
      (s.dev.fget pgBoot Reg.BOOT.STATUS = 3 → imgSvn (s.dev.boot.staged.getD []) < s.dev.svnFuses →
        exec (.switchGo a) s = .next (s.modDev (fun d => d.fset pgMgmt Reg.MGMT.STATUS 7))) ∧
      (s.dev.fget pgBoot Reg.BOOT.STATUS = 3 → s.dev.svnFuses ≤ imgSvn (s.dev.boot.staged.getD []) → (∃ k < 12, (s.dev.stw k).state = 3) →
        exec (.switchGo a) s = .next (s.modDev (fun d => d.fset pgMgmt Reg.MGMT.STATUS 5))) ∧
      (s.dev.fget pgBoot Reg.BOOT.STATUS = 3 → s.dev.svnFuses ≤ imgSvn (s.dev.boot.staged.getD []) → (∀ k < 12, (s.dev.stw k).state ≠ 3) →
        exec (.switchGo a) s = .next (s.modDev (fun d => (d.fset pgMgmt Reg.MGMT.STATUS 1).fset pgMgmt Reg.MGMT.PAUSED 0))))

/-- Start-up (R350, R400, R408, R409): each step acts once, after the step it waits for, and PHASE reports it; without a valid image BOOT is in
recovery; a channel that does not train is a fault. KEEP is ready with its identity or without.
Of the model itself: log entries 3, 30. -/
def Obligations.StartUpSteps : Prop :=
  ∀ (s : State),
    (∀ ok, Completes (.keepReady ok) s (fun t => t.dev.fget pgBoot Reg.BOOT.IDENTITY = b2n ok ∧ { t with dev := { t.dev with regs := s.dev.regs } } = s)) ∧
    (∀ split, s.dev.therm.stby = true → s.dev.therm.p12 = true → s.dev.therm.tripped = false → s.dev.therm.railFault = false → s.dev.therm.mains = false →
      exec (.startUpStepCompleted (.rails split)) s = .next (s.modDev (fun d =>
        (((({ d with split := split, now := 0, crystal := true } : Dev).fset pgPower Reg.POWER.GOOD 0x3F).modTherm
          (fun t => { t with mains := true, sens := t.sens.map (fun p => (p.1, p.2.restamp)) })).phaseDone 1).followAll))) ∧
    (s.dev.stepDue 2 = true → exec (.startUpStepCompleted .fills) s = .next (s.modDev (fun d =>
      ((d.keepFill.fset pgVmap Reg.VALIDMAP.READY 1).phaseDone 2).followAll))) ∧
    (∀ ok, s.dev.stepDue 3 = true → exec (.startUpStepCompleted (.fuses ok)) s = .next (s.modDev (fun d =>
      ((d.fset pgBoot Reg.BOOT.IDENTITY (b2n ok)).phaseDone 3).followAll))) ∧
    (s.dev.stepDue 4 = true → exec (.startUpStepCompleted .flash) s = .next (s.modDev (fun d => match s.dev.bootChoice with
      | some (k, im) => (({ d with boot := { d.boot with active := some im, activeSlot := k } } : Dev).phaseDone 4).followAll
      | none => ((d.fset pgBoot Reg.BOOT.STATE 2).phaseDone 4).followAll))) ∧
    (s.dev.stepDue 5 = true → s.dev.fget pgBoot Reg.BOOT.STATE ≠ 2 → exec (.startUpStepCompleted .release) s = .next (s.modDev (fun d =>
      ((d.reportImage.fset pgBoot Reg.BOOT.STATE 1).phaseDone 5).followAll))) ∧
    (∀ (m : Fin 16) e, s.dev.stepDue 6 = true → s.dev.fon pgMgmt Reg.MGMT.FAULT = false →
      e = (List.range 4).foldl (fun (e : Dev) k => e.fset (pgMemctl k) Reg.MEMCTL.TRAINED (b2n (bitAt m k))) s.dev →
      (m.val = 15 → exec (.startUpStepCompleted (.trained m)) s = .next (s.modDev (fun _ => (e.phaseDone 6).followAll))) ∧
      (m.val ≠ 15 → exec (.startUpStepCompleted (.trained m)) s = .next (s.modDev (fun _ => (e.fset pgMgmt Reg.MGMT.FAULT 1).followAll)))) ∧
    (s.dev.stepDue 7 = true → s.dev.pool.configured = true → exec (.startUpStepCompleted .pool) s = .next (s.modDev (fun d => (d.phaseDone 7).followAll))) ∧
    (s.dev.stepDue 7 = true → s.dev.pool.configured = false →
      exec (.startUpStepCompleted .pool) s = .next (s.modDev (fun d => (d.poolConfigDone.phaseDone 7).followAll))) ∧
    (∀ e, s.dev.stepDue 8 = true → e = (List.range 8).foldl (fun (e : Dev) n =>
        (e.fset (pgLink n) Reg.LINK.CAD_ON 1).modDrv n (fun x => { x with present := true })) s.dev →
      exec (.startUpStepCompleted .links) s = .next (s.modDev (fun _ => (e.phaseDone 8).followAll))) ∧
    (s.dev.stepDue 9 = true → exec (.startUpStepCompleted .ready) s = .next (s.modDev (fun d =>
      ((List.range 8).foldl Dev.beginLoad ((d.retireAgain.fset pgMgmt Reg.MGMT.READY 1).phaseDone 9)).followAll))) ∧
    (∀ x, (x = .flash ∧ s.dev.stepDue 4 = false) ∨ (x = .release ∧ s.dev.stepDue 5 = false) ∨ (∃ m, x = .trained m ∧ s.dev.stepDue 6 = false) ∨
        (x = .pool ∧ s.dev.stepDue 7 = false) ∨ (x = .links ∧ s.dev.stepDue 8 = false) ∨ (x = .ready ∧ s.dev.stepDue 9 = false) →
      exec (.startUpStepCompleted x) s = .next (s.modDev Dev.followAll)) ∧
    (∀ (d : Dev) (k : Nat), (d.phaseDone k).stepDue k = false ∧ (d.phaseDone k).fget pgMgmt Reg.MGMT.PHASE = k % 2 ^ Reg.MGMT.PHASE.w)

/-! ### The port, the accounts, the machine after reset -/

/-- The test access port (R452): an instruction is in force once shifted in; one that drives the lands acts only as SAMPLE while a present
spoke is not fenced; TRST_N resets the port. Without the main rails the port answers nothing. An accounting window counts each spoke that asked
for more than its reserve (R15). An arbiter of weighted classes grants what it is given, no item twice and none lost, within its capacity (R14).
Of the model itself: log entries 25, 39, 46. -/
def Obligations.PortAndAccounts : Prop :=
  (∀ (s : State) (v : Nat),
    (s.dev.therm.mains = true →
      Completes (.bypass v) s (fun t => t.dev.tap = { s.dev.tap with instr := .bypass } ∧ t.dev.out = .jtag 1 0 :: s.dev.out) ∧
      Completes (.idcode v) s (fun t => t.dev.tap = { s.dev.tap with instr := .idcode } ∧
        t.dev.out = .jtag 32 (0x10000000 + 0xA8B4000 + 2 * (Config.jtagMaker % 2048) + 1) :: s.dev.out) ∧
      Completes (.samplePreload v) s (fun t => t.dev.tap = ⟨.sample, v⟩) ∧ Completes (.extest v) s (fun t => t.dev.tap = ⟨.extest, v⟩) ∧
      (s.dev.tapGuarded = false → Completes (.clamp v) s (fun t => t.dev.tap = { s.dev.tap with instr := .clamp } ∧ t.dev.tapDrives = true ∧
          ∀ n, t.dev.winhLow n = true ∧ t.dev.cadOn n = false) ∧
        Completes (.highz v) s (fun t => t.dev.tap = { s.dev.tap with instr := .highz } ∧ t.dev.tapDrives = true)) ∧
      (s.dev.tapGuarded = true → Completes (.clamp v) s (fun t => t.dev.tap = ⟨.clamp, v⟩ ∧ t.dev.tapDrives = false) ∧
        Completes (.highz v) s (fun t => t.dev.tap = ⟨.highz, v⟩ ∧ t.dev.tapDrives = false))) ∧
    (s.dev.therm.mains = false → exec (.bypass v) s = .next s ∧ exec (.idcode v) s = .next s ∧ exec (.extest v) s = .next s) ∧
    Completes .trstNAssert s (fun t => t.dev.tap = { s.dev.tap with instr := .idcode } ∧ { t with dev := { t.dev with tap := s.dev.tap } } = s)) ∧
  (∀ (s : State) (first rest items : List XItem), items = first ++ rest → Completes (.accountingWindow first rest) s (fun t =>
    (∀ n < 8, t.dev.fget pgFelt (Reg.FELT.OVER_RESERVE n) =
      if 100000 * cogSpeed (s.dev.fget (pgDr n) Reg.DERAILLEUR.CUR_COG) / 4500 * b2n (s.dev.sp n).drv.streaming < bytesOf (8 + n) items then
        satAdd (2 ^ (Reg.FELT.OVER_RESERVE n).w - 1) (s.dev.fget pgFelt (Reg.FELT.OVER_RESERVE n)) 1
      else s.dev.fget pgFelt (Reg.FELT.OVER_RESERVE n)) ∧
    { t with dev := { t.dev with regs := s.dev.regs, byteCnt := s.dev.byteCnt, felt := s.dev.felt } } = s)) ∧
  (∀ (a : Arb) (g : Granting) (y : Arb × Granting), y = a.share g →
    (y.2.granted.map (·.bytes)).foldl (· + ·) 0 + y.2.cap = (g.granted.map (·.bytes)).foldl (· + ·) 0 + g.cap ∧
    (y.2.granted ++ y.2.waiting).Perm (g.granted ++ g.waiting))

/-- After reset (R8, R19, R36, R37, R40, R366, R386, R428): no command waits, nothing lies in a chain or a gate FIFO, every producer holds its grant, the
chest lists nothing, every field holds its reset value, the main rails are down.
Of the model itself: log entry 5. -/
def Obligations.AfterReset : Prop :=
  State.reset.pending = [] ∧ State.reset.hopsSound ∧ (∀ c : ChainId, (State.reset.chain c).words = [] ∧
    (State.reset.chain c).credits = (State.reset.chain c).depth) ∧ (∀ g : GateId, (State.reset.gate g).words = []) ∧
  State.reset.dev.chest = [] ∧ (∀ p, State.reset.dev.pageValid p = false) ∧ (∀ pg f, State.reset.dev.fget pg f = fldReset pg f.slot) ∧
  State.reset.dev.therm.mains = false ∧ State.reset.dev.now = 0 ∧ State.reset.dev.alert = false ∧
  (∀ q, (State.reset.dev.sq q).size = 0 ∧ (State.reset.dev.cq q).size = 0) ∧
  (State.reset.dev.policyOf 0 = 1 ∧ State.reset.dev.policyOf 1 = 1 ∧ State.reset.dev.policyOf 2 = 0 ∧ State.reset.dev.policyOf 3 = 0 ∧
    State.reset.dev.policyOf 4 = 1)
end

