-- ==== Sys2Proof/Laws/Maps.lean ====
section
/-! SUPPORT. Laws of the sparse maps: what a key reads as after each operation, and that each keeps the canonical form. -/

namespace Sys2Proof.Machine

variable {α : Type}

theorem mget_mdel (d : Nat → α) (m : SMap α) (k j : Nat) : mget d (mdel k m) j = if k = j then d j else mget d m j := by
  induction m with
  | nil => simp [mdel, mget]
  | cons p r ih =>
    obtain ⟨a, b⟩ := p
    by_cases ha : a = k
    · subst ha
      by_cases h : a = j
      · subst h; simpa [mdel] using ih
      · simp [mdel, mget, ih, h]
    · by_cases h : a = j
      · subst h
        have hk : ¬ k = a := fun e => ha e.symm
        simp [mdel, mget, ha, hk]
      · simp [mdel, mget, ha, h, ih]

/-- Key `k` has no entry. -/
def mfree (k : Nat) (m : SMap α) : Prop := ∀ p ∈ m, p.1 ≠ k

theorem mfree_mdel (k : Nat) (m : SMap α) : mfree k (mdel k m) := by
  induction m with
  | nil => intro p hp; cases hp
  | cons p r ih =>
    obtain ⟨a, b⟩ := p
    by_cases ha : a = k
    · simpa [mdel, ha] using ih
    · intro q hq
      simp only [mdel, ha, if_false, List.mem_cons] at hq
      rcases hq with rfl | hq
      · exact ha
      · exact ih q hq

theorem mget_mins (d : Nat → α) (m : SMap α) (k j : Nat) (v : α) (h : mfree k m) :
    mget d (mins k v m) j = if k = j then v else mget d m j := by
  induction m with
  | nil => simp [mins, mget]
  | cons p r ih =>
    obtain ⟨a, b⟩ := p
    have ha : a ≠ k := h (a, b) (by simp)
    have hr : mfree k r := fun q hq => h q (by simp [hq])
    by_cases hlt : k < a
    · by_cases hj : k = j
      · subst hj; simp [mins, hlt, mget]
      · simp [mins, hlt, mget, hj]
    · by_cases hj : a = j
      · subst hj
        have hk : ¬ k = a := fun e => ha e.symm
        simp [mins, hlt, mget, hk]
      · simp [mins, hlt, mget, hj, ih hr]

theorem mget_mset [DecidableEq α] (d : Nat → α) (m : SMap α) (k j : Nat) (v : α) :
    mget d (mset d m k v) j = if k = j then v else mget d m j := by
  unfold mset
  by_cases hv : v = d k
  · rw [if_pos hv, mget_mdel]
    by_cases h : k = j
    · subst h; simp [hv]
    · simp [h]
  · rw [if_neg hv, mget_mins _ _ _ _ _ (mfree_mdel k m), mget_mdel]
    by_cases h : k = j <;> simp [h]

@[simp] theorem mget_mset_same [DecidableEq α] (d : Nat → α) (m : SMap α) (k : Nat) (v : α) : mget d (mset d m k v) k = v := by
  simp [mget_mset]

theorem mget_mset_other [DecidableEq α] (d : Nat → α) (m : SMap α) (k j : Nat) (v : α) (h : k ≠ j) :
    mget d (mset d m k v) j = mget d m j := by
  simp [mget_mset, h]

/-- A key put in and taken out again, and a key set twice. -/
theorem mdel_mins (k : Nat) (v : α) (m : SMap α) (h : mfree k m) : mdel k (mins k v m) = m := by
  induction m with
  | nil => simp [mins, mdel]
  | cons p r ih =>
    obtain ⟨a, b⟩ := p
    have ha : a ≠ k := h (a, b) (by simp)
    have hr : mfree k r := fun q hq => h q (by simp [hq])
    have hd : mdel k r = r := by
      clear ih
      induction r with
      | nil => rfl
      | cons q r ih =>
        obtain ⟨c, e⟩ := q
        have hc : c ≠ k := hr (c, e) (by simp)
        simp only [mdel, hc, if_false]
        rw [ih (fun q hq => h q (by simp at hq; rcases hq with rfl | hq <;> simp [*])) (fun q hq => hr q (by simp [hq]))]
    by_cases hlt : k < a
    · simp [mins, hlt, mdel, ha, hd]
    · simp [mins, hlt, mdel, ha, ih hr]

theorem mdel_mdel (k : Nat) (m : SMap α) : mdel k (mdel k m) = mdel k m := by
  induction m with
  | nil => rfl
  | cons p r ih =>
    obtain ⟨a, b⟩ := p
    by_cases ha : a = k
    · simpa [mdel, ha] using ih
    · simp [mdel, ha, ih]

@[simp] theorem mset_mset [DecidableEq α] (d : Nat → α) (m : SMap α) (k : Nat) (v w : α) :
    mset d (mset d m k v) k w = mset d m k w := by
  have h : mdel k (mset d m k v) = mdel k m := by
    unfold mset
    split
    · exact mdel_mdel k m
    · exact mdel_mins k v _ (mfree_mdel k m)
  unfold mset at *
  rw [h]

theorem mget_mmod [DecidableEq α] (d : Nat → α) (m : SMap α) (k j : Nat) (f : α → α) :
    mget d (mmod d m k f) j = if k = j then f (mget d m k) else mget d m j := by
  unfold mmod; exact mget_mset d m k j _

/-! ### The canonical form -/

variable [DecidableEq α]

theorem mwfFrom_le (d : Nat → α) {lo lo' : Nat} {m : SMap α} (h : mwfFrom d lo m = true) (hl : lo' ≤ lo) : mwfFrom d lo' m = true := by
  cases m with
  | nil => rfl
  | cons p r =>
    obtain ⟨a, b⟩ := p
    simp only [mwfFrom, Bool.and_eq_true, decide_eq_true_eq] at h ⊢
    exact ⟨⟨Nat.le_trans hl h.1.1, h.1.2⟩, h.2⟩

theorem mwfFrom_mdel (d : Nat → α) (k : Nat) (m : SMap α) : ∀ lo, mwfFrom d lo m = true → mwfFrom d lo (mdel k m) = true := by
  induction m with
  | nil => intro lo h; exact h
  | cons p r ih =>
    obtain ⟨a, b⟩ := p
    intro lo h
    simp only [mwfFrom, Bool.and_eq_true, decide_eq_true_eq] at h
    by_cases ha : a = k
    · simp only [mdel, ha, if_true]
      exact mwfFrom_le d (ih _ h.2) (by omega)
    · simp only [mdel, ha, if_false, mwfFrom, Bool.and_eq_true, decide_eq_true_eq]
      exact ⟨h.1, ih _ h.2⟩

theorem mwfFrom_mins (d : Nat → α) (k : Nat) (v : α) (hv : v ≠ d k) (m : SMap α) :
    ∀ lo, lo ≤ k → mfree k m → mwfFrom d lo m = true → mwfFrom d lo (mins k v m) = true := by
  induction m with
  | nil => intro lo hk _ _; simp [mins, mwfFrom, hk, hv]
  | cons p r ih =>
    obtain ⟨a, b⟩ := p
    intro lo hk hf h
    simp only [mwfFrom, Bool.and_eq_true, decide_eq_true_eq] at h
    have ha : a ≠ k := hf (a, b) (by simp)
    by_cases hlt : k < a
    · simp only [mins, hlt, if_true, mwfFrom, Bool.and_eq_true, decide_eq_true_eq]
      exact ⟨⟨hk, hv⟩, ⟨by omega, h.1.2⟩, h.2⟩
    · simp only [mins, hlt, if_false, mwfFrom, Bool.and_eq_true, decide_eq_true_eq]
      exact ⟨h.1, ih _ (by omega) (fun q hq => hf q (by simp [hq])) h.2⟩

/-- A write keeps the canonical form. -/
theorem mwf_mset (d : Nat → α) (m : SMap α) (k : Nat) (v : α) (h : mwf d m = true) : mwf d (mset d m k v) = true := by
  unfold mwf mset at *
  by_cases hv : v = d k
  · rw [if_pos hv]; exact mwfFrom_mdel d k m 0 h
  · rw [if_neg hv]
    exact mwfFrom_mins d k v hv _ 0 (Nat.zero_le _) (mfree_mdel k m) (mwfFrom_mdel d k m 0 h)

theorem mwfFrom_filter (d : Nat → α) (p : Nat × α → Bool) (m : SMap α) : ∀ lo, mwfFrom d lo m = true → mwfFrom d lo (m.filter p) = true := by
  induction m with
  | nil => intro lo h; exact h
  | cons q r ih =>
    obtain ⟨a, b⟩ := q
    intro lo h
    simp only [mwfFrom, Bool.and_eq_true, decide_eq_true_eq] at h
    by_cases hp : p (a, b) = true
    · simp only [List.filter_cons, hp, if_true, mwfFrom, Bool.and_eq_true, decide_eq_true_eq]
      exact ⟨h.1, ih _ h.2⟩
    · simp only [List.filter_cons, hp]
      exact mwfFrom_le d (ih _ h.2) (by omega)

/-- Dropping entries keeps the canonical form. -/
theorem mwf_filter (d : Nat → α) (p : Nat × α → Bool) (m : SMap α) (h : mwf d m = true) : mwf d (m.filter p) = true :=
  mwfFrom_filter d p m 0 h

theorem mwf_mdel (d : Nat → α) (k : Nat) (m : SMap α) (h : mwf d m = true) : mwf d (mdel k m) = true := mwfFrom_mdel d k m 0 h

theorem mwfFrom_mmap (d : Nat → α) (f : Nat → α → α) (m : SMap α) : ∀ lo, mwfFrom d lo m = true → mwfFrom d lo (mmap d m f) = true := by
  induction m with
  | nil => intro lo h; exact h
  | cons q r ih =>
    obtain ⟨a, b⟩ := q
    intro lo h
    simp only [mwfFrom, Bool.and_eq_true, decide_eq_true_eq] at h
    have := ih _ h.2
    unfold mmap at this ⊢
    by_cases hp : f a b ≠ d a
    · simp only [List.map_cons, List.filter_cons, hp, decide_true, if_true, mwfFrom, Bool.and_eq_true, decide_eq_true_eq, ne_eq, not_false_eq_true]
      exact ⟨⟨h.1.1, trivial⟩, this⟩
    · simp only [List.map_cons, List.filter_cons, hp, decide_false]
      exact mwfFrom_le d this (by omega)

/-- Changing every entry keeps the canonical form. -/
theorem mwf_mmap (d : Nat → α) (f : Nat → α → α) (m : SMap α) (h : mwf d m = true) : mwf d (mmap d m f) = true := mwfFrom_mmap d f m 0 h

/-- In canonical form a key below every entry reads as its default. -/
theorem mget_below (d : Nat → α) (m : SMap α) : ∀ lo j, mwfFrom d lo m = true → j < lo → mget d m j = d j := by
  induction m with
  | nil => intro lo j _ _; rfl
  | cons q r ih =>
    obtain ⟨a, b⟩ := q
    intro lo j h hj
    simp only [mwfFrom, Bool.and_eq_true, decide_eq_true_eq] at h
    have hne : ¬ a = j := by omega
    simp only [mget, hne, if_false]
    exact ih _ j h.2 (by omega)

/-- Two maps in canonical form that read alike are the same data. -/
theorem mwf_ext (d : Nat → α) (m : SMap α) : ∀ (m' : SMap α) lo, mwfFrom d lo m = true → mwfFrom d lo m' = true →
    (∀ j, mget d m j = mget d m' j) → m = m' := by
  induction m with
  | nil =>
    intro m' lo _ h' e
    cases m' with
    | nil => rfl
    | cons q r =>
      obtain ⟨a, b⟩ := q
      simp only [mwfFrom, Bool.and_eq_true, decide_eq_true_eq] at h'
      exact absurd (by simpa [mget] using (e a).symm) h'.1.2
  | cons q r ih =>
    obtain ⟨a, b⟩ := q
    intro m' lo h h' e
    have h0 := h
    simp only [mwfFrom, Bool.and_eq_true, decide_eq_true_eq] at h
    cases m' with
    | nil => exact absurd (by simpa [mget] using e a) h.1.2
    | cons q' r' =>
      obtain ⟨a', b'⟩ := q'
      have h0' := h'
      simp only [mwfFrom, Bool.and_eq_true, decide_eq_true_eq] at h'
      rcases Nat.lt_trichotomy a a' with hlt | rfl | hlt
      · exfalso
        have := e a
        have hx : mget d ((a', b') :: r') a = d a :=
          mget_below d _ a' a (by simp only [mwfFrom, Bool.and_eq_true, decide_eq_true_eq]; exact ⟨⟨Nat.le_refl _, h'.1.2⟩, h'.2⟩) hlt
        rw [hx] at this
        exact h.1.2 (by simpa [mget] using this)
      · have hb : b = b' := by simpa [mget] using e a
        subst hb
        congr 1
        refine ih r' (a + 1) h.2 h'.2 (fun j => ?_)
        by_cases hj : a = j
        · subst hj
          rw [mget_below d r (a + 1) a h.2 (by omega), mget_below d r' (a + 1) a h'.2 (by omega)]
        · have := e j
          simpa [mget, hj] using this
      · exfalso
        have := e a'
        have hx : mget d ((a, b) :: r) a' = d a' :=
          mget_below d _ a a' (by simp only [mwfFrom, Bool.and_eq_true, decide_eq_true_eq]; exact ⟨⟨Nat.le_refl _, h.1.2⟩, h.2⟩) hlt
        rw [hx] at this
        exact h'.1.2 (by simpa [mget] using this.symm)

theorem mget_mmap_from (d : Nat → α) (f : Nat → α → α) (hf : ∀ k, f k (d k) = d k) (m : SMap α) :
    ∀ lo j, mwfFrom d lo m = true → mget d (mmap d m f) j = f j (mget d m j) := by
  induction m with
  | nil => intro lo j _; simp [mmap, mget, hf]
  | cons q r ih =>
    obtain ⟨a, b⟩ := q
    intro lo j h
    have h0 := h
    simp only [mwfFrom, Bool.and_eq_true, decide_eq_true_eq] at h
    have hr := ih (a + 1) j h.2
    unfold mmap at hr ⊢
    by_cases hp : f a b ≠ d a
    · simp only [List.map_cons, List.filter_cons, hp, decide_true, if_true, mget, ne_eq, not_false_eq_true]
      by_cases hj : a = j
      · subst hj; simp
      · simp only [hj, if_false]; exact hr
    · simp only [List.map_cons, List.filter_cons, hp, decide_false, mget]
      by_cases hj : a = j
      · subst hj
        simp only [if_true]
        have hz : f a b = d a := by simpa using hp
        rw [hz]
        have := mget_below d (mmap d r f) (a + 1) a (mwfFrom_mmap d f r _ h.2) (by omega)
        unfold mmap at this
        simpa using this
      · simp only [hj, if_false]; exact hr

/-- Every key of a map in canonical form reads as changed. -/
theorem mget_mmap (d : Nat → α) (f : Nat → α → α) (hf : ∀ k, f k (d k) = d k) (m : SMap α) (h : mwf d m = true) (j : Nat) :
    mget d (mmap d m f) j = f j (mget d m j) := mget_mmap_from d f hf m 0 j h

end Sys2Proof.Machine
end

