-- ==== Sys2Proof/Laws/State.lean ====
section
/-! SUPPORT. One lemma per field and update, true by unfolding: what each named update leaves; what a field of a register page, a
spoke, a latch reads after an update of it. -/

namespace Sys2Proof.Machine

@[simp] theorem State.modDev_pending (s : State) (f : Dev → Dev) : (s.modDev f).pending = s.pending := rfl
@[simp] theorem State.modDev_chains (s : State) (f : Dev → Dev) : (s.modDev f).chains = s.chains := rfl
@[simp] theorem State.modDev_gates (s : State) (f : Dev → Dev) : (s.modDev f).gates = s.gates := rfl
@[simp] theorem State.setChain_pending (s : State) (c : ChainId) (x : Chain) : (s.setChain c x).pending = s.pending := rfl
@[simp] theorem State.setChain_gates (s : State) (c : ChainId) (x : Chain) : (s.setChain c x).gates = s.gates := rfl
@[simp] theorem State.setChain_dev (s : State) (c : ChainId) (x : Chain) : (s.setChain c x).dev = s.dev := rfl
@[simp] theorem State.setGate_pending (s : State) (g : GateId) (x : Gate) : (s.setGate g x).pending = s.pending := rfl
@[simp] theorem State.setGate_chains (s : State) (g : GateId) (x : Gate) : (s.setGate g x).chains = s.chains := rfl
@[simp] theorem State.setGate_dev (s : State) (g : GateId) (x : Gate) : (s.setGate g x).dev = s.dev := rfl
@[simp] theorem State.resetHops_pending (s : State)  : (s.resetHops).pending = s.pending := rfl
@[simp] theorem State.resetHops_dev (s : State)  : (s.resetHops).dev = s.dev := rfl
@[simp] theorem State.resetSpokeHops_pending (s : State) (n : Nat) : (s.resetSpokeHops n).pending = s.pending := rfl
@[simp] theorem State.resetSpokeHops_dev (s : State) (n : Nat) : (s.resetSpokeHops n).dev = s.dev := rfl
@[simp] theorem State.modDev_dev (s : State) (f : Dev → Dev) : (s.modDev f).dev = f s.dev := rfl
@[simp] theorem Dev.fset_now (d : Dev) (pg : PageId) (f : Fld) (v : Nat) : (d.fset pg f v).now = d.now := rfl
@[simp] theorem Dev.fset_crystal (d : Dev) (pg : PageId) (f : Fld) (v : Nat) : (d.fset pg f v).crystal = d.crystal := rfl
@[simp] theorem Dev.fset_free (d : Dev) (pg : PageId) (f : Fld) (v : Nat) : (d.fset pg f v).free = d.free := rfl
@[simp] theorem Dev.fset_latches (d : Dev) (pg : PageId) (f : Fld) (v : Nat) : (d.fset pg f v).latches = d.latches := rfl
@[simp] theorem Dev.fset_out (d : Dev) (pg : PageId) (f : Fld) (v : Nat) : (d.fset pg f v).out = d.out := rfl
@[simp] theorem Dev.fset_spokes (d : Dev) (pg : PageId) (f : Fld) (v : Nat) : (d.fset pg f v).spokes = d.spokes := rfl
@[simp] theorem Dev.fset_streams (d : Dev) (pg : PageId) (f : Fld) (v : Nat) : (d.fset pg f v).streams = d.streams := rfl
@[simp] theorem Dev.fset_sqs (d : Dev) (pg : PageId) (f : Fld) (v : Nat) : (d.fset pg f v).sqs = d.sqs := rfl
@[simp] theorem Dev.fset_cqs (d : Dev) (pg : PageId) (f : Fld) (v : Nat) : (d.fset pg f v).cqs = d.cqs := rfl
@[simp] theorem Dev.fset_funcs (d : Dev) (pg : PageId) (f : Fld) (v : Nat) : (d.fset pg f v).funcs = d.funcs := rfl
@[simp] theorem Dev.fset_vecMasked (d : Dev) (pg : PageId) (f : Fld) (v : Nat) : (d.fset pg f v).vecMasked = d.vecMasked := rfl
@[simp] theorem Dev.fset_vecPending (d : Dev) (pg : PageId) (f : Fld) (v : Nat) : (d.fset pg f v).vecPending = d.vecPending := rfl
@[simp] theorem Dev.fset_pool (d : Dev) (pg : PageId) (f : Fld) (v : Nat) : (d.fset pg f v).pool = d.pool := rfl
@[simp] theorem Dev.fset_chest (d : Dev) (pg : PageId) (f : Fld) (v : Nat) : (d.fset pg f v).chest = d.chest := rfl
@[simp] theorem Dev.fset_chestBad (d : Dev) (pg : PageId) (f : Fld) (v : Nat) : (d.fset pg f v).chestBad = d.chestBad := rfl
@[simp] theorem Dev.fset_vmValid (d : Dev) (pg : PageId) (f : Fld) (v : Nat) : (d.fset pg f v).vmValid = d.vmValid := rfl
@[simp] theorem Dev.fset_vmFill (d : Dev) (pg : PageId) (f : Fld) (v : Nat) : (d.fset pg f v).vmFill = d.vmFill := rfl
@[simp] theorem Dev.fset_memWaits (d : Dev) (pg : PageId) (f : Fld) (v : Nat) : (d.fset pg f v).memWaits = d.memWaits := rfl
@[simp] theorem Dev.fset_vmClr (d : Dev) (pg : PageId) (f : Fld) (v : Nat) : (d.fset pg f v).vmClr = d.vmClr := rfl
@[simp] theorem Dev.fset_recs (d : Dev) (pg : PageId) (f : Fld) (v : Nat) : (d.fset pg f v).recs = d.recs := rfl
@[simp] theorem Dev.fset_encSets (d : Dev) (pg : PageId) (f : Fld) (v : Nat) : (d.fset pg f v).encSets = d.encSets := rfl
@[simp] theorem Dev.fset_decSets (d : Dev) (pg : PageId) (f : Fld) (v : Nat) : (d.fset pg f v).decSets = d.decSets := rfl
@[simp] theorem Dev.fset_byteCnt (d : Dev) (pg : PageId) (f : Fld) (v : Nat) : (d.fset pg f v).byteCnt = d.byteCnt := rfl
@[simp] theorem Dev.fset_keep (d : Dev) (pg : PageId) (f : Fld) (v : Nat) : (d.fset pg f v).keep = d.keep := rfl
@[simp] theorem Dev.fset_boot (d : Dev) (pg : PageId) (f : Fld) (v : Nat) : (d.fset pg f v).boot = d.boot := rfl
@[simp] theorem Dev.fset_svnFuses (d : Dev) (pg : PageId) (f : Fld) (v : Nat) : (d.fset pg f v).svnFuses = d.svnFuses := rfl
@[simp] theorem Dev.fset_therm (d : Dev) (pg : PageId) (f : Fld) (v : Nat) : (d.fset pg f v).therm = d.therm := rfl
@[simp] theorem Dev.fset_retire (d : Dev) (pg : PageId) (f : Fld) (v : Nat) : (d.fset pg f v).retire = d.retire := rfl
@[simp] theorem Dev.fset_retireLog (d : Dev) (pg : PageId) (f : Fld) (v : Nat) : (d.fset pg f v).retireLog = d.retireLog := rfl
@[simp] theorem Dev.fset_stws (d : Dev) (pg : PageId) (f : Fld) (v : Nat) : (d.fset pg f v).stws = d.stws := rfl
@[simp] theorem Dev.fset_endpts (d : Dev) (pg : PageId) (f : Fld) (v : Nat) : (d.fset pg f v).endpts = d.endpts := rfl
@[simp] theorem Dev.fset_tap (d : Dev) (pg : PageId) (f : Fld) (v : Nat) : (d.fset pg f v).tap = d.tap := rfl
@[simp] theorem Dev.fset_split (d : Dev) (pg : PageId) (f : Fld) (v : Nat) : (d.fset pg f v).split = d.split := rfl
@[simp] theorem Dev.fset_mgmtAddr (d : Dev) (pg : PageId) (f : Fld) (v : Nat) : (d.fset pg f v).mgmtAddr = d.mgmtAddr := rfl
@[simp] theorem Dev.fset_live (d : Dev) (pg : PageId) (f : Fld) (v : Nat) : (d.fset pg f v).live = d.live := rfl
@[simp] theorem Dev.fset_jobSeq (d : Dev) (pg : PageId) (f : Fld) (v : Nat) : (d.fset pg f v).jobSeq = d.jobSeq := rfl
@[simp] theorem Dev.fset_blkSeq (d : Dev) (pg : PageId) (f : Fld) (v : Nat) : (d.fset pg f v).blkSeq = d.blkSeq := rfl
@[simp] theorem Dev.fset_grants (d : Dev) (pg : PageId) (f : Fld) (v : Nat) : (d.fset pg f v).grants = d.grants := rfl
@[simp] theorem Dev.fset_felt (d : Dev) (pg : PageId) (f : Fld) (v : Nat) : (d.fset pg f v).felt = d.felt := rfl
@[simp] theorem Dev.fset_ub4 (d : Dev) (pg : PageId) (f : Fld) (v : Nat) : (d.fset pg f v).ub4 = d.ub4 := rfl
@[simp] theorem Dev.fset_modWaiting (d : Dev) (pg : PageId) (f : Fld) (v : Nat) : (d.fset pg f v).modWaiting = d.modWaiting := rfl
@[simp] theorem Dev.resetPage_now (d : Dev) (pg : PageId) : (d.resetPage pg).now = d.now := rfl
@[simp] theorem Dev.resetPage_crystal (d : Dev) (pg : PageId) : (d.resetPage pg).crystal = d.crystal := rfl
@[simp] theorem Dev.resetPage_free (d : Dev) (pg : PageId) : (d.resetPage pg).free = d.free := rfl
@[simp] theorem Dev.resetPage_latches (d : Dev) (pg : PageId) : (d.resetPage pg).latches = d.latches := rfl
@[simp] theorem Dev.resetPage_out (d : Dev) (pg : PageId) : (d.resetPage pg).out = d.out := rfl
@[simp] theorem Dev.resetPage_spokes (d : Dev) (pg : PageId) : (d.resetPage pg).spokes = d.spokes := rfl
@[simp] theorem Dev.resetPage_streams (d : Dev) (pg : PageId) : (d.resetPage pg).streams = d.streams := rfl
@[simp] theorem Dev.resetPage_sqs (d : Dev) (pg : PageId) : (d.resetPage pg).sqs = d.sqs := rfl
@[simp] theorem Dev.resetPage_cqs (d : Dev) (pg : PageId) : (d.resetPage pg).cqs = d.cqs := rfl
@[simp] theorem Dev.resetPage_funcs (d : Dev) (pg : PageId) : (d.resetPage pg).funcs = d.funcs := rfl
@[simp] theorem Dev.resetPage_vecMasked (d : Dev) (pg : PageId) : (d.resetPage pg).vecMasked = d.vecMasked := rfl
@[simp] theorem Dev.resetPage_vecPending (d : Dev) (pg : PageId) : (d.resetPage pg).vecPending = d.vecPending := rfl
@[simp] theorem Dev.resetPage_pool (d : Dev) (pg : PageId) : (d.resetPage pg).pool = d.pool := rfl
@[simp] theorem Dev.resetPage_chest (d : Dev) (pg : PageId) : (d.resetPage pg).chest = d.chest := rfl
@[simp] theorem Dev.resetPage_chestBad (d : Dev) (pg : PageId) : (d.resetPage pg).chestBad = d.chestBad := rfl
@[simp] theorem Dev.resetPage_vmValid (d : Dev) (pg : PageId) : (d.resetPage pg).vmValid = d.vmValid := rfl
@[simp] theorem Dev.resetPage_vmFill (d : Dev) (pg : PageId) : (d.resetPage pg).vmFill = d.vmFill := rfl
@[simp] theorem Dev.resetPage_memWaits (d : Dev) (pg : PageId) : (d.resetPage pg).memWaits = d.memWaits := rfl
@[simp] theorem Dev.resetPage_vmClr (d : Dev) (pg : PageId) : (d.resetPage pg).vmClr = d.vmClr := rfl
@[simp] theorem Dev.resetPage_recs (d : Dev) (pg : PageId) : (d.resetPage pg).recs = d.recs := rfl
@[simp] theorem Dev.resetPage_encSets (d : Dev) (pg : PageId) : (d.resetPage pg).encSets = d.encSets := rfl
@[simp] theorem Dev.resetPage_decSets (d : Dev) (pg : PageId) : (d.resetPage pg).decSets = d.decSets := rfl
@[simp] theorem Dev.resetPage_byteCnt (d : Dev) (pg : PageId) : (d.resetPage pg).byteCnt = d.byteCnt := rfl
@[simp] theorem Dev.resetPage_keep (d : Dev) (pg : PageId) : (d.resetPage pg).keep = d.keep := rfl
@[simp] theorem Dev.resetPage_boot (d : Dev) (pg : PageId) : (d.resetPage pg).boot = d.boot := rfl
@[simp] theorem Dev.resetPage_svnFuses (d : Dev) (pg : PageId) : (d.resetPage pg).svnFuses = d.svnFuses := rfl
@[simp] theorem Dev.resetPage_therm (d : Dev) (pg : PageId) : (d.resetPage pg).therm = d.therm := rfl
@[simp] theorem Dev.resetPage_retire (d : Dev) (pg : PageId) : (d.resetPage pg).retire = d.retire := rfl
@[simp] theorem Dev.resetPage_retireLog (d : Dev) (pg : PageId) : (d.resetPage pg).retireLog = d.retireLog := rfl
@[simp] theorem Dev.resetPage_stws (d : Dev) (pg : PageId) : (d.resetPage pg).stws = d.stws := rfl
@[simp] theorem Dev.resetPage_endpts (d : Dev) (pg : PageId) : (d.resetPage pg).endpts = d.endpts := rfl
@[simp] theorem Dev.resetPage_tap (d : Dev) (pg : PageId) : (d.resetPage pg).tap = d.tap := rfl
@[simp] theorem Dev.resetPage_split (d : Dev) (pg : PageId) : (d.resetPage pg).split = d.split := rfl
@[simp] theorem Dev.resetPage_mgmtAddr (d : Dev) (pg : PageId) : (d.resetPage pg).mgmtAddr = d.mgmtAddr := rfl
@[simp] theorem Dev.resetPage_live (d : Dev) (pg : PageId) : (d.resetPage pg).live = d.live := rfl
@[simp] theorem Dev.resetPage_jobSeq (d : Dev) (pg : PageId) : (d.resetPage pg).jobSeq = d.jobSeq := rfl
@[simp] theorem Dev.resetPage_blkSeq (d : Dev) (pg : PageId) : (d.resetPage pg).blkSeq = d.blkSeq := rfl
@[simp] theorem Dev.resetPage_grants (d : Dev) (pg : PageId) : (d.resetPage pg).grants = d.grants := rfl
@[simp] theorem Dev.resetPage_felt (d : Dev) (pg : PageId) : (d.resetPage pg).felt = d.felt := rfl
@[simp] theorem Dev.resetPage_ub4 (d : Dev) (pg : PageId) : (d.resetPage pg).ub4 = d.ub4 := rfl
@[simp] theorem Dev.resetPage_modWaiting (d : Dev) (pg : PageId) : (d.resetPage pg).modWaiting = d.modWaiting := rfl
@[simp] theorem Dev.setSp_now (d : Dev) (n : Nat) (x : Spoke) : (d.setSp n x).now = d.now := rfl
@[simp] theorem Dev.setSp_crystal (d : Dev) (n : Nat) (x : Spoke) : (d.setSp n x).crystal = d.crystal := rfl
@[simp] theorem Dev.setSp_free (d : Dev) (n : Nat) (x : Spoke) : (d.setSp n x).free = d.free := rfl
@[simp] theorem Dev.setSp_regs (d : Dev) (n : Nat) (x : Spoke) : (d.setSp n x).regs = d.regs := rfl
@[simp] theorem Dev.setSp_latches (d : Dev) (n : Nat) (x : Spoke) : (d.setSp n x).latches = d.latches := rfl
@[simp] theorem Dev.setSp_out (d : Dev) (n : Nat) (x : Spoke) : (d.setSp n x).out = d.out := rfl
@[simp] theorem Dev.setSp_streams (d : Dev) (n : Nat) (x : Spoke) : (d.setSp n x).streams = d.streams := rfl
@[simp] theorem Dev.setSp_sqs (d : Dev) (n : Nat) (x : Spoke) : (d.setSp n x).sqs = d.sqs := rfl
@[simp] theorem Dev.setSp_cqs (d : Dev) (n : Nat) (x : Spoke) : (d.setSp n x).cqs = d.cqs := rfl
@[simp] theorem Dev.setSp_funcs (d : Dev) (n : Nat) (x : Spoke) : (d.setSp n x).funcs = d.funcs := rfl
@[simp] theorem Dev.setSp_vecMasked (d : Dev) (n : Nat) (x : Spoke) : (d.setSp n x).vecMasked = d.vecMasked := rfl
@[simp] theorem Dev.setSp_vecPending (d : Dev) (n : Nat) (x : Spoke) : (d.setSp n x).vecPending = d.vecPending := rfl
@[simp] theorem Dev.setSp_pool (d : Dev) (n : Nat) (x : Spoke) : (d.setSp n x).pool = d.pool := rfl
@[simp] theorem Dev.setSp_chest (d : Dev) (n : Nat) (x : Spoke) : (d.setSp n x).chest = d.chest := rfl
@[simp] theorem Dev.setSp_chestBad (d : Dev) (n : Nat) (x : Spoke) : (d.setSp n x).chestBad = d.chestBad := rfl
@[simp] theorem Dev.setSp_vmValid (d : Dev) (n : Nat) (x : Spoke) : (d.setSp n x).vmValid = d.vmValid := rfl
@[simp] theorem Dev.setSp_vmFill (d : Dev) (n : Nat) (x : Spoke) : (d.setSp n x).vmFill = d.vmFill := rfl
@[simp] theorem Dev.setSp_memWaits (d : Dev) (n : Nat) (x : Spoke) : (d.setSp n x).memWaits = d.memWaits := rfl
@[simp] theorem Dev.setSp_vmClr (d : Dev) (n : Nat) (x : Spoke) : (d.setSp n x).vmClr = d.vmClr := rfl
@[simp] theorem Dev.setSp_recs (d : Dev) (n : Nat) (x : Spoke) : (d.setSp n x).recs = d.recs := rfl
@[simp] theorem Dev.setSp_encSets (d : Dev) (n : Nat) (x : Spoke) : (d.setSp n x).encSets = d.encSets := rfl
@[simp] theorem Dev.setSp_decSets (d : Dev) (n : Nat) (x : Spoke) : (d.setSp n x).decSets = d.decSets := rfl
@[simp] theorem Dev.setSp_byteCnt (d : Dev) (n : Nat) (x : Spoke) : (d.setSp n x).byteCnt = d.byteCnt := rfl
@[simp] theorem Dev.setSp_keep (d : Dev) (n : Nat) (x : Spoke) : (d.setSp n x).keep = d.keep := rfl
@[simp] theorem Dev.setSp_boot (d : Dev) (n : Nat) (x : Spoke) : (d.setSp n x).boot = d.boot := rfl
@[simp] theorem Dev.setSp_svnFuses (d : Dev) (n : Nat) (x : Spoke) : (d.setSp n x).svnFuses = d.svnFuses := rfl
@[simp] theorem Dev.setSp_therm (d : Dev) (n : Nat) (x : Spoke) : (d.setSp n x).therm = d.therm := rfl
@[simp] theorem Dev.setSp_retire (d : Dev) (n : Nat) (x : Spoke) : (d.setSp n x).retire = d.retire := rfl
@[simp] theorem Dev.setSp_retireLog (d : Dev) (n : Nat) (x : Spoke) : (d.setSp n x).retireLog = d.retireLog := rfl
@[simp] theorem Dev.setSp_stws (d : Dev) (n : Nat) (x : Spoke) : (d.setSp n x).stws = d.stws := rfl
@[simp] theorem Dev.setSp_endpts (d : Dev) (n : Nat) (x : Spoke) : (d.setSp n x).endpts = d.endpts := rfl
@[simp] theorem Dev.setSp_tap (d : Dev) (n : Nat) (x : Spoke) : (d.setSp n x).tap = d.tap := rfl
@[simp] theorem Dev.setSp_split (d : Dev) (n : Nat) (x : Spoke) : (d.setSp n x).split = d.split := rfl
@[simp] theorem Dev.setSp_mgmtAddr (d : Dev) (n : Nat) (x : Spoke) : (d.setSp n x).mgmtAddr = d.mgmtAddr := rfl
@[simp] theorem Dev.setSp_live (d : Dev) (n : Nat) (x : Spoke) : (d.setSp n x).live = d.live := rfl
@[simp] theorem Dev.setSp_jobSeq (d : Dev) (n : Nat) (x : Spoke) : (d.setSp n x).jobSeq = d.jobSeq := rfl
@[simp] theorem Dev.setSp_blkSeq (d : Dev) (n : Nat) (x : Spoke) : (d.setSp n x).blkSeq = d.blkSeq := rfl
@[simp] theorem Dev.setSp_grants (d : Dev) (n : Nat) (x : Spoke) : (d.setSp n x).grants = d.grants := rfl
@[simp] theorem Dev.setSp_felt (d : Dev) (n : Nat) (x : Spoke) : (d.setSp n x).felt = d.felt := rfl
@[simp] theorem Dev.setSp_ub4 (d : Dev) (n : Nat) (x : Spoke) : (d.setSp n x).ub4 = d.ub4 := rfl
@[simp] theorem Dev.setSp_modWaiting (d : Dev) (n : Nat) (x : Spoke) : (d.setSp n x).modWaiting = d.modWaiting := rfl
@[simp] theorem Dev.modStream_now (d : Dev) (i : Nat) (f : Stream → Stream) : (d.modStream i f).now = d.now := rfl
@[simp] theorem Dev.modStream_crystal (d : Dev) (i : Nat) (f : Stream → Stream) : (d.modStream i f).crystal = d.crystal := rfl
@[simp] theorem Dev.modStream_free (d : Dev) (i : Nat) (f : Stream → Stream) : (d.modStream i f).free = d.free := rfl
@[simp] theorem Dev.modStream_regs (d : Dev) (i : Nat) (f : Stream → Stream) : (d.modStream i f).regs = d.regs := rfl
@[simp] theorem Dev.modStream_latches (d : Dev) (i : Nat) (f : Stream → Stream) : (d.modStream i f).latches = d.latches := rfl
@[simp] theorem Dev.modStream_out (d : Dev) (i : Nat) (f : Stream → Stream) : (d.modStream i f).out = d.out := rfl
@[simp] theorem Dev.modStream_spokes (d : Dev) (i : Nat) (f : Stream → Stream) : (d.modStream i f).spokes = d.spokes := rfl
@[simp] theorem Dev.modStream_sqs (d : Dev) (i : Nat) (f : Stream → Stream) : (d.modStream i f).sqs = d.sqs := rfl
@[simp] theorem Dev.modStream_cqs (d : Dev) (i : Nat) (f : Stream → Stream) : (d.modStream i f).cqs = d.cqs := rfl
@[simp] theorem Dev.modStream_funcs (d : Dev) (i : Nat) (f : Stream → Stream) : (d.modStream i f).funcs = d.funcs := rfl
@[simp] theorem Dev.modStream_vecMasked (d : Dev) (i : Nat) (f : Stream → Stream) : (d.modStream i f).vecMasked = d.vecMasked := rfl
@[simp] theorem Dev.modStream_vecPending (d : Dev) (i : Nat) (f : Stream → Stream) : (d.modStream i f).vecPending = d.vecPending := rfl
@[simp] theorem Dev.modStream_pool (d : Dev) (i : Nat) (f : Stream → Stream) : (d.modStream i f).pool = d.pool := rfl
@[simp] theorem Dev.modStream_chest (d : Dev) (i : Nat) (f : Stream → Stream) : (d.modStream i f).chest = d.chest := rfl
@[simp] theorem Dev.modStream_chestBad (d : Dev) (i : Nat) (f : Stream → Stream) : (d.modStream i f).chestBad = d.chestBad := rfl
@[simp] theorem Dev.modStream_vmValid (d : Dev) (i : Nat) (f : Stream → Stream) : (d.modStream i f).vmValid = d.vmValid := rfl
@[simp] theorem Dev.modStream_vmFill (d : Dev) (i : Nat) (f : Stream → Stream) : (d.modStream i f).vmFill = d.vmFill := rfl
@[simp] theorem Dev.modStream_memWaits (d : Dev) (i : Nat) (f : Stream → Stream) : (d.modStream i f).memWaits = d.memWaits := rfl
@[simp] theorem Dev.modStream_vmClr (d : Dev) (i : Nat) (f : Stream → Stream) : (d.modStream i f).vmClr = d.vmClr := rfl
@[simp] theorem Dev.modStream_recs (d : Dev) (i : Nat) (f : Stream → Stream) : (d.modStream i f).recs = d.recs := rfl
@[simp] theorem Dev.modStream_encSets (d : Dev) (i : Nat) (f : Stream → Stream) : (d.modStream i f).encSets = d.encSets := rfl
@[simp] theorem Dev.modStream_decSets (d : Dev) (i : Nat) (f : Stream → Stream) : (d.modStream i f).decSets = d.decSets := rfl
@[simp] theorem Dev.modStream_byteCnt (d : Dev) (i : Nat) (f : Stream → Stream) : (d.modStream i f).byteCnt = d.byteCnt := rfl
@[simp] theorem Dev.modStream_keep (d : Dev) (i : Nat) (f : Stream → Stream) : (d.modStream i f).keep = d.keep := rfl
@[simp] theorem Dev.modStream_boot (d : Dev) (i : Nat) (f : Stream → Stream) : (d.modStream i f).boot = d.boot := rfl
@[simp] theorem Dev.modStream_svnFuses (d : Dev) (i : Nat) (f : Stream → Stream) : (d.modStream i f).svnFuses = d.svnFuses := rfl
@[simp] theorem Dev.modStream_therm (d : Dev) (i : Nat) (f : Stream → Stream) : (d.modStream i f).therm = d.therm := rfl
@[simp] theorem Dev.modStream_retire (d : Dev) (i : Nat) (f : Stream → Stream) : (d.modStream i f).retire = d.retire := rfl
@[simp] theorem Dev.modStream_retireLog (d : Dev) (i : Nat) (f : Stream → Stream) : (d.modStream i f).retireLog = d.retireLog := rfl
@[simp] theorem Dev.modStream_stws (d : Dev) (i : Nat) (f : Stream → Stream) : (d.modStream i f).stws = d.stws := rfl
@[simp] theorem Dev.modStream_endpts (d : Dev) (i : Nat) (f : Stream → Stream) : (d.modStream i f).endpts = d.endpts := rfl
@[simp] theorem Dev.modStream_tap (d : Dev) (i : Nat) (f : Stream → Stream) : (d.modStream i f).tap = d.tap := rfl
@[simp] theorem Dev.modStream_split (d : Dev) (i : Nat) (f : Stream → Stream) : (d.modStream i f).split = d.split := rfl
@[simp] theorem Dev.modStream_mgmtAddr (d : Dev) (i : Nat) (f : Stream → Stream) : (d.modStream i f).mgmtAddr = d.mgmtAddr := rfl
@[simp] theorem Dev.modStream_live (d : Dev) (i : Nat) (f : Stream → Stream) : (d.modStream i f).live = d.live := rfl
@[simp] theorem Dev.modStream_jobSeq (d : Dev) (i : Nat) (f : Stream → Stream) : (d.modStream i f).jobSeq = d.jobSeq := rfl
@[simp] theorem Dev.modStream_blkSeq (d : Dev) (i : Nat) (f : Stream → Stream) : (d.modStream i f).blkSeq = d.blkSeq := rfl
@[simp] theorem Dev.modStream_grants (d : Dev) (i : Nat) (f : Stream → Stream) : (d.modStream i f).grants = d.grants := rfl
@[simp] theorem Dev.modStream_felt (d : Dev) (i : Nat) (f : Stream → Stream) : (d.modStream i f).felt = d.felt := rfl
@[simp] theorem Dev.modStream_ub4 (d : Dev) (i : Nat) (f : Stream → Stream) : (d.modStream i f).ub4 = d.ub4 := rfl
@[simp] theorem Dev.modStream_modWaiting (d : Dev) (i : Nat) (f : Stream → Stream) : (d.modStream i f).modWaiting = d.modWaiting := rfl
@[simp] theorem Dev.modStw_now (d : Dev) (i : Nat) (f : Stw → Stw) : (d.modStw i f).now = d.now := rfl
@[simp] theorem Dev.modStw_crystal (d : Dev) (i : Nat) (f : Stw → Stw) : (d.modStw i f).crystal = d.crystal := rfl
@[simp] theorem Dev.modStw_free (d : Dev) (i : Nat) (f : Stw → Stw) : (d.modStw i f).free = d.free := rfl
@[simp] theorem Dev.modStw_regs (d : Dev) (i : Nat) (f : Stw → Stw) : (d.modStw i f).regs = d.regs := rfl
@[simp] theorem Dev.modStw_latches (d : Dev) (i : Nat) (f : Stw → Stw) : (d.modStw i f).latches = d.latches := rfl
@[simp] theorem Dev.modStw_out (d : Dev) (i : Nat) (f : Stw → Stw) : (d.modStw i f).out = d.out := rfl
@[simp] theorem Dev.modStw_spokes (d : Dev) (i : Nat) (f : Stw → Stw) : (d.modStw i f).spokes = d.spokes := rfl
@[simp] theorem Dev.modStw_streams (d : Dev) (i : Nat) (f : Stw → Stw) : (d.modStw i f).streams = d.streams := rfl
@[simp] theorem Dev.modStw_sqs (d : Dev) (i : Nat) (f : Stw → Stw) : (d.modStw i f).sqs = d.sqs := rfl
@[simp] theorem Dev.modStw_cqs (d : Dev) (i : Nat) (f : Stw → Stw) : (d.modStw i f).cqs = d.cqs := rfl
@[simp] theorem Dev.modStw_funcs (d : Dev) (i : Nat) (f : Stw → Stw) : (d.modStw i f).funcs = d.funcs := rfl
@[simp] theorem Dev.modStw_vecMasked (d : Dev) (i : Nat) (f : Stw → Stw) : (d.modStw i f).vecMasked = d.vecMasked := rfl
@[simp] theorem Dev.modStw_vecPending (d : Dev) (i : Nat) (f : Stw → Stw) : (d.modStw i f).vecPending = d.vecPending := rfl
@[simp] theorem Dev.modStw_pool (d : Dev) (i : Nat) (f : Stw → Stw) : (d.modStw i f).pool = d.pool := rfl
@[simp] theorem Dev.modStw_chest (d : Dev) (i : Nat) (f : Stw → Stw) : (d.modStw i f).chest = d.chest := rfl
@[simp] theorem Dev.modStw_chestBad (d : Dev) (i : Nat) (f : Stw → Stw) : (d.modStw i f).chestBad = d.chestBad := rfl
@[simp] theorem Dev.modStw_vmValid (d : Dev) (i : Nat) (f : Stw → Stw) : (d.modStw i f).vmValid = d.vmValid := rfl
@[simp] theorem Dev.modStw_vmFill (d : Dev) (i : Nat) (f : Stw → Stw) : (d.modStw i f).vmFill = d.vmFill := rfl
@[simp] theorem Dev.modStw_memWaits (d : Dev) (i : Nat) (f : Stw → Stw) : (d.modStw i f).memWaits = d.memWaits := rfl
@[simp] theorem Dev.modStw_vmClr (d : Dev) (i : Nat) (f : Stw → Stw) : (d.modStw i f).vmClr = d.vmClr := rfl
@[simp] theorem Dev.modStw_recs (d : Dev) (i : Nat) (f : Stw → Stw) : (d.modStw i f).recs = d.recs := rfl
@[simp] theorem Dev.modStw_encSets (d : Dev) (i : Nat) (f : Stw → Stw) : (d.modStw i f).encSets = d.encSets := rfl
@[simp] theorem Dev.modStw_decSets (d : Dev) (i : Nat) (f : Stw → Stw) : (d.modStw i f).decSets = d.decSets := rfl
@[simp] theorem Dev.modStw_byteCnt (d : Dev) (i : Nat) (f : Stw → Stw) : (d.modStw i f).byteCnt = d.byteCnt := rfl
@[simp] theorem Dev.modStw_keep (d : Dev) (i : Nat) (f : Stw → Stw) : (d.modStw i f).keep = d.keep := rfl
@[simp] theorem Dev.modStw_boot (d : Dev) (i : Nat) (f : Stw → Stw) : (d.modStw i f).boot = d.boot := rfl
@[simp] theorem Dev.modStw_svnFuses (d : Dev) (i : Nat) (f : Stw → Stw) : (d.modStw i f).svnFuses = d.svnFuses := rfl
@[simp] theorem Dev.modStw_therm (d : Dev) (i : Nat) (f : Stw → Stw) : (d.modStw i f).therm = d.therm := rfl
@[simp] theorem Dev.modStw_retire (d : Dev) (i : Nat) (f : Stw → Stw) : (d.modStw i f).retire = d.retire := rfl
@[simp] theorem Dev.modStw_retireLog (d : Dev) (i : Nat) (f : Stw → Stw) : (d.modStw i f).retireLog = d.retireLog := rfl
@[simp] theorem Dev.modStw_endpts (d : Dev) (i : Nat) (f : Stw → Stw) : (d.modStw i f).endpts = d.endpts := rfl
@[simp] theorem Dev.modStw_tap (d : Dev) (i : Nat) (f : Stw → Stw) : (d.modStw i f).tap = d.tap := rfl
@[simp] theorem Dev.modStw_split (d : Dev) (i : Nat) (f : Stw → Stw) : (d.modStw i f).split = d.split := rfl
@[simp] theorem Dev.modStw_mgmtAddr (d : Dev) (i : Nat) (f : Stw → Stw) : (d.modStw i f).mgmtAddr = d.mgmtAddr := rfl
@[simp] theorem Dev.modStw_live (d : Dev) (i : Nat) (f : Stw → Stw) : (d.modStw i f).live = d.live := rfl
@[simp] theorem Dev.modStw_jobSeq (d : Dev) (i : Nat) (f : Stw → Stw) : (d.modStw i f).jobSeq = d.jobSeq := rfl
@[simp] theorem Dev.modStw_blkSeq (d : Dev) (i : Nat) (f : Stw → Stw) : (d.modStw i f).blkSeq = d.blkSeq := rfl
@[simp] theorem Dev.modStw_grants (d : Dev) (i : Nat) (f : Stw → Stw) : (d.modStw i f).grants = d.grants := rfl
@[simp] theorem Dev.modStw_felt (d : Dev) (i : Nat) (f : Stw → Stw) : (d.modStw i f).felt = d.felt := rfl
@[simp] theorem Dev.modStw_ub4 (d : Dev) (i : Nat) (f : Stw → Stw) : (d.modStw i f).ub4 = d.ub4 := rfl
@[simp] theorem Dev.modStw_modWaiting (d : Dev) (i : Nat) (f : Stw → Stw) : (d.modStw i f).modWaiting = d.modWaiting := rfl
@[simp] theorem Dev.emit_now (d : Dev) (o : Out) : (d.emit o).now = d.now := rfl
@[simp] theorem Dev.emit_crystal (d : Dev) (o : Out) : (d.emit o).crystal = d.crystal := rfl
@[simp] theorem Dev.emit_free (d : Dev) (o : Out) : (d.emit o).free = d.free := rfl
@[simp] theorem Dev.emit_regs (d : Dev) (o : Out) : (d.emit o).regs = d.regs := rfl
@[simp] theorem Dev.emit_latches (d : Dev) (o : Out) : (d.emit o).latches = d.latches := rfl
@[simp] theorem Dev.emit_spokes (d : Dev) (o : Out) : (d.emit o).spokes = d.spokes := rfl
@[simp] theorem Dev.emit_streams (d : Dev) (o : Out) : (d.emit o).streams = d.streams := rfl
@[simp] theorem Dev.emit_sqs (d : Dev) (o : Out) : (d.emit o).sqs = d.sqs := rfl
@[simp] theorem Dev.emit_cqs (d : Dev) (o : Out) : (d.emit o).cqs = d.cqs := rfl
@[simp] theorem Dev.emit_funcs (d : Dev) (o : Out) : (d.emit o).funcs = d.funcs := rfl
@[simp] theorem Dev.emit_vecMasked (d : Dev) (o : Out) : (d.emit o).vecMasked = d.vecMasked := rfl
@[simp] theorem Dev.emit_vecPending (d : Dev) (o : Out) : (d.emit o).vecPending = d.vecPending := rfl
@[simp] theorem Dev.emit_pool (d : Dev) (o : Out) : (d.emit o).pool = d.pool := rfl
@[simp] theorem Dev.emit_chest (d : Dev) (o : Out) : (d.emit o).chest = d.chest := rfl
@[simp] theorem Dev.emit_chestBad (d : Dev) (o : Out) : (d.emit o).chestBad = d.chestBad := rfl
@[simp] theorem Dev.emit_vmValid (d : Dev) (o : Out) : (d.emit o).vmValid = d.vmValid := rfl
@[simp] theorem Dev.emit_vmFill (d : Dev) (o : Out) : (d.emit o).vmFill = d.vmFill := rfl
@[simp] theorem Dev.emit_memWaits (d : Dev) (o : Out) : (d.emit o).memWaits = d.memWaits := rfl
@[simp] theorem Dev.emit_vmClr (d : Dev) (o : Out) : (d.emit o).vmClr = d.vmClr := rfl
@[simp] theorem Dev.emit_recs (d : Dev) (o : Out) : (d.emit o).recs = d.recs := rfl
@[simp] theorem Dev.emit_encSets (d : Dev) (o : Out) : (d.emit o).encSets = d.encSets := rfl
@[simp] theorem Dev.emit_decSets (d : Dev) (o : Out) : (d.emit o).decSets = d.decSets := rfl
@[simp] theorem Dev.emit_byteCnt (d : Dev) (o : Out) : (d.emit o).byteCnt = d.byteCnt := rfl
@[simp] theorem Dev.emit_keep (d : Dev) (o : Out) : (d.emit o).keep = d.keep := rfl
@[simp] theorem Dev.emit_boot (d : Dev) (o : Out) : (d.emit o).boot = d.boot := rfl
@[simp] theorem Dev.emit_svnFuses (d : Dev) (o : Out) : (d.emit o).svnFuses = d.svnFuses := rfl
@[simp] theorem Dev.emit_therm (d : Dev) (o : Out) : (d.emit o).therm = d.therm := rfl
@[simp] theorem Dev.emit_retire (d : Dev) (o : Out) : (d.emit o).retire = d.retire := rfl
@[simp] theorem Dev.emit_retireLog (d : Dev) (o : Out) : (d.emit o).retireLog = d.retireLog := rfl
@[simp] theorem Dev.emit_stws (d : Dev) (o : Out) : (d.emit o).stws = d.stws := rfl
@[simp] theorem Dev.emit_endpts (d : Dev) (o : Out) : (d.emit o).endpts = d.endpts := rfl
@[simp] theorem Dev.emit_tap (d : Dev) (o : Out) : (d.emit o).tap = d.tap := rfl
@[simp] theorem Dev.emit_split (d : Dev) (o : Out) : (d.emit o).split = d.split := rfl
@[simp] theorem Dev.emit_mgmtAddr (d : Dev) (o : Out) : (d.emit o).mgmtAddr = d.mgmtAddr := rfl
@[simp] theorem Dev.emit_live (d : Dev) (o : Out) : (d.emit o).live = d.live := rfl
@[simp] theorem Dev.emit_jobSeq (d : Dev) (o : Out) : (d.emit o).jobSeq = d.jobSeq := rfl
@[simp] theorem Dev.emit_blkSeq (d : Dev) (o : Out) : (d.emit o).blkSeq = d.blkSeq := rfl
@[simp] theorem Dev.emit_grants (d : Dev) (o : Out) : (d.emit o).grants = d.grants := rfl
@[simp] theorem Dev.emit_felt (d : Dev) (o : Out) : (d.emit o).felt = d.felt := rfl
@[simp] theorem Dev.emit_ub4 (d : Dev) (o : Out) : (d.emit o).ub4 = d.ub4 := rfl
@[simp] theorem Dev.emit_modWaiting (d : Dev) (o : Out) : (d.emit o).modWaiting = d.modWaiting := rfl
@[simp] theorem Dev.nextFree_now (d : Dev)  : (d.nextFree).now = d.now := rfl
@[simp] theorem Dev.nextFree_crystal (d : Dev)  : (d.nextFree).crystal = d.crystal := rfl
@[simp] theorem Dev.nextFree_regs (d : Dev)  : (d.nextFree).regs = d.regs := rfl
@[simp] theorem Dev.nextFree_latches (d : Dev)  : (d.nextFree).latches = d.latches := rfl
@[simp] theorem Dev.nextFree_out (d : Dev)  : (d.nextFree).out = d.out := rfl
@[simp] theorem Dev.nextFree_spokes (d : Dev)  : (d.nextFree).spokes = d.spokes := rfl
@[simp] theorem Dev.nextFree_streams (d : Dev)  : (d.nextFree).streams = d.streams := rfl
@[simp] theorem Dev.nextFree_sqs (d : Dev)  : (d.nextFree).sqs = d.sqs := rfl
@[simp] theorem Dev.nextFree_cqs (d : Dev)  : (d.nextFree).cqs = d.cqs := rfl
@[simp] theorem Dev.nextFree_funcs (d : Dev)  : (d.nextFree).funcs = d.funcs := rfl
@[simp] theorem Dev.nextFree_vecMasked (d : Dev)  : (d.nextFree).vecMasked = d.vecMasked := rfl
@[simp] theorem Dev.nextFree_vecPending (d : Dev)  : (d.nextFree).vecPending = d.vecPending := rfl
@[simp] theorem Dev.nextFree_pool (d : Dev)  : (d.nextFree).pool = d.pool := rfl
@[simp] theorem Dev.nextFree_chest (d : Dev)  : (d.nextFree).chest = d.chest := rfl
@[simp] theorem Dev.nextFree_chestBad (d : Dev)  : (d.nextFree).chestBad = d.chestBad := rfl
@[simp] theorem Dev.nextFree_vmValid (d : Dev)  : (d.nextFree).vmValid = d.vmValid := rfl
@[simp] theorem Dev.nextFree_vmFill (d : Dev)  : (d.nextFree).vmFill = d.vmFill := rfl
@[simp] theorem Dev.nextFree_memWaits (d : Dev)  : (d.nextFree).memWaits = d.memWaits := rfl
@[simp] theorem Dev.nextFree_vmClr (d : Dev)  : (d.nextFree).vmClr = d.vmClr := rfl
@[simp] theorem Dev.nextFree_recs (d : Dev)  : (d.nextFree).recs = d.recs := rfl
@[simp] theorem Dev.nextFree_encSets (d : Dev)  : (d.nextFree).encSets = d.encSets := rfl
@[simp] theorem Dev.nextFree_decSets (d : Dev)  : (d.nextFree).decSets = d.decSets := rfl
@[simp] theorem Dev.nextFree_byteCnt (d : Dev)  : (d.nextFree).byteCnt = d.byteCnt := rfl
@[simp] theorem Dev.nextFree_keep (d : Dev)  : (d.nextFree).keep = d.keep := rfl
@[simp] theorem Dev.nextFree_boot (d : Dev)  : (d.nextFree).boot = d.boot := rfl
@[simp] theorem Dev.nextFree_svnFuses (d : Dev)  : (d.nextFree).svnFuses = d.svnFuses := rfl
@[simp] theorem Dev.nextFree_therm (d : Dev)  : (d.nextFree).therm = d.therm := rfl
@[simp] theorem Dev.nextFree_retire (d : Dev)  : (d.nextFree).retire = d.retire := rfl
@[simp] theorem Dev.nextFree_retireLog (d : Dev)  : (d.nextFree).retireLog = d.retireLog := rfl
@[simp] theorem Dev.nextFree_stws (d : Dev)  : (d.nextFree).stws = d.stws := rfl
@[simp] theorem Dev.nextFree_endpts (d : Dev)  : (d.nextFree).endpts = d.endpts := rfl
@[simp] theorem Dev.nextFree_tap (d : Dev)  : (d.nextFree).tap = d.tap := rfl
@[simp] theorem Dev.nextFree_split (d : Dev)  : (d.nextFree).split = d.split := rfl
@[simp] theorem Dev.nextFree_mgmtAddr (d : Dev)  : (d.nextFree).mgmtAddr = d.mgmtAddr := rfl
@[simp] theorem Dev.nextFree_live (d : Dev)  : (d.nextFree).live = d.live := rfl
@[simp] theorem Dev.nextFree_jobSeq (d : Dev)  : (d.nextFree).jobSeq = d.jobSeq := rfl
@[simp] theorem Dev.nextFree_blkSeq (d : Dev)  : (d.nextFree).blkSeq = d.blkSeq := rfl
@[simp] theorem Dev.nextFree_grants (d : Dev)  : (d.nextFree).grants = d.grants := rfl
@[simp] theorem Dev.nextFree_felt (d : Dev)  : (d.nextFree).felt = d.felt := rfl
@[simp] theorem Dev.nextFree_ub4 (d : Dev)  : (d.nextFree).ub4 = d.ub4 := rfl
@[simp] theorem Dev.nextFree_modWaiting (d : Dev)  : (d.nextFree).modWaiting = d.modWaiting := rfl
@[simp] theorem Dev.latch_now (d : Dev) (k a v : Nat) : (d.latch k a v).now = d.now := rfl
@[simp] theorem Dev.latch_crystal (d : Dev) (k a v : Nat) : (d.latch k a v).crystal = d.crystal := rfl
@[simp] theorem Dev.latch_free (d : Dev) (k a v : Nat) : (d.latch k a v).free = d.free := rfl
@[simp] theorem Dev.latch_regs (d : Dev) (k a v : Nat) : (d.latch k a v).regs = d.regs := rfl
@[simp] theorem Dev.latch_out (d : Dev) (k a v : Nat) : (d.latch k a v).out = d.out := rfl
@[simp] theorem Dev.latch_spokes (d : Dev) (k a v : Nat) : (d.latch k a v).spokes = d.spokes := rfl
@[simp] theorem Dev.latch_streams (d : Dev) (k a v : Nat) : (d.latch k a v).streams = d.streams := rfl
@[simp] theorem Dev.latch_sqs (d : Dev) (k a v : Nat) : (d.latch k a v).sqs = d.sqs := rfl
@[simp] theorem Dev.latch_cqs (d : Dev) (k a v : Nat) : (d.latch k a v).cqs = d.cqs := rfl
@[simp] theorem Dev.latch_funcs (d : Dev) (k a v : Nat) : (d.latch k a v).funcs = d.funcs := rfl
@[simp] theorem Dev.latch_vecMasked (d : Dev) (k a v : Nat) : (d.latch k a v).vecMasked = d.vecMasked := rfl
@[simp] theorem Dev.latch_vecPending (d : Dev) (k a v : Nat) : (d.latch k a v).vecPending = d.vecPending := rfl
@[simp] theorem Dev.latch_pool (d : Dev) (k a v : Nat) : (d.latch k a v).pool = d.pool := rfl
@[simp] theorem Dev.latch_chest (d : Dev) (k a v : Nat) : (d.latch k a v).chest = d.chest := rfl
@[simp] theorem Dev.latch_chestBad (d : Dev) (k a v : Nat) : (d.latch k a v).chestBad = d.chestBad := rfl
@[simp] theorem Dev.latch_vmValid (d : Dev) (k a v : Nat) : (d.latch k a v).vmValid = d.vmValid := rfl
@[simp] theorem Dev.latch_vmFill (d : Dev) (k a v : Nat) : (d.latch k a v).vmFill = d.vmFill := rfl
@[simp] theorem Dev.latch_memWaits (d : Dev) (k a v : Nat) : (d.latch k a v).memWaits = d.memWaits := rfl
@[simp] theorem Dev.latch_vmClr (d : Dev) (k a v : Nat) : (d.latch k a v).vmClr = d.vmClr := rfl
@[simp] theorem Dev.latch_recs (d : Dev) (k a v : Nat) : (d.latch k a v).recs = d.recs := rfl
@[simp] theorem Dev.latch_encSets (d : Dev) (k a v : Nat) : (d.latch k a v).encSets = d.encSets := rfl
@[simp] theorem Dev.latch_decSets (d : Dev) (k a v : Nat) : (d.latch k a v).decSets = d.decSets := rfl
@[simp] theorem Dev.latch_byteCnt (d : Dev) (k a v : Nat) : (d.latch k a v).byteCnt = d.byteCnt := rfl
@[simp] theorem Dev.latch_keep (d : Dev) (k a v : Nat) : (d.latch k a v).keep = d.keep := rfl
@[simp] theorem Dev.latch_boot (d : Dev) (k a v : Nat) : (d.latch k a v).boot = d.boot := rfl
@[simp] theorem Dev.latch_svnFuses (d : Dev) (k a v : Nat) : (d.latch k a v).svnFuses = d.svnFuses := rfl
@[simp] theorem Dev.latch_therm (d : Dev) (k a v : Nat) : (d.latch k a v).therm = d.therm := rfl
@[simp] theorem Dev.latch_retire (d : Dev) (k a v : Nat) : (d.latch k a v).retire = d.retire := rfl
@[simp] theorem Dev.latch_retireLog (d : Dev) (k a v : Nat) : (d.latch k a v).retireLog = d.retireLog := rfl
@[simp] theorem Dev.latch_stws (d : Dev) (k a v : Nat) : (d.latch k a v).stws = d.stws := rfl
@[simp] theorem Dev.latch_endpts (d : Dev) (k a v : Nat) : (d.latch k a v).endpts = d.endpts := rfl
@[simp] theorem Dev.latch_tap (d : Dev) (k a v : Nat) : (d.latch k a v).tap = d.tap := rfl
@[simp] theorem Dev.latch_split (d : Dev) (k a v : Nat) : (d.latch k a v).split = d.split := rfl
@[simp] theorem Dev.latch_mgmtAddr (d : Dev) (k a v : Nat) : (d.latch k a v).mgmtAddr = d.mgmtAddr := rfl
@[simp] theorem Dev.latch_live (d : Dev) (k a v : Nat) : (d.latch k a v).live = d.live := rfl
@[simp] theorem Dev.latch_jobSeq (d : Dev) (k a v : Nat) : (d.latch k a v).jobSeq = d.jobSeq := rfl
@[simp] theorem Dev.latch_blkSeq (d : Dev) (k a v : Nat) : (d.latch k a v).blkSeq = d.blkSeq := rfl
@[simp] theorem Dev.latch_grants (d : Dev) (k a v : Nat) : (d.latch k a v).grants = d.grants := rfl
@[simp] theorem Dev.latch_felt (d : Dev) (k a v : Nat) : (d.latch k a v).felt = d.felt := rfl
@[simp] theorem Dev.latch_ub4 (d : Dev) (k a v : Nat) : (d.latch k a v).ub4 = d.ub4 := rfl
@[simp] theorem Dev.latch_modWaiting (d : Dev) (k a v : Nat) : (d.latch k a v).modWaiting = d.modWaiting := rfl
@[simp] theorem Dev.chestPut_now (d : Dev) (a : Nat) (bs : List Byte) : (d.chestPut a bs).now = d.now := rfl
@[simp] theorem Dev.chestPut_crystal (d : Dev) (a : Nat) (bs : List Byte) : (d.chestPut a bs).crystal = d.crystal := rfl
@[simp] theorem Dev.chestPut_free (d : Dev) (a : Nat) (bs : List Byte) : (d.chestPut a bs).free = d.free := rfl
@[simp] theorem Dev.chestPut_regs (d : Dev) (a : Nat) (bs : List Byte) : (d.chestPut a bs).regs = d.regs := rfl
@[simp] theorem Dev.chestPut_latches (d : Dev) (a : Nat) (bs : List Byte) : (d.chestPut a bs).latches = d.latches := rfl
@[simp] theorem Dev.chestPut_out (d : Dev) (a : Nat) (bs : List Byte) : (d.chestPut a bs).out = d.out := rfl
@[simp] theorem Dev.chestPut_spokes (d : Dev) (a : Nat) (bs : List Byte) : (d.chestPut a bs).spokes = d.spokes := rfl
@[simp] theorem Dev.chestPut_streams (d : Dev) (a : Nat) (bs : List Byte) : (d.chestPut a bs).streams = d.streams := rfl
@[simp] theorem Dev.chestPut_sqs (d : Dev) (a : Nat) (bs : List Byte) : (d.chestPut a bs).sqs = d.sqs := rfl
@[simp] theorem Dev.chestPut_cqs (d : Dev) (a : Nat) (bs : List Byte) : (d.chestPut a bs).cqs = d.cqs := rfl
@[simp] theorem Dev.chestPut_funcs (d : Dev) (a : Nat) (bs : List Byte) : (d.chestPut a bs).funcs = d.funcs := rfl
@[simp] theorem Dev.chestPut_vecMasked (d : Dev) (a : Nat) (bs : List Byte) : (d.chestPut a bs).vecMasked = d.vecMasked := rfl
@[simp] theorem Dev.chestPut_vecPending (d : Dev) (a : Nat) (bs : List Byte) : (d.chestPut a bs).vecPending = d.vecPending := rfl
@[simp] theorem Dev.chestPut_pool (d : Dev) (a : Nat) (bs : List Byte) : (d.chestPut a bs).pool = d.pool := rfl
@[simp] theorem Dev.chestPut_vmFill (d : Dev) (a : Nat) (bs : List Byte) : (d.chestPut a bs).vmFill = d.vmFill := rfl
@[simp] theorem Dev.chestPut_memWaits (d : Dev) (a : Nat) (bs : List Byte) : (d.chestPut a bs).memWaits = d.memWaits := rfl
@[simp] theorem Dev.chestPut_vmClr (d : Dev) (a : Nat) (bs : List Byte) : (d.chestPut a bs).vmClr = d.vmClr := rfl
@[simp] theorem Dev.chestPut_recs (d : Dev) (a : Nat) (bs : List Byte) : (d.chestPut a bs).recs = d.recs := rfl
@[simp] theorem Dev.chestPut_encSets (d : Dev) (a : Nat) (bs : List Byte) : (d.chestPut a bs).encSets = d.encSets := rfl
@[simp] theorem Dev.chestPut_decSets (d : Dev) (a : Nat) (bs : List Byte) : (d.chestPut a bs).decSets = d.decSets := rfl
@[simp] theorem Dev.chestPut_byteCnt (d : Dev) (a : Nat) (bs : List Byte) : (d.chestPut a bs).byteCnt = d.byteCnt := rfl
@[simp] theorem Dev.chestPut_keep (d : Dev) (a : Nat) (bs : List Byte) : (d.chestPut a bs).keep = d.keep := rfl
@[simp] theorem Dev.chestPut_boot (d : Dev) (a : Nat) (bs : List Byte) : (d.chestPut a bs).boot = d.boot := rfl
@[simp] theorem Dev.chestPut_svnFuses (d : Dev) (a : Nat) (bs : List Byte) : (d.chestPut a bs).svnFuses = d.svnFuses := rfl
@[simp] theorem Dev.chestPut_therm (d : Dev) (a : Nat) (bs : List Byte) : (d.chestPut a bs).therm = d.therm := rfl
@[simp] theorem Dev.chestPut_retire (d : Dev) (a : Nat) (bs : List Byte) : (d.chestPut a bs).retire = d.retire := rfl
@[simp] theorem Dev.chestPut_retireLog (d : Dev) (a : Nat) (bs : List Byte) : (d.chestPut a bs).retireLog = d.retireLog := rfl
@[simp] theorem Dev.chestPut_stws (d : Dev) (a : Nat) (bs : List Byte) : (d.chestPut a bs).stws = d.stws := rfl
@[simp] theorem Dev.chestPut_endpts (d : Dev) (a : Nat) (bs : List Byte) : (d.chestPut a bs).endpts = d.endpts := rfl
@[simp] theorem Dev.chestPut_tap (d : Dev) (a : Nat) (bs : List Byte) : (d.chestPut a bs).tap = d.tap := rfl
@[simp] theorem Dev.chestPut_split (d : Dev) (a : Nat) (bs : List Byte) : (d.chestPut a bs).split = d.split := rfl
@[simp] theorem Dev.chestPut_mgmtAddr (d : Dev) (a : Nat) (bs : List Byte) : (d.chestPut a bs).mgmtAddr = d.mgmtAddr := rfl
@[simp] theorem Dev.chestPut_live (d : Dev) (a : Nat) (bs : List Byte) : (d.chestPut a bs).live = d.live := rfl
@[simp] theorem Dev.chestPut_jobSeq (d : Dev) (a : Nat) (bs : List Byte) : (d.chestPut a bs).jobSeq = d.jobSeq := rfl
@[simp] theorem Dev.chestPut_blkSeq (d : Dev) (a : Nat) (bs : List Byte) : (d.chestPut a bs).blkSeq = d.blkSeq := rfl
@[simp] theorem Dev.chestPut_grants (d : Dev) (a : Nat) (bs : List Byte) : (d.chestPut a bs).grants = d.grants := rfl
@[simp] theorem Dev.chestPut_felt (d : Dev) (a : Nat) (bs : List Byte) : (d.chestPut a bs).felt = d.felt := rfl
@[simp] theorem Dev.chestPut_ub4 (d : Dev) (a : Nat) (bs : List Byte) : (d.chestPut a bs).ub4 = d.ub4 := rfl
@[simp] theorem Dev.chestPut_modWaiting (d : Dev) (a : Nat) (bs : List Byte) : (d.chestPut a bs).modWaiting = d.modWaiting := rfl
@[simp] theorem Dev.invalidate_now (d : Dev) (p k : Nat) : (d.invalidate p k).now = d.now := rfl
@[simp] theorem Dev.invalidate_crystal (d : Dev) (p k : Nat) : (d.invalidate p k).crystal = d.crystal := rfl
@[simp] theorem Dev.invalidate_free (d : Dev) (p k : Nat) : (d.invalidate p k).free = d.free := rfl
@[simp] theorem Dev.invalidate_regs (d : Dev) (p k : Nat) : (d.invalidate p k).regs = d.regs := rfl
@[simp] theorem Dev.invalidate_latches (d : Dev) (p k : Nat) : (d.invalidate p k).latches = d.latches := rfl
@[simp] theorem Dev.invalidate_out (d : Dev) (p k : Nat) : (d.invalidate p k).out = d.out := rfl
@[simp] theorem Dev.invalidate_spokes (d : Dev) (p k : Nat) : (d.invalidate p k).spokes = d.spokes := rfl
@[simp] theorem Dev.invalidate_streams (d : Dev) (p k : Nat) : (d.invalidate p k).streams = d.streams := rfl
@[simp] theorem Dev.invalidate_sqs (d : Dev) (p k : Nat) : (d.invalidate p k).sqs = d.sqs := rfl
@[simp] theorem Dev.invalidate_cqs (d : Dev) (p k : Nat) : (d.invalidate p k).cqs = d.cqs := rfl
@[simp] theorem Dev.invalidate_funcs (d : Dev) (p k : Nat) : (d.invalidate p k).funcs = d.funcs := rfl
@[simp] theorem Dev.invalidate_vecMasked (d : Dev) (p k : Nat) : (d.invalidate p k).vecMasked = d.vecMasked := rfl
@[simp] theorem Dev.invalidate_vecPending (d : Dev) (p k : Nat) : (d.invalidate p k).vecPending = d.vecPending := rfl
@[simp] theorem Dev.invalidate_pool (d : Dev) (p k : Nat) : (d.invalidate p k).pool = d.pool := rfl
@[simp] theorem Dev.invalidate_vmFill (d : Dev) (p k : Nat) : (d.invalidate p k).vmFill = d.vmFill := rfl
@[simp] theorem Dev.invalidate_memWaits (d : Dev) (p k : Nat) : (d.invalidate p k).memWaits = d.memWaits := rfl
@[simp] theorem Dev.invalidate_vmClr (d : Dev) (p k : Nat) : (d.invalidate p k).vmClr = d.vmClr := rfl
@[simp] theorem Dev.invalidate_recs (d : Dev) (p k : Nat) : (d.invalidate p k).recs = d.recs := rfl
@[simp] theorem Dev.invalidate_encSets (d : Dev) (p k : Nat) : (d.invalidate p k).encSets = d.encSets := rfl
@[simp] theorem Dev.invalidate_decSets (d : Dev) (p k : Nat) : (d.invalidate p k).decSets = d.decSets := rfl
@[simp] theorem Dev.invalidate_byteCnt (d : Dev) (p k : Nat) : (d.invalidate p k).byteCnt = d.byteCnt := rfl
@[simp] theorem Dev.invalidate_keep (d : Dev) (p k : Nat) : (d.invalidate p k).keep = d.keep := rfl
@[simp] theorem Dev.invalidate_boot (d : Dev) (p k : Nat) : (d.invalidate p k).boot = d.boot := rfl
@[simp] theorem Dev.invalidate_svnFuses (d : Dev) (p k : Nat) : (d.invalidate p k).svnFuses = d.svnFuses := rfl
@[simp] theorem Dev.invalidate_therm (d : Dev) (p k : Nat) : (d.invalidate p k).therm = d.therm := rfl
@[simp] theorem Dev.invalidate_retire (d : Dev) (p k : Nat) : (d.invalidate p k).retire = d.retire := rfl
@[simp] theorem Dev.invalidate_retireLog (d : Dev) (p k : Nat) : (d.invalidate p k).retireLog = d.retireLog := rfl
@[simp] theorem Dev.invalidate_stws (d : Dev) (p k : Nat) : (d.invalidate p k).stws = d.stws := rfl
@[simp] theorem Dev.invalidate_endpts (d : Dev) (p k : Nat) : (d.invalidate p k).endpts = d.endpts := rfl
@[simp] theorem Dev.invalidate_tap (d : Dev) (p k : Nat) : (d.invalidate p k).tap = d.tap := rfl
@[simp] theorem Dev.invalidate_split (d : Dev) (p k : Nat) : (d.invalidate p k).split = d.split := rfl
@[simp] theorem Dev.invalidate_mgmtAddr (d : Dev) (p k : Nat) : (d.invalidate p k).mgmtAddr = d.mgmtAddr := rfl
@[simp] theorem Dev.invalidate_live (d : Dev) (p k : Nat) : (d.invalidate p k).live = d.live := rfl
@[simp] theorem Dev.invalidate_jobSeq (d : Dev) (p k : Nat) : (d.invalidate p k).jobSeq = d.jobSeq := rfl
@[simp] theorem Dev.invalidate_blkSeq (d : Dev) (p k : Nat) : (d.invalidate p k).blkSeq = d.blkSeq := rfl
@[simp] theorem Dev.invalidate_grants (d : Dev) (p k : Nat) : (d.invalidate p k).grants = d.grants := rfl
@[simp] theorem Dev.invalidate_felt (d : Dev) (p k : Nat) : (d.invalidate p k).felt = d.felt := rfl
@[simp] theorem Dev.invalidate_ub4 (d : Dev) (p k : Nat) : (d.invalidate p k).ub4 = d.ub4 := rfl
@[simp] theorem Dev.invalidate_modWaiting (d : Dev) (p k : Nat) : (d.invalidate p k).modWaiting = d.modWaiting := rfl
@[simp] theorem Dev.modTherm_now (d : Dev) (f : Therm → Therm) : (d.modTherm f).now = d.now := rfl
@[simp] theorem Dev.modTherm_crystal (d : Dev) (f : Therm → Therm) : (d.modTherm f).crystal = d.crystal := rfl
@[simp] theorem Dev.modTherm_free (d : Dev) (f : Therm → Therm) : (d.modTherm f).free = d.free := rfl
@[simp] theorem Dev.modTherm_regs (d : Dev) (f : Therm → Therm) : (d.modTherm f).regs = d.regs := rfl
@[simp] theorem Dev.modTherm_latches (d : Dev) (f : Therm → Therm) : (d.modTherm f).latches = d.latches := rfl
@[simp] theorem Dev.modTherm_out (d : Dev) (f : Therm → Therm) : (d.modTherm f).out = d.out := rfl
@[simp] theorem Dev.modTherm_spokes (d : Dev) (f : Therm → Therm) : (d.modTherm f).spokes = d.spokes := rfl
@[simp] theorem Dev.modTherm_streams (d : Dev) (f : Therm → Therm) : (d.modTherm f).streams = d.streams := rfl
@[simp] theorem Dev.modTherm_sqs (d : Dev) (f : Therm → Therm) : (d.modTherm f).sqs = d.sqs := rfl
@[simp] theorem Dev.modTherm_cqs (d : Dev) (f : Therm → Therm) : (d.modTherm f).cqs = d.cqs := rfl
@[simp] theorem Dev.modTherm_funcs (d : Dev) (f : Therm → Therm) : (d.modTherm f).funcs = d.funcs := rfl
@[simp] theorem Dev.modTherm_vecMasked (d : Dev) (f : Therm → Therm) : (d.modTherm f).vecMasked = d.vecMasked := rfl
@[simp] theorem Dev.modTherm_vecPending (d : Dev) (f : Therm → Therm) : (d.modTherm f).vecPending = d.vecPending := rfl
@[simp] theorem Dev.modTherm_pool (d : Dev) (f : Therm → Therm) : (d.modTherm f).pool = d.pool := rfl
@[simp] theorem Dev.modTherm_chest (d : Dev) (f : Therm → Therm) : (d.modTherm f).chest = d.chest := rfl
@[simp] theorem Dev.modTherm_chestBad (d : Dev) (f : Therm → Therm) : (d.modTherm f).chestBad = d.chestBad := rfl
@[simp] theorem Dev.modTherm_vmValid (d : Dev) (f : Therm → Therm) : (d.modTherm f).vmValid = d.vmValid := rfl
@[simp] theorem Dev.modTherm_vmFill (d : Dev) (f : Therm → Therm) : (d.modTherm f).vmFill = d.vmFill := rfl
@[simp] theorem Dev.modTherm_memWaits (d : Dev) (f : Therm → Therm) : (d.modTherm f).memWaits = d.memWaits := rfl
@[simp] theorem Dev.modTherm_vmClr (d : Dev) (f : Therm → Therm) : (d.modTherm f).vmClr = d.vmClr := rfl
@[simp] theorem Dev.modTherm_recs (d : Dev) (f : Therm → Therm) : (d.modTherm f).recs = d.recs := rfl
@[simp] theorem Dev.modTherm_encSets (d : Dev) (f : Therm → Therm) : (d.modTherm f).encSets = d.encSets := rfl
@[simp] theorem Dev.modTherm_decSets (d : Dev) (f : Therm → Therm) : (d.modTherm f).decSets = d.decSets := rfl
@[simp] theorem Dev.modTherm_byteCnt (d : Dev) (f : Therm → Therm) : (d.modTherm f).byteCnt = d.byteCnt := rfl
@[simp] theorem Dev.modTherm_keep (d : Dev) (f : Therm → Therm) : (d.modTherm f).keep = d.keep := rfl
@[simp] theorem Dev.modTherm_boot (d : Dev) (f : Therm → Therm) : (d.modTherm f).boot = d.boot := rfl
@[simp] theorem Dev.modTherm_svnFuses (d : Dev) (f : Therm → Therm) : (d.modTherm f).svnFuses = d.svnFuses := rfl
@[simp] theorem Dev.modTherm_retire (d : Dev) (f : Therm → Therm) : (d.modTherm f).retire = d.retire := rfl
@[simp] theorem Dev.modTherm_retireLog (d : Dev) (f : Therm → Therm) : (d.modTherm f).retireLog = d.retireLog := rfl
@[simp] theorem Dev.modTherm_stws (d : Dev) (f : Therm → Therm) : (d.modTherm f).stws = d.stws := rfl
@[simp] theorem Dev.modTherm_endpts (d : Dev) (f : Therm → Therm) : (d.modTherm f).endpts = d.endpts := rfl
@[simp] theorem Dev.modTherm_tap (d : Dev) (f : Therm → Therm) : (d.modTherm f).tap = d.tap := rfl
@[simp] theorem Dev.modTherm_split (d : Dev) (f : Therm → Therm) : (d.modTherm f).split = d.split := rfl
@[simp] theorem Dev.modTherm_mgmtAddr (d : Dev) (f : Therm → Therm) : (d.modTherm f).mgmtAddr = d.mgmtAddr := rfl
@[simp] theorem Dev.modTherm_live (d : Dev) (f : Therm → Therm) : (d.modTherm f).live = d.live := rfl
@[simp] theorem Dev.modTherm_jobSeq (d : Dev) (f : Therm → Therm) : (d.modTherm f).jobSeq = d.jobSeq := rfl
@[simp] theorem Dev.modTherm_blkSeq (d : Dev) (f : Therm → Therm) : (d.modTherm f).blkSeq = d.blkSeq := rfl
@[simp] theorem Dev.modTherm_grants (d : Dev) (f : Therm → Therm) : (d.modTherm f).grants = d.grants := rfl
@[simp] theorem Dev.modTherm_felt (d : Dev) (f : Therm → Therm) : (d.modTherm f).felt = d.felt := rfl
@[simp] theorem Dev.modTherm_ub4 (d : Dev) (f : Therm → Therm) : (d.modTherm f).ub4 = d.ub4 := rfl
@[simp] theorem Dev.modTherm_modWaiting (d : Dev) (f : Therm → Therm) : (d.modTherm f).modWaiting = d.modWaiting := rfl
@[simp] theorem Dev.modKeep_now (d : Dev) (f : Keep → Keep) : (d.modKeep f).now = d.now := rfl
@[simp] theorem Dev.modKeep_crystal (d : Dev) (f : Keep → Keep) : (d.modKeep f).crystal = d.crystal := rfl
@[simp] theorem Dev.modKeep_free (d : Dev) (f : Keep → Keep) : (d.modKeep f).free = d.free := rfl
@[simp] theorem Dev.modKeep_regs (d : Dev) (f : Keep → Keep) : (d.modKeep f).regs = d.regs := rfl
@[simp] theorem Dev.modKeep_latches (d : Dev) (f : Keep → Keep) : (d.modKeep f).latches = d.latches := rfl
@[simp] theorem Dev.modKeep_out (d : Dev) (f : Keep → Keep) : (d.modKeep f).out = d.out := rfl
@[simp] theorem Dev.modKeep_spokes (d : Dev) (f : Keep → Keep) : (d.modKeep f).spokes = d.spokes := rfl
@[simp] theorem Dev.modKeep_streams (d : Dev) (f : Keep → Keep) : (d.modKeep f).streams = d.streams := rfl
@[simp] theorem Dev.modKeep_sqs (d : Dev) (f : Keep → Keep) : (d.modKeep f).sqs = d.sqs := rfl
@[simp] theorem Dev.modKeep_cqs (d : Dev) (f : Keep → Keep) : (d.modKeep f).cqs = d.cqs := rfl
@[simp] theorem Dev.modKeep_funcs (d : Dev) (f : Keep → Keep) : (d.modKeep f).funcs = d.funcs := rfl
@[simp] theorem Dev.modKeep_vecMasked (d : Dev) (f : Keep → Keep) : (d.modKeep f).vecMasked = d.vecMasked := rfl
@[simp] theorem Dev.modKeep_vecPending (d : Dev) (f : Keep → Keep) : (d.modKeep f).vecPending = d.vecPending := rfl
@[simp] theorem Dev.modKeep_pool (d : Dev) (f : Keep → Keep) : (d.modKeep f).pool = d.pool := rfl
@[simp] theorem Dev.modKeep_chest (d : Dev) (f : Keep → Keep) : (d.modKeep f).chest = d.chest := rfl
@[simp] theorem Dev.modKeep_chestBad (d : Dev) (f : Keep → Keep) : (d.modKeep f).chestBad = d.chestBad := rfl
@[simp] theorem Dev.modKeep_vmValid (d : Dev) (f : Keep → Keep) : (d.modKeep f).vmValid = d.vmValid := rfl
@[simp] theorem Dev.modKeep_vmFill (d : Dev) (f : Keep → Keep) : (d.modKeep f).vmFill = d.vmFill := rfl
@[simp] theorem Dev.modKeep_memWaits (d : Dev) (f : Keep → Keep) : (d.modKeep f).memWaits = d.memWaits := rfl
@[simp] theorem Dev.modKeep_vmClr (d : Dev) (f : Keep → Keep) : (d.modKeep f).vmClr = d.vmClr := rfl
@[simp] theorem Dev.modKeep_recs (d : Dev) (f : Keep → Keep) : (d.modKeep f).recs = d.recs := rfl
@[simp] theorem Dev.modKeep_encSets (d : Dev) (f : Keep → Keep) : (d.modKeep f).encSets = d.encSets := rfl
@[simp] theorem Dev.modKeep_decSets (d : Dev) (f : Keep → Keep) : (d.modKeep f).decSets = d.decSets := rfl
@[simp] theorem Dev.modKeep_byteCnt (d : Dev) (f : Keep → Keep) : (d.modKeep f).byteCnt = d.byteCnt := rfl
@[simp] theorem Dev.modKeep_boot (d : Dev) (f : Keep → Keep) : (d.modKeep f).boot = d.boot := rfl
@[simp] theorem Dev.modKeep_svnFuses (d : Dev) (f : Keep → Keep) : (d.modKeep f).svnFuses = d.svnFuses := rfl
@[simp] theorem Dev.modKeep_therm (d : Dev) (f : Keep → Keep) : (d.modKeep f).therm = d.therm := rfl
@[simp] theorem Dev.modKeep_retire (d : Dev) (f : Keep → Keep) : (d.modKeep f).retire = d.retire := rfl
@[simp] theorem Dev.modKeep_retireLog (d : Dev) (f : Keep → Keep) : (d.modKeep f).retireLog = d.retireLog := rfl
@[simp] theorem Dev.modKeep_stws (d : Dev) (f : Keep → Keep) : (d.modKeep f).stws = d.stws := rfl
@[simp] theorem Dev.modKeep_endpts (d : Dev) (f : Keep → Keep) : (d.modKeep f).endpts = d.endpts := rfl
@[simp] theorem Dev.modKeep_tap (d : Dev) (f : Keep → Keep) : (d.modKeep f).tap = d.tap := rfl
@[simp] theorem Dev.modKeep_split (d : Dev) (f : Keep → Keep) : (d.modKeep f).split = d.split := rfl
@[simp] theorem Dev.modKeep_mgmtAddr (d : Dev) (f : Keep → Keep) : (d.modKeep f).mgmtAddr = d.mgmtAddr := rfl
@[simp] theorem Dev.modKeep_live (d : Dev) (f : Keep → Keep) : (d.modKeep f).live = d.live := rfl
@[simp] theorem Dev.modKeep_jobSeq (d : Dev) (f : Keep → Keep) : (d.modKeep f).jobSeq = d.jobSeq := rfl
@[simp] theorem Dev.modKeep_blkSeq (d : Dev) (f : Keep → Keep) : (d.modKeep f).blkSeq = d.blkSeq := rfl
@[simp] theorem Dev.modKeep_grants (d : Dev) (f : Keep → Keep) : (d.modKeep f).grants = d.grants := rfl
@[simp] theorem Dev.modKeep_felt (d : Dev) (f : Keep → Keep) : (d.modKeep f).felt = d.felt := rfl
@[simp] theorem Dev.modKeep_ub4 (d : Dev) (f : Keep → Keep) : (d.modKeep f).ub4 = d.ub4 := rfl
@[simp] theorem Dev.modKeep_modWaiting (d : Dev) (f : Keep → Keep) : (d.modKeep f).modWaiting = d.modWaiting := rfl

/-! ### Register fields -/

theorem Dev.ev_eq (d : Dev) (pg : PageId) (f : Fld) : d.ev pg f = d.fset pg f 1 := rfl
theorem Dev.clr_eq (d : Dev) (pg : PageId) (f : Fld) : d.clr pg f = d.fset pg f 0 := rfl
theorem Dev.fput_eq (d : Dev) (pg : PageId) (f : Fld) (b : Bool) : d.fput pg f b = d.fset pg f (b2n b) := rfl
theorem Dev.bump_eq (d : Dev) (pg : PageId) (f : Fld) (k : Nat) :
    d.bump pg f k = d.fset pg f (satAdd (2 ^ f.w - 1) (d.fget pg f) k) := rfl
theorem Dev.unit_eq (d : Dev) (pg : PageId) : d.unit pg = d.bump pg Reg.HEADER.UNITS 1 := rfl
theorem Dev.modSp_eq (d : Dev) (n : Nat) (f : Spoke → Spoke) : d.modSp n f = d.setSp n (f (d.sp n)) := rfl

/-- A field reads as last written; every other field reads as before. -/
theorem Dev.fget_fset (d : Dev) (pg pg' : PageId) (f f' : Fld) (v : Nat) :
    (d.fset pg f v).fget pg' f' = if pg = pg' ∧ f.slot = f'.slot then v % 2 ^ f.w else d.fget pg' f' := by
  unfold Dev.fget Dev.fset Dev.page
  rw [mget_mset]
  by_cases hp : pg = pg'
  · subst hp
    rw [if_pos rfl, mget_mset]
    by_cases hs : f.slot = f'.slot <;> simp [hs]
  · simp [hp]

@[simp] theorem Dev.fget_fset_same (d : Dev) (pg : PageId) (f : Fld) (v : Nat) : (d.fset pg f v).fget pg f = v % 2 ^ f.w := by
  simp [Dev.fget_fset]

theorem Dev.fget_fset_page (d : Dev) {pg pg' : PageId} (f f' : Fld) (v : Nat) (h : pg ≠ pg') :
    (d.fset pg f v).fget pg' f' = d.fget pg' f' := by simp [Dev.fget_fset, h]

theorem Dev.fget_fset_slot (d : Dev) (pg pg' : PageId) {f f' : Fld} (v : Nat) (h : f.slot ≠ f'.slot) :
    (d.fset pg f v).fget pg' f' = d.fget pg' f' := by simp [Dev.fget_fset, h]

/-- A page back at reset reads its reset values. -/
theorem Dev.fget_resetPage (d : Dev) (pg pg' : PageId) (f : Fld) :
    (d.resetPage pg).fget pg' f = if pg = pg' then fldReset pg' f.slot else d.fget pg' f := by
  unfold Dev.fget Dev.resetPage Dev.page
  rw [mget_mdel]
  by_cases h : pg = pg' <;> simp [h, mget]

@[simp] theorem Dev.fget_setSp (d : Dev) (n : Nat) (x : Spoke) (pg : PageId) (f : Fld) : (d.setSp n x).fget pg f = d.fget pg f := rfl
@[simp] theorem Dev.fget_modSp (d : Dev) (n : Nat) (g : Spoke → Spoke) (pg : PageId) (f : Fld) : (d.modSp n g).fget pg f = d.fget pg f := rfl
@[simp] theorem Dev.fget_emit (d : Dev) (o : Out) (pg : PageId) (f : Fld) : (d.emit o).fget pg f = d.fget pg f := rfl
@[simp] theorem Dev.fget_nextFree (d : Dev) (pg : PageId) (f : Fld) : d.nextFree.fget pg f = d.fget pg f := rfl
@[simp] theorem Dev.fget_latch (d : Dev) (k a v : Nat) (pg : PageId) (f : Fld) : (d.latch k a v).fget pg f = d.fget pg f := rfl
@[simp] theorem Dev.fget_modTherm (d : Dev) (g : Therm → Therm) (pg : PageId) (f : Fld) : (d.modTherm g).fget pg f = d.fget pg f := rfl
@[simp] theorem Dev.fget_modKeep (d : Dev) (g : Keep → Keep) (pg : PageId) (f : Fld) : (d.modKeep g).fget pg f = d.fget pg f := rfl
@[simp] theorem Dev.fget_chestPut (d : Dev) (a : Nat) (bs : List Byte) (pg : PageId) (f : Fld) : (d.chestPut a bs).fget pg f = d.fget pg f := rfl

/-! ### Spokes, latches -/

theorem Dev.sp_setSp (d : Dev) (n m : Nat) (x : Spoke) : (d.setSp n x).sp m = if n = m then x else d.sp m := by
  unfold Dev.sp Dev.setSp; exact mget_mset _ _ _ _ _

@[simp] theorem Dev.sp_setSp_same (d : Dev) (n : Nat) (x : Spoke) : (d.setSp n x).sp n = x := by simp [Dev.sp_setSp]

theorem Dev.sp_modSp (d : Dev) (n m : Nat) (f : Spoke → Spoke) : (d.modSp n f).sp m = if n = m then f (d.sp n) else d.sp m :=
  Dev.sp_setSp d n m _

@[simp] theorem Dev.sp_modSp_same (d : Dev) (n : Nat) (f : Spoke → Spoke) : (d.modSp n f).sp n = f (d.sp n) := by simp [Dev.sp_modSp]

@[simp] theorem Dev.sp_fset (d : Dev) (pg : PageId) (f : Fld) (v n : Nat) : (d.fset pg f v).sp n = d.sp n := rfl
@[simp] theorem Dev.sp_emit (d : Dev) (o : Out) (n : Nat) : (d.emit o).sp n = d.sp n := rfl

theorem Dev.latched_latch (d : Dev) (k a v k' a' : Nat) :
    (d.latch k a v).latched k' a' = if k = k' ∧ a = a' then v else d.latched k' a' := by
  unfold Dev.latched Dev.latch
  rw [mget_mmod]
  by_cases hk : k = k'
  · subst hk
    rw [if_pos rfl, mget_mset]
    by_cases ha : a = a' <;> simp [ha]
  · simp [hk]

/-! ### Chains and gate FIFOs -/

theorem ChainId.key_inj (a b : ChainId) (h : a.key = b.key) : a = b := by
  cases a <;> cases b <;> simp only [ChainId.key] at h <;> grind

theorem GateId.key_inj (a b : GateId) (h : a.key = b.key) : a = b := by
  cases a <;> cases b <;> simp only [GateId.key] at h <;> grind

theorem State.chain_setChain (s : State) (a b : ChainId) (x : Chain) :
    (s.setChain a x).chain b = if a.key = b.key then x else s.chain b := by
  unfold State.chain State.setChain; exact mget_mset _ _ _ _ _

@[simp] theorem State.chain_setChain_same (s : State) (a : ChainId) (x : Chain) : (s.setChain a x).chain a = x := by
  simp [State.chain_setChain]

@[simp] theorem State.chain_modDev (s : State) (f : Dev → Dev) (c : ChainId) : (s.modDev f).chain c = s.chain c := rfl
@[simp] theorem State.gate_modDev (s : State) (f : Dev → Dev) (g : GateId) : (s.modDev f).gate g = s.gate g := rfl
@[simp] theorem State.gate_setChain (s : State) (c : ChainId) (x : Chain) (g : GateId) : (s.setChain c x).gate g = s.gate g := rfl
@[simp] theorem State.chain_setGate (s : State) (g : GateId) (x : Gate) (c : ChainId) : (s.setGate g x).chain c = s.chain c := rfl
@[simp] theorem State.setChain_setChain (s : State) (c : ChainId) (x y : Chain) : (s.setChain c x).setChain c y = s.setChain c y := by
  simp [State.setChain]
@[simp] theorem State.setGate_setGate (s : State) (g : GateId) (x y : Gate) : (s.setGate g x).setGate g y = s.setGate g y := by
  simp [State.setGate]

theorem State.gate_setGate (s : State) (a b : GateId) (x : Gate) :
    (s.setGate a x).gate b = if a.key = b.key then x else s.gate b := by
  unfold State.gate State.setGate; exact mget_mset _ _ _ _ _

@[simp] theorem State.gate_setGate_same (s : State) (a : GateId) (x : Gate) : (s.setGate a x).gate a = x := by
  simp [State.gate_setGate]

/-! ### What is held per number: rings, functions, endpoints, stewards, streams, slots -/

theorem Dev.sq_modSq (d : Dev) (n m : Nat) (g : Sq → Sq) : (d.modSq n g).sq m = if n = m then g (d.sq n) else d.sq m := by
  unfold Dev.sq Dev.modSq; simp only [mget_mmod]
@[simp] theorem Dev.sq_modSq_same (d : Dev) (n : Nat) (g : Sq → Sq) : (d.modSq n g).sq n = g (d.sq n) := by simp [Dev.sq_modSq]
theorem Dev.cq_modCq (d : Dev) (n m : Nat) (g : Cq → Cq) : (d.modCq n g).cq m = if n = m then g (d.cq n) else d.cq m := by
  unfold Dev.cq Dev.modCq; simp only [mget_mmod]
@[simp] theorem Dev.cq_modCq_same (d : Dev) (n : Nat) (g : Cq → Cq) : (d.modCq n g).cq n = g (d.cq n) := by simp [Dev.cq_modCq]
theorem Dev.func_modFunc (d : Dev) (n m : Nat) (g : Func → Func) : (d.modFunc n g).func m = if n = m then g (d.func n) else d.func m := by
  unfold Dev.func Dev.modFunc; simp only [mget_mmod]
@[simp] theorem Dev.func_modFunc_same (d : Dev) (n : Nat) (g : Func → Func) : (d.modFunc n g).func n = g (d.func n) := by simp [Dev.func_modFunc]
theorem Dev.ep_modEp (d : Dev) (n m : Nat) (g : Endpt → Endpt) : (d.modEp n g).ep m = if n = m then g (d.ep n) else d.ep m := by
  unfold Dev.ep Dev.modEp; simp only [mget_mmod]
@[simp] theorem Dev.ep_modEp_same (d : Dev) (n : Nat) (g : Endpt → Endpt) : (d.modEp n g).ep n = g (d.ep n) := by simp [Dev.ep_modEp]
theorem Dev.stw_modStw (d : Dev) (n m : Nat) (g : Stw → Stw) : (d.modStw n g).stw m = if n = m then g (d.stw n) else d.stw m := by
  unfold Dev.stw Dev.modStw; simp only [mget_mmod]
@[simp] theorem Dev.stw_modStw_same (d : Dev) (n : Nat) (g : Stw → Stw) : (d.modStw n g).stw n = g (d.stw n) := by simp [Dev.stw_modStw]
theorem Dev.stream_modStream (d : Dev) (n m : Nat) (g : Stream → Stream) : (d.modStream n g).stream m = if n = m then g (d.stream n) else d.stream m := by
  unfold Dev.stream Dev.modStream; simp only [mget_mmod]
@[simp] theorem Dev.stream_modStream_same (d : Dev) (n : Nat) (g : Stream → Stream) : (d.modStream n g).stream n = g (d.stream n) := by simp [Dev.stream_modStream]
theorem Dev.slot_modSlot (d : Dev) (n m : Nat) (g : KeySlot → KeySlot) : (d.modSlot n g).slot m = if n = m then g (d.slot n) else d.slot m := by
  unfold Dev.slot Dev.modSlot Dev.modKeep; simp only [mget_mmod]
@[simp] theorem Dev.slot_modSlot_same (d : Dev) (n : Nat) (g : KeySlot → KeySlot) : (d.modSlot n g).slot n = g (d.slot n) := by
  simp [Dev.slot_modSlot]

/-! ### What reads as before -/

@[simp] theorem Dev.sp_modSq (d : Dev) (q : Nat) (g : Sq → Sq) (i : Nat) : (d.modSq q g).sp i = d.sp i := rfl
@[simp] theorem Dev.sp_modCq (d : Dev) (q : Nat) (g : Cq → Cq) (i : Nat) : (d.modCq q g).sp i = d.sp i := rfl
@[simp] theorem Dev.sp_modFunc (d : Dev) (n : Nat) (g : Func → Func) (i : Nat) : (d.modFunc n g).sp i = d.sp i := rfl
@[simp] theorem Dev.sp_modEp (d : Dev) (n : Nat) (g : Endpt → Endpt) (i : Nat) : (d.modEp n g).sp i = d.sp i := rfl
@[simp] theorem Dev.sp_modStw (d : Dev) (n : Nat) (g : Stw → Stw) (i : Nat) : (d.modStw n g).sp i = d.sp i := rfl
@[simp] theorem Dev.sp_modStream (d : Dev) (n : Nat) (g : Stream → Stream) (i : Nat) : (d.modStream n g).sp i = d.sp i := rfl
@[simp] theorem Dev.sp_modSlot (d : Dev) (n : Nat) (g : KeySlot → KeySlot) (i : Nat) : (d.modSlot n g).sp i = d.sp i := rfl
@[simp] theorem Dev.sp_modTherm (d : Dev) (g : Therm → Therm) (i : Nat) : (d.modTherm g).sp i = d.sp i := rfl
@[simp] theorem Dev.sp_modKeep (d : Dev) (g : Keep → Keep) (i : Nat) : (d.modKeep g).sp i = d.sp i := rfl
@[simp] theorem Dev.sp_modBoot (d : Dev) (g : Boot → Boot) (i : Nat) : (d.modBoot g).sp i = d.sp i := rfl
@[simp] theorem Dev.sp_nextFree (d : Dev) (i : Nat) : d.nextFree.sp i = d.sp i := rfl
@[simp] theorem Dev.sq_fset (d : Dev) (pg : PageId) (f : Fld) (v : Nat) (i : Nat) : (d.fset pg f v).sq i = d.sq i := rfl
@[simp] theorem Dev.sq_emit (d : Dev) (o : Out) (i : Nat) : (d.emit o).sq i = d.sq i := rfl
@[simp] theorem Dev.sq_modSp (d : Dev) (n : Nat) (g : Spoke → Spoke) (i : Nat) : (d.modSp n g).sq i = d.sq i := rfl
@[simp] theorem Dev.sq_modCq (d : Dev) (q : Nat) (g : Cq → Cq) (i : Nat) : (d.modCq q g).sq i = d.sq i := rfl
@[simp] theorem Dev.sq_modFunc (d : Dev) (n : Nat) (g : Func → Func) (i : Nat) : (d.modFunc n g).sq i = d.sq i := rfl
@[simp] theorem Dev.sq_modEp (d : Dev) (n : Nat) (g : Endpt → Endpt) (i : Nat) : (d.modEp n g).sq i = d.sq i := rfl
@[simp] theorem Dev.sq_modStw (d : Dev) (n : Nat) (g : Stw → Stw) (i : Nat) : (d.modStw n g).sq i = d.sq i := rfl
@[simp] theorem Dev.sq_modStream (d : Dev) (n : Nat) (g : Stream → Stream) (i : Nat) : (d.modStream n g).sq i = d.sq i := rfl
@[simp] theorem Dev.sq_modSlot (d : Dev) (n : Nat) (g : KeySlot → KeySlot) (i : Nat) : (d.modSlot n g).sq i = d.sq i := rfl
@[simp] theorem Dev.sq_modTherm (d : Dev) (g : Therm → Therm) (i : Nat) : (d.modTherm g).sq i = d.sq i := rfl
@[simp] theorem Dev.sq_modKeep (d : Dev) (g : Keep → Keep) (i : Nat) : (d.modKeep g).sq i = d.sq i := rfl
@[simp] theorem Dev.sq_modBoot (d : Dev) (g : Boot → Boot) (i : Nat) : (d.modBoot g).sq i = d.sq i := rfl
@[simp] theorem Dev.sq_nextFree (d : Dev) (i : Nat) : d.nextFree.sq i = d.sq i := rfl
@[simp] theorem Dev.cq_fset (d : Dev) (pg : PageId) (f : Fld) (v : Nat) (i : Nat) : (d.fset pg f v).cq i = d.cq i := rfl
@[simp] theorem Dev.cq_emit (d : Dev) (o : Out) (i : Nat) : (d.emit o).cq i = d.cq i := rfl
@[simp] theorem Dev.cq_modSp (d : Dev) (n : Nat) (g : Spoke → Spoke) (i : Nat) : (d.modSp n g).cq i = d.cq i := rfl
@[simp] theorem Dev.cq_modSq (d : Dev) (q : Nat) (g : Sq → Sq) (i : Nat) : (d.modSq q g).cq i = d.cq i := rfl
@[simp] theorem Dev.cq_modFunc (d : Dev) (n : Nat) (g : Func → Func) (i : Nat) : (d.modFunc n g).cq i = d.cq i := rfl
@[simp] theorem Dev.cq_modEp (d : Dev) (n : Nat) (g : Endpt → Endpt) (i : Nat) : (d.modEp n g).cq i = d.cq i := rfl
@[simp] theorem Dev.cq_modStw (d : Dev) (n : Nat) (g : Stw → Stw) (i : Nat) : (d.modStw n g).cq i = d.cq i := rfl
@[simp] theorem Dev.cq_modStream (d : Dev) (n : Nat) (g : Stream → Stream) (i : Nat) : (d.modStream n g).cq i = d.cq i := rfl
@[simp] theorem Dev.cq_modSlot (d : Dev) (n : Nat) (g : KeySlot → KeySlot) (i : Nat) : (d.modSlot n g).cq i = d.cq i := rfl
@[simp] theorem Dev.cq_modTherm (d : Dev) (g : Therm → Therm) (i : Nat) : (d.modTherm g).cq i = d.cq i := rfl
@[simp] theorem Dev.cq_modKeep (d : Dev) (g : Keep → Keep) (i : Nat) : (d.modKeep g).cq i = d.cq i := rfl
@[simp] theorem Dev.cq_modBoot (d : Dev) (g : Boot → Boot) (i : Nat) : (d.modBoot g).cq i = d.cq i := rfl
@[simp] theorem Dev.cq_nextFree (d : Dev) (i : Nat) : d.nextFree.cq i = d.cq i := rfl
@[simp] theorem Dev.func_fset (d : Dev) (pg : PageId) (f : Fld) (v : Nat) (i : Nat) : (d.fset pg f v).func i = d.func i := rfl
@[simp] theorem Dev.func_emit (d : Dev) (o : Out) (i : Nat) : (d.emit o).func i = d.func i := rfl
@[simp] theorem Dev.func_modSp (d : Dev) (n : Nat) (g : Spoke → Spoke) (i : Nat) : (d.modSp n g).func i = d.func i := rfl
@[simp] theorem Dev.func_modSq (d : Dev) (q : Nat) (g : Sq → Sq) (i : Nat) : (d.modSq q g).func i = d.func i := rfl
@[simp] theorem Dev.func_modCq (d : Dev) (q : Nat) (g : Cq → Cq) (i : Nat) : (d.modCq q g).func i = d.func i := rfl
@[simp] theorem Dev.func_modEp (d : Dev) (n : Nat) (g : Endpt → Endpt) (i : Nat) : (d.modEp n g).func i = d.func i := rfl
@[simp] theorem Dev.func_modStw (d : Dev) (n : Nat) (g : Stw → Stw) (i : Nat) : (d.modStw n g).func i = d.func i := rfl
@[simp] theorem Dev.func_modStream (d : Dev) (n : Nat) (g : Stream → Stream) (i : Nat) : (d.modStream n g).func i = d.func i := rfl
@[simp] theorem Dev.func_modSlot (d : Dev) (n : Nat) (g : KeySlot → KeySlot) (i : Nat) : (d.modSlot n g).func i = d.func i := rfl
@[simp] theorem Dev.func_modTherm (d : Dev) (g : Therm → Therm) (i : Nat) : (d.modTherm g).func i = d.func i := rfl
@[simp] theorem Dev.func_modKeep (d : Dev) (g : Keep → Keep) (i : Nat) : (d.modKeep g).func i = d.func i := rfl
@[simp] theorem Dev.func_modBoot (d : Dev) (g : Boot → Boot) (i : Nat) : (d.modBoot g).func i = d.func i := rfl
@[simp] theorem Dev.func_nextFree (d : Dev) (i : Nat) : d.nextFree.func i = d.func i := rfl
@[simp] theorem Dev.ep_fset (d : Dev) (pg : PageId) (f : Fld) (v : Nat) (i : Nat) : (d.fset pg f v).ep i = d.ep i := rfl
@[simp] theorem Dev.ep_emit (d : Dev) (o : Out) (i : Nat) : (d.emit o).ep i = d.ep i := rfl
@[simp] theorem Dev.ep_modSp (d : Dev) (n : Nat) (g : Spoke → Spoke) (i : Nat) : (d.modSp n g).ep i = d.ep i := rfl
@[simp] theorem Dev.ep_modSq (d : Dev) (q : Nat) (g : Sq → Sq) (i : Nat) : (d.modSq q g).ep i = d.ep i := rfl
@[simp] theorem Dev.ep_modCq (d : Dev) (q : Nat) (g : Cq → Cq) (i : Nat) : (d.modCq q g).ep i = d.ep i := rfl
@[simp] theorem Dev.ep_modFunc (d : Dev) (n : Nat) (g : Func → Func) (i : Nat) : (d.modFunc n g).ep i = d.ep i := rfl
@[simp] theorem Dev.ep_modStw (d : Dev) (n : Nat) (g : Stw → Stw) (i : Nat) : (d.modStw n g).ep i = d.ep i := rfl
@[simp] theorem Dev.ep_modStream (d : Dev) (n : Nat) (g : Stream → Stream) (i : Nat) : (d.modStream n g).ep i = d.ep i := rfl
@[simp] theorem Dev.ep_modSlot (d : Dev) (n : Nat) (g : KeySlot → KeySlot) (i : Nat) : (d.modSlot n g).ep i = d.ep i := rfl
@[simp] theorem Dev.ep_modTherm (d : Dev) (g : Therm → Therm) (i : Nat) : (d.modTherm g).ep i = d.ep i := rfl
@[simp] theorem Dev.ep_modKeep (d : Dev) (g : Keep → Keep) (i : Nat) : (d.modKeep g).ep i = d.ep i := rfl
@[simp] theorem Dev.ep_modBoot (d : Dev) (g : Boot → Boot) (i : Nat) : (d.modBoot g).ep i = d.ep i := rfl
@[simp] theorem Dev.ep_nextFree (d : Dev) (i : Nat) : d.nextFree.ep i = d.ep i := rfl
@[simp] theorem Dev.stw_fset (d : Dev) (pg : PageId) (f : Fld) (v : Nat) (i : Nat) : (d.fset pg f v).stw i = d.stw i := rfl
@[simp] theorem Dev.stw_emit (d : Dev) (o : Out) (i : Nat) : (d.emit o).stw i = d.stw i := rfl
@[simp] theorem Dev.stw_modSp (d : Dev) (n : Nat) (g : Spoke → Spoke) (i : Nat) : (d.modSp n g).stw i = d.stw i := rfl
@[simp] theorem Dev.stw_modSq (d : Dev) (q : Nat) (g : Sq → Sq) (i : Nat) : (d.modSq q g).stw i = d.stw i := rfl
@[simp] theorem Dev.stw_modCq (d : Dev) (q : Nat) (g : Cq → Cq) (i : Nat) : (d.modCq q g).stw i = d.stw i := rfl
@[simp] theorem Dev.stw_modFunc (d : Dev) (n : Nat) (g : Func → Func) (i : Nat) : (d.modFunc n g).stw i = d.stw i := rfl
@[simp] theorem Dev.stw_modEp (d : Dev) (n : Nat) (g : Endpt → Endpt) (i : Nat) : (d.modEp n g).stw i = d.stw i := rfl
@[simp] theorem Dev.stw_modStream (d : Dev) (n : Nat) (g : Stream → Stream) (i : Nat) : (d.modStream n g).stw i = d.stw i := rfl
@[simp] theorem Dev.stw_modSlot (d : Dev) (n : Nat) (g : KeySlot → KeySlot) (i : Nat) : (d.modSlot n g).stw i = d.stw i := rfl
@[simp] theorem Dev.stw_modTherm (d : Dev) (g : Therm → Therm) (i : Nat) : (d.modTherm g).stw i = d.stw i := rfl
@[simp] theorem Dev.stw_modKeep (d : Dev) (g : Keep → Keep) (i : Nat) : (d.modKeep g).stw i = d.stw i := rfl
@[simp] theorem Dev.stw_modBoot (d : Dev) (g : Boot → Boot) (i : Nat) : (d.modBoot g).stw i = d.stw i := rfl
@[simp] theorem Dev.stw_nextFree (d : Dev) (i : Nat) : d.nextFree.stw i = d.stw i := rfl
@[simp] theorem Dev.stream_fset (d : Dev) (pg : PageId) (f : Fld) (v : Nat) (i : Nat) : (d.fset pg f v).stream i = d.stream i := rfl
@[simp] theorem Dev.stream_emit (d : Dev) (o : Out) (i : Nat) : (d.emit o).stream i = d.stream i := rfl
@[simp] theorem Dev.stream_modSp (d : Dev) (n : Nat) (g : Spoke → Spoke) (i : Nat) : (d.modSp n g).stream i = d.stream i := rfl
@[simp] theorem Dev.stream_modSq (d : Dev) (q : Nat) (g : Sq → Sq) (i : Nat) : (d.modSq q g).stream i = d.stream i := rfl
@[simp] theorem Dev.stream_modCq (d : Dev) (q : Nat) (g : Cq → Cq) (i : Nat) : (d.modCq q g).stream i = d.stream i := rfl
@[simp] theorem Dev.stream_modFunc (d : Dev) (n : Nat) (g : Func → Func) (i : Nat) : (d.modFunc n g).stream i = d.stream i := rfl
@[simp] theorem Dev.stream_modEp (d : Dev) (n : Nat) (g : Endpt → Endpt) (i : Nat) : (d.modEp n g).stream i = d.stream i := rfl
@[simp] theorem Dev.stream_modStw (d : Dev) (n : Nat) (g : Stw → Stw) (i : Nat) : (d.modStw n g).stream i = d.stream i := rfl
@[simp] theorem Dev.stream_modSlot (d : Dev) (n : Nat) (g : KeySlot → KeySlot) (i : Nat) : (d.modSlot n g).stream i = d.stream i := rfl
@[simp] theorem Dev.stream_modTherm (d : Dev) (g : Therm → Therm) (i : Nat) : (d.modTherm g).stream i = d.stream i := rfl
@[simp] theorem Dev.stream_modKeep (d : Dev) (g : Keep → Keep) (i : Nat) : (d.modKeep g).stream i = d.stream i := rfl
@[simp] theorem Dev.stream_modBoot (d : Dev) (g : Boot → Boot) (i : Nat) : (d.modBoot g).stream i = d.stream i := rfl
@[simp] theorem Dev.stream_nextFree (d : Dev) (i : Nat) : d.nextFree.stream i = d.stream i := rfl
@[simp] theorem Dev.slot_fset (d : Dev) (pg : PageId) (f : Fld) (v : Nat) (i : Nat) : (d.fset pg f v).slot i = d.slot i := rfl
@[simp] theorem Dev.slot_emit (d : Dev) (o : Out) (i : Nat) : (d.emit o).slot i = d.slot i := rfl
@[simp] theorem Dev.slot_modSp (d : Dev) (n : Nat) (g : Spoke → Spoke) (i : Nat) : (d.modSp n g).slot i = d.slot i := rfl
@[simp] theorem Dev.slot_modSq (d : Dev) (q : Nat) (g : Sq → Sq) (i : Nat) : (d.modSq q g).slot i = d.slot i := rfl
@[simp] theorem Dev.slot_modCq (d : Dev) (q : Nat) (g : Cq → Cq) (i : Nat) : (d.modCq q g).slot i = d.slot i := rfl
@[simp] theorem Dev.slot_modFunc (d : Dev) (n : Nat) (g : Func → Func) (i : Nat) : (d.modFunc n g).slot i = d.slot i := rfl
@[simp] theorem Dev.slot_modEp (d : Dev) (n : Nat) (g : Endpt → Endpt) (i : Nat) : (d.modEp n g).slot i = d.slot i := rfl
@[simp] theorem Dev.slot_modStw (d : Dev) (n : Nat) (g : Stw → Stw) (i : Nat) : (d.modStw n g).slot i = d.slot i := rfl
@[simp] theorem Dev.slot_modStream (d : Dev) (n : Nat) (g : Stream → Stream) (i : Nat) : (d.modStream n g).slot i = d.slot i := rfl
@[simp] theorem Dev.slot_modTherm (d : Dev) (g : Therm → Therm) (i : Nat) : (d.modTherm g).slot i = d.slot i := rfl
@[simp] theorem Dev.slot_modBoot (d : Dev) (g : Boot → Boot) (i : Nat) : (d.modBoot g).slot i = d.slot i := rfl
@[simp] theorem Dev.slot_nextFree (d : Dev) (i : Nat) : d.nextFree.slot i = d.slot i := rfl
@[simp] theorem Dev.sens_fset (d : Dev) (pg : PageId) (f : Fld) (v : Nat) (i : Nat) : (d.fset pg f v).sens i = d.sens i := rfl
@[simp] theorem Dev.sens_emit (d : Dev) (o : Out) (i : Nat) : (d.emit o).sens i = d.sens i := rfl
@[simp] theorem Dev.sens_modSp (d : Dev) (n : Nat) (g : Spoke → Spoke) (i : Nat) : (d.modSp n g).sens i = d.sens i := rfl
@[simp] theorem Dev.sens_modSq (d : Dev) (q : Nat) (g : Sq → Sq) (i : Nat) : (d.modSq q g).sens i = d.sens i := rfl
@[simp] theorem Dev.sens_modCq (d : Dev) (q : Nat) (g : Cq → Cq) (i : Nat) : (d.modCq q g).sens i = d.sens i := rfl
@[simp] theorem Dev.sens_modFunc (d : Dev) (n : Nat) (g : Func → Func) (i : Nat) : (d.modFunc n g).sens i = d.sens i := rfl
@[simp] theorem Dev.sens_modEp (d : Dev) (n : Nat) (g : Endpt → Endpt) (i : Nat) : (d.modEp n g).sens i = d.sens i := rfl
@[simp] theorem Dev.sens_modStw (d : Dev) (n : Nat) (g : Stw → Stw) (i : Nat) : (d.modStw n g).sens i = d.sens i := rfl
@[simp] theorem Dev.sens_modStream (d : Dev) (n : Nat) (g : Stream → Stream) (i : Nat) : (d.modStream n g).sens i = d.sens i := rfl
@[simp] theorem Dev.sens_modSlot (d : Dev) (n : Nat) (g : KeySlot → KeySlot) (i : Nat) : (d.modSlot n g).sens i = d.sens i := rfl
@[simp] theorem Dev.sens_modKeep (d : Dev) (g : Keep → Keep) (i : Nat) : (d.modKeep g).sens i = d.sens i := rfl
@[simp] theorem Dev.sens_modBoot (d : Dev) (g : Boot → Boot) (i : Nat) : (d.modBoot g).sens i = d.sens i := rfl
@[simp] theorem Dev.sens_nextFree (d : Dev) (i : Nat) : d.nextFree.sens i = d.sens i := rfl
@[simp] theorem Dev.dramOf_fset (d : Dev) (pg : PageId) (f : Fld) (v : Nat) (i : Nat) : (d.fset pg f v).dramOf i = d.dramOf i := rfl
@[simp] theorem Dev.dramOf_emit (d : Dev) (o : Out) (i : Nat) : (d.emit o).dramOf i = d.dramOf i := rfl
@[simp] theorem Dev.dramOf_modSp (d : Dev) (n : Nat) (g : Spoke → Spoke) (i : Nat) : (d.modSp n g).dramOf i = d.dramOf i := rfl
@[simp] theorem Dev.dramOf_modSq (d : Dev) (q : Nat) (g : Sq → Sq) (i : Nat) : (d.modSq q g).dramOf i = d.dramOf i := rfl
@[simp] theorem Dev.dramOf_modCq (d : Dev) (q : Nat) (g : Cq → Cq) (i : Nat) : (d.modCq q g).dramOf i = d.dramOf i := rfl
@[simp] theorem Dev.dramOf_modFunc (d : Dev) (n : Nat) (g : Func → Func) (i : Nat) : (d.modFunc n g).dramOf i = d.dramOf i := rfl
@[simp] theorem Dev.dramOf_modEp (d : Dev) (n : Nat) (g : Endpt → Endpt) (i : Nat) : (d.modEp n g).dramOf i = d.dramOf i := rfl
@[simp] theorem Dev.dramOf_modStw (d : Dev) (n : Nat) (g : Stw → Stw) (i : Nat) : (d.modStw n g).dramOf i = d.dramOf i := rfl
@[simp] theorem Dev.dramOf_modStream (d : Dev) (n : Nat) (g : Stream → Stream) (i : Nat) : (d.modStream n g).dramOf i = d.dramOf i := rfl
@[simp] theorem Dev.dramOf_modSlot (d : Dev) (n : Nat) (g : KeySlot → KeySlot) (i : Nat) : (d.modSlot n g).dramOf i = d.dramOf i := rfl
@[simp] theorem Dev.dramOf_modKeep (d : Dev) (g : Keep → Keep) (i : Nat) : (d.modKeep g).dramOf i = d.dramOf i := rfl
@[simp] theorem Dev.dramOf_modBoot (d : Dev) (g : Boot → Boot) (i : Nat) : (d.modBoot g).dramOf i = d.dramOf i := rfl
@[simp] theorem Dev.dramOf_nextFree (d : Dev) (i : Nat) : d.nextFree.dramOf i = d.dramOf i := rfl
@[simp] theorem Dev.chestByte_fset (d : Dev) (pg : PageId) (f : Fld) (v : Nat) (i : Nat) : (d.fset pg f v).chestByte i = d.chestByte i := rfl
@[simp] theorem Dev.chestByte_emit (d : Dev) (o : Out) (i : Nat) : (d.emit o).chestByte i = d.chestByte i := rfl
@[simp] theorem Dev.chestByte_modSp (d : Dev) (n : Nat) (g : Spoke → Spoke) (i : Nat) : (d.modSp n g).chestByte i = d.chestByte i := rfl
@[simp] theorem Dev.chestByte_modSq (d : Dev) (q : Nat) (g : Sq → Sq) (i : Nat) : (d.modSq q g).chestByte i = d.chestByte i := rfl
@[simp] theorem Dev.chestByte_modCq (d : Dev) (q : Nat) (g : Cq → Cq) (i : Nat) : (d.modCq q g).chestByte i = d.chestByte i := rfl
@[simp] theorem Dev.chestByte_modFunc (d : Dev) (n : Nat) (g : Func → Func) (i : Nat) : (d.modFunc n g).chestByte i = d.chestByte i := rfl
@[simp] theorem Dev.chestByte_modEp (d : Dev) (n : Nat) (g : Endpt → Endpt) (i : Nat) : (d.modEp n g).chestByte i = d.chestByte i := rfl
@[simp] theorem Dev.chestByte_modStw (d : Dev) (n : Nat) (g : Stw → Stw) (i : Nat) : (d.modStw n g).chestByte i = d.chestByte i := rfl
@[simp] theorem Dev.chestByte_modStream (d : Dev) (n : Nat) (g : Stream → Stream) (i : Nat) : (d.modStream n g).chestByte i = d.chestByte i := rfl
@[simp] theorem Dev.chestByte_modSlot (d : Dev) (n : Nat) (g : KeySlot → KeySlot) (i : Nat) : (d.modSlot n g).chestByte i = d.chestByte i := rfl
@[simp] theorem Dev.chestByte_modTherm (d : Dev) (g : Therm → Therm) (i : Nat) : (d.modTherm g).chestByte i = d.chestByte i := rfl
@[simp] theorem Dev.chestByte_modKeep (d : Dev) (g : Keep → Keep) (i : Nat) : (d.modKeep g).chestByte i = d.chestByte i := rfl
@[simp] theorem Dev.chestByte_modBoot (d : Dev) (g : Boot → Boot) (i : Nat) : (d.modBoot g).chestByte i = d.chestByte i := rfl
@[simp] theorem Dev.chestByte_nextFree (d : Dev) (i : Nat) : d.nextFree.chestByte i = d.chestByte i := rfl
@[simp] theorem Dev.pageValid_fset (d : Dev) (pg : PageId) (f : Fld) (v : Nat) (i : Nat) : (d.fset pg f v).pageValid i = d.pageValid i := rfl
@[simp] theorem Dev.pageValid_emit (d : Dev) (o : Out) (i : Nat) : (d.emit o).pageValid i = d.pageValid i := rfl
@[simp] theorem Dev.pageValid_modSp (d : Dev) (n : Nat) (g : Spoke → Spoke) (i : Nat) : (d.modSp n g).pageValid i = d.pageValid i := rfl
@[simp] theorem Dev.pageValid_modSq (d : Dev) (q : Nat) (g : Sq → Sq) (i : Nat) : (d.modSq q g).pageValid i = d.pageValid i := rfl
@[simp] theorem Dev.pageValid_modCq (d : Dev) (q : Nat) (g : Cq → Cq) (i : Nat) : (d.modCq q g).pageValid i = d.pageValid i := rfl
@[simp] theorem Dev.pageValid_modFunc (d : Dev) (n : Nat) (g : Func → Func) (i : Nat) : (d.modFunc n g).pageValid i = d.pageValid i := rfl
@[simp] theorem Dev.pageValid_modEp (d : Dev) (n : Nat) (g : Endpt → Endpt) (i : Nat) : (d.modEp n g).pageValid i = d.pageValid i := rfl
@[simp] theorem Dev.pageValid_modStw (d : Dev) (n : Nat) (g : Stw → Stw) (i : Nat) : (d.modStw n g).pageValid i = d.pageValid i := rfl
@[simp] theorem Dev.pageValid_modStream (d : Dev) (n : Nat) (g : Stream → Stream) (i : Nat) : (d.modStream n g).pageValid i = d.pageValid i := rfl
@[simp] theorem Dev.pageValid_modSlot (d : Dev) (n : Nat) (g : KeySlot → KeySlot) (i : Nat) : (d.modSlot n g).pageValid i = d.pageValid i := rfl
@[simp] theorem Dev.pageValid_modTherm (d : Dev) (g : Therm → Therm) (i : Nat) : (d.modTherm g).pageValid i = d.pageValid i := rfl
@[simp] theorem Dev.pageValid_modKeep (d : Dev) (g : Keep → Keep) (i : Nat) : (d.modKeep g).pageValid i = d.pageValid i := rfl
@[simp] theorem Dev.pageValid_modBoot (d : Dev) (g : Boot → Boot) (i : Nat) : (d.modBoot g).pageValid i = d.pageValid i := rfl
@[simp] theorem Dev.pageValid_nextFree (d : Dev) (i : Nat) : d.nextFree.pageValid i = d.pageValid i := rfl
@[simp] theorem Dev.prot_fset (d : Dev) (pg : PageId) (f : Fld) (v : Nat) (i k : Nat) : (d.fset pg f v).prot i k = d.prot i k := rfl
@[simp] theorem Dev.prot_emit (d : Dev) (o : Out) (i k : Nat) : (d.emit o).prot i k = d.prot i k := rfl
@[simp] theorem Dev.prot_modSp (d : Dev) (n : Nat) (g : Spoke → Spoke) (i k : Nat) : (d.modSp n g).prot i k = d.prot i k := rfl
@[simp] theorem Dev.prot_modSq (d : Dev) (q : Nat) (g : Sq → Sq) (i k : Nat) : (d.modSq q g).prot i k = d.prot i k := rfl
@[simp] theorem Dev.prot_modCq (d : Dev) (q : Nat) (g : Cq → Cq) (i k : Nat) : (d.modCq q g).prot i k = d.prot i k := rfl
@[simp] theorem Dev.prot_modFunc (d : Dev) (n : Nat) (g : Func → Func) (i k : Nat) : (d.modFunc n g).prot i k = d.prot i k := rfl
@[simp] theorem Dev.prot_modEp (d : Dev) (n : Nat) (g : Endpt → Endpt) (i k : Nat) : (d.modEp n g).prot i k = d.prot i k := rfl
@[simp] theorem Dev.prot_modStw (d : Dev) (n : Nat) (g : Stw → Stw) (i k : Nat) : (d.modStw n g).prot i k = d.prot i k := rfl
@[simp] theorem Dev.prot_modStream (d : Dev) (n : Nat) (g : Stream → Stream) (i k : Nat) : (d.modStream n g).prot i k = d.prot i k := rfl
@[simp] theorem Dev.prot_modSlot (d : Dev) (n : Nat) (g : KeySlot → KeySlot) (i k : Nat) : (d.modSlot n g).prot i k = d.prot i k := rfl
@[simp] theorem Dev.prot_modTherm (d : Dev) (g : Therm → Therm) (i k : Nat) : (d.modTherm g).prot i k = d.prot i k := rfl
@[simp] theorem Dev.prot_modBoot (d : Dev) (g : Boot → Boot) (i k : Nat) : (d.modBoot g).prot i k = d.prot i k := rfl
@[simp] theorem Dev.prot_nextFree (d : Dev) (i k : Nat) : d.nextFree.prot i k = d.prot i k := rfl
@[simp] theorem Dev.kek_fset (d : Dev) (pg : PageId) (f : Fld) (v : Nat) (i : Nat) : (d.fset pg f v).kek i = d.kek i := rfl
@[simp] theorem Dev.kek_emit (d : Dev) (o : Out) (i : Nat) : (d.emit o).kek i = d.kek i := rfl
@[simp] theorem Dev.kek_modSp (d : Dev) (n : Nat) (g : Spoke → Spoke) (i : Nat) : (d.modSp n g).kek i = d.kek i := rfl
@[simp] theorem Dev.kek_modSq (d : Dev) (q : Nat) (g : Sq → Sq) (i : Nat) : (d.modSq q g).kek i = d.kek i := rfl
@[simp] theorem Dev.kek_modCq (d : Dev) (q : Nat) (g : Cq → Cq) (i : Nat) : (d.modCq q g).kek i = d.kek i := rfl
@[simp] theorem Dev.kek_modFunc (d : Dev) (n : Nat) (g : Func → Func) (i : Nat) : (d.modFunc n g).kek i = d.kek i := rfl
@[simp] theorem Dev.kek_modEp (d : Dev) (n : Nat) (g : Endpt → Endpt) (i : Nat) : (d.modEp n g).kek i = d.kek i := rfl
@[simp] theorem Dev.kek_modStw (d : Dev) (n : Nat) (g : Stw → Stw) (i : Nat) : (d.modStw n g).kek i = d.kek i := rfl
@[simp] theorem Dev.kek_modStream (d : Dev) (n : Nat) (g : Stream → Stream) (i : Nat) : (d.modStream n g).kek i = d.kek i := rfl
@[simp] theorem Dev.kek_modTherm (d : Dev) (g : Therm → Therm) (i : Nat) : (d.modTherm g).kek i = d.kek i := rfl
@[simp] theorem Dev.kek_modBoot (d : Dev) (g : Boot → Boot) (i : Nat) : (d.modBoot g).kek i = d.kek i := rfl
@[simp] theorem Dev.kek_nextFree (d : Dev) (i : Nat) : d.nextFree.kek i = d.kek i := rfl
@[simp] theorem Dev.fget_modSq (d : Dev) (q : Nat) (g : Sq → Sq) (pg' : PageId) (f' : Fld) : (d.modSq q g).fget pg' f' = d.fget pg' f' := rfl
@[simp] theorem Dev.fget_modCq (d : Dev) (q : Nat) (g : Cq → Cq) (pg' : PageId) (f' : Fld) : (d.modCq q g).fget pg' f' = d.fget pg' f' := rfl
@[simp] theorem Dev.fget_modFunc (d : Dev) (n : Nat) (g : Func → Func) (pg' : PageId) (f' : Fld) : (d.modFunc n g).fget pg' f' = d.fget pg' f' := rfl
@[simp] theorem Dev.fget_modEp (d : Dev) (n : Nat) (g : Endpt → Endpt) (pg' : PageId) (f' : Fld) : (d.modEp n g).fget pg' f' = d.fget pg' f' := rfl
@[simp] theorem Dev.fget_modStw (d : Dev) (n : Nat) (g : Stw → Stw) (pg' : PageId) (f' : Fld) : (d.modStw n g).fget pg' f' = d.fget pg' f' := rfl
@[simp] theorem Dev.fget_modStream (d : Dev) (n : Nat) (g : Stream → Stream) (pg' : PageId) (f' : Fld) : (d.modStream n g).fget pg' f' = d.fget pg' f' := rfl
@[simp] theorem Dev.fget_modSlot (d : Dev) (n : Nat) (g : KeySlot → KeySlot) (pg' : PageId) (f' : Fld) : (d.modSlot n g).fget pg' f' = d.fget pg' f' := rfl
@[simp] theorem Dev.fget_modBoot (d : Dev) (g : Boot → Boot) (pg' : PageId) (f' : Fld) : (d.modBoot g).fget pg' f' = d.fget pg' f' := rfl

@[simp] theorem Dev.grant_now (d : Dev) (pg : PageId) (n i : Nat) : (d.grant pg n i).now = d.now := rfl
@[simp] theorem Dev.grant_crystal (d : Dev) (pg : PageId) (n i : Nat) : (d.grant pg n i).crystal = d.crystal := rfl
@[simp] theorem Dev.grant_free (d : Dev) (pg : PageId) (n i : Nat) : (d.grant pg n i).free = d.free := rfl
@[simp] theorem Dev.grant_regs (d : Dev) (pg : PageId) (n i : Nat) : (d.grant pg n i).regs = d.regs := rfl
@[simp] theorem Dev.grant_latches (d : Dev) (pg : PageId) (n i : Nat) : (d.grant pg n i).latches = d.latches := rfl
@[simp] theorem Dev.grant_out (d : Dev) (pg : PageId) (n i : Nat) : (d.grant pg n i).out = d.out := rfl
@[simp] theorem Dev.grant_spokes (d : Dev) (pg : PageId) (n i : Nat) : (d.grant pg n i).spokes = d.spokes := rfl
@[simp] theorem Dev.grant_streams (d : Dev) (pg : PageId) (n i : Nat) : (d.grant pg n i).streams = d.streams := rfl
@[simp] theorem Dev.grant_sqs (d : Dev) (pg : PageId) (n i : Nat) : (d.grant pg n i).sqs = d.sqs := rfl
@[simp] theorem Dev.grant_cqs (d : Dev) (pg : PageId) (n i : Nat) : (d.grant pg n i).cqs = d.cqs := rfl
@[simp] theorem Dev.grant_funcs (d : Dev) (pg : PageId) (n i : Nat) : (d.grant pg n i).funcs = d.funcs := rfl
@[simp] theorem Dev.grant_vecMasked (d : Dev) (pg : PageId) (n i : Nat) : (d.grant pg n i).vecMasked = d.vecMasked := rfl
@[simp] theorem Dev.grant_vecPending (d : Dev) (pg : PageId) (n i : Nat) : (d.grant pg n i).vecPending = d.vecPending := rfl
@[simp] theorem Dev.grant_pool (d : Dev) (pg : PageId) (n i : Nat) : (d.grant pg n i).pool = d.pool := rfl
@[simp] theorem Dev.grant_chest (d : Dev) (pg : PageId) (n i : Nat) : (d.grant pg n i).chest = d.chest := rfl
@[simp] theorem Dev.grant_chestBad (d : Dev) (pg : PageId) (n i : Nat) : (d.grant pg n i).chestBad = d.chestBad := rfl
@[simp] theorem Dev.grant_vmValid (d : Dev) (pg : PageId) (n i : Nat) : (d.grant pg n i).vmValid = d.vmValid := rfl
@[simp] theorem Dev.grant_vmFill (d : Dev) (pg : PageId) (n i : Nat) : (d.grant pg n i).vmFill = d.vmFill := rfl
@[simp] theorem Dev.grant_memWaits (d : Dev) (pg : PageId) (n i : Nat) : (d.grant pg n i).memWaits = d.memWaits := rfl
@[simp] theorem Dev.grant_vmClr (d : Dev) (pg : PageId) (n i : Nat) : (d.grant pg n i).vmClr = d.vmClr := rfl
@[simp] theorem Dev.grant_recs (d : Dev) (pg : PageId) (n i : Nat) : (d.grant pg n i).recs = d.recs := rfl
@[simp] theorem Dev.grant_blkSeq (d : Dev) (pg : PageId) (n i : Nat) : (d.grant pg n i).blkSeq = d.blkSeq := rfl
@[simp] theorem Dev.grant_encSets (d : Dev) (pg : PageId) (n i : Nat) : (d.grant pg n i).encSets = d.encSets := rfl
@[simp] theorem Dev.grant_decSets (d : Dev) (pg : PageId) (n i : Nat) : (d.grant pg n i).decSets = d.decSets := rfl
@[simp] theorem Dev.grant_byteCnt (d : Dev) (pg : PageId) (n i : Nat) : (d.grant pg n i).byteCnt = d.byteCnt := rfl
@[simp] theorem Dev.grant_keep (d : Dev) (pg : PageId) (n i : Nat) : (d.grant pg n i).keep = d.keep := rfl
@[simp] theorem Dev.grant_boot (d : Dev) (pg : PageId) (n i : Nat) : (d.grant pg n i).boot = d.boot := rfl
@[simp] theorem Dev.grant_svnFuses (d : Dev) (pg : PageId) (n i : Nat) : (d.grant pg n i).svnFuses = d.svnFuses := rfl
@[simp] theorem Dev.grant_therm (d : Dev) (pg : PageId) (n i : Nat) : (d.grant pg n i).therm = d.therm := rfl
@[simp] theorem Dev.grant_retire (d : Dev) (pg : PageId) (n i : Nat) : (d.grant pg n i).retire = d.retire := rfl
@[simp] theorem Dev.grant_retireLog (d : Dev) (pg : PageId) (n i : Nat) : (d.grant pg n i).retireLog = d.retireLog := rfl
@[simp] theorem Dev.grant_stws (d : Dev) (pg : PageId) (n i : Nat) : (d.grant pg n i).stws = d.stws := rfl
@[simp] theorem Dev.grant_endpts (d : Dev) (pg : PageId) (n i : Nat) : (d.grant pg n i).endpts = d.endpts := rfl
@[simp] theorem Dev.grant_tap (d : Dev) (pg : PageId) (n i : Nat) : (d.grant pg n i).tap = d.tap := rfl
@[simp] theorem Dev.grant_split (d : Dev) (pg : PageId) (n i : Nat) : (d.grant pg n i).split = d.split := rfl
@[simp] theorem Dev.grant_mgmtAddr (d : Dev) (pg : PageId) (n i : Nat) : (d.grant pg n i).mgmtAddr = d.mgmtAddr := rfl
@[simp] theorem Dev.grant_felt (d : Dev) (pg : PageId) (n i : Nat) : (d.grant pg n i).felt = d.felt := rfl
@[simp] theorem Dev.grant_ub4 (d : Dev) (pg : PageId) (n i : Nat) : (d.grant pg n i).ub4 = d.ub4 := rfl
@[simp] theorem Dev.grant_live (d : Dev) (pg : PageId) (n i : Nat) : (d.grant pg n i).live = d.live := rfl
@[simp] theorem Dev.grant_jobSeq (d : Dev) (pg : PageId) (n i : Nat) : (d.grant pg n i).jobSeq = d.jobSeq := rfl
@[simp] theorem Dev.grant_modWaiting (d : Dev) (pg : PageId) (n i : Nat) : (d.grant pg n i).modWaiting = d.modWaiting := rfl

end Sys2Proof.Machine
end

