-- ==== Sys2Proof/Laws/Hops.lean ====
section
/-! SUPPORT. Laws of what crosses between the blocks: a word sent without an error arrives with good parity and spells itself; what a
write through BAR0, a push, a pop and a reset of hops can come to. -/

namespace Sys2Proof.Machine

theorem onesIn_add_pow (n : Nat) : ∀ x b, b < 2 → onesIn (n + 1) (2 ^ n * b + x % 2 ^ n) = b + onesIn n x := by
  induction n with
  | zero => intro x b hb; simp [onesIn, Nat.mod_one]; omega
  | succ n ih =>
    intro x b hb
    have e : (2 ^ (n + 1) * b + x % 2 ^ (n + 1)) % 2 = x % 2 := by
      rw [Nat.pow_succ, Nat.mul_comm (2 ^ n) 2, Nat.mul_assoc, Nat.mul_add_mod, Nat.mod_mul_right_mod]
    have e2 : (2 ^ (n + 1) * b + x % 2 ^ (n + 1)) / 2 = 2 ^ n * b + (x / 2) % 2 ^ n := by
      rw [Nat.pow_succ, Nat.mul_comm (2 ^ n) 2, Nat.mul_assoc, Nat.mod_mul]
      omega
    rw [onesIn, e, e2, ih _ _ hb, onesIn]
    omega

theorem coreWord_bits_lt (w : CoreWord) : w.bits < 2 ^ 66 := by
  have := w.data.isLt
  unfold CoreWord.bits b2n
  cases w.soi <;> cases w.eoi <;> simp <;> omega

/-- A word sent has good parity (R31). -/
theorem parityOk_wire (w : CoreWord) : parityOk w.wire = true := by
  have h := coreWord_bits_lt w
  have hp : w.parity < 2 := Nat.mod_lt _ (by decide)
  have := onesIn_add_pow 66 w.bits w.parity hp
  rw [Nat.mod_eq_of_lt h] at this
  unfold parityOk CoreWord.wire
  rw [this]
  simp only [CoreWord.parity, beq_iff_eq]
  omega

/-- It spells itself. -/
theorem ofWire_wire (w : CoreWord) : CoreWord.ofWire w.wire = w := by
  obtain ⟨soi, eoi, data⟩ := w
  have hd := data.isLt
  have hp : (CoreWord.mk soi eoi data).parity < 2 := Nat.mod_lt _ (by decide)
  unfold CoreWord.ofWire CoreWord.wire
  generalize (CoreWord.mk soi eoi data).parity = p at hp
  unfold CoreWord.bits bitAt bitsOf
  simp only [Nat.shiftRight_eq_div_pow, CoreWord.mk.injEq]
  refine ⟨?_, ?_, ?_⟩
  · cases soi <;> cases eoi <;> simp [b2n] <;> omega
  · cases soi <;> cases eoi <;> simp [b2n] <;> omega
  · apply BitVec.eq_of_toNat_eq
    simp only [BitVec.toNat_ofNat]
    cases soi <;> cases eoi <;> simp [b2n] <;> omega

/-- The three outcomes of a write through BAR0 (R366, R422, R427). -/
theorem State.write_open (s : State) (a : Accessor) (pg : PageId) (k : State → Res) (h : s.dev.access a pg = .open) :
    s.write a pg k = k s := by simp [State.write, h]
theorem State.write_absent (s : State) (a : Accessor) (pg : PageId) (k : State → Res) (h : s.dev.access a pg = .absent) :
    s.write a pg k = .next s := by simp [State.write, h]
theorem State.write_violation (s : State) (a : Accessor) (pg : PageId) (k : State → Res) (h : s.dev.access a pg = .violation) :
    s.write a pg k = .next (s.modDev (fun d => d.pageViolation a pg)) := by simp [State.write, h]

theorem State.writeDev_open (s : State) (a : Accessor) (pg : PageId) (f : Dev → Dev) (h : s.dev.access a pg = .open) :
    s.writeDev a pg f = .next (s.modDev f) := by simp [State.writeDev, State.write, h]

/-- A word received well is taken, and then a pop that waits is served (R42). -/
theorem State.receive_ok (s : State) (c : ChainId) (w : CoreWord) (k : Nat) :
    s.receive c w 0 k = (s.setChain c ({ s.chain c with latch := none }.take w false)).servePop c := by
  simp [State.receive, parityOk_wire, ofWire_wire]

/-- No pop waits: nothing is served. -/
theorem State.servePop_idle (s : State) (c : ChainId) (hp : (s.chain c).popWaits = false) : s.servePop c = s := by
  simp [State.servePop, hp]

/-- A pop waits: it is tried. -/
theorem State.servePop_waits (s : State) (c : ChainId) (hp : (s.chain c).popWaits = true) : s.servePop c = s.popChain c := by
  simp [State.servePop, hp]

/-! ### The queue of commands is out of reach of what crosses between the blocks -/

theorem foldl_keeps {α β γ : Type} (p : α → γ) (f : α → β → α) (h : ∀ a b, p (f a b) = p a) : ∀ (l : List β) (a : α), p (l.foldl f a) = p a
  | [], _ => rfl
  | b :: l, a => by rw [List.foldl_cons, foldl_keeps p f h l, h]

@[simp] theorem State.popChain_pending (s : State) (c : ChainId) : (s.popChain c).pending = s.pending := by
  unfold State.popChain
  dsimp only
  split
  · rfl
  · split <;> split <;> rfl

@[simp] theorem State.servePop_pending (s : State) (c : ChainId) : (s.servePop c).pending = s.pending := by
  unfold State.servePop
  split <;> simp

@[simp] theorem State.closeItem_pending (s : State) (pg : PageId) (c : ChainId) : (s.closeItem pg c).pending = s.pending := by
  unfold State.closeItem
  dsimp only
  split <;> simp

@[simp] theorem State.damage_pending (s : State) (f : Dev → Dev) : (s.damage f).pending = s.pending := by
  unfold State.damage
  dsimp only
  rw [foldl_keeps State.pending _ (fun a pg => foldl_keeps State.pending _ (fun b c => State.closeItem_pending b pg c) _ a)]

@[simp] theorem State.gateDamage_pending (s : State) (g : GateId) (f : Dev → Damage → Dev) : (s.gateDamage g f).pending = s.pending := by
  simp [State.gateDamage]

@[simp] theorem State.takeGate_pending (s : State) (g : GateId) (e : BitVec 67) : (s.takeGate g e).pending = s.pending := by
  unfold State.takeGate
  dsimp only
  split
  · rfl
  · split
    · split <;> simp
    · split <;> simp

@[simp] theorem State.serveGate_pending (s : State) (g : GateId) : (s.serveGate g).pending = s.pending := by
  unfold State.serveGate
  dsimp only
  split <;> simp

/-- A clock period leaves the queue. -/
@[simp] theorem State.tick_pending (s : State) : s.tick.pending = s.pending := by
  unfold State.tick
  dsimp only
  rw [foldl_keeps State.pending _ (fun a k => State.serveGate_pending a (gateOfKey k))]

end Sys2Proof.Machine
end

