-- ==== Sys2Proof/Laws/Memory.lean ====
section
/-! SUPPORT. Laws of the chest's bytes: every operation keeps the canonical form; what a byte reads as after a write; the page that
a write makes valid, and the pages that a clear makes invalid. -/

namespace Sys2Proof.Machine

theorem putBytes_wf (bs : List Byte) : ∀ (m : List Host.Cell) (a : Nat), Memory.wf m = true → Memory.wf (putBytes m a bs) = true := by
  induction bs with
  | nil => intro m a h; exact h
  | cons b r ih => intro m a h; exact ih _ _ (mwf_mset _ m a b h)

/-- A write keeps the canonical form. -/
theorem chestPut_wf (d : Dev) (a : Nat) (bs : List Byte) (h : Memory.wf d.chest = true) : Memory.wf (d.chestPut a bs).chest = true :=
  putBytes_wf bs d.chest a h

/-- A clear of pages keeps the canonical form. -/
theorem invalidate_wf (d : Dev) (p k : Nat) (h : Memory.wf d.chest = true) : Memory.wf (d.invalidate p k).chest = true :=
  mwf_filter _ _ d.chest h

/-- After reset nothing is listed. -/
theorem reset_chest_wf : Memory.wf State.reset.dev.chest = true := by decide

/-- A byte of a stored string reads as stored; every other byte reads as before. -/
theorem mget_putBytes (bs : List Byte) : ∀ (m : List Host.Cell) (a x : Nat),
    mget (fun _ => 0) (putBytes m a bs) x = if a ≤ x ∧ x < a + bs.length then bs.getD (x - a) 0 else mget (fun _ => 0) m x := by
  induction bs with
  | nil =>
    intro m a x
    have h : ¬ (a ≤ x ∧ x < a + ([] : List Byte).length) := by simp only [List.length_nil]; omega
    rw [if_neg h]; rfl
  | cons b r ih =>
    intro m a x
    simp only [putBytes, ih, mget_mset, List.length_cons]
    by_cases hx : a = x
    · subst hx
      have h1 : ¬ (a + 1 ≤ a ∧ a < a + 1 + r.length) := by omega
      simp [h1]
    · by_cases h1 : a + 1 ≤ x ∧ x < a + 1 + r.length
      · have h2 : a ≤ x ∧ x < a + (r.length + 1) := by omega
        have h3 : x - a = (x - (a + 1)) + 1 := by omega
        rw [if_pos h1, if_pos h2, h3, List.getD_cons_succ]
      · have h2 : ¬ (a ≤ x ∧ x < a + (r.length + 1)) := by omega
        rw [if_neg h1, if_neg h2, if_neg hx]

theorem mget_markPages (k : Nat) : ∀ (m : SMap Bool) (p x : Nat),
    mget (fun _ => false) (markPages m p k) x = if p ≤ x ∧ x < p + k then true else mget (fun _ => false) m x := by
  induction k with
  | zero =>
    intro m p x
    have h : ¬ (p ≤ x ∧ x < p + 0) := by omega
    rw [if_neg h]; rfl
  | succ k ih =>
    intro m p x
    simp only [markPages, ih, mget_mset]
    by_cases hx : p = x
    · subst hx; simp
    · by_cases h1 : p + 1 ≤ x ∧ x < p + 1 + k
      · have h2 : p ≤ x ∧ x < p + (k + 1) := by omega
        rw [if_pos h1, if_pos h2]
      · have h2 : ¬ (p ≤ x ∧ x < p + (k + 1)) := by omega
        rw [if_neg h1, if_neg h2, if_neg hx]

/-- A write marks the pages it touches valid, and leaves the others (R260). -/
theorem chestPut_valid (d : Dev) (a : Nat) (bs : List Byte) (p : Nat) :
    (d.chestPut a bs).pageValid p = if a / 4096 ≤ p ∧ p < a / 4096 + pagesOf a bs.length then true else d.pageValid p :=
  mget_markPages _ _ _ _

end Sys2Proof.Machine
end

