-- ==== Sys2Proof/Laws/Steps.lean ====
section
/-! SUPPORT. What a command leads to, from the operation that its meaning is: on the device, on one spoke, everywhere, through BAR0. -/

namespace Sys2Proof.Machine

variable {c : Instr} {s : State} {n : Nat} {f : Dev → Dev}

/-- A command that is an effect `f` on a spoke leads to `f` of the device. -/
theorem Leads.of_onSpoke {P : Dev → Prop} (h : exec c s = s.onSpoke n f) (hp : P (f s.dev)) : Leads c s n P := ⟨f s.dev, h, hp⟩

/-- A command that is an effect `f` everywhere leads to `f` of the device. -/
theorem LeadsAll.of_onAll {P : Dev → Prop} (h : exec c s = s.onAll f) (hp : P (f s.dev)) : LeadsAll c s P := ⟨f s.dev, h, hp⟩

/-- A command that is an effect `f` on the device alone completes with it. -/
theorem Completes.of_onDev {P : State → Prop} (h : exec c s = s.onDev f) (hp : P (s.modDev f)) : Completes c s P := ⟨_, h, hp⟩

/-- A write through BAR0 of a page that the accessor reaches completes with its effect. -/
theorem Completes.of_writeDev {P : State → Prop} {a : Accessor} {pg : PageId} (h : exec c s = s.writeDev a pg f)
    (ho : s.dev.access a pg = .open) (hp : P (s.modDev f)) : Completes c s P := ⟨_, by rw [h, State.writeDev_open s a pg f ho], hp⟩

/-- What follows on a spoke is a step of the device alone. -/
@[simp] theorem State.onSpoke_eq (s : State) (n : Nat) (f : Dev → Dev) : s.onSpoke n f = .next (s.modDev (fun d => (f d).follow n)) := rfl
@[simp] theorem State.onAll_eq (s : State) (f : Dev → Dev) : s.onAll f = .next (s.modDev (fun d => (f d).followAll)) := rfl
@[simp] theorem State.onDev_eq (s : State) (f : Dev → Dev) : s.onDev f = .next (s.modDev f) := rfl

end Sys2Proof.Machine
end

