-- ==== Sys2Proof/WellFormed.lean ====
section
/-! DEFINITION. What a command's operands must satisfy beyond their types: the manual's ranges of pages, offsets, byte enables,
sheet members, channel numbers of memory words, and the shape of what a sensor or a reader delivers. -/

namespace Sys2Proof

/-- A page of BAR0: region 0 to 15 and page 0 to 255 (R421). -/
def pageOk (pg : Nat) : Bool := decide (pg < 4096)

/-- A header's fields fit (R290): ring, CID, TARGET, STREAM, DMODE. -/
def CmdHdr.ok (h : CmdHdr) : Bool :=
  decide (h.sq < 4096) && decide (h.cid < 65536) && decide (h.target < 16) && decide (h.stream < 4096) && decide (h.dmode < 4) &&
  decide (h.dptr < 2 ^ 64) && decide (h.dlen < 2 ^ 32)

/-- A segment of a sheet (R68, R151). -/
def SegId.ok (x : SegId) : Bool := decide (x.row < 2048) && decide (x.gen < 4) && decide (x.rwslot < 8)

/-- A word address of the chest: 64 GiB of 8-byte words (R250). -/
def wordOk' (w : Nat) : Bool := decide (w < 2 ^ 33)

/-- What one servo reader times: six pairs, and the four stripes of each burst (R169). -/
def readerOk (x : ReaderTimes × List Int × List Int) : Bool := !x.1.found || (x.1.ab.length == 6 && x.2.1.length == 4 && x.2.2.length == 4)

/-- An item of a shared crossing: of a region of the die, of one of five classes, of 1 to 512 words (R14). -/
def XItem.ok (x : XItem) : Bool :=
  decide (x.region < 16) && x.region != 0 && x.region != 6 && x.region != 7 && decide (x.cls < 5) && decide (1 ≤ x.words) && decide (x.words ≤ 512)

/-- Is the command one that the block can be given? -/
def Instr.ok : Instr → Bool
  | .quiesceReq _ pg | .blockQuiesced pg | .modeChange _ pg _ | .blockEnable _ pg _ => pageOk pg
  | .errForce _ pg m => pageOk pg && decide (m < 2 ^ 32)
  | .registerWrite _ pg off v be => pageOk pg && decide (off < 4096) && off % 4 == 0 && decide (v < 2 ^ 32) && decide (be < 16)
  | .pageViolationRead _ pg off => pageOk pg && decide (off < 4096) && off % 4 == 0
  | .writeFrame _ _ phase => decide (phase < 64)
  | .verdict _ seg .. => seg.ok
  | .servoFrame _ rs cs ds => rs.length == 4 && cs.length == 4 && ds.length == 4 && (rs.zip (cs.zip ds)).all readerOk
  | .segmentDue _ _ amp late early => late.length == amp.length && early.length == amp.length
  | .memoryRead _ w r _ => wordOk' w && wordOk' r
  | .memoryWrite w bs => wordOk' (w + bs.length) && bs.all (fun b => decide (b.1 < 2 ^ 64) && decide (b.2 < 256))
  | .thermalSample rs => rs.length == 26
  | .accountingWindow first rest => (first ++ rest).all XItem.ok && first.all (·.cls == 0) && rest.all (·.cls != 0)
  | .chainPush c w _ => decide (w.cell < producers c) && w.asks.all (fun x => decide (x < producers c))
  | .nop h | .write h .. | .writeMark h .. | .sync h | .read h _ | .locate h .. | .space h .. | .readPosition h | .tapeStatus h
  | .closeSession h | .format h .. | .unload h | .cancel h | .streamOpen h _ | .streamSet h _ | .streamClose h | .streamQuery h
  | .sheetWrite h _ | .sheetRead h .. | .rawRelease h | .bufAlloc h _ | .bufRef h _ | .bufRelease h _ | .bufLoad h .. | .bufStore h ..
  | .cmRead h _ | .cmWrite h .. | .takeover h => h.ok
  | _ => true

end Sys2Proof
end

