-- ==== Sys2Proof/Tests/Slice0.lean ====
section
/-! SUPPORT. Tests of the model: commands that are not well formed, the manual's worked examples, single steps, and for every statement
with hypotheses a witness that meets them, each at states built by the small helpers below. -/

set_option maxRecDepth 20000
set_option Elab.async false

namespace Sys2Proof.Tests

open Sys2Proof.Machine

/-! ### Helpers -/

/-- A state of the block whose device is what `f` makes of the one after reset. -/
def tst (f : Dev → Dev) : State := { State.reset with dev := f State.reset.dev }
/-- Register fields written. -/
def tfld (l : List (PageId × Fld × Nat)) (d : Dev) : Dev := l.foldl (fun d x => d.fset x.1 x.2.1 x.2.2) d
/-- The state with those fields written. -/
def treg (l : List (PageId × Fld × Nat)) : State := tst (tfld l)
/-- The state with spoke 0 as given, and fields written. -/
def tspk (x : Spoke) (l : List (PageId × Fld × Nat)) : State := tst (fun d => (tfld l d).setSp 0 x)
/-- A function of a tenant domain: function 0 of endpoint 0 in domain 2. -/
def tten : State := tst (fun d => { d with keep := { d.keep with prot := [(0, 2)] } })
/-- Firmware. -/
def tfw : Accessor := .fw 0
/-- The physical function of endpoint 0. -/
def tpf : Accessor := .fn 0 0
/-- A chain of four stages with the words and credits given. -/
def tchain (words : List (CoreWord × Bool)) (credits : Nat) : Chain :=
  { depth := 4, grantReg := 4, grant := 4, words := words, credits := credits, transit := 4 - credits - words.length }
/-- The state with compressor 0's chain as given. -/
def tch (c : Chain) : State := { State.reset with chains := [(0, c)] }
/-- The state with the gate FIFO given. -/
def tgt (g : GateId) (x : Gate) : State := { State.reset with gates := [(g.key, x)] }
/-- A whole item in one word. -/
def tword : CoreWord := ⟨true, true, 5⟩
/-- The first word of an item of more. -/
def tfirst : CoreWord := ⟨true, false, 7⟩

/-! ### Ill-formed commands (one for each check of `Instr.ok`) -/

/-- A command header whose fields fit. -/
def tgoodHdr : CmdHdr := ⟨0, 1, false, 0, 0, 0, 0, 0, []⟩

theorem test_ok_command : Instr.ok (.nop tgoodHdr) = true ∧ Instr.ok .brownOut = true := by decide
theorem test_ill_page : Instr.ok (.quiesceReq (.fw 0) 4096) = false ∧ Instr.ok (.blockQuiesced 4096) = false ∧
    Instr.ok (.modeChange (.fw 0) 4096 true) = false ∧ Instr.ok (.blockEnable (.fw 0) 4096 true) = false ∧
    Instr.ok (.errForce (.fw 0) 4096 0) = false ∧ Instr.ok (.errForce (.fw 0) 0 (2 ^ 32)) = false := by decide
theorem test_ill_register_write : Instr.ok (.registerWrite (.fw 0) 4096 0 0 0) = false ∧ Instr.ok (.registerWrite (.fw 0) 0 4096 0 0) = false ∧
    Instr.ok (.registerWrite (.fw 0) 0 2 0 0) = false ∧ Instr.ok (.registerWrite (.fw 0) 0 0 (2 ^ 32) 0) = false ∧
    Instr.ok (.registerWrite (.fw 0) 0 0 0 16) = false ∧ Instr.ok (.registerWrite (.fw 0) 0 4 7 15) = true := by decide
theorem test_ill_page_read : Instr.ok (.pageViolationRead (.fw 0) 4096 0) = false ∧ Instr.ok (.pageViolationRead (.fw 0) 0 4096) = false ∧
    Instr.ok (.pageViolationRead (.fw 0) 0 1) = false := by decide
theorem test_ill_phase : Instr.ok (.writeFrame 0 0 64) = false := by decide
theorem test_ill_segment : Instr.ok (.verdict 0 ⟨0, 2048, 0, 0, false⟩ true true true ⟨true, 1, 60, false, false⟩ []) = false ∧
    Instr.ok (.verdict 0 ⟨0, 0, 4, 0, false⟩ true true true ⟨true, 1, 60, false, false⟩ []) = false ∧
    Instr.ok (.verdict 0 ⟨0, 0, 0, 8, false⟩ true true true ⟨true, 1, 60, false, false⟩ []) = false := by decide
theorem test_ill_servo_frame : Instr.ok (.servoFrame 0 [] [] []) = false ∧
    Instr.ok (.servoFrame 0 (List.replicate 4 ⟨true, 1, [1]⟩) (List.replicate 4 [1, 1, 1, 1]) (List.replicate 4 [1, 1, 1, 1])) = false ∧
    Instr.ok (.servoFrame 0 (List.replicate 4 ⟨true, 1, List.replicate 6 1⟩) (List.replicate 4 [1]) (List.replicate 4 [1, 1, 1, 1])) = false ∧
    Instr.ok (.servoFrame 0 (List.replicate 4 ⟨true, 1, List.replicate 6 1⟩) (List.replicate 4 [1, 1, 1, 1]) (List.replicate 4 [1])) = false ∧
    Instr.ok (.servoFrame 0 (List.replicate 4 ⟨true, 1, List.replicate 6 1⟩) (List.replicate 4 [1, 1, 1, 1]) (List.replicate 4 [1, 1, 1, 1])) = true ∧
    Instr.ok (.segmentDue 0 0 [1] [0] []) = false ∧ Instr.ok (.segmentDue 0 0 [1] [0] [2]) = true := by decide
theorem test_ill_memory : Instr.ok (.memoryRead .other (2 ^ 33) 0 []) = false ∧ Instr.ok (.memoryRead .other 0 (2 ^ 33) []) = false ∧
    Instr.ok (.memoryWrite (2 ^ 33) []) = false ∧ Instr.ok (.memoryWrite 0 [(2 ^ 64, 0)]) = false ∧ Instr.ok (.memoryWrite 0 [(0, 256)]) = false := by
  decide
theorem test_ill_samples : Instr.ok (.thermalSample []) = false ∧ Instr.ok (.accountingWindow [] [⟨0, 1, 5⟩]) = false ∧
    Instr.ok (.accountingWindow [] [⟨6, 1, 5⟩]) = false ∧ Instr.ok (.accountingWindow [] [⟨7, 1, 5⟩]) = false ∧ Instr.ok (.accountingWindow [] [⟨16, 1, 5⟩]) = false ∧
    Instr.ok (.accountingWindow [] [⟨1, 5, 5⟩]) = false ∧ Instr.ok (.accountingWindow [] [⟨1, 4, 0⟩]) = false ∧ Instr.ok (.accountingWindow [] [⟨1, 4, 513⟩]) = false ∧
    Instr.ok (.accountingWindow [⟨15, 4, 512⟩] []) = false ∧ Instr.ok (.accountingWindow [] [⟨15, 0, 512⟩]) = false ∧
    Instr.ok (.accountingWindow [⟨15, 0, 512⟩] [⟨15, 4, 512⟩]) = true := by decide
theorem test_ill_push : Instr.ok (.chainPush (.comp 0) ⟨4, [], ⟨true, true, 5⟩⟩ 0) = false ∧ Instr.ok (.chainPush (.comp 0) ⟨0, [4], ⟨true, true, 5⟩⟩ 0) = false ∧
    Instr.ok (.chainPush (.comp 0) ⟨3, [0, 3], ⟨true, true, 5⟩⟩ 0) = true := by decide
theorem test_ill_header : Instr.ok (.nop { tgoodHdr with sq := 4096 }) = false ∧ Instr.ok (.unload { tgoodHdr with cid := 65536 }) = false ∧
    Instr.ok (.sync { tgoodHdr with target := 16 }) = false ∧ Instr.ok (.read { tgoodHdr with stream := 4096 } false) = false ∧
    Instr.ok (.takeover { tgoodHdr with dmode := 4 }) = false ∧ Instr.ok (.cancel { tgoodHdr with dptr := 2 ^ 64 }) = false ∧
    Instr.ok (.rawRelease { tgoodHdr with dlen := 2 ^ 32 }) = false := by decide

/-- The table gives no row bits: no word spells a command (log entry 1). -/
theorem test_no_word_spells_a_command : decodeTableWord 0 0 = none ∧ decodeTableWord 32 0xFFFFFFFF = none ∧
    State.reset.withFetchWord 32 7 = State.reset := by decide

/-! ### The manual's worked examples -/

/-- The example of R88: only c0 is 1. -/
theorem test_c1_parity_example : c1Parity (1 :: List.replicate 63 0) =
    [1, 1 + 2 ^ 475, 1 + 2 ^ 475, 1 + 2 ^ 475 + 2 ^ 401, 1 + 2 ^ 475 + 2 ^ 401, 1 + 2 ^ 475 + 2 ^ 401,
     1 + 2 ^ 475 + 2 ^ 401 + 2 ^ 290, 1 + 2 ^ 475 + 2 ^ 401 + 2 ^ 290] := by decide +kernel
/-- The example of R93: only member 29 holds 0x01. -/
theorem test_c3_parity_example : c3Scale 29 0x01 = 0x04 ∧ c3Parity30 0x01 0x04 = 0x03 ∧ c3Parity31 0x01 0x04 = 0x02 := by decide +kernel
/-- The example of R99: members 29 and 31 are lost. -/
theorem test_c3_solve_example : c3Solve 29 [29, 31] [(30, 3)] = some 1 ∧ c3Solve 31 [29, 31] [(30, 3)] = some 2 := by decide +kernel
/-- The example of R76: sheet 5,000. -/
theorem test_interleave_example : sheetBlock 5000 = 39 ∧ sheetPos 5000 = 8 ∧ sheetMember 5000 = 2 ∧ sheetReam 5000 = 0 ∧ memberSheet 39 0 2 = 5000 ∧
    memberSheet 39 0 30 = 5112 ∧ memberSheet 39 0 31 = 5116 := by decide
/-- The reference capacity (R53). -/
theorem test_slots_per_wrap_example : slotsPerWrap 0 = 40192 ∧ slotsPerWrap 1 = 44160 ∧ slotsPerWrap 2 = 48128 := by decide
/-- The example of R253: byte 0x01 at chest address 8, data bit 5 flipped, and a wrong word. -/
theorem test_memory_code_example : checkBits 1 1 0 = 0b01000 ∧
    (tst (fun d => { d with chest := [(8, 1)] })).dev.laneSyndrome 1 1 [(0x20, 0)] 0 = 0b10110 ∧ diagnose 0b10110 = .data 5 ∧
    (tst (fun d => { d with chest := [(8, 1), (40, 1)] })).dev.laneSyndrome 1 5 [] 0 = 0b01001 ∧ diagnose 0b01001 = .even ∧
    State.reset.dev.laneSyndrome 1 5 [] 1 = 0 := by decide +kernel
/-- A pool with `free` buffers of class 4 as in the example of R267. -/
def tclass4 (free : Nat) : Pool :=
  { configured := true, counts := [0, 0, 0, 0, 8000, 1000], issued := [(4, 8000 - free)], occ := [(4, 10), (12, 16), (20, 16), (28, 16), (36, 16),
    (44, 16), (52, 16), (60, 16), (68, 4090)] }
/-- The example of R267: owner 21 and the compressor group, owner 8, ask for 600 KiB. -/
theorem test_reserve_example : (tclass4 100).unmet 21 4 = 12 ∧ classFor 614400 = 4 ∧ (tclass4 100).pickClass 21 4 = some 4 ∧
    (tclass4 12).pickClass 21 4 = some 5 ∧ (tclass4 12).pickClass 8 4 = some 4 := by decide +kernel
/-- The example of R364: IV_FIXED 0x0000_0A17, counter 1,000. -/
theorem test_iv_example : frameIv 0xA17 1000 = [0, 0, 0x0A, 0x17, 0, 0, 0, 0, 0, 0, 0x03, 0xE8] := by decide
/-- The example of chapter 16: SPOKE3.VERIFY. -/
theorem test_page_example : pgVerify 3 = 2864 ∧ State.reset.readReg 0 (pgVerify 3) 0 = 0x0B830001 ∧ pgDetect 3 8 = 2840 ∧ pageOf 0xB37 = none := by
  decide +kernel
/-- A block that is a record of 12 bytes. -/
def tblock : PBlk := { off := 0, len := 12, first := true, last := true }
/-- The example of R113: the block that codes "abcabcabcabc" gives the 12 bytes back, and R109 stores them raw; bytes after the last token are no block. -/
def tabc : List Byte := [0x61, 0x62, 0x63, 0x61, 0x62, 0x63, 0x61, 0x62, 0x63, 0x61, 0x62, 0x63]
def tbody : List Byte := List.replicate 48 0 ++ [0x01, 0x22] ++ List.replicate 78 0 ++ [0x13, 0x92, 0x00, 0x04]
theorem test_ncf_example :
    ((decodeBlock (fun _ _ => none) (NcfHeader.bytes ⟨1, true, true, false, 12, 132, ncfCheck tabc⟩ ++ tbody)).toOption.map (·.1)) = some tabc ∧
    bodyOk true tabc tbody [] = true ∧ bodyOk false tabc tbody [] = false ∧ bodyOk true tabc (tbody ++ [0]) [] = false ∧
    (blockBytes true true tblock tabc tbody).2 = false ∧ (blockBytes true true tblock tabc tbody).1.length = 28 ∧
    (blockBytes true true tblock tabc tbody).1.take 12 = [0xA7, 0x12, 0xC0, 0, 0, 0, 0, 12, 0, 0, 0, 12] := by decide +kernel
/-- The example of R213: d(−3) = 5 and d(0) = 6, and the header at −3 fails. -/
theorem test_tries_example : triesOf (candsOf (fun k => decide (k.natAbs ≤ 24)) 6 [(-3, 5), (0, 6), (1, 7)]) = [-3, 0] ∧
    triesOf (candsOf (fun k => decide (k.natAbs ≤ 24)) 6 [(-3, 5), (0, 7)]) = [-3, 0] := by decide
/-- The example of R387: four values at 105 °C and 109 °C and 113 °C; 114 °C keeps step 3, and below 110 °C it is 2. -/
theorem test_step_example : tempStep [1680, 1680, 1680, 1680] 0 = 1 ∧ tempStep [1744, 1744, 1744, 1744] 1 = 2 ∧
    tempStep [1808, 1808, 1808, 1808] 2 = 3 ∧ tempStep [1824, 1824, 1824, 1824] 3 = 3 ∧ tempStep [1760, 1759, 1759, 1759] 3 = 3 ∧
    tempStep [1759, 1759, 1759, 1759] 3 = 2 := by decide

/-- The block of R113's worked example obeys the rules; with FIRST clear in a record's first block, a reserved bit set, or a far
reference promised and not given, it breaks them (R107). -/
theorem test_block_keeps :
    let b := (blockBytes true true tblock tabc tbody).1
    blockKeeps false true [] (fun _ _ => none) b = true ∧ blockKeeps false false [] (fun _ _ => none) b = false ∧
    blockKeeps false true [] (fun _ _ => none) (b.set 3 1) = false ∧ blockKeeps false true [] (fun _ _ => none) (b.set 2 0xE0) = false := by
  decide +kernel

/-! ### Single steps -/

/-- A next state is answered. -/
def goesOn (o : Host.Outcome State Fault Refusal) : Bool := match o with | .next _ => true | _ => false
/-- The fault that is answered. -/
def faultOf (o : Host.Outcome State Fault Refusal) : Option Fault := match o with | .fault f => some f | _ => none

/-- The timebase counts 20 ns a clock period once the crystal is stable (R19). -/
theorem test_idle_counts : (State.reset.tick).dev.now = 0 ∧ (tst (fun d => { d with crystal := true })).tick.dev.now = 20 := by decide
/-- UB-1 and UB-9 stop by name; a release and a use of a free handle go on (UB-2, log entry 18). -/
theorem test_named_stops : faultOf (exec (.chainPush (.comp 0) ⟨0, [], ⟨true, true, 5⟩⟩ 0)
      { State.reset with chains := [(0, { depth := 4, grantReg := 0, grant := 0, credits := 0 })] }) = some .pushWithoutCredit ∧ goesOn (exec (.decrement 5) State.reset) = true ∧ goesOn (exec (.increment 5) State.reset) = true := by decide +kernel
/-- A command of a cartridge that is not loaded completes with NOT_READY in its ring's completion (R310). -/
theorem test_not_ready : State.reset.dev.check { hdr := tgoodHdr, op := .unload, dom := 0 } = .status stNotReady := by decide +kernel
/-- The policies at reset (R366). -/
theorem test_reset_policies : State.reset.dev.policyOf 0 = 1 ∧ State.reset.dev.policyOf 1 = 1 ∧ State.reset.dev.policyOf 2 = 0 ∧
    State.reset.dev.policyOf 3 = 0 ∧ State.reset.dev.policyOf 4 = 1 := by decide +kernel

/-! ### The states of the witnesses -/

def xA1 : Chain := { tchain [] 4 with itemOpen := true, holder := 3 }
def xA2 : Chain := { tchain [] 4 with next := 4 }
def wA1 : State := { State.reset with pending := [.brownOut] }
def wA2 : State := tgt .mgmtTx {words := [tword], wptr := 1, seen := (0, 1), popWaits := true}
def wA3 : State := treg [(pgAlarm, Reg.ALARM.PAGE, 0)]
def wA4 : State := tst (fun d => tfld [(pgAlarm, Reg.ALARM.PAGE, 0)] tten.dev)
def wA5 : State := treg [(pgBoot, Reg.BOOT.STATE, 2)]
def wA6 : State := tch { tchain [] 4 with itemOpen := true, holder := 1 }
def wA7 : State := tch (tchain [] 4)
def wA8 : State := tch { tchain [] 4 with drain := true }
def wA9 : State := tch { tchain [] 4 with popWaits := true }
def wA10 : State := tch (tchain [(tword, false), (tword, false), (tword, false), (tword, false)] 0)
def wA11 : State := tgt (.writeLane 0 0) { words := List.replicate 32 tword, wptr := 32, rptr := 0 }
def wA12 : State := tch { tchain [(tword, false)] 3 with grantReg := 0 }
def wA13 : State := tch { tchain [(tfirst, false)] 3 with itemOpen := true }
def wA14 : State := tch { tchain [] 3 with flushBusy := true, drain := true }
def wA15 : State := tch (tchain [(tword, false)] 3)
def wA16 : State := tch { tchain [(tfirst, false)] 3 with begun := true }
def wA17 : State := tch { tchain [(tfirst, false)] 3 with cutThresh := 2 }
def wA18 : State := tch (tchain [] 3)
def wA19 : State := tch { tchain [] 4 with latch := some (tword, 1) }
def wA20 : State := tch { tchain [] 4 with latch := some (tword, 3) }
def wA21 : State := tgt .mgmtRx {}
def wA22 : State := tgt .mgmtRx { latch := some (tword, 1) }
def wA23 : State := tgt .mgmtRx { words := [tword], wptr := 1 }
def wA24 : State := tgt .mgmtRx { words := [tword], wptr := 1, tries := 2 }
def wA25 : State := tgt .mgmtRx {words := List.replicate 31 tword, wptr := 31}
def wA26 : State := tgt .mgmtRx {words := List.replicate 32 tword, wptr := 32}
def wA27 : State := tgt (.sample 0 0) {words := List.replicate 32 tword, wptr := 32}
def wA28 : State := tgt .mgmtRx {words := [tword], wptr := 1}
def wA29 : State := tgt .mgmtTx {words := [tword], wptr := 1, seen := (1, 1)}
def wA30 : State := tgt .mgmtTx {words := [tword], wptr := 1, seen := (0, 1)}
def wA31 : State := treg [(pgWriter 0, Reg.HEADER.QUIESCE_REQ, 1)]
def wA32 : State := treg [(pgWriter 7, Reg.HEADER.QUIESCED, 1)]
def wA33 : State := treg [(pgCrypt 1, Reg.HEADER.RETIRED, 1), (pgCrypt 0, Reg.HEADER.QUIESCED, 1)]
def wA34 : State := treg [(pgCrypt 0, Reg.HEADER.QUIESCED, 1)]
def wA35 : State := treg [(pgCrypt 0, Reg.HEADER.ENABLE, 0)]
def wA36 : State := tst (fun d => {d with now := 2^40+5, keep := {d.keep with seq := 2^35 + 3, ledger := (List.range 64).map (BitVec.ofNat 8)}})
def wA37 : State := tst (fun d => {d with now := 2^40+5, keep := {d.keep with seq := 2^35 + 3}})

/-- An object of 100 stored bytes, ready to be placed. -/
def tobj : Obj := { num := 0, mark := false, stream := 0, pieces := [⟨0, 0, 100⟩], blocks := [(0, 84)], ready := true, charge := 128 }
/-- A data sheet, open and empty; one that is full. -/
def tsheet : Sheet := { num := 0, kind := 1 }
def tfull : Sheet := { num := 0, kind := 1, payloadEnd := 8388608 }
/-- A spoke whose packer holds the object, with the sheet open. -/
def tpack (x : Option Sheet) : Spoke :=
  { wr := { objs := [tobj], sheets := x.toList, openSheet := x.map (·.num) } }
/-- A spoke whose writer holds the sheet closed. -/
def tclosed (x : Sheet) : Spoke := { wr := { sheets := [x], closedQ := [x.num] } }
/-- A pool of buffers of every class, the reserves taken down to nothing. -/
def tpool : Pool := { counts := [16, 16, 16, 16, 16, 16], configured := true, reserve := ((List.range 9).flatMap (fun o =>
  (List.range 6).map (fun c => (8 * o + c, 0)))).filter (fun p => decide (reserveReset p.1 ≠ 0)) }
/-- A copy whose 2,048 verdicts are in. -/
def tcopy : Copy := { gen := 0, wrap := 0, areaDone := true, verdicts := List.replicate 2048 (0, .pass) }
/-- A segment of sheet 0, its first copy. -/
def tseg : SegId := ⟨0, 5, 0, 0, false⟩
/-- What a tile says of a good row. -/
def tgood : SegResult := ⟨true, 1, 60, false, false⟩
/-- A spoke with the slot of sheet 0 in progress. -/
def tslot (c : Copy) (l : List Stage) (v : Option VDec) : Spoke :=
  { wr := { sheets := [{ num := 0, kind := 1, closed := true, sealedF := true, copies := [c] }], slot := some (0, 0), lane0 := l, lane1 := l,
            running := true, verifying := v } }
/-- A parity sheet, and the first data sheet of a block, closed, with buffers to be had. -/
def tsealP : State := tst (fun d => { d.setSp 0 (tclosed { tsheet with kind := 2 }) with pool := tpool })
def tsealD : State := tst (fun d => { d.setSp 0 { tclosed tsheet with sess := { sbSheet := 5 } } with pool := tpool })
def xB10 : Sheet := { num := 0, closed := true, sealedF := true, given := true, kind := 3, copies := [tcopy] }
def xB9 : Sheet := { num := 0, closed := true, sealedF := true, kind := 1, copies := [tcopy] }
def xB11 : Sheet := { num := 0, closed := true, sealedF := true, kind := 4, copies := [tcopy] }
def xB5 : Copy := { tcopy with verdicts := [], fillCuts := [5] }
def xB6 : Copy := { tcopy with verdicts := [], cuts := [40] }
def xB7 : SegId := { tseg with fill := true, row := 6 }
def xB3 : SegResult := { tgood with converged := false }
def xB8 : Copy := { tcopy with verdicts := [] }
def xB4 : SegId := { tseg with fill := true }
def xB1 : Sheet := { tsheet with kind := 2 }
def wB1 : State := tspk (tpack none) [(pgWriter 0, Reg.HEADER.MODE_IN_FORCE, 1)]
def wB2 : State := tspk (tpack none) [(pgWriter 0, Reg.WRITER.HALTED, 1)]
def wB3 : State := tspk (tpack none) [(pgMgmt, Reg.MGMT.FENCED, 1)]
def wB4 : State := tspk (tpack none) [(pgWriter 0, Reg.HEADER.QUIESCE_REQ, 1)]
def wB5 : State := tspk (tpack (some tsheet)) []
def wB6 : State := tspk (tpack (some tfull)) []
def wB7 : State := tst (fun d => { d.setSp 0 (tpack (some tfull)) with pool := tpool })
def wB8 : State := tspk (tpack none) []
def wB9 : State := tspk { wr := { sheets := [tsheet, { tsheet with num := 1, bank := true }, { tsheet with num := 2, bank := true }], closedQ := [0] } } []
def wB10 : State := tspk (tclosed tsheet) []
def wB11 : State := tst (fun d => d.setSp 0 (tclosed xB1))
def wB12 : State := tspk (tslot tcopy [] none) []
def wB13 : State := tspk (tslot { tcopy with verdicts := (5, .fail) :: tcopy.verdicts } [] none) []
def wB14 : State := tst (fun d => { d.setSp 0 (let x := tslot tcopy [] none; { x with wr := { x.wr with sheets := { num := 1, kind := 1, closed := true, sealedF := true, copies := [] } :: x.wr.sheets, dueQ := [(1, 0)] } }) with pool := tpool })
def wB15 : State := tspk (tslot tcopy [.closing] none) []
def wB16 : State := tspk (let x := tslot tcopy [.closing] none; { x with wr := { x.wr with cands := [⟨0, 0, 5, 0⟩] } }) []
def wB17 : State := tspk (tslot xB8 [.closing] none) []
def wB18 : State := tspk {} []
def wB19 : State := tspk { wr := { (tslot tcopy [.slot 0 0] none).wr with winh := true } } []
def wB20 : State := tspk { wr := { (tslot tcopy [.slot 0 0] none).wr with gated0 := true, frame0 := 11 } } []
def wB21 : State := tspk (tslot xB5 [] none) []
def wB22 : State := tspk (tslot xB6 [] none) []
def wB23 : State := tspk (tslot xB8 [] none) []
def wB24 : State := tspk { wr := { sheets := [xB9], running := true, verifying := some ⟨0, 0, 0, 40, 6⟩ } } []
def wB25 : State := tspk { wr := { sheets := [xB9], running := true, verifying := some ⟨0, 3, 0, 40, 6⟩ } } []
def wB26 : State := tspk { wr := { sheets := [xB10], running := true, verifying := some ⟨0, 0, 0, 40, 6⟩ } } []
def wB27 : State := tspk { wr := { sheets := [xB10], running := true, verifying := some ⟨0, 3, 0, 40, 6⟩ } } []
def wB28 : State := tspk { wr := { sheets := [xB11], running := true, verifying := some ⟨0, 0, 0, 40, 6⟩ } } []
def wB29 : State := tspk { wr := { sheets := [xB11], running := true, verifying := some ⟨0, 3, 0, 40, 6⟩ } } []
def wB30 : State := tspk { wr := { winh := true } } []
def wB31 : State := tspk { wr := { winh := true, shock := true } } []
def wB32 : State := tspk { wr := { winh := true } } [(pgWriter 0, Reg.WRITER.INHIBIT, 1)]
def wB33 : State := treg [(pgWriter 0, Reg.WRITER.DEAD_MAP_HI, 5), (pgWriter 0, Reg.WRITER.DEAD_MAP_LO, 3), (pgWriter 0, Reg.WRITER.DEAD_COUNT, 4)]

/-- A spoke that streams a read run at cog 12. -/
def tstream (r : Bool) : Spoke := { drv := { streaming := true, reading := r, tapeStopped := false, present := true } }
/-- A spoke ready to run up: a sheet due, the tape parked where the next slot is written. -/
def tready (up : Bool) : Spoke :=
  { drv := { parked := true, atWrite := true, runUp := up, present := true, tapeStopped := !up }, sess := { isOpen := true, eodInvalid := true },
    wr := { sheets := [{ num := 0, kind := 1, closed := true, sealedF := true, bank := true, copies := [{ gen := 0, wrap := 0 }] }], dueQ := [(0, 0)] } }
/-- A spoke with a cartridge memory request outstanding. -/
def tcm (k : Nat) : Spoke :=
  { drv := { present := true, cm := [{ use := .usage, isWrite := true, off := 0, len := 32, next := 32 }], cmOut := [⟨3, 0, 32, k⟩] } }
/-- A cartridge is in use on spoke 0, and the module is ready. -/
def tuse : List (PageId × Fld × Nat) := [(pgMotion 0, Reg.MOTION.CART_STATE, 3), (pgMgmt, Reg.MGMT.READY, 1), (pgMotion 0, Reg.MOTION.ENV_OK, 1)]
/-- A spoke whose locate toward wrap 0 has its target in reach. -/
def tloc : Spoke :=
  { drv := { target := some (0, 2000, 1), tapeStopped := false, frameNo := some (0, 0), lastVel := cogSpeed 1, present := true } }
/-- A spoke that stopped a read run for want of room, parked. -/
def trsm : Spoke := { drv := { parked := true, present := true }, rd := { stopped := true }, rdst := some { stream := 0, target := 0, obj := 0 } }

/-- Readers' frames, taken apart as the servo frame command carries them. -/
def xC2 : CmXfer := { use := .usage, isWrite := true, off := 0, len := 32, next := 32 }
def wC1 : State := tspk (tready false) tuse
def wC3 : State := tspk { drv := { invalidRun := 15 } } []
def wC4 : State := tspk { drv := { invalidRun := 16, tapeStopped := false, streaming := true } } []
def wC5 : State := tspk (tstream false) [(pgMotion 0, Reg.MOTION.TENSION, 99)]
def wC6 : State := tspk (tstream true) [(pgMotion 0, Reg.MOTION.TENSION, 2047)]
def wC7 : State := tspk { drv := { tensionLow := true, tapeStopped := false } } []
def wC8 : State := tspk (tstream false) [(pgMotion 0, Reg.MOTION.TENSION, 850)]
def wC13 : State := treg [(pgMotion 0, Reg.MOTION.CART_STATE, 2), (pgMotion 0, Reg.MOTION.PHASE, 3)]
def wC14 : State := tspk { drv := { needTension := true, target := some (0, 2000, 1) } } tuse
def wC15 : State := treg [(pgMotion 0, Reg.MOTION.CART_STATE, 2), (pgMotion 0, Reg.MOTION.PHASE, 4)]
def wC16 : State := tspk { drv := { lost := true, invalidRun := 16 } } tuse
def wC17 : State := tspk { drv := { lost := true, invalidRun := 16 } } [(pgMotion 0, Reg.MOTION.CART_STATE, 2), (pgMotion 0, Reg.MOTION.PHASE, 5)]
def wC18 : State := tspk { drv := { dSupply := 5, lastVel := 1000 } } [(pgServo 0, Reg.SERVO.VALID, 1), (pgLink 0, Reg.LINK.CAD_ON, 1)]
def wC19 : State := tspk { drv := { dSupply := 5, dTakeup := 3, lastVel := 1000 } } [(pgMgmt, Reg.MGMT.FENCED, 1), (pgLink 0, Reg.LINK.CAD_ON, 1)]
def wC20 : State := tspk { drv := { unloadStep := 4 } } []
def wC21 : State := tspk (tstream false) [(pgDr 0, Reg.DERAILLEUR.SHIFTING, 1), (pgDr 0, Reg.DERAILLEUR.TARGET_COG, 4)]
def wC22 : State := tspk (tstream false) [(pgDr 0, Reg.DERAILLEUR.SHIFTING, 1), (pgDr 0, Reg.DERAILLEUR.SHIFT_DWELL, 0)]
def wC23 : State := tspk (tstream false) [(pgDr 0, Reg.DERAILLEUR.DWELL, 1)]
def wC24 : State := tspk (tstream true) [(pgDr 0, Reg.DERAILLEUR.TARGET_COG, 11), (pgDr 0, Reg.DERAILLEUR.RA_FILL_MIB, 65535)]
def wC25 : State := tspk (tstream true) [(pgDr 0, Reg.DERAILLEUR.TARGET_COG, 2)]
def wC26 : State := tspk (tstream true) [(pgDr 0, Reg.DERAILLEUR.TARGET_COG, 2), (pgDr 0, Reg.DERAILLEUR.RA_FILL_MIB, 768)]
def wC27 : State := treg [(pgDr 0, Reg.HEADER.MODE_IN_FORCE, 1)]
def wC28 : State := tspk (tstream true) [(pgDr 0, Reg.HEADER.MODE_IN_FORCE, 1), (pgDr 0, Reg.DERAILLEUR.CUR_COG, 12), (pgDr 0, Reg.DERAILLEUR.RA_FILL_MIB, 65535)]
def wC29 : State := tspk (tstream true) [(pgDr 0, Reg.HEADER.MODE_IN_FORCE, 1)]
def wC30 : State := tspk { drv := { tapeStopped := false } } [(pgMotion 0, Reg.MOTION.STATE, 5)]
def wC31 : State := tspk { drv := { tapeStopped := false, reelFault := true } } [(pgMotion 0, Reg.MOTION.STATE, 6)]
def wC32 : State := tspk { drv := { tapeStopped := false } } [(pgMotion 0, Reg.MOTION.STATE, 6)]
def wC33 : State := tspk { drv := { tapeStopped := false, head := 1 } } [(pgMotion 0, Reg.MOTION.STATE, 5)]
def wC34 : State := tspk (tready false) ((pgMotion 0, Reg.MOTION.STATE, 5) :: tuse)
def wC35 : State := tspk { drv := { turning := true }, rd := { locating := some 5 } } tuse
def wC36 : State := tspk { drv := { runUp := true, tapeStopped := false } } []
def wC37 : State := tspk (tready true) tuse
def wC38 : State := tspk { drv := { runUp := true, tapeStopped := false }, rd := { locating := some 5 } } tuse
def wC39 : State := tspk { drv := { target := some (0, 0, 1) } } tuse
def wC40 : State := tspk tloc ((pgMotion 0, Reg.MOTION.STATE, 3) :: (pgServo 0, Reg.SERVO.VALID, 1) :: tuse)
def wC41 : State := tspk trsm tuse
def wC43 : State := tspk { drv := { envInner := true } } [(pgMotion 0, Reg.MOTION.ENV_HOLD, 1)]
def wC44 : State := treg [(pgMotion 0, Reg.MOTION.ENV_HOLD, 1)]
def wC45 : State := tst (fun d => { d with stws := [(4, { state := 1 })] })
def wC46 : State := treg [(pgMotion 0, Reg.MOTION.CART_STATE, 2), (pgMotion 0, Reg.MOTION.PHASE, 5)]
def wC47 : State := treg [(pgMotion 0, Reg.MOTION.CART_STATE, 2), (pgMotion 0, Reg.MOTION.PHASE, 6)]
def wC48 : State := tspk (let x := tstream false; { x with drv := { x.drv with errSums := [(0, (4, 12)), (1, (4, -12)), (2, (4, 0)), (3, (4, 4))] } }) tuse
def wC49 : State := treg tuse
def wC52 : State := tspk { drv := { present := true } } []
def wC54 : State := tspk { drv := { present := true } } tuse
def wC55 : State := tspk { drv := { present := true } } [(pgMgmt, Reg.MGMT.READY, 1)]
def wC56 : State := treg [(pgMotion 0, Reg.MOTION.CART_STATE, 2), (pgMotion 0, Reg.MOTION.PHASE, 2)]
def wC57 : State := tspk (tcm 0) tuse
def wC58 : State := tspk (tcm 3) tuse
def wC59 : State := tspk (tcm 2) tuse

/-- A lane that follows sheet 3 at position 30; one before its last position; one in gap search. -/
def tlane (m : LaneMode) (pos misses : Nat) (tiles : SMap (List TileSeg)) : Spoke :=
  { rd := { lanes := [(5, { mode := m, sheet := 3, pos := pos, misses := misses, known := true })], tiles := tiles } }
/-- A segment of lane 5 at a tile. -/
def tseg5 (r : Bool) : TileSeg := { lane := 5, seg := ⟨3, 5, 0, 0, false⟩, ready := r }
/-- Every lane enabled as after reset. -/
def tbuf16 : SMap (List TileSeg) := (List.range 9).map (fun t => (t, List.replicate 16 (tseg5 true)))
/-- A spoke reading, with the sheet given held and the ladder given. -/
def trd (x : List RSheet) (l : Ladder) : Spoke :=
  { drv := { streaming := true, reading := true, tapeStopped := false }, rd := { sheets := x, ladder := l } }
/-- A capture record of row 0 of sheet 0. -/
def tcap : CapRec := { lane := 0, zone := 2, seg := ⟨0, 0, 0, 0, false⟩, align := 0, rehunt := true, samples := [] }
def trow (c : Bool) : RowRec := { converged := c, suspect := false, llr := 10, data := [] }
/-- A row of each number, all converged. -/
def trows (l : List Nat) : SMap RowRec := l.map (fun r => (r, trow true))
/-- A sheet whose rows have all converged. -/
def tall : RSheet := { num := 0, busy := true, decodes := 1, rows := trows (List.range 2048) }
/-- A header of lane 5's first segment of sheet 3, as read at the flywheel alignment. -/
def tsegHdr : List (Int × List Bool) := [(0, scrambleHeader 5 (SegHeader.bits (headerOf 1 3 5 0 0 0 0 0)))]
/-- Decisions of a tile that do not make a codeword. -/
def tout : TileOut := ⟨[], 13, 60⟩
/-- The servo's blocks are in host calibration, so nothing trims. -/
def tcal : PageId × Fld × Nat := (pgServo 0, Reg.HEADER.MODE_IN_FORCE, 1)
/-- A ladder that rebuilds the one data sheet of a ream; the two parity sheets were not met. -/
def tlone : Spoke := { rd := { sheets := [{ num := 0 }], gaps := [(1, 120)], ladder := { phase := .rebuild, stage := 4 } } }
def xD7 : RSheet := { num := 0, kind := 3, busy := true, decodes := 2, rows := [(0, trow true)] }
def xD10 : RSheet := { num := 0, rows := trows (List.range 2048) }
def xD5 : RSheet := { num := 0, busy := true, decodes := 1 }
def xD6 : RSheet := { num := 0, busy := true, decodes := 2 }
def xD2 : TileSeg := { tseg5 false with inArea := true }
def xD8 : RSheet := { num := 0, decodes := 1 }
def xD3 : RSheet := { num := 0 }
def xD4 : RSheet := { num := 5 }
def wD1 : State := treg [(lfe 0 5, Reg.LANEFE.ENABLE 5, 0)]
def wD2 : State := tspk (tlane .locked 30 0 []) []
def wD3 : State := tspk (tlane .locked 31 0 []) []
def wD4 : State := tspk (tlane .locked 0 0 tbuf16) []
def wD5 : State := tspk (tlane .locked 0 0 []) []
def wD6 : State := tspk (tlane .locked 0 0 [(8, [xD2])]) []
def wD7 : State := tspk (tlane .locked 0 0 [(8, [tseg5 false])]) []
def wD8 : State := tspk (tlane .locked 0 0 [(8, [tseg5 false, tseg5 true])]) []
def wD9 : State := tspk { tlane .gap 0 0 [] with rd := { lanes := [(5, { sheet := 9 }), (6, { mode := .locked, sheet := 9, passed := true, known := true })] } } []
def wD10 : State := tspk (tlane .locked 0 4 []) []
def wD11 : State := tspk (tlane .locked 0 3 []) []
def wD12 : State := tspk { rd := { noHeader := 64 } } []
def wD13 : State := tspk { rd := { noHeader := 63 } } []
def wD14 : State := treg [tcal]
def wD15 : State := tspk (trd [] {}) [tcal]
def wD16 : State := tspk (trd [xD4] {}) [tcal]
def wD17 : State := tspk (trd [tall] {}) []
def wD18 : State := tspk (trd [xD5] {}) []
def wD19 : State := tspk (trd [xD6] {}) []
def wD20 : State := tspk (trd [xD7] {}) []
def wD21 : State := tspk (trd [xD8] {}) []
def wD22 : State := tspk { trd [] {} with rd := { hold := [(4, tcap)], sheets := [{ num := 0, rows := [(0, trow false)] }], ladder := { phase := .replay, rung := 1, replay := none, lim := { iters := 32 } } } } []
def wD23 : State := treg [(pgDecode 0 8, Reg.HEADER.ENABLE, 0)]
def wD24 : State := tspk (trd [] { phase := .replay, rung := 1, replay := some (8, 31) }) []
def wD25 : State := tspk { trd [] {} with rd := { hold := [(4, tcap)], sheets := [{ num := 0, rows := [(0, trow false)] }], ladder := { phase := .replay, rung := 1, replay := some (8, 4), lim := { iters := 32 } } } } []
def wD26 : State := tspk { trd [] {} with rd := { hold := [(4, tcap), (7, { tcap with seg := ⟨0, 1, 0, 0, false⟩, stamp := 2 })], sheets := [{ num := 0, rows := [(0, trow false)] }], ladder := { phase := .replay, rung := 1, replay := some (8, 4), lim := { iters := 32 } } } } []
def wD27 : State := tspk (trd [xD3] { phase := .decode }) []
def wD28 : State := tspk (trd [xD3] { phase := .decode, rung := 1 }) []
def wD29 : State := tspk (trd [xD10] { phase := .decode, rung := 1 }) []
def wD30 : State := tspk (trd [xD3] { phase := .decode, rung := 2 }) []
def wD31 : State := tspk (trd [xD10] { phase := .decode, rung := 2 }) []
def wD32 : State := tspk (trd [xD3] { phase := .decode, rung := 4 }) []
def wD33 : State := tspk (trd [xD10] { phase := .decode, rung := 4 }) []
def wD34 : State := tspk tlone []
def wD35 : State := tspk (trd [] { phase := .rebuild, stage := 4 }) []
def wD36 : State := tspk (trd [xD3] { phase := .waitHost }) []
def wD37 : State := tspk (trd [xD3] { phase := .waitHost }) [(pgSh 0, Reg.SAMPLEHOLD.HOST_WAIT, 1)]
def wD38 : State := treg [(pgSh 0, Reg.SAMPLEHOLD.HOST_WAIT, 0)]

/-- A record of 3 host bytes in the press, whole; its block. -/
def tblk (st : BlkSt) : PBlk := { off := 0, len := 3, first := true, last := true, st := st }
def trec (started cut : Bool) (b : List PBlk) : PRec :=
  { stream := 0, spoke := 0, num := some 0, started := started, cut := cut, blks := b }
/-- A press that holds the records given. -/
def tpress (l : List PRec) (f : List (PageId × Fld × Nat)) : State := tst (fun d => { tfld f d with recs := l, streams := [(0, { isOpen := true, lead := some 3 })] })
/-- A READ on spoke 0 with the block given. -/
def trs (x : ReadSt) : State := tspk { rdst := some x } []
def trblk (st : RBlkSt) : ReadSt := { stream := 0, target := 0, obj := 0, phase := .run, blks := [{ bytes := [], first := true, last := true, st := st }] }
/-- A record whose two bytes lie in a chest buffer. -/
def tbytes : PRec := { stream := 0, spoke := 0, num := some 0, started := true, src := [⟨0, 0, 2⟩] }
/-- A key slot at the end of its counter. -/
def tend : State := tst (fun d => { d with recs := [{ trec true true [tblk .toCrypt] with enc := true }], keep := { d.keep with slots := [(0, { loaded := true, ivCount := 2 ^ 64 })] } })
/-- 200 zero bytes, and a coded body of theirs: one literal, one near copy. -/
def tzeros : List Byte := List.replicate 200 0
def tkept : List Byte := [0x10] ++ List.replicate 127 0 ++ [0x20, 0x63, 0x80, 0x00, 0x00]
def xE4 : ReadSt := { trblk .done with blks := [{ bytes := [], first := true, last := true, st := .done }, { bytes := (NcfHeader.bytes ⟨1, false, true, true, 0, 0, 0⟩), first := false, last := true, st := .coding 16 }] }
def xE5 : RBlk := { bytes := (NcfHeader.bytes ⟨1, false, true, true, 0, 0, 0⟩), first := false, last := true, st := .coding 16 }
def xE8 : ReadSt := { trblk .frame with blks := [{ bytes := [], first := true, last := true, st := .frame, failedOn := some 0 }] }
def xE9 : RBlk := { bytes := [], first := true, last := true, st := .frame, failedOn := some 0 }
def xE1 : PRec := { trec false false [] with num := none, more := true, startThresh := 1 }
def xE3 : RBlk := { bytes := [], first := true, last := true, st := .coding 16 }
def xE7 : RBlk := { bytes := [], first := true, last := true, st := .frame }
def xE6 : ReadSt := { trblk .done with susp := some 16, left := 5 }
def xE2 : PRec := { tbytes with more := true, num := none }
def wE1 : State := tpress [trec false false []] []
def wE2 : State := tpress [xE1] []
def wE3 : State := tst (fun d => { tfld ((List.range 17).map (fun i => (pgComp i, Reg.HEADER.ENABLE, 0))) d with recs := [trec false false []], streams := [(0, { isOpen := true })] })
def wE4 : State := tst (fun d => { d with recs := [trec false false []], streams := [(0, { isOpen := true })] })
def wE5 : State := tpress [trec true false []] []
def wE6 : State := tpress [tbytes] []
def wE7 : State := tpress [xE2] []
def wE8 : State := treg [(pgComp 16, Reg.COMP.ACTIVE, 1)]
def wE9 : State := tpress [trec true true [tblk .queued]] []
def wE10 : State := tpress [{ trec true true [{ tblk .queued with seq := 3 }] with spoke := 1 }, trec true true [{ tblk .finished with seq := 1 }, { tblk .queued with seq := 2 }]] []
def wE11 : State := tpress [trec true true [{ tblk .finished with eng := 16, bytes := [1] }]] [(pgComp 16, Reg.COMP.WAIT_BUF, 1)]
def wE12 : State := tpress [trec true true [tblk (.coding 16)]] [(pgComp 16, Reg.COMP.ACTIVE, 1)]
def wE13 : State := treg [(pgDecomp 16, Reg.DECOMP.ACTIVE, 1)]
def wE14 : State := trs (trblk .ncf)
def wE15 : State := trs (trblk (.coding 16))
def wE16 : State := trs xE4
def wE17 : State := trs (trblk (.waitFar 16))
def wE18 : State := trs { trblk .done with blks := [{ bytes := [], first := true, last := true, st := .done }, { bytes := (NcfHeader.bytes ⟨1, false, true, true, 0, 0, 0⟩), first := false, last := true, st := .waitFar 16 }] }
def wE19 : State := trs xE6
def wE20 : State := treg [(pgCrypt 1, Reg.HEADER.ENABLE, 0)]
def wE21 : State := treg [(pgCrypt 1, Reg.HEADER.QUIESCE_REQ, 1)]
def wE22 : State := tpress [{ trec true true [tblk .toCrypt] with enc := true }] []
def wE23 : State := trs (trblk .frame)
def wE24 : State := trs xE8

def wM1 : State := tst (fun d => { d with vmFill := [(0, true)], vmValid := [(0, true)] })
def wM2 : State := tst (fun d => { d with vmValid := [(0, true)] })
def wM3 : State := treg [(pgVmap, Reg.VALIDMAP.BUSY, 1)]
def wM4 : State := treg [(pgVmap, Reg.VALIDMAP.VM_CLR_BASE_PAGE, 16777215), (pgVmap, Reg.VALIDMAP.COUNT, 1)]
def wM5 : State := tst (fun d => { d with vmClr := some (0, 1), vmValid := [(0, true), (1, true)], chest := [(5, 7), (4096, 9)] })
def wM6 : State := tst (fun d => { d with vmClr := some (0, 1), vmFill := [(0, true)] })
def wM7 : State := tst (fun d => { d with vmValid := [(0, true)], chest := [(5, 7)] })
def wM8 : State := tst (fun d => { d with pool := tpool })
def wM9 : State := tst (fun d => { d with pool := { tpool with counts := [0, 1, 1, 1, 1, 1] } })
def wM10 : State := tst (fun d => { d with pool := { tpool with counts := [0, 0, 0, 0, 0, 0] } })
def wM11 : State := tst (fun d => { d with pool := { tpool with applying := some [] } })
def wM12 : State := tst (fun d => { d with pool := { tpool with freed := [(1, [20])] } })
def wM13 : State := tst (fun d => { d with pool := { tpool with desc := [(0, ⟨255, 16⟩)] } })
def wM14 : State := tst (fun d => { d with pool := { tpool with desc := [(0, ⟨1, 16⟩)] } })
def wM15 : State := tst (fun d => { d with pool := { tpool with desc := [(0, ⟨253, 16⟩)] } })
def wM16 : State := tst (fun d => { d with pool := { tpool with desc := [(0, ⟨254, 16⟩)] } })
def wM17 : State := tst (fun d => { d with pool := { tpool with lost := [0] } })
def wM18 : State := tst (fun d => { d with pool := { tpool with desc := [(0, ⟨2, 16⟩)] } })
def wM19 : State := tst (fun d => { d with pool := { tpool with desc := [(0, ⟨1, 16⟩)], occ := [(133, 1)], issued := [(5, 1)] } })
def wM20 : State := tst (fun d => { d with vmValid := [(3, true)], pool := { tpool with desc := [(0, ⟨1, 16⟩)], occ := [(133, 1)], issued := [(5, 1)] } })
def wM21 : State := tst (fun d => { (tfld [(pgMemctl 0, Reg.MEMCTL.TRAINED, 1), (pgMemctl 1, Reg.MEMCTL.TRAINED, 1), (pgMemctl 2, Reg.MEMCTL.TRAINED, 1), (pgMemctl 3, Reg.MEMCTL.TRAINED, 1)] d) with pool := { tpool with applying := some [1, 1, 1, 1, 1, 1] } })
def wM22 : State := tst (fun d => { (tfld [(pgPool, Reg.POOL.NOBUF_WAIT, 1)] d).setSp 0 { noBuf := true } with pool := tpool })
def wM23 : State := tst (fun d => { (tfld [(pgPool, Reg.POOL.NOBUF_WAIT, 0)] d).setSp 0 { noBuf := true } with pool := tpool })

/-- The state with endpoint 0 as given, and fields written. -/
def tep (x : Endpt) (l : List (PageId × Fld × Nat)) : State := tst (fun d => { tfld l d with endpts := [(0, x)] })
/-- The state with submission ring 0 and completion ring 0 as given. -/
def trg (x : Sq) (y : Cq) (l : List (PageId × Fld × Nat)) : State := tst (fun d => { tfld l d with sqs := [(0, x)], cqs := [(0, y)], keep := { d.keep with prot := [] } })
/-- Function 0's ring, enabled. -/
def tsq : Sq := { size := 4, tail := 3, credits := 15, creditReg := 0xFFF }
def wF1 : State := tst (fun d => { d with therm := { d.therm with mains := true }, endpts := [(0, { perst := false })] })
def wF2 : State := treg [(pgPcie 0, Reg.PCIE.LINK_UP, 1)]
def wF3 : State := tep { perst := false, wasUp := true } []
def wF4 : State := tep { perst := false } []
def wF7 : State := treg [(pgMsix 0, Reg.MSIX.PF_VECTORS, 32)]
def wF8 : State := tst (fun d => { tfld [(pgMsix 0, Reg.MSIX.PF_VECTORS, 32)] d with vecPending := [(31, true)], funcs := [(0, { bme := true })] })
def wF9 : State := treg [(pgPcie 0, Reg.PCIE.LINK_UP, 1), (pgBoot, Reg.BOOT.STATE, 1)]
def wF10 : State := tst (fun d => { (trg tsq { size := 4 } []).dev with funcs := [(0, { bme := true })] })
def wF11 : State := trg { tsq with heldNobuf := true } { size := 4 } []
def wF12 : State := trg tsq {} []
def wF13 : State := trg { tsq with tail := 0 } { size := 4 } []
def wF14 : State := tst (fun d => { (trg { tsq with tail := 14 } { size := 4 } []).dev with funcs := [(0, { bme := true })], endpts := [(0, { ctl := { readReq := 128 } })] })
def wF15 : State := trg { tsq with head := 14, tail := 3, turns := [4, 1] } { size := 4 } []
def wF16 : State := tst (fun d => { (trg {} { size := 4, pendingMsg := 2 } [(pgMsix 0, Reg.MSIX.PF_VECTORS, 32)]).dev with funcs := [(0, { bme := true })], vecMasked := [(0, false)] })
def wF17 : State := trg { tsq with head := 14, turns := [4] } { size := 4 } []
def wF22 : State := trg { wBaseLo := 7, wFunc := 3, head := 2, outstanding := 2, credits := 1 } {} []
def wF23 : State := trg tsq { size := 3 } []
def wF24 : State := trg { tsq with turns := [2] } {} []
def wF25 : State := trg tsq { size := 3, pendingMsg := 1 } []
def wF26 : State := trg { tsq with creditReg := 3, credits := 3 } {} []
def wF27 : State := trg {} { size := 3, tail := 2 } []
def wF28 : State := trg { tsq with creditReg := 9, credits := 3, outstanding := 2, turns := [1] } {} []
def wF29 : State := trg { wFunc := 3, wCq := 1 } {} []
def wF30 : State := treg [(pgPcie 0, Reg.PCIE.WINDOW, 9)]
def wF31 : State := tep { beat := some (1, 1) } []
def wF32 : State := treg [(pgMgmt, Reg.MGMT.HOLDING, 128), (pgMgmt, Reg.MGMT.UNLOAD_MIN, 5)]
def wF33 : State := treg [(pgAlarm, Reg.ALARM.FENCE_LO, 0xC), (pgAlarm, Reg.ALARM.FENCE_HI, 0xF)]
def wF34 : State := treg [(pgPcie 0, Reg.PCIE.HOST_LOST, 1), (pgPcie 0, Reg.PCIE.LINK_UP, 1), (pgPcie 0, Reg.PCIE.CAUSE, 2)]

/-- A command header for a target: stream 0, no data pointer. -/
def thdr (t : Nat) : CmdHdr := ⟨0, 1, false, t, 0, 0, 0, 0, []⟩
/-- A header with a length of data. -/
def tlen (t m : Nat) : CmdHdr := ⟨0, 1, false, t, 0, m, 0, 100, []⟩
/-- A header that names chest buffer 0. -/
def tbuf (t : Nat) : CmdHdr := ⟨0, 1, false, t, 0, 3, 0, 100, []⟩
/-- A cartridge in use on spoke 0. -/
def tcart3 : List (PageId × Fld × Nat) := [(pgMotion 0, Reg.MOTION.CART_STATE, 3)]
/-- A spoke with an initialised cartridge of one partition. -/
def tcart : Spoke := { cart := { initialised := true, parts := [⟨0, 100⟩], eods := [{}] } }
/-- The spoke in use. -/
def tin (l : List (PageId × Fld × Nat)) : State := tspk tcart (tcart3 ++ l)
/-- The same with stream 0 open. -/
def tinS (l : List (PageId × Fld × Nat)) : State := tst (fun d => { (tin l).dev with streams := [(0, { isOpen := true })], pool := d.pool })
/-- The spoke in use with a job in progress. -/
def tcur (j : Job) (k : Nat) (l : List (PageId × Fld × Nat)) : State :=
  tst (fun d => { (tspk { tcart with cur := some j, curStep := k } (tcart3 ++ l)).dev with streams := [(0, { isOpen := true })], pool := d.pool })
/-- A WRITE of no data. -/
def twrite : Job := { hdr := thdr 0, op := .write false false false, dom := 0 }
/-- A host-managed pool whose buffer 0 is issued once. -/
def tpoolH (free : Nat) : Pool := { counts := [free, free, free, free, free, free], configured := true, reserve := ((List.range 9).flatMap (fun o => (List.range 6).map (fun c => (8 * o + c, 0)))).filter (fun p => decide (reserveReset p.1 ≠ 0)), hostManaged := [(16, true)], desc := [(0, ⟨1, 16⟩)], domRefs := [(0, 1)] }
def tpl (p : Pool) : State := tst (fun d => { d with pool := p })
def xG8 : Job := { twrite with hdr := ⟨0, 1, false, 0, 0, 2, 0, 100, [⟨0, 50, false, false⟩]⟩ }
def xG3 : Job := { hdr := thdr 8, op := .takeover, dom := 2 }
def xG1 : Job := { hdr := thdr 9, op := .unload, dom := 0 }
def xG2 : Job := { hdr := thdr 8, op := .unload, dom := 0 }
def xG4 : Job := { hdr := thdr 0, op := .unload, dom := 0 }
def xG5 : Job := { hdr := thdr 7, op := .unload, dom := 0 }
def xG6 : Job := { hdr := thdr 0, op := .sync, dom := 0 }
def xG7 : Job := { twrite with hdr := thdr 3 }
def wG1 : State := tspk { cur := some twrite } []
def wG2 : State := tst (fun d => { d with keep := { d.keep with prot := [(0, 2)] } })
def wG3 : State := tin []
def wG4 : State := tst (fun d => d.fence 0 4)
def wG5 : State := treg tcart3
def wG6 : State := tinS []
def wG7 : State := tspk { recStream := some 0 } []
def wG8 : State := tst (fun _ => { (tin []).dev with funcs := [(0, { bme := true })] })
def wG9 : State := tst (fun _ => { (tin []).dev with pool := tpoolH 1 })
def wG10 : State := tst (fun d => { tfld [(pgPcie 1, Reg.PCIE.HOST_LOST, 1)] d with split := true })
def wG11 : State := tst (fun d => { (tfld [(pgPcie 1, Reg.PCIE.HOST_LOST, 1)] d).setSp 3 { owner := 1, sess := { isOpen := true, closing := some 2 } } with split := true })
def wG12 : State := tpl { tpoolH 1 with hostManaged := [] }
def wG13 : State := tpl (tpoolH 0)
def wG14 : State := tpl (tpoolH 16)
def wG15 : State := tpl (tpoolH 1)
def wG16 : State := tst (fun d => { d with pool := tpoolH 1, funcs := [(0, { bme := true })] })
def wG17 : State := tst (fun d => { d with keep := { d.keep with prot := [(kindBase kStream + 5, 2)] } })
def wG18 : State := tst (fun d => { d with keep := { d.keep with slots := [(1, { loaded := true })] } })
def wG19 : State := tinS [(pgWriter 0, Reg.HEADER.MODE_IN_FORCE, 1)]
def wG20 : State := tinS [(pgWriter 0, Reg.WRITER.HALTED, 1)]
def wG21 : State := tst (fun d => { (tspk { tcart with posObj := 5 } tcart3).dev with streams := [(0, { isOpen := true })], pool := d.pool })
def wG22 : State := tst (fun d => { (tspk { cart := { initialised := true, parts := [⟨0, 0⟩], eods := [{}] } } tcart3).dev with streams := [(0, { isOpen := true })], pool := d.pool })
def wG23 : State := tcur twrite 2 [(pgWriter 0, Reg.WRITER.HALTED, 1)]
def wG24 : State := tcur twrite 2 []
def wG25 : State := tst (fun d => { (tspk { tcart with cur := some twrite, curStep := 2 } tcart3).dev with streams := [(0, { isOpen := true, params := 1 })], pool := d.pool })
def wG26 : State := tst (fun d => { (tspk { tcart with cur := some twrite, curStep := 2 } tcart3).dev with streams := [(0, { isOpen := true, params := 1, recOpen := true })], pool := d.pool })
def wG27 : State := tst (fun d => { (tspk { tcart with wr := { failed := [(3, 0x33), (2, 0x31)] } } tcart3).dev with streams := [(0, { isOpen := true })], pool := d.pool })
def wG28 : State := tst (fun d => { (tspk { tcart with wr := { objs := [{ num := 0, mark := true, stream := 0 }] } } tcart3).dev with streams := [(0, { isOpen := true })], pool := d.pool })
def wG29 : State := tspk { tcart with posPart := 7 } tcart3
def wG30 : State := tspk { tcart with posPart := 7, sess := { isOpen := true } } tcart3
def wG31 : State := tspk { tcart with sess := { isOpen := true } } tcart3
def wG32 : State := tspk { tcart with rd := { ladder := { raw := some ({ num := 5 }, 1) } } } tcart3
def wG33 : State := tst (fun d => { (tspk tcart (tcart3 ++ [(pgWriter 0, Reg.HEADER.MODE_IN_FORCE, 1)])).dev with funcs := [(0, { bme := true })] })

/-- Firmware runs: released, a chip steward is running. -/
def tfirm (l : List (PageId × Fld × Nat)) : State := treg ((pgBoot, Reg.BOOT.STATE, 1) :: l)
/-- Function i staged into domain f i. -/
def tstage (f : Nat → Nat) : State := tst (fun d => { d with keep := { d.keep with staged := (List.range 128).filterMap (fun i => if f i = 0 then none else some (i, f i)) } })
/-- The key store with a load in progress. -/
def tload (x : KsLoad) (c : Bool) : State := tst (fun d => { tfld [(pgKeystore, Reg.KEYSTORE.BUSY, 1)] d with keep := { d.keep with ksLoad := some x, ksCancelled := c } })
/-- Stream 0 is open with key slot 0. -/
def tbound : State := tst (fun d => { d with streams := [(0, { isOpen := true, params := 65536 })] })
/-- Two keys are held, and fields written. -/
def tkeks (l : List (PageId × Fld × Nat)) : State := tst (fun d => { tfld l d with keep := { d.keep with keks := [(0, [1]), (1, [2])] } })
/-- The state with the thermal part given, and fields written. -/
def tth (x : Therm) (l : List (PageId × Fld × Nat)) : State := tst (fun d => { tfld l d with therm := x, now := 4000000000 })
/-- Every sensor at r. -/
def tall26 (r : Int) : List Int := List.replicate 26 r
/-- A stored image of 20 bytes. -/
def timg : List Byte := List.replicate 20 3
def wH1 : State := treg [(pgProtect, Reg.PROTECT.KIND, 6), (pgProtect, Reg.PROTECT.INDEX, 255)]
def wH2 : State := treg [(pgProtect, Reg.PROTECT.INDEX, 3)]
def wH3 : State := treg [(pgProtect, Reg.PROTECT.KIND, 6), (pgProtect, Reg.PROTECT.INDEX, 0)]
def wH4 : State := treg [(pgProtect, Reg.PROTECT.KIND, 7)]
def wH5 : State := tstage (fun _ => 3)
def wH6 : State := tstage (fun i => if i = 127 then 1 else 0)
def wH7 : State := tstage (fun _ => 2)
def wH8 : State := tstage (fun i => i % 4 * 2)
def wH9 : State := tfirm []
def wH10 : State := tfirm [(pgBoot, Reg.BOOT.IDENTITY, 1)]
def wH11 : State := treg [(pgBoot, Reg.BOOT.STATUS, 2)]
def wH12 : State := treg [(pgBoot, Reg.BOOT.STATUS, 1)]
def wH13 : State := tst (fun d => { tfld [(pgBoot, Reg.BOOT.STATE, 2), (pgBoot, Reg.BOOT.STATUS, 3)] d with boot := { d.boot with staged := some timg, stagedSlot := 1 } })
def wH14 : State := treg [(pgBoot, Reg.BOOT.SVN_RUN, 64)]
def wH15 : State := treg [(pgBoot, Reg.BOOT.BUSY, 1), (pgBoot, Reg.BOOT.SVN_RUN, 200)]
def wH16 : State := treg [(pgKeystore, Reg.KEYSTORE.BUSY, 1)]
def wH17 : State := treg [(pgAlarm, Reg.ALARM.MESH, 1)]
def wH18 : State := treg [(pgBoot, Reg.BOOT.IDENTITY, 1)]
def wH19 : State := tkeks [(pgAlarm, Reg.ALARM.MESH, 1)]
def wH20 : State := tkeks []
def wH21 : State := tkeks [(pgKeystore, Reg.KEYSTORE.KEK_VALID, 3)]
def wH22 : State := tload (.kek 3 [1]) false
def wH23 : State := tload (.kek 3 [1]) true
def wH24 : State := tload (.key 3 1 [2] [1] 7 8) false
def wH25 : State := tload (.key 3 1 [2] [1] 7 8) true
def wH27 : State := tth { stby := true } []
def wH28 : State := tth { stby := true, tripped := true, coolSince := some 5 } []
def wH29 : State := tth { stby := true, mains := true } []
def wH30 : State := tth { stby := true, mains := true, lastT := [1750, 1750, 1750] } []
def wH31 : State := tth { mains := true } []
def wH32 : State := tth { mains := false } []
def wH33 : State := tth { tripped := true } []
def wH34 : State := tth { tripped := true, coolSince := some 4 } []
def wH38 : State := tth { supply := 2, mains := true } [(pgPower, Reg.POWER.SLEWING, 1)]
def wH39 : State := tth { mains := true, calmSince := some 5, sens := [(3, { hotSince := some 1000000000, hist := [(4000000000, 500), (3000000000, 467)] })] } []
def wH40 : State := tth { mains := true, sens := [(3, { hotSince := some 1000000001, hist := [(4000000000, 500), (3000000000, 467)] })] } []
def wH41 : State := tst (fun d => { tfld [(pgThermal, Reg.THERMAL.RATE_ADD, 1)] d with therm := { mains := true, calmSince := some 1 }, now := 10000000001 })
def wH42 : State := tst (fun d => { tfld [(pgThermal, Reg.THERMAL.RATE_ADD, 1)] d with therm := { mains := true, calmSince := some 2 }, now := 10000000001 })
def wH43 : State := tth { mains := true } [(pgThermal, Reg.THERMAL.RATE_ADD, 1)]
def wH44 : State := tth { mains := true, sens := [(3, { hotSince := some 1000000000, hist := [(4000000000, 500), (3000000000, 467)] })] } [(pgThermal, Reg.THERMAL.RATE_ADD, 1)]
def wH45 : State := tth { stby := true, p12 := true } []
def wH46 : State := tth { stby := true, brown := true, railFault := true } []
def wH47 : State := tth { stby := true, p12 := true, mains := true } []

/-- The state with steward i as given. -/
def tstw (i : Nat) (x : Stw) (l : List (PageId × Fld × Nat)) : State := tst (fun d => { tfld l d with stws := if x = {} then [] else [(i, x)] })
def trel : PageId × Fld × Nat := (pgBoot, Reg.BOOT.STATE, 1)
/-- Every steward but i paused. -/
def tpaused (i : Nat) : State := tst (fun d => { tfld [trel, (pgMgmt, Reg.MGMT.STATUS, 1), (pgMgmt, Reg.MGMT.PAUSED, 0xFFE)] d with
  stws := ((List.range 12).filter (· ≠ i)).map (fun k => (k, ({ state := 1 } : Stw))) })
/-- Page p is the one that READMIT acts on, with its RETIRED as given. -/
def tadmit (p r : Nat) : State := treg [(p, Reg.HEADER.RETIRED, r), (pgMgmt, Reg.MGMT.REGION, p / 256), (pgMgmt, Reg.MGMT.PAGE, p % 256)]
/-- The steps of R408 up to k are completed. -/
def tstart (k : Nat) : Therm := { stby := true, p12 := true, mains := true, steps := (List.range k).reverse.map (· + 1) }
def wI1 : State := treg [(pgLink 0, Reg.HEADER.RETIRED, 1)]
def wI2 : State := treg [(pgMgmt, Reg.MGMT.LIMIT, 0)]
def wI3 : State := tadmit (pgCrypt 1) 1
def wI4 : State := tadmit (pgCrypt 1) 0
def wI5 : State := tadmit (pgComp 1) 0
def wI6 : State := tth { mains := true, stby := true, p12 := true } []
def wI7 : State := treg [(pgBoot, Reg.BOOT.STATUS, 3)]
def wI8 : State := tst (fun d => d.fence 7 4)
def wI9 : State := tspk { drv := { present := true } } [(pgLink 0, Reg.LINK.CAD_ON, 1)]
def wI10 : State := tspk { drv := { present := true } } [(pgLink 0, Reg.LINK.CAD_ON, 1), (pgMotion 0, Reg.MOTION.CART_STATE, 1)]
def wI11 : State := treg [(pgLink 7, Reg.LINK.CAD_ON, 1)]
def wI12 : State := tspk { drv := { present := true } } []
def wI13 : State := tstw 11 { state := 3 } [trel]
def wI14 : State := tstw 0 { state := 1 } [trel]
def wI15 : State := treg [trel]
def wI16 : State := tst (fun d => { tfld [trel] d with now := 60000000001, stws := [(3, { expiries := [60000000000, 1] })] })
def wI17 : State := treg [trel, (pgMgmt, Reg.MGMT.STATUS, 1)]
def wI18 : State := tstw 3 { expiries := [0, 0] } [trel]
def wI19 : State := tstw 5 { expiries := [0, 0] } [trel]
def wI20 : State := tstw 11 { state := 3, expiries := [0, 0] } [trel]
def wI21 : State := tstw 3 { state := 2 } []
def wI22 : State := tstw 4 { state := 2 } []
def wI23 : State := tstw 11 { state := 2 } []
def wI24 : State := tpaused 0
def wI25 : State := treg [trel, (pgMgmt, Reg.MGMT.STATUS, 2)]
def wI26 : State := tst (fun d => { tfld [(pgBoot, Reg.BOOT.STATUS, 3)] d with svnFuses := 9 })
def wI27 : State := tstw 11 { state := 3 } [(pgBoot, Reg.BOOT.STATUS, 3)]
def wI28 : State := tth { stby := true, p12 := true } []
def wI29 : State := tth (tstart 1) []
def wI30 : State := tth (tstart 2) []
def wI31 : State := tth (tstart 3) []
def wI32 : State := tth (tstart 4) []
def wI33 : State := tth (tstart 5) []
def wI34 : State := tst (fun d => { d with therm := tstart 6, pool := { d.pool with configured := true } })
def wI35 : State := tth (tstart 6) []
def wI36 : State := tth (tstart 7) []
def wI37 : State := tth (tstart 8) []
def wI38 : State := tth (tstart 9) []
def wI39 : State := tth { mains := true } []
def wI40 : State := tst (fun d => { d with therm := { d.therm with mains := true }, spokes := [(0, { drv := { present := true } })] })
/-- The samples taken in, and what the step rule then sees of them. -/
def tsam (s : State) (rs : List Int) : Dev := (List.range 13).foldl (Dev.samplePair rs) ((List.range 26).foldl (Dev.sampleOne rs) s.dev)
def ttop (s : State) (rs : List Int) : Int := ((List.range 26).map (tsam s rs).effReading).foldl max ((tsam s rs).effReading 0)
def tsamD (s : State) (rs : List Int) : Dev :=
  let d1 := tsam s rs
  let d2 := (((d1.modTherm (fun x => { x with lastT := (ttop s rs :: x.lastT).take 4, coolSince := if d1.coolEnough then some (x.coolSince.getD d1.now) else none })).fset
    pgThermal Reg.THERMAL.T_MAX (toField 16 (ttop s rs))).fset pgThermal Reg.THERMAL.HOTTEST (((List.range 26).find? (fun i => d1.effReading i == ttop s rs)).getD 0)).fset
    pgThermal Reg.THERMAL.FAST (b2n (rs.any (fun r => decide (1520 ≤ r))))
  d2
def tsamT (s : State) (rs : List Int) : Dev :=
  (tsamD s rs).fset pgThermal Reg.THERMAL.TEMP_STEP (tempStep (tsamD s rs).therm.lastT ((tsamD s rs).fget pgThermal Reg.THERMAL.TEMP_STEP))
/-- The evaluation of the slow rise, before its outcome. -/
def trated (s : State) : Dev := s.dev.modTherm (fun x => { x with
  sens := x.sens.map (fun p => (p.1, { p.2 with hotSince := if p.2.steep s.dev.now then some (p.2.hotSince.getD s.dev.now) else none })),
  calmSince := if (List.range 26).any (fun i => (s.dev.sens i).steep s.dev.now) then none else some (x.calmSince.getD s.dev.now) })
/-- Sheet k of spoke 0 has passed. -/
def tpassed (s : State) (k : Nat) : Dev :=
  ((((((s.dev.closeMap 0 k 0 1).healthCopy 0).boostsDue 0).modUsage 0 (fun u => { u with sheetsRead := u.sheetsRead + 1 })).meetSheet 0 k 1 0).modRd 0 (fun r =>
    { r with nextSheet := max r.nextSheet (k + 1), gaps := if r.nextSheet < k then r.gaps ++ [(r.nextSheet, k)] else r.gaps })).modRd 0 (fun r => { r with lastPassed := some k })
/-- A header that carries a whole sheet. -/
def tsheetHdr : CmdHdr := ⟨0, 1, false, 0, 0, 1, 0, payloadBytes, []⟩

/-! ### Witnesses: for each statement, hypotheses of its clauses met together -/

/-- Nothing waits at another gate FIFO than the one given. -/
theorem test_only_mgmtTx_waits : ∀ (g' : GateId), g' ≠ GateId.mgmtTx → (wA2.gate g').popWaits = false := by
  intro g h
  have hk : GateId.mgmtTx.key ≠ g.key := by cases g <;> simp_all [GateId.key] <;> omega
  show (mget (fun _ => ({} : Gate)) [(GateId.mgmtTx.key, _)] g.key).popWaits = false
  simp [mget, hk]
/-- A page that is not valid reads as zero. -/
theorem test_invalid_page_is_zero : ∀ (a : Nat), wM7.dev.pageValid (a / 4096) = false → mget (fun x => 0) wM7.dev.chest a = 0 := by
  intro a h
  show mget (fun _ => 0) [(5, 7)] a = 0
  by_cases ha : 5 = a
  · subst ha; exact absurd h (by decide +kernel)
  · simp [mget, ha]
theorem test_reset_hops_sound : State.reset.hopsSound := by
  refine ⟨rfl, rfl, fun k => ?_, fun k => ?_⟩
  · simp [State.reset, mget, Chain.sound, chainReset]
  · simp [State.reset, mget, Gate.sound, behind]

theorem test_witness_StepRunsTheFrontCommand :
    wA1.pending = [Instr.brownOut] :=
  by decide +kernel

theorem test_witness_EmptyQueueIsOneClockPeriod :
    (∀ (g : GateId), (State.reset.gate g).popWaits = false) ∧
    (∀ (g' : GateId), g' ≠ GateId.mgmtTx → (wA2.gate g').popWaits = false) ∧
    (State.reset.pending = [] ∧ (mwf (fun x => { }) State.reset.gates = true) ∧ wA2.pending = [] ∧ (mwf (fun x => { }) wA2.gates = true) ∧
    (wA2.gate GateId.mgmtTx).popWaits = true ∧ ((wA2.gate GateId.mgmtTx).edge GateId.mgmtTx.clockedWrites).sees GateId.mgmtTx.clockedWrites = true ∧
    ((wA2.gate GateId.mgmtTx).edge GateId.mgmtTx.clockedWrites).outOfSequence = false) :=
  ⟨fun _ => rfl, test_only_mgmtTx_waits, by decide +kernel⟩

theorem test_witness_FramesOfQueueAndHops :
    touchesHops (Instr.shockNegate 0) = false :=
  by decide +kernel

theorem test_witness_WritesOutsideADomainOnlyRecord :
    (∀ (off v be : Nat), Instr.quiesceReq (Accessor.fn 0 0) 4095 = Instr.registerWrite (Accessor.fn 0 0) 4095 off v be → offDefined 4095 off = true) ∧
    (∀ (off v be : Nat), Instr.apply (Accessor.fn 0 0) = Instr.registerWrite (Accessor.fn 0 0) pgPool off v be → offDefined pgPool off = true) ∧
    (barWrite (Instr.quiesceReq (Accessor.fn 0 0) 4095) = some (Accessor.fn 0 0, 4095) ∧ State.reset.dev.access (Accessor.fn 0 0) 4095 = Access.absent ∧
    barWrite (Instr.apply (Accessor.fn 0 0)) = some (Accessor.fn 0 0, pgPool) ∧ tten.dev.access (Accessor.fn 0 0) pgPool = Access.violation ∧
    offDefined pgPool 4092 = false ∧ wA3.dev.policyOf vPage = 0 ∧ wA4.dev.policyOf vPage = 0 ∧ Reg.HEADER.ENABLE.lo < 32 ∧ pgPool ≠ pgAlarm ∧
    (pgPool ≠ pgPool ∨ Reg.HEADER.ENABLE.off < 16 ∨ 36 ≤ Reg.HEADER.ENABLE.off)) :=
  ⟨(by intros; contradiction), (by intros; contradiction), by decide +kernel⟩

theorem test_witness_WhoReachesAPage :
    pageOf 4095 = none ∧ pageOf pgPool ≠ none ∧ wA5.dev.fget pgBoot Reg.BOOT.STATE = 2 ∧ pgPool / 256 ≠ 2 ∧
    (¬(State.reset.dev.fget pgBoot Reg.BOOT.STATE = 2 ∧ pgPool / 256 ≠ 2)) ∧ State.reset.dev.domainOf (Accessor.fn 0 0) < 2 ∧
    (¬(tten.dev.fget pgBoot Reg.BOOT.STATE = 2 ∧ pgPool / 256 ≠ 2)) ∧ 2 ≤ tten.dev.domainOf (Accessor.fn 0 0) ∧
    tten.dev.access (Accessor.fn 0 0) pgPool ≠ Access.open :=
  by decide +kernel

theorem test_witness_ChainPushes :
    (xA1.grants 17 [3, 5] = some 3 ∧ xA1.itemOpen = true ∧ xA2.grants 17 [3, 5] = some 5 ∧ xA2.itemOpen = false ∧ 3 ∈ [3, 5] ∧ 3 < 17 ∧
    (wA6.chain (ChainId.comp 0)).credits ≠ 0 ∧ (wA6.chain (ChainId.comp 0)).latch = none ∧
    (wA6.chain (ChainId.comp 0)).grants (producers (ChainId.comp 0)) [0, 1] ≠ some 0 ∧ (wA7.chain (ChainId.comp 0)).credits ≠ 0 ∧
    (wA7.chain (ChainId.comp 0)).latch = none ∧ (wA7.chain (ChainId.comp 0)).grants (producers (ChainId.comp 0)) [0] = some 0 ∧
    (wA7.chain (ChainId.comp 0)).drain = false ∧ (wA7.chain (ChainId.comp 0)).popWaits = false ∧ (wA8.chain (ChainId.comp 0)).credits ≠ 0 ∧
    (wA8.chain (ChainId.comp 0)).latch = none) ∧
    ((wA8.chain (ChainId.comp 0)).grants (producers (ChainId.comp 0)) [0] = some 0 ∧ (wA8.chain (ChainId.comp 0)).drain = true ∧
    (wA8.chain (ChainId.comp 0)).popWaits = false ∧ tfirst.eoi = false ∧ tword.eoi = true ∧ (wA9.chain (ChainId.comp 0)).credits ≠ 0 ∧
    (wA9.chain (ChainId.comp 0)).latch = none ∧ (wA9.chain (ChainId.comp 0)).grants (producers (ChainId.comp 0)) [0] = some 0 ∧
    (wA9.chain (ChainId.comp 0)).drain = false ∧ (wA9.chain (ChainId.comp 0)).popWaits = true ∧ (wA10.chain (ChainId.comp 0)).credits = 0 ∧
    (GateId.writeLane 0 0).clockedWrites = false ∧ (wA11.gate (GateId.writeLane 0 0)).latch = none ∧ (wA11.gate (GateId.writeLane 0 0)).held = none ∧
    32 ≤ (wA11.gate (GateId.writeLane 0 0)).words.length) :=
  ⟨by decide +kernel, by decide +kernel⟩

theorem test_witness_FlushesAndGrants :
    State.reset.hopsSound ∧
    (wA12.dev.access tfw (consumerPage (ChainId.comp 0)) = Access.open ∧ (wA12.chain (ChainId.comp 0)).flushBusy = false ∧
    (wA12.chain (ChainId.comp 0)).itemOpen = false ∧ wA13.dev.access tfw (consumerPage (ChainId.comp 0)) = Access.open ∧
    (wA13.chain (ChainId.comp 0)).flushBusy = false ∧ (wA13.chain (ChainId.comp 0)).itemOpen = true ∧ (wA13.chain (ChainId.comp 0)).popped = 0 ∧
    wA14.dev.access tfw (consumerPage (ChainId.comp 0)) = Access.open ∧ (wA14.chain (ChainId.comp 0)).flushBusy = true) :=
  ⟨test_reset_hops_sound, by decide +kernel⟩

theorem test_witness_PopAndCreditReturn :
    (wA15.chain (ChainId.comp 0)).words = [(tword, false)] ∧ (wA15.chain (ChainId.comp 0)).mayPop = true ∧
    tword.soi = ((wA15.chain (ChainId.comp 0)).popped == 0) ∧ (wA7.chain (ChainId.comp 0)).mayPop = false ∧ (wA16.chain (ChainId.comp 0)).words ≠ [] ∧
    (wA16.chain (ChainId.comp 0)).begun = true ∧ (wA17.chain (ChainId.comp 0)).begun = false ∧
    (itemPresent (wA17.chain (ChainId.comp 0)).words).snd = false ∧
    (wA17.chain (ChainId.comp 0)).popped + (itemPresent (wA17.chain (ChainId.comp 0)).words).fst < (wA17.chain (ChainId.comp 0)).threshold ∧
    (wA18.chain (ChainId.comp 0)).transit ≠ 0 ∧ (wA18.chain (ChainId.comp 0)).closing = false ∧ (wA18.chain (ChainId.comp 0)).popWaits = false :=
  by decide +kernel

theorem test_witness_ParityReplay :
    ((wA7.chain (ChainId.comp 0)).credits ≠ 0 ∧ (wA7.chain (ChainId.comp 0)).latch = none ∧
    (wA7.chain (ChainId.comp 0)).grants (producers (ChainId.comp 0)) [0] = some 0 ∧ parityOk (tword.wire ^^^ (1 : BitVec 67).toNat) = false ∧
    (wA19.chain (ChainId.comp 0)).latch = some (tword, 1) ∧ (wA19.chain (ChainId.comp 0)).credits ≠ 0 ∧ (wA19.chain (ChainId.comp 0)).drain = false ∧
    (wA19.chain (ChainId.comp 0)).popWaits = false ∧ (wA20.chain (ChainId.comp 0)).latch = some (tword, 3) ∧ 3 ≤ 3 ∧
    (wA20.chain (ChainId.comp 0)).credits ≠ 0 ∧ (wA21.gate GateId.mgmtRx).latch = none ∧ (wA21.gate GateId.mgmtRx).held = none ∧
    (wA21.gate GateId.mgmtRx).words.length < 32 ∧ (GateId.mgmtRx.clockedWrites = true → (wA21.gate GateId.mgmtRx).clkView true < 32) ∧
    (wA22.gate GateId.mgmtRx).latch = some (tword, 1)) ∧
    ((wA22.gate GateId.mgmtRx).popWaits = false ∧ (wA23.gate GateId.mgmtRx).words = [tword] ∧ (wA23.gate GateId.mgmtRx).latch = none ∧
    (wA23.gate GateId.mgmtRx).tries < 3 ∧ (wA23.gate GateId.mgmtRx).tries = 0 ∧ (wA23.gate GateId.mgmtRx).sees GateId.mgmtRx.clockedWrites = true ∧
    (wA24.gate GateId.mgmtRx).words = [tword] ∧ (wA24.gate GateId.mgmtRx).latch = none ∧ (wA24.gate GateId.mgmtRx).tries < 3 ∧
    (wA24.gate GateId.mgmtRx).tries ≠ 0) :=
  ⟨by decide +kernel, by decide +kernel⟩

theorem test_witness_GateFifos :
    ((wA25.gate GateId.mgmtRx).latch = none ∧ (wA25.gate GateId.mgmtRx).held = none ∧ (wA25.gate GateId.mgmtRx).words.length < 32 ∧
    (GateId.mgmtRx.clockedWrites = true → (wA25.gate GateId.mgmtRx).clkView true < 32) ∧ (wA25.gate GateId.mgmtRx).popWaits = false ∧
    (wA26.gate GateId.mgmtRx).latch = none ∧ (wA26.gate GateId.mgmtRx).held = none ∧ GateId.mgmtRx.clockedWrites = true ∧
    32 ≤ (wA26.gate GateId.mgmtRx).clkView true ∧ GateId.mgmtRx.canHold = true ∧ (wA27.gate (GateId.sample 0 0)).latch = none ∧
    (wA27.gate (GateId.sample 0 0)).held = none ∧ (GateId.sample 0 0).clockedWrites = true ∧ 32 ≤ (wA27.gate (GateId.sample 0 0)).clkView true ∧
    (GateId.sample 0 0).canHold = false ∧ (wA28.gate GateId.mgmtRx).tries = 0) ∧
    ((wA28.gate GateId.mgmtRx).words = [tword] ∧ (GateId.mgmtRx.clockedWrites = false → (wA28.gate GateId.mgmtRx).clkView false ≠ 0) ∧
    tword.soi = !(wA28.gate GateId.mgmtRx).begun ∧ (wA29.gate GateId.mgmtTx).tries = 0 ∧ (wA29.gate GateId.mgmtTx).words = [tword] ∧
    (GateId.mgmtTx.clockedWrites = false → (wA29.gate GateId.mgmtTx).clkView false ≠ 0) ∧ tword.soi = !(wA29.gate GateId.mgmtTx).begun ∧
    (wA30.gate GateId.mgmtTx).tries = 0 ∧
    ((wA30.gate GateId.mgmtTx).words = [] ∨ GateId.mgmtTx.clockedWrites = false ∧ (wA30.gate GateId.mgmtTx).clkView false = 0)) :=
  ⟨by decide +kernel, by decide +kernel⟩

theorem test_witness_QuiesceModeAndEnable :
    (pageOf (pgWriter 0) = some (PageTy.WRITER, 0) ∧ State.reset.dev.access tfw (pgWriter 0) = Access.open ∧ capQuiesce (pgWriter 0) = true ∧
    wA31.dev.fon (pgWriter 0) Reg.HEADER.QUIESCE_REQ = true ∧ wA31.mayQuiesce (pgWriter 0) = true ∧ pageOf (pgWriter 7) = some (PageTy.WRITER, 0) ∧
    wA32.dev.access tfw (pgWriter 7) = Access.open ∧ capMode PageTy.WRITER = true ∧ wA32.dev.isQuiet (pgWriter 7) = true ∧
    State.reset.dev.access tfw (pgWriter 7) = Access.open ∧ State.reset.dev.isQuiet (pgWriter 7) = false ∧
    true ≠ State.reset.dev.fon (pgWriter 7) Reg.HEADER.BLK_CTRL_MODE ∧ pageOf pgPool = some (PageTy.POOL, 0) ∧
    State.reset.dev.access tfw pgPool = Access.open ∧ capMode PageTy.POOL = false ∧ capQuiesce pgPool = true) ∧
    (capSiblings PageTy.POOL = 0 ∧ pageOf (pgCrypt 0) = some (PageTy.CRYPT, 0) ∧ wA33.dev.access tfw (pgCrypt 0) = Access.open ∧
    capSiblings PageTy.CRYPT ≠ 0 ∧ false ≠ wA33.dev.fon (pgCrypt 0) Reg.HEADER.ENABLE ∧ wA33.dev.lastInstance (pgCrypt 0) = true ∧
    pageOf (pgComp 16) = some (PageTy.COMP, 16) ∧ State.reset.dev.access tfw (pgComp 16) = Access.open ∧ capSiblings PageTy.COMP ≠ 0 ∧
    false ≠ State.reset.dev.fon (pgComp 16) Reg.HEADER.ENABLE ∧ isTile (pgComp 16) = false ∧
    (false = false → State.reset.dev.lastInstance (pgComp 16) = false) ∧ wA34.dev.access tfw (pgCrypt 0) = Access.open ∧
    false ≠ wA34.dev.fon (pgCrypt 0) Reg.HEADER.ENABLE ∧ isTile (pgCrypt 0) = false ∧ (false = false → wA34.dev.lastInstance (pgCrypt 0) = false)) ∧
    (wA35.dev.access tfw (pgCrypt 0) = Access.open ∧ true ≠ wA35.dev.fon (pgCrypt 0) Reg.HEADER.ENABLE ∧
    (true = false → wA35.dev.lastInstance (pgCrypt 0) = false) ∧ wA32.dev.fon (pgWriter 7) Reg.HEADER.RETIRED = false) :=
  ⟨by decide +kernel, by decide +kernel, by decide +kernel⟩

theorem test_witness_LatchingReadsLatchForTheReader :
    State.reset.dev.access tfw pgTimebase = Access.open ∧ State.reset.dev.access tfw (pgServo 7) = Access.open ∧
    State.reset.dev.access tfw (pgSh 7) = Access.open ∧ State.reset.dev.access tfw pgKeystore = Access.open ∧
    wA36.dev.access tfw pgProtect = Access.open ∧ wA37.dev.access tfw pgTimebase = Access.open :=
  by decide +kernel

theorem test_witness_PackingAndSealing :
    ((wB1.dev.sp 0).wr.objs = [tobj] ∧ tobj.ready = true ∧ wB1.dev.mayPack 0 = false ∧ (wB2.dev.sp 0).wr.objs = [tobj] ∧ wB2.dev.mayPack 0 = false ∧
    (wB3.dev.sp 0).wr.objs = [tobj] ∧ wB3.dev.mayPack 0 = false ∧ (wB4.dev.sp 0).wr.objs = [tobj] ∧ wB4.dev.mayPack 0 = false ∧
    (wB5.dev.sp 0).wr.objs = [tobj] ∧ wB5.dev.mayPack 0 = true ∧ (wB5.dev.sp 0).wr.openSheet.bind (wB5.dev.sp 0).wr.sheet? = some tsheet ∧
    fits tobj tsheet = true ∧ (wB6.dev.sp 0).wr.objs = [tobj] ∧ wB6.dev.mayPack 0 = true ∧
    (wB6.dev.sp 0).wr.openSheet.bind (wB6.dev.sp 0).wr.sheet? = some tfull) ∧
    (fits tobj tfull = false ∧ (wB7.dev.sp 0).wr.objs = [tobj] ∧ wB7.dev.mayPack 0 = true ∧
    (wB7.dev.sp 0).wr.openSheet.bind (wB7.dev.sp 0).wr.sheet? = some tfull ∧ (wB8.dev.sp 0).wr.objs = [tobj] ∧ wB8.dev.mayPack 0 = true ∧
    (wB8.dev.sp 0).wr.openSheet.bind (wB8.dev.sp 0).wr.sheet? = none ∧ (wB9.dev.sp 0).wr.closedQ = [0] ∧ (wB9.dev.sp 0).wr.sheet? 0 = some tsheet ∧
    (wB9.dev.sp 0).wr.bankFor tsheet = false ∧ (wB10.dev.sp 0).wr.closedQ = [0] ∧ (wB10.dev.sp 0).wr.sheet? 0 = some tsheet ∧
    (wB10.dev.sp 0).wr.bankFor tsheet = true ∧ (tsealP.dev.sp 0).wr.closedQ = [0] ∧ (tsealP.dev.sp 0).wr.sheet? 0 = some xB1 ∧
    (tsealP.dev.sp 0).wr.bankFor xB1 = true) ∧
    ((tsealD.dev.sp 0).wr.closedQ = [0] ∧ (tsealD.dev.sp 0).wr.sheet? 0 = some tsheet ∧ (tsealD.dev.sp 0).wr.bankFor tsheet = true ∧ xB1.kind = 2 ∧
    wB11.dev.unsettled (pgWriter 0) = false) :=
  ⟨by decide +kernel, by decide +kernel, by decide +kernel⟩

theorem test_witness_FramesAndClosingPatterns :
    ((wB12.dev.sp 0).wr.slot = some (0, 0) ∧ (wB12.dev.sp 0).wr.slotSent = true ∧ (wB13.dev.sp 0).wr.slot = some (0, 0) ∧
    (wB13.dev.sp 0).wr.slotSent = true ∧ (wB14.dev.sp 0).wr.slot = some (0, 0) ∧ (wB14.dev.sp 0).wr.slotSent = true ∧
    (wB15.dev.sp 0).wr.slot = some (0, 0) ∧ (wB15.dev.sp 0).wr.lane0 = [Stage.closing] ∧ (wB15.dev.sp 0).wr.lane1 = [Stage.closing] ∧
    (wB15.dev.sp 0).wr.slotVerdictsIn (0, 0) = true ∧ (wB16.dev.sp 0).wr.slot = some (0, 0) ∧ (wB16.dev.sp 0).wr.lane0 = [Stage.closing] ∧
    (wB16.dev.sp 0).wr.lane1 = [Stage.closing] ∧ (wB16.dev.sp 0).wr.slotVerdictsIn (0, 0) = true ∧ (wB17.dev.sp 0).wr.slot = some (0, 0) ∧
    (wB17.dev.sp 0).wr.lane0 = [Stage.closing]) ∧
    ((wB17.dev.sp 0).wr.lane1 = [Stage.closing] ∧ (wB17.dev.sp 0).wr.slotVerdictsIn (0, 0) = false ∧ (wB18.dev.sp 0).wr.lane 1 = [] ∧
    (wB15.dev.sp 0).wr.lane 1 = [Stage.closing] ∧ (wB19.dev.sp 0).wr.lane 0 = [Stage.slot 0 0] ∧ (wB20.dev.sp 0).wr.lane 0 = [Stage.slot 0 0]) :=
  ⟨by decide +kernel, by decide +kernel⟩

theorem test_witness_VerdictsAndVerifyDecode :
    ((false && true && true) = false ∧ (true && true && true) = true ∧ xB3.converged = false ∧ tgood.converged = true ∧
    ((((wB21.dev.sp 0).wr.sheet? xB4.sheet).bind fun x => x.copy? xB4.gen) = some xB5) ∧ xB4.fill = true ∧ xB5.fillCuts.contains xB4.row = true ∧
    ((((wB22.dev.sp 0).wr.sheet? tseg.sheet).bind fun x => x.copy? tseg.gen) = some xB6) ∧ tseg.fill = false ∧
    xB6.cuts.contains (8 * tseg.row + tseg.rwslot) = true ∧ ((((wB21.dev.sp 0).wr.sheet? xB7.sheet).bind fun x => x.copy? xB7.gen) = some xB5) ∧
    xB7.fill = true ∧ xB5.fillCuts.contains xB7.row = false ∧ ((((wB23.dev.sp 0).wr.sheet? tseg.sheet).bind fun x => x.copy? tseg.gen) = some xB8) ∧
    xB8.cuts.contains (8 * tseg.row + tseg.rwslot) = false ∧ ((((wB12.dev.sp 0).wr.sheet? 0).bind fun x => x.copy? 0) = some tcopy)) ∧
    (tcopy.areaDone = true ∧ tcopy.verdictsIn = true ∧ tcopy.decoded = false ∧ (wB12.dev.sp 0).wr.verifying = none ∧
    wB12.dev.takesWork (pgVerify 0) = true ∧ (wB24.dev.sp 0).wr.verifying = some { sheet := 0, gen := 0, dead := 0, limit := 40, release := 6 } ∧
    (wB24.dev.sp 0).wr.sheet? ({ sheet := 0, gen := 0, dead := 0, limit := 40, release := 6 } : VDec).sheet = some xB9 ∧ xB9.settled = false ∧
    wB24.dev.unsettled (pgVerify 0) = false ∧ (wB25.dev.sp 0).wr.verifying = some { sheet := 0, gen := 3, dead := 0, limit := 40, release := 6 } ∧
    (wB25.dev.sp 0).wr.sheet? ({ sheet := 0, gen := 3, dead := 0, limit := 40, release := 6 } : VDec).sheet = some xB9 ∧
    wB25.dev.unsettled (pgVerify 0) = false ∧ (wB26.dev.sp 0).wr.verifying = some { sheet := 0, gen := 0, dead := 0, limit := 40, release := 6 } ∧
    (wB26.dev.sp 0).wr.sheet? ({ sheet := 0, gen := 0, dead := 0, limit := 40, release := 6 } : VDec).sheet = some xB10 ∧ xB10.settled = false ∧
    wB26.dev.unsettled (pgVerify 0) = false) ∧
    ((wB27.dev.sp 0).wr.verifying = some { sheet := 0, gen := 3, dead := 0, limit := 40, release := 6 } ∧
    (wB27.dev.sp 0).wr.sheet? ({ sheet := 0, gen := 3, dead := 0, limit := 40, release := 6 } : VDec).sheet = some xB10 ∧
    wB27.dev.unsettled (pgVerify 0) = false ∧ (wB28.dev.sp 0).wr.verifying = some { sheet := 0, gen := 0, dead := 0, limit := 40, release := 6 } ∧
    (wB28.dev.sp 0).wr.sheet? ({ sheet := 0, gen := 0, dead := 0, limit := 40, release := 6 } : VDec).sheet = some xB11 ∧ xB11.settled = false ∧
    wB28.dev.unsettled (pgVerify 0) = false ∧ (wB29.dev.sp 0).wr.verifying = some { sheet := 0, gen := 3, dead := 0, limit := 40, release := 6 } ∧
    (wB29.dev.sp 0).wr.sheet? ({ sheet := 0, gen := 3, dead := 0, limit := 40, release := 6 } : VDec).sheet = some xB11 ∧
    wB29.dev.unsettled (pgVerify 0) = false) :=
  ⟨by decide +kernel, by decide +kernel, by decide +kernel⟩

theorem test_witness_WriteHoldAndWriterRegisters :
    (wB18.dev.sp 0).wr.winh = false ∧ (wB30.dev.sp 0).wr.winh = true ∧ (wB31.dev.sp 0).wr.winh = true ∧ (wB32.dev.sp 0).wr.winh = true ∧
    wB32.dev.holdCond 0 = false ∧ 4 ≤ (wB32.dev.sp 0).wr.pesGood ∧ wB31.dev.holdCond 0 = true ∧ State.reset.dev.access tfw (pgWriter 0) = Access.open ∧
    State.reset.dev.access tfw (pgWriter 7) = Access.open ∧ wB33.dev.access tfw (pgWriter 0) = Access.open :=
  by decide +kernel

theorem test_witness_ServoAndTension :
    ((wC3.dev.sp 0).drv.invalidRun < 16 ∧ 16 ≤ (wC4.dev.sp 0).drv.invalidRun ∧ (wC4.dev.sp 0).drv.lost = false ∧ (wC4.dev.sp 0).drv.tapeStopped = false ∧
    wC5.dev.tensionBad 0 = true ∧ (wC5.dev.sp 0).drv.tapeStopped = false ∧ wC6.dev.tensionBad 0 = true ∧ (wC6.dev.sp 0).drv.tapeStopped = false ∧
    wC7.dev.tensionBad 0 = true ∧ (wC7.dev.sp 0).drv.tapeStopped = false ∧ wC8.dev.tensionBad 0 = false ∧ (wC13.dev.sp 0).drv.tapeStopped = true ∧
    (wC14.dev.sp 0).drv.tapeStopped = true ∧ (wC15.dev.sp 0).drv.needTension = false ∧ wC15.dev.cartState 0 = 2 ∧ wC15.dev.phase 0 = 4) ∧
    ((wC16.dev.sp 0).drv.needTension = false ∧ (¬(wC16.dev.cartState 0 = 2 ∧ wC16.dev.phase 0 = 4)) ∧ (wC16.dev.sp 0).drv.lost = true ∧
    (wC16.dev.sp 0).drv.tapeStopped = true ∧ (wC17.dev.sp 0).drv.needTension = false ∧ (¬(wC17.dev.cartState 0 = 2 ∧ wC17.dev.phase 0 = 4)) ∧
    (wC17.dev.sp 0).drv.lost = true ∧ (wC17.dev.sp 0).drv.tapeStopped = true) :=
  ⟨by decide +kernel, by decide +kernel⟩

theorem test_witness_ReelCycles :
    (State.reset.dev.sp 0).drv.unloadStep ≠ 4 ∧ (wC18.dev.sp 0).drv.unloadStep ≠ 4 ∧ (wC19.dev.sp 0).drv.unloadStep ≠ 4 ∧
    (wC20.dev.sp 0).drv.unloadStep = 4 :=
  by decide +kernel

theorem test_witness_CogsAndShifts :
    (wC21.dev.fon (pgDr 0) Reg.DERAILLEUR.SHIFTING = true ∧ wC22.dev.fon (pgDr 0) Reg.DERAILLEUR.SHIFTING = true ∧
    State.reset.dev.fon (pgDr 0) Reg.DERAILLEUR.SHIFTING = false ∧ wC23.dev.fon (pgDr 0) Reg.DERAILLEUR.DWELL = true ∧
    State.reset.dev.fon (pgDr 0) Reg.DERAILLEUR.DWELL = false ∧
    ((State.reset.dev.sp 0).drv.streaming = false ∨ State.reset.dev.mode (pgDr 0) = 1 ∨ State.reset.dev.fon (pgDr 0) Reg.DERAILLEUR.SHIFTING = true ∨ State.reset.dev.fon (pgDr 0) Reg.DERAILLEUR.DWELL = true) ∧
    ((wC23.dev.sp 0).drv.streaming = false ∨ wC23.dev.mode (pgDr 0) = 1 ∨ wC23.dev.fon (pgDr 0) Reg.DERAILLEUR.SHIFTING = true ∨ wC23.dev.fon (pgDr 0) Reg.DERAILLEUR.DWELL = true) ∧
    (wC24.dev.sp 0).drv.streaming = true ∧ wC24.dev.mode (pgDr 0) ≠ 1 ∧ wC24.dev.fon (pgDr 0) Reg.DERAILLEUR.SHIFTING = false ∧
    wC24.dev.fon (pgDr 0) Reg.DERAILLEUR.DWELL = false ∧ wC24.dev.capOf 0 ≤ 12 ∧ wC24.dev.capOf 0 ≤ wC24.dev.fget (pgDr 0) Reg.DERAILLEUR.TARGET_COG ∧
    wC24.dev.fget (pgDr 0) Reg.DERAILLEUR.TARGET_COG ≤ 12 ∧ wC24.dev.pairBroken 0 = false ∧ wC24.dev.unsettled (pgDr 0) = false) ∧
    ((wC24.dev.shiftInputs 0).fst = true ∧ wC24.dev.fget (pgDr 0) Reg.DERAILLEUR.TARGET_COG < 12 ∧ (wC25.dev.sp 0).drv.streaming = true ∧
    wC25.dev.mode (pgDr 0) ≠ 1 ∧ wC25.dev.fon (pgDr 0) Reg.DERAILLEUR.SHIFTING = false ∧ wC25.dev.fon (pgDr 0) Reg.DERAILLEUR.DWELL = false ∧
    wC25.dev.capOf 0 ≤ 12 ∧ wC25.dev.capOf 0 ≤ wC25.dev.fget (pgDr 0) Reg.DERAILLEUR.TARGET_COG ∧ wC25.dev.fget (pgDr 0) Reg.DERAILLEUR.TARGET_COG ≤ 12 ∧
    wC25.dev.pairBroken 0 = false ∧ wC25.dev.unsettled (pgDr 0) = false ∧ wC25.dev.shiftInputs 0 = (false, true) ∧
    wC25.dev.capOf 0 < wC25.dev.fget (pgDr 0) Reg.DERAILLEUR.TARGET_COG ∧ (wC26.dev.sp 0).drv.streaming = true ∧ wC26.dev.mode (pgDr 0) ≠ 1 ∧
    wC26.dev.fon (pgDr 0) Reg.DERAILLEUR.SHIFTING = false) ∧
    (wC26.dev.fon (pgDr 0) Reg.DERAILLEUR.DWELL = false ∧ wC26.dev.capOf 0 ≤ 12 ∧ wC26.dev.capOf 0 ≤ wC26.dev.fget (pgDr 0) Reg.DERAILLEUR.TARGET_COG ∧
    wC26.dev.fget (pgDr 0) Reg.DERAILLEUR.TARGET_COG ≤ 12 ∧ wC26.dev.pairBroken 0 = false ∧ wC26.dev.unsettled (pgDr 0) = false ∧
    wC26.dev.shiftInputs 0 = (false, false)) :=
  ⟨by decide +kernel, by decide +kernel, by decide +kernel⟩

theorem test_witness_HostAssistedSpeed :
    (wC27.dev.mode (pgDr 0) = 1 ∧ wC28.dev.mode (pgDr 0) = 1 ∧ (wC28.dev.sp 0).drv.streaming = true ∧ (wC28.dev.sp 0).drv.reading = true ∧
    (wC28.dev.rd 0).ladder.stage ≠ 2 ∧ wC28.dev.fget (pgDr 0) Reg.DERAILLEUR.CUR_COG = 12 ∧
    max (wC28.dev.fget (pgDr 0) Reg.DERAILLEUR.RA_LIMIT) (wC28.dev.fget (pgDr 0) Reg.DERAILLEUR.RA_HIGH) ≤ wC28.dev.fget (pgDr 0) Reg.DERAILLEUR.RA_FILL_MIB ∧
    (wC27.dev.sp 0).wr.stop = StopKind.none ∧ wC27.dev.fon (pgWriter 0) Reg.HEADER.QUIESCE_REQ = false ∧
    slotAllowed (zoneOfWrap (wC27.dev.sp 0).wr.wrap) (wC27.dev.sp 0).wr.slotsUsed (wC27.dev.sp 0).wr.ahead = true ∧ (wC27.dev.sp 0).wr.dueQ = [] ∧
    wC27.dev.padCase 0 = false ∧ (wC27.dev.sp 0).sess.closing = none ∧ wC29.dev.access tfw (pgDr 0) = Access.open ∧ wC29.dev.mode (pgDr 0) = 1 ∧
    State.reset.dev.access tfw (pgDr 0) = Access.open) ∧
    (State.reset.dev.mode (pgDr 0) ≠ 1) :=
  ⟨by decide +kernel, by decide +kernel⟩

theorem test_witness_StopsParksAndRunUps :
    ((wC30.dev.sp 0).drv.streaming = false ∧ (wC30.dev.sp 0).drv.tapeStopped = false ∧
    (wC30.dev.fget (pgMotion 0) Reg.MOTION.STATE = 5 ∨ wC30.dev.fget (pgMotion 0) Reg.MOTION.STATE = 6) ∧ (wC31.dev.sp 0).drv.streaming = false ∧
    (wC31.dev.sp 0).drv.tapeStopped = false ∧ (wC31.dev.fget (pgMotion 0) Reg.MOTION.STATE = 5 ∨ wC31.dev.fget (pgMotion 0) Reg.MOTION.STATE = 6) ∧
    (wC32.dev.sp 0).drv.streaming = false ∧ (wC32.dev.sp 0).drv.tapeStopped = false ∧
    (wC32.dev.fget (pgMotion 0) Reg.MOTION.STATE = 5 ∨ wC32.dev.fget (pgMotion 0) Reg.MOTION.STATE = 6) ∧ (wC33.dev.sp 0).drv.streaming = false ∧
    (wC33.dev.sp 0).drv.tapeStopped = false ∧ (wC33.dev.fget (pgMotion 0) Reg.MOTION.STATE = 5 ∨ wC33.dev.fget (pgMotion 0) Reg.MOTION.STATE = 6) ∧
    (wC34.dev.sp 0).drv.tapeStopped = true ∧ wC34.dev.fget (pgMotion 0) Reg.MOTION.STATE = 5 ∧ wC34.dev.mayMove 0 = true ∧
    ((wC1.dev.sealNext 0).sp 0).drv.runUp = false) ∧
    ((((wC1.dev.sealNext 0).sp 0).drv.turning = false ∨ ((wC1.dev.sealNext 0).rd 0).locating = none) ∧ (wC1.dev.sealNext 0).mayRun 0 = true ∧
    ((wC35.dev.sealNext 0).sp 0).drv.runUp = false ∧ ((wC35.dev.sealNext 0).sp 0).drv.turning = true ∧ ((wC35.dev.sealNext 0).rd 0).locating ≠ none ∧
    (wC35.dev.sealNext 0).mayMove 0 = true ∧ (wC36.dev.sp 0).drv.runUp = true ∧ (wC36.dev.rd 0).locating = none ∧ wC36.dev.mayRun 0 = false ∧
    (wC37.dev.sp 0).drv.runUp = true ∧ (wC37.dev.rd 0).locating = none ∧ wC37.dev.mayRun 0 = true ∧ (wC37.dev.sp 0).drv.turning = false ∧
    (wC38.dev.sp 0).drv.runUp = true ∧ (wC38.dev.rd 0).locating = some 5 ∧ (State.reset.dev.sp 0).drv.target = none) ∧
    ((wC39.dev.sp 0).drv.target = some (0, 0, 1) ∧ wC39.dev.locateMet 0 0 0 1 = false ∧ (wC40.dev.sp 0).drv.target = some (0, 2000, 1) ∧
    wC40.dev.locateMet 0 0 2000 1 = true ∧ wC40.dev.mayMove 0 = true ∧ wC40.dev.fget (pgMotion 0) Reg.MOTION.STATE = 3 ∧
    (wC40.dev.sp 0).drv.unloadStep ≠ 3 ∧ (wC40.dev.lad 0).phase = LadderPhase.idle ∧ (wC40.dev.sp 0).seek.final = false ∧
    (wC40.dev.rd 0).locating = none ∧ (wC41.dev.rd 0).stopped = true ∧ (wC41.dev.rd 0).noBuf = false ∧
    wC41.dev.fget (pgDr 0) Reg.DERAILLEUR.RA_FILL_MIB < wC41.dev.fget (pgDr 0) Reg.DERAILLEUR.RA_LOW ∧ (wC41.dev.sp 0).drv.tapeStopped = true ∧
    (wC41.dev.sp 0).drv.parked = true ∧ (wC41.dev.sp 0).readsOn = true) ∧
    ((wC41.dev.lad 0).phase = LadderPhase.idle ∧ wC41.dev.mayMove 0 = true ∧ tileCog (wC41.dev.tiles 0) ≠ 0 ∧ (State.reset.dev.rd 0).stopped = false) :=
  ⟨by decide +kernel, by decide +kernel, by decide +kernel, by decide +kernel⟩

theorem test_witness_EnvironmentAndCalibration :
    ((wC43.dev.sp 0).drv.envInner = true ∧ (wC44.dev.sp 0).drv.envInner = false ∧ (wC45.dev.stw (4 + 0)).state ≠ 0 ∧ (wC46.dev.stw (4 + 0)).state = 0 ∧
    wC46.dev.cartState 0 = 2 ∧ wC46.dev.phase 0 = 5 ∧
    ({ acquired := false, boost := [], offsets := [], noise := [], fit := none } : CalMeas).acquired = false ∧
    ({ acquired := true, boost := [1, -1], offsets := [], noise := [], fit := none } : CalMeas).acquired = true ∧ (wC46.dev.sp 0).drv.head < 160 ∧
    (wC47.dev.stw (4 + 0)).state = 0 ∧ wC47.dev.cartState 0 = 2 ∧ wC47.dev.phase 0 = 6 ∧ (wC48.dev.stw (4 + 0)).state = 0 ∧ wC48.dev.cartState 0 ≠ 2 ∧
    wC48.dev.hostCal 0 = false ∧ (wC48.dev.sp 0).drv.streaming = true) ∧
    ((wC49.dev.stw (4 + 0)).state = 0 ∧ wC49.dev.cartState 0 ≠ 2 ∧ (wC49.dev.sp 0).drv.streaming = false ∧ 3 < 4 ∧ 0 < 4) :=
  ⟨by decide +kernel, by decide +kernel⟩

theorem test_witness_TransportLoss :
    (wC52.dev.sp 0).drv.present = true ∧ (State.reset.dev.sp 7).drv.present = false :=
  by decide +kernel

theorem test_witness_MessagesAndLinkErrors :
    (((((((State.reset.dev.bump (pgLink 0) Reg.LINK.RX_FRAMES 1).bump (pgLink 0) Reg.HEADER.UNITS 1).fset (pgLink 0) Reg.LINK.SILENT 0).modDrv 0 fun x => { x with  }).faultOver 0).cartState 0 = 0) ∧
    ((((((wC54.dev.bump (pgLink 0) Reg.LINK.RX_FRAMES 1).bump (pgLink 0) Reg.HEADER.UNITS 1).fset (pgLink 0) Reg.LINK.SILENT 0).modDrv 0 fun x => { x with  }).faultOver 0).cartState 0 ≠ 0) ∧
    (wC55.dev.sp 0).drv.unloadStep ≠ 5 ∧
    ((((((wC55.dev.bump (pgLink 0) Reg.LINK.RX_FRAMES 1).bump (pgLink 0) Reg.HEADER.UNITS 1).fset (pgLink 0) Reg.LINK.SILENT 0).modDrv 0 fun x => { x with mechState := 1 }).faultOver 0).cartState 0 = 0) ∧
    ((((((wC56.dev.bump (pgLink 0) Reg.LINK.RX_FRAMES 1).bump (pgLink 0) Reg.HEADER.UNITS 1).fset (pgLink 0) Reg.LINK.SILENT 0).modDrv 0 fun x => { x with mechState := 3, threaded := true }).faultOver 0).cartState 0 = 2) ∧
    ((((((wC56.dev.bump (pgLink 0) Reg.LINK.RX_FRAMES 1).bump (pgLink 0) Reg.HEADER.UNITS 1).fset (pgLink 0) Reg.LINK.SILENT 0).modDrv 0 fun x => { x with mechState := 3, threaded := true }).faultOver 0).phase 0 = 2) ∧
    (List.find? (fun q => q.tag == 4) (wC57.dev.sp 0).drv.cmOut = none) ∧
    (List.find? (fun q => q.tag == 3) (wC57.dev.sp 0).drv.cmOut = some { tag := 3, off := 0, count := 32 }) ∧ (wC57.dev.sp 0).drv.cm = [xC2] ∧ 1 ≠ 0 ∧
    (¬(5 = 5 ∧ 1 = 1 ∧ State.reset.dev.cartState 0 = 2 ∧ State.reset.dev.phase 0 = 2)) ∧ wC56.dev.cartState 0 = 2 ∧ wC56.dev.phase 0 = 2 ∧
    linkFrameOk [] = false ∧ (List.find? (fun q => q.tag == 3) (wC58.dev.sp 0).drv.cmOut = some { tag := 3, off := 0, count := 32, resends := 3 }) ∧
    3 ≤ ({ tag := 3, off := 0, count := 32, resends := 3 } : CmReq).resends) ∧
    ((List.find? (fun q => q.tag == 3) (wC59.dev.sp 0).drv.cmOut = some { tag := 3, off := 0, count := 32, resends := 2 }) ∧
    ({ tag := 3, off := 0, count := 32, resends := 2 } : CmReq).resends < 3) :=
  ⟨by decide +kernel, by decide +kernel⟩

theorem test_witness_Segments :
    (50 ≤ 120 ∧ 120 ≤ 120 ∧ 0 ≤ 120 ∧ (agcStep 100 ({ }, true, 50) { amp := 5, terr := 0 }).snd.fst = true ∧
    wD1.dev.fon (lfe 0 5) (Reg.LANEFE.ENABLE (5 % 16)) = false ∧ wD2.dev.fon (lfe 0 5) (Reg.LANEFE.ENABLE (5 % 16)) = true ∧
    (((wD2.dev.loops 0 5 (LoopObs.join [40] [3] [0])).rd 0).lane 5).mode = LaneMode.locked ∧
    (((wD2.dev.loops 0 5 (LoopObs.join [40] [3] [0])).rd 0).lane 5).inArea = false ∧
    (wD2.dev.loops 0 5 (LoopObs.join [40] [3] [0])).pickTile 0 = some 0 ∧ (((wD2.dev.loops 0 5 (LoopObs.join [40] [3] [0])).rd 0).lane 5).pos < 31 ∧
    wD3.dev.fon (lfe 0 5) (Reg.LANEFE.ENABLE (5 % 16)) = true ∧ (((wD3.dev.loops 0 5 (LoopObs.join [40] [3] [0])).rd 0).lane 5).mode = LaneMode.locked ∧
    (((wD3.dev.loops 0 5 (LoopObs.join [40] [3] [0])).rd 0).lane 5).inArea = false ∧
    (wD3.dev.loops 0 5 (LoopObs.join [40] [3] [0])).pickTile 0 = some 0 ∧ (((wD3.dev.loops 0 5 (LoopObs.join [40] [3] [0])).rd 0).lane 5).pos = 31 ∧
    wD4.dev.fon (lfe 0 5) (Reg.LANEFE.ENABLE (5 % 16)) = true) ∧
    ((((wD4.dev.loops 0 5 (LoopObs.join [40] [3] [0])).rd 0).lane 5).mode = LaneMode.locked ∧
    (((wD4.dev.loops 0 5 (LoopObs.join [40] [3] [0])).rd 0).lane 5).inArea = false ∧ (wD4.dev.loops 0 5 (LoopObs.join [40] [3] [0])).pickTile 0 = none ∧
    (wD5.dev.rd 0).arriving 5 = none ∧ ((wD5.dev.rd 0).lane 5).mode ≠ LaneMode.gap ∧ (wD6.dev.rd 0).arriving 5 = some 8 ∧
    (List.find? (fun y => y.lane == 5 && !y.ready) ((wD6.dev.rd 0).tileOf 8) = some xD2) ∧ xD2.inArea = true ∧ (wD7.dev.rd 0).arriving 5 = some 8 ∧
    (List.find? (fun y => y.lane == 5 && !y.ready) ((wD7.dev.rd 0).tileOf 8) = some (tseg5 false)) ∧ (false = false ∨ (tseg5 false).inArea = false) ∧
    (if 8 = 9 then unsearched else wD7.dev.searchOf 0 5 (tseg5 false).first [] tsegHdr).hdr = some (headerOf 1 3 5 0 0 0 0 0) ∧
    (if 8 = 9 then unsearched else wD7.dev.searchOf 0 5 (tseg5 false).first [(3, 1)] []).hdr = none) :=
  ⟨by decide +kernel, by decide +kernel⟩

theorem test_witness_HeadersAndTiles :
    ((alignOf 5 (fun k => decide (k.natAbs ≤ 24)) 12 [(-24, 12), (3, 4), (7, 13)] tsegHdr).hdr = some (headerOf 1 3 5 0 0 0 0 0)) ∧
    (-24 ∈ triesOf (candsOf (fun k => decide (k.natAbs ≤ 24)) 12 [(-24, 12), (3, 4), (7, 13)])) ∧
    (0 ∈ triesOf (candsOf (fun k => decide (k.natAbs ≤ 24)) 12 [(-24, 12), (3, 4), (7, 13)])) ∧
    ((alignOf 5 (fun k => decide (k.natAbs ≤ 24)) 12 [(-24, 12), (3, 4), (7, 13)] tsegHdr).hdr ≠ none) ∧
    ((alignOf 5 (fun x => true) 0 [(3, 4)] tsegHdr).hdr ≠ none) ∧
    (tileResult tout { sheet := 3, row := 5, gen := 0, rwslot := 0 } 5 12 true false).converged = false ∧
    (tileResult tout { sheet := 3, row := 5, gen := 0, rwslot := 0 } 5 0 true false).converged = false ∧
    (List.find? (fun x => x.ready) ((wD5.dev.rd 0).tileOf 8) = none) ∧ (List.find? (fun x => x.ready) ((wD8.dev.rd 0).tileOf 8) = some (tseg5 true)) ∧
    wD8.dev.unsettled (pgDetect 0 8) = false ∧ wD8.dev.unsettled (pgDecode 0 8) = false ∧ wD8.dev.unsettled (lfe 0 (tseg5 true).lane) = false :=
  by decide +kernel

theorem test_witness_GapHuntAndSync :
    ((wD5.dev.rd 0).lane 5).mode ≠ LaneMode.gap ∧ ((State.reset.dev.rd 0).lane 5).mode = LaneMode.gap ∧ ((wD9.dev.rd 0).lane 5).mode = LaneMode.gap ∧
    ((wD10.dev.rd 0).lane 5).mode = LaneMode.locked ∧ 4 ≤ ((wD10.dev.rd 0).lane 5).misses ∧
    (((wD11.dev.rd 0).lane 5).mode ≠ LaneMode.locked ∨ ((wD11.dev.rd 0).lane 5).misses < 4) ∧
    (((State.reset.dev.rd 0).lane 5).mode ≠ LaneMode.locked ∨ ((State.reset.dev.rd 0).lane 5).misses < 4) ∧ 64 ≤ (wD12.dev.rd 0).noHeader ∧
    (wD13.dev.rd 0).noHeader < 64 :=
  by decide +kernel

theorem test_witness_SheetDecodesAndReplays :
    ((((wD14.dev.closeMap 0 0 0 1).healthCopy 0).boostsDue 0).hostCal 0 = true ∧
    ((((wD14.dev.closeMap 0 0 0 1).healthCopy 0).boostsDue 0).sp 0).drv.reading = false ∧
    (((wD15.dev.closeMap 0 0 0 1).healthCopy 0).boostsDue 0).hostCal 0 = true ∧
    ((((wD15.dev.closeMap 0 0 0 1).healthCopy 0).boostsDue 0).sp 0).drv.reading = true ∧
    ((((wD15.dev.closeMap 0 0 0 1).healthCopy 0).boostsDue 0).lad 0).phase = LadderPhase.idle ∧
    ((((wD15.dev.closeMap 0 0 0 1).healthCopy 0).boostsDue 0).rd 0).stopped = false ∧
    ((((wD15.dev.closeMap 0 0 0 1).healthCopy 0).boostsDue 0).rd 0).stopAt = none ∧ ((tpassed wD15 0).rd 0).sheet? 0 = some xD3 ∧ xD3.decodes = 0 ∧
    (((wD16.dev.closeMap 0 5 0 1).healthCopy 0).boostsDue 0).hostCal 0 = true ∧
    ((((wD16.dev.closeMap 0 5 0 1).healthCopy 0).boostsDue 0).sp 0).drv.reading = true ∧
    ((((wD16.dev.closeMap 0 5 0 1).healthCopy 0).boostsDue 0).lad 0).phase = LadderPhase.idle ∧
    ((((wD16.dev.closeMap 0 5 0 1).healthCopy 0).boostsDue 0).rd 0).stopped = false ∧
    ((((wD16.dev.closeMap 0 5 0 1).healthCopy 0).boostsDue 0).rd 0).stopAt = none ∧ ((tpassed wD16 5).rd 0).sheet? 5 = some xD4 ∧ xD4.decodes = 0) ∧
    ((List.find? (fun x => x.busy) (State.reset.dev.rd 0).sheets = none) ∧ (List.find? (fun x => x.busy) (wD17.dev.rd 0).sheets = some tall) ∧
    wD17.dev.unsettled (pgVerify 0) = false ∧ (List.find? (fun x => x.busy) (wD18.dev.rd 0).sheets = some xD5) ∧
    wD18.dev.unsettled (pgVerify 0) = false ∧ (List.find? (fun x => x.busy) (wD19.dev.rd 0).sheets = some xD6) ∧
    wD19.dev.unsettled (pgVerify 0) = false ∧ (List.find? (fun x => x.busy) (wD20.dev.rd 0).sheets = some xD7) ∧
    wD20.dev.unsettled (pgVerify 0) = false ∧ (wD21.dev.lad 0).phase = LadderPhase.idle ∧ (wD21.dev.rd 0).stopAt = none ∧
    (wD21.dev.rd 0).sheet? 0 = some xD8 ∧ xD8.decodes = 1 ∧ xD8.final = false ∧ xD8.busy = false ∧ (wD22.dev.lad 0).phase = LadderPhase.replay) ∧
    ((wD22.dev.lad 0).replay = none ∧ wD22.dev.tileTakes 0 8 = true ∧ wD22.dev.takesWork (pgSh 0) = true ∧ (wD22.dev.rd 0).tileOf 8 = [] ∧
    (∀ (k : Nat), k < 9 → ((wD22.dev.rd 0).tileOf k).length ≤ 8) ∧ wD22.dev.nextReplay 0 (wD22.dev.lad 0).inRung = some (4, tcap) ∧
    wD23.dev.tileTakes 0 8 = false ∧ (State.reset.dev.lad 0).replay = none ∧ (wD24.dev.lad 0).replay = some (8, 31) ∧
    (List.find? (fun p => p.fst == 31) (wD24.dev.rd 0).hold = none) ∧ (wD25.dev.lad 0).replay = some (8, 4) ∧
    (List.find? (fun p => p.fst == 4) (wD25.dev.rd 0).hold = some (4, tcap)) ∧ wD25.dev.unsettled (pgSh 0) = false ∧
    wD25.dev.unsettled (pgDetect 0 8) = false ∧ wD25.dev.unsettled (pgDecode 0 8) = false ∧ (wD25.dev.lad 0).inRung = 1) ∧
    ((wD26.dev.lad 0).replay = some (8, 4) ∧ (List.find? (fun p => p.fst == 4) (wD26.dev.rd 0).hold = some (4, tcap)) ∧
    wD26.dev.unsettled (pgSh 0) = false ∧ wD26.dev.unsettled (pgDetect 0 8) = false ∧ wD26.dev.unsettled (pgDecode 0 8) = false ∧
    (wD26.dev.lad 0).inRung = 1) :=
  ⟨by decide +kernel, by decide +kernel, by decide +kernel, by decide +kernel⟩

theorem test_witness_LadderSteps :
    ((wD27.dev.rd 0).sheet? (wD27.dev.lad 0).work = some xD3 ∧ (wD27.dev.lad 0).phase = LadderPhase.decode ∧ (wD27.dev.lad 0).rung = 0 ∧
    wD27.dev.unsettled (pgVerify 0) = false ∧ (State.reset.dev.rd 0).sheet? (State.reset.dev.lad 0).work = none ∧
    (wD28.dev.rd 0).sheet? (wD28.dev.lad 0).work = some xD3 ∧ (wD28.dev.lad 0).phase = LadderPhase.decode ∧ 1 ≤ (wD28.dev.lad 0).rung ∧
    (wD28.dev.lad 0).rung < 5 ∧ wD28.dev.unsettled (pgVerify 0) = false ∧ (wD29.dev.rd 0).sheet? (wD29.dev.lad 0).work = some xD10 ∧
    (wD29.dev.lad 0).phase = LadderPhase.decode ∧ 1 ≤ (wD29.dev.lad 0).rung ∧ (wD29.dev.lad 0).rung < 5 ∧ wD29.dev.unsettled (pgVerify 0) = false ∧
    (wD30.dev.rd 0).sheet? (wD30.dev.lad 0).work = some xD3) ∧
    ((wD30.dev.lad 0).phase = LadderPhase.decode ∧ 1 ≤ (wD30.dev.lad 0).rung ∧ (wD30.dev.lad 0).rung < 5 ∧ wD30.dev.unsettled (pgVerify 0) = false ∧
    (wD31.dev.rd 0).sheet? (wD31.dev.lad 0).work = some xD10 ∧ (wD31.dev.lad 0).phase = LadderPhase.decode ∧ 1 ≤ (wD31.dev.lad 0).rung ∧
    (wD31.dev.lad 0).rung < 5 ∧ wD31.dev.unsettled (pgVerify 0) = false ∧ (wD32.dev.rd 0).sheet? (wD32.dev.lad 0).work = some xD3 ∧
    (wD32.dev.lad 0).phase = LadderPhase.decode ∧ 1 ≤ (wD32.dev.lad 0).rung ∧ (wD32.dev.lad 0).rung < 5 ∧ wD32.dev.unsettled (pgVerify 0) = false ∧
    (wD33.dev.rd 0).sheet? (wD33.dev.lad 0).work = some xD10 ∧ (wD33.dev.lad 0).phase = LadderPhase.decode) ∧
    (1 ≤ (wD33.dev.lad 0).rung ∧ (wD33.dev.lad 0).rung < 5 ∧ wD33.dev.unsettled (pgVerify 0) = false ∧ (wD34.dev.lad 0).phase = LadderPhase.rebuild ∧
    (wD34.dev.lad 0).stage = 4 ∧ (wD34.dev.lad 0).wanted = [] ∧ wD34.dev.rebuild 0 (wD34.dev.lad 0).sheet = some [] ∧
    (wD35.dev.lad 0).phase = LadderPhase.rebuild ∧ (wD35.dev.lad 0).stage = 4 ∧ (wD35.dev.lad 0).wanted = [] ∧
    wD35.dev.rebuild 0 (wD35.dev.lad 0).sheet = none ∧ State.reset.dev.access tfw (pgSh 0) = Access.open ∧
    (State.reset.dev.lad 0).phase ≠ LadderPhase.waitHost ∧ wD36.dev.access tfw (pgSh 0) = Access.open ∧ (wD36.dev.lad 0).phase = LadderPhase.waitHost ∧
    wD37.dev.access tfw (pgSh 0) = Access.open) ∧
    ((wD37.dev.lad 0).phase = LadderPhase.waitHost ∧ wD37.dev.fget (pgSh 0) Reg.SAMPLEHOLD.HOST_WAIT ≠ 0 ∧
    wD38.dev.fget (pgSh 0) Reg.SAMPLEHOLD.HOST_WAIT = 0) :=
  ⟨by decide +kernel, by decide +kernel, by decide +kernel, by decide +kernel⟩

theorem test_witness_RecordsAndBlocksCoded :
    ((findRec (fun r => r.stream == 0 && !r.started && !r.cut) State.reset.dev.recs = none) ∧
    (findRec (fun r => r.stream == 0 && !r.started && !r.cut) wE1.dev.recs = some 0) ∧
    wE1.dev.recs.getD 0 { stream := 0, spoke := 0 } = trec false false [] ∧
    (findRec (fun r => r.stream == 0 && !r.started && !r.cut) wE2.dev.recs = some 0) ∧ wE2.dev.recs.getD 0 { stream := 0, spoke := 0 } = xE1 ∧
    xE1.mayStart = false ∧ (findRec (fun r => r.stream == 0 && !r.started && !r.cut) wE3.dev.recs = some 0) ∧
    wE3.dev.recs.getD 0 { stream := 0, spoke := 0 } = trec false false [] ∧ (trec false false []).mayStart = true ∧
    ((wE3.dev.takeLead 0).stream 0).lead = none ∧ ((wE1.dev.takeLead 0).stream 0).lead = some 3 ∧
    (findRec (fun r => r.stream == 0 && !r.started && !r.cut) wE4.dev.recs = some 0) ∧
    wE4.dev.recs.getD 0 { stream := 0, spoke := 0 } = trec false false [] ∧ ((wE4.dev.takeLead 0).stream 0).lead = some 0 ∧
    (findRec (fun r => r.stream == 0 && r.started && !r.cut) State.reset.dev.recs = none) ∧
    (findRec (fun r => r.stream == 0 && r.started && !r.cut) wE5.dev.recs = some 0)) ∧
    (wE5.dev.recs.getD 0 { stream := 0, spoke := 0 } = trec true false [] ∧
    List.drop (trec true false []).pos (wE5.dev.piecesBytes (trec true false []).src) = [] ∧ (trec true false []).more = false ∧
    (trec true false []).num ≠ none ∧ (findRec (fun r => r.stream == 0 && r.started && !r.cut) wE6.dev.recs = some 0) ∧
    wE6.dev.recs.getD 0 { stream := 0, spoke := 0 } = tbytes ∧ List.drop tbytes.pos (wE6.dev.piecesBytes tbytes.src) = [0, 0] ∧ [0, 0] ≠ [] ∧
    chunkAt [0, 0] 0 0 = (2, false) ∧ tbytes.more = false ∧ tbytes.num ≠ none ∧
    (findRec (fun r => r.stream == 0 && r.started && !r.cut) wE7.dev.recs = some 0) ∧ wE7.dev.recs.getD 0 { stream := 0, spoke := 0 } = xE2 ∧
    List.drop xE2.pos (wE7.dev.piecesBytes xE2.src) = [0, 0] ∧ (xE2.more = true ∨ xE2.num = none) ∧
    oldestBlk [(5, 1, 1), (3, 0, 2), (4, 0, 1)] = some (0, 2)) ∧
    (wE8.dev.compFree 16 = false ∧ wE9.dev.compFree 16 = true ∧ oldestBlk (wE9.dev.codable 16) = some (0, 0) ∧ wE10.dev.compFree 16 = true ∧
    oldestBlk (wE10.dev.codable 16) = some (1, 1) ∧ State.reset.dev.fon (pgComp 16) Reg.COMP.WAIT_BUF = false ∧
    wE11.dev.fon (pgComp 16) Reg.COMP.WAIT_BUF = true ∧
    (findRecBlk (fun r => match r.blks with | b :: tail => b.eng == 16 && b.st == BlkSt.finished | [] => false) (fun x => true) wE11.dev.recs = some (0, 0)) ∧
    (findRecBlk (fun x => true) (fun b => b.st == BlkSt.coding 16) State.reset.dev.recs = none) ∧
    (findRecBlk (fun x => true) (fun b => b.st == BlkSt.coding 16) wE12.dev.recs = some (0, 0)) ∧ wE12.dev.unsettled (pgComp 16) = false) :=
  ⟨by decide +kernel, by decide +kernel, by decide +kernel⟩

theorem test_witness_BlocksNeverGrow :
    [1] ≠ [] ∧ (blockBytes true true (tblk BlkSt.queued) [1] []).snd = false ∧ tzeros ≠ [] ∧
    (blockBytes true true (tblk BlkSt.queued) tzeros tkept).snd = true :=
  by decide +kernel

theorem test_witness_BlocksDecodedAndFrames :
    (wE13.dev.decompFree 16 = false ∧ wE14.dev.decompFree 16 = true ∧
    ((wE14.dev.nextRBlk (pgDecomp 16) fun b => b.st == RBlkSt.ncf && b.failedOn != some 16) = some (0, 0)) ∧
    ((State.reset.dev.findRBlk fun b => b.st == RBlkSt.coding 16) = none) ∧ ((wE15.dev.findRBlk fun b => b.st == RBlkSt.coding 16) = some (0, 0)) ∧
    wE15.dev.rs 0 = some (trblk (RBlkSt.coding 16)) ∧ (trblk (RBlkSt.coding 16)).blks[0]? = some xE3 ∧ (0 = 0 ∨ xE3.usesFar = false) ∧
    ((wE16.dev.findRBlk fun b => b.st == RBlkSt.coding 16) = some (0, 1)) ∧ wE16.dev.rs 0 = some xE4 ∧ xE4.blks[1]? = some xE5 ∧ 1 ≠ 0 ∧
    xE5.usesFar = true ∧ ((State.reset.dev.findRBlk fun b => b.st == RBlkSt.waitFar 16) = none) ∧
    ((wE17.dev.findRBlk fun b => b.st == RBlkSt.waitFar 16) = some (0, 0)) ∧ ((wE18.dev.findRBlk fun b => b.st == RBlkSt.waitFar 16) = some (0, 1))) ∧
    (0 < 8 ∧ wE19.dev.rs 0 = some xE6 ∧ xE6.susp = some 16 ∧ xE6.raw = false ∧ 0 < xE6.left ∧
    (∀ (m : Nat), m < 0 → ∀ (x : ReadSt), wE19.dev.rs m = some x → x.susp ≠ some 16 ∨ x.raw = true ∨ x.left = 0) ∧
    (∀ (m : Nat), m < 8 → ∀ (x : ReadSt), State.reset.dev.rs m = some x → x.susp ≠ some 16 ∨ x.raw = true ∨ x.left = 0) ∧
    (wE20.dev.serviceable (pgCrypt 1) = false ∨ wE20.dev.takesWork (pgCrypt 1) = false) ∧
    (wE21.dev.serviceable (pgCrypt 1) = false ∨ wE21.dev.takesWork (pgCrypt 1) = false) ∧ wE22.dev.serviceable (pgCrypt 1) = true ∧
    wE22.dev.takesWork (pgCrypt 1) = true ∧ wE22.dev.unsettled (pgCrypt 1) = false ∧ wE22.dev.toEncrypt 1 = some (0, 0, 0) ∧
    (wE22.dev.slot (wE22.dev.recs.getD 0 { stream := 0, spoke := 0 }).slot).ivCount < 2 ^ 64 ∧ tend.dev.serviceable (pgCrypt 1) = true ∧
    tend.dev.takesWork (pgCrypt 1) = true) ∧
    (tend.dev.unsettled (pgCrypt 1) = false ∧ tend.dev.toEncrypt 1 = some (0, 0, 0) ∧
    2 ^ 64 ≤ (tend.dev.slot (tend.dev.recs.getD 0 { stream := 0, spoke := 0 }).slot).ivCount ∧ wE23.dev.serviceable (pgCrypt 1) = true ∧
    wE23.dev.takesWork (pgCrypt 1) = true ∧ wE23.dev.unsettled (pgCrypt 1) = false ∧
    ((wE23.dev.nextRBlk (pgCrypt 1) fun b => b.st == RBlkSt.frame) = some (0, 0)) ∧ wE23.dev.rs 0 = some (trblk RBlkSt.frame) ∧
    (trblk RBlkSt.frame).blks[0]? = some xE7 ∧ wE24.dev.serviceable (pgCrypt 1) = true ∧ wE24.dev.takesWork (pgCrypt 1) = true ∧
    wE24.dev.unsettled (pgCrypt 1) = false ∧ ((wE24.dev.nextRBlk (pgCrypt 1) fun b => b.st == RBlkSt.frame) = some (0, 0)) ∧ wE24.dev.rs 0 = some xE8 ∧
    xE8.blks[0]? = some xE9) :=
  ⟨by decide +kernel, by decide +kernel, by decide +kernel⟩

theorem test_witness_MemoryReads :
    wM1.dev.memMustWait (MemAcc.read MemReader.other 0 0 []) = true ∧ State.reset.dev.memMustWait (MemAcc.read MemReader.other 511 511 []) = false ∧
    State.reset.dev.pageValid (511 / 512) = false ∧ wM2.dev.memMustWait (MemAcc.read MemReader.other 511 511 []) = false ∧
    wM2.dev.pageValid (511 / 512) = true ∧ (∀ (j : Nat), j < 8 → diagnose (wM2.dev.laneSyndrome 511 511 [] j) = Diag.good) ∧
    wM2.dev.memMustWait (MemAcc.read MemReader.other 511 511 [(1, 0)]) = false ∧ 0 < 8 ∧
    (diagnose (wM2.dev.laneSyndrome 511 511 [(1, 0)] 0)).corrected = true ∧
    (∀ (i : Nat), i < 0 → diagnose (wM2.dev.laneSyndrome 511 511 [(1, 0)] i) = Diag.good) ∧
    (∀ (i : Nat), i < 8 → (diagnose (wM2.dev.laneSyndrome 511 511 [(1, 0)] i)).lost = false) ∧
    wM2.dev.memMustWait (MemAcc.read MemReader.other 511 511 [(0, 0), (0, 0), (0, 0), (0, 0), (0, 0), (0, 0), (0, 0), (3, 0)]) = false ∧ 7 < 8 ∧
    (diagnose (wM2.dev.laneSyndrome 511 511 [(0, 0), (0, 0), (0, 0), (0, 0), (0, 0), (0, 0), (0, 0), (3, 0)] 7)).lost = true ∧
    (∀ (i : Nat), i < 8 → i ≠ 7 → diagnose (wM2.dev.laneSyndrome 511 511 [(0, 0), (0, 0), (0, 0), (0, 0), (0, 0), (0, 0), (0, 0), (3, 0)] i) = Diag.good) :=
  by decide +kernel

theorem test_witness_CheckCodeCorrectsOneDetectsTwo :
    (0 < 2 ^ 33 ∧ 1 < 2 ^ 33 ∧ 0 ≠ 1 ∧ 0 ^^^ 1 ≠ 2 ^ 33 - 1 ∧ (∀ (j : Nat), j < 8 → mget (fun x => 0) State.reset.dev.chestBad (8 * 1 + j) = 0) ∧
    2 ^ 33 - 2 < 2 ^ 33 ∧ 0 ≠ 2 ^ 33 - 2 ∧ 0 ^^^ 2 ^ 33 - 2 ≠ 2 ^ 33 - 1 ∧
    (∀ (j : Nat), j < 8 → mget (fun x => 0) State.reset.dev.chestBad (8 * (2 ^ 33 - 2) + j) = 0) ∧
    (mget (fun x => 0) State.reset.dev.chestBad (8 * 5 + 7) = 0) ∧ ([].getD 7 (0, 0)).fst < 256 ∧ ([].getD 7 (0, 0)).snd < 32 ∧
    onesIn 8 ([].getD 7 (0, 0)).fst + onesIn 5 ([].getD 7 (0, 0)).snd = 0 ∧ (mget (fun x => 0) State.reset.dev.chestBad (8 * 5 + 0) = 0) ∧
    ([(128, 0)].getD 0 (0, 0)).fst < 256 ∧ ([(128, 0)].getD 0 (0, 0)).snd < 32) ∧
    (onesIn 8 ([(128, 0)].getD 0 (0, 0)).fst + onesIn 5 ([(128, 0)].getD 0 (0, 0)).snd = 1 ∧ 7 < 8 ∧ ([(128, 0)].getD 0 (0, 0)).fst = 2 ^ 7 ∧
    ([(0, 16)].getD 0 (0, 0)).fst < 256 ∧ ([(0, 16)].getD 0 (0, 0)).snd < 32 ∧
    onesIn 8 ([(0, 16)].getD 0 (0, 0)).fst + onesIn 5 ([(0, 16)].getD 0 (0, 0)).snd = 1 ∧ ([(128, 16)].getD 0 (0, 0)).fst < 256 ∧
    ([(128, 16)].getD 0 (0, 0)).snd < 32 ∧ onesIn 8 ([(128, 16)].getD 0 (0, 0)).fst + onesIn 5 ([(128, 16)].getD 0 (0, 0)).snd = 2 ∧
    ([(0, 3)].getD 0 (0, 0)).fst < 256 ∧ ([(0, 3)].getD 0 (0, 0)).snd < 32 ∧
    onesIn 8 ([(0, 3)].getD 0 (0, 0)).fst + onesIn 5 ([(0, 3)].getD 0 (0, 0)).snd = 2) :=
  ⟨by decide +kernel, by decide +kernel⟩

theorem test_witness_MemoryWritesFillsAndClears :
    (∀ (a : Nat), State.reset.dev.pageValid (a / 4096) = false → mget (fun x => 0) State.reset.dev.chest a = 0) ∧
    (∀ (a : Nat), wM7.dev.pageValid (a / 4096) = false → mget (fun x => 0) wM7.dev.chest a = 0) ∧
    (State.reset.dev.memMustWait (MemAcc.write 511 [(1234605616436508552, 254), (171, 255)]) = false ∧
    wM1.dev.memMustWait (MemAcc.write 0 [(1, 1)]) = true ∧ wM1.dev.fillPending 0 = true ∧ wM1.dev.memWaits = [] ∧ wM1.dev.pool.dying = [] ∧
    wM3.dev.access tfw pgVmap = Access.open ∧ wM3.dev.fon pgVmap Reg.VALIDMAP.BUSY = true ∧ State.reset.dev.access tfw pgVmap = Access.open ∧
    State.reset.dev.fon pgVmap Reg.VALIDMAP.BUSY = false ∧ State.reset.dev.fget pgVmap Reg.VALIDMAP.COUNT = 0 ∧ wM4.dev.access tfw pgVmap = Access.open ∧
    wM4.dev.fon pgVmap Reg.VALIDMAP.BUSY = false ∧ wM4.dev.fget pgVmap Reg.VALIDMAP.COUNT ≠ 0 ∧
    wM4.dev.fget pgVmap Reg.VALIDMAP.VM_CLR_BASE_PAGE + wM4.dev.fget pgVmap Reg.VALIDMAP.COUNT ≤ 16777216 ∧ wM5.dev.vmClr = some (0, 1) ∧
    (∀ (e : Nat × Bool), e ∈ wM5.dev.vmFill → ¬(0 ≤ e.fst ∧ e.fst < 0 + 1))) ∧
    ((mwf (fun x => false) wM5.dev.vmValid = true) ∧ Memory.wf wM5.dev.chest = true ∧ wM6.dev.vmClr = some (0, 1) ∧ (0, true) ∈ wM6.dev.vmFill ∧
    0 ≤ (0, true).fst ∧ (0, true).fst < 0 + 1 ∧ State.reset.dev.access tfw (pgMemctl 3) = Access.open ∧
    wM7.dev.memMustWait (MemAcc.write 0 [(1234605616436508552, 254), (171, 255)]) = false) :=
  ⟨fun _ _ => rfl, test_invalid_page_is_zero, by decide +kernel, by decide +kernel⟩

theorem test_witness_BufferPool :
    (owners.contains 15 = false ∧ owners.contains 16 = true ∧ wM8.dev.pool.configured = true ∧ wM8.dev.pool.applying = none ∧ 8388608 ≤ 8388608 ∧
    wM8.dev.pool.pickClass 16 (classFor 8388608) = some 5 ∧ 4097 ≤ 8388608 ∧ wM8.dev.pool.pickClass 16 (classFor 4097) = some 1 ∧
    wM9.dev.pool.configured = true ∧ wM9.dev.pool.applying = none ∧ 4096 ≤ 8388608 ∧ wM9.dev.pool.pickClass 16 (classFor 4096) = some 1 ∧
    wM10.dev.pool.configured = true ∧ wM10.dev.pool.applying = none ∧ wM10.dev.pool.pickClass 16 (classFor 4096) = none ∧ 8388608 < 8388609) ∧
    ((State.reset.dev.pool.configured = false ∨ State.reset.dev.pool.applying ≠ none) ∧
    (wM11.dev.pool.configured = false ∨ wM11.dev.pool.applying ≠ none) ∧ State.reset.dev.pool.isFree 0 = true ∧ wM12.dev.pool.isFree 0 = true ∧
    (wM13.dev.pool.descOf 0).count = 255 ∧ 0 < (wM14.dev.pool.descOf 0).count ∧ (wM14.dev.pool.descOf 0).count < 254 ∧
    0 < (wM15.dev.pool.descOf 0).count ∧ (wM15.dev.pool.descOf 0).count < 254 ∧ (wM16.dev.pool.descOf 0).count = 254 ∧
    wM17.dev.pool.lost.contains 0 = true ∧ (wM17.dev.pool.descOf 0).count = 0 ∧ wM13.dev.pool.lost.contains 0 = false ∧
    wM18.dev.pool.lost.contains 0 = false ∧ 1 < (wM18.dev.pool.descOf 0).count ∧ (wM18.dev.pool.descOf 0).count < 255) ∧
    (wM16.dev.pool.lost.contains 0 = false ∧ 1 < (wM16.dev.pool.descOf 0).count ∧ (wM16.dev.pool.descOf 0).count < 255 ∧
    wM19.dev.pool.lost.contains 0 = false ∧ (wM19.dev.pool.descOf 0).count = 1 ∧ wM19.dev.bufFilling 0 = false ∧ wM19.dev.pool.classOf 0 = some 5 ∧
    wM20.dev.pool.classOf 0 = some 5 ∧ wM20.dev.pool.bufAddr 0 / 4096 ≤ 3 ∧ 3 < wM20.dev.pool.bufAddr 0 / 4096 + classSize 5 / 4096 ∧
    (mwf (fun x => false) wM20.dev.vmValid = true) ∧ wM11.dev.access tfw pgPool = Access.open ∧ wM11.dev.pool.applying ≠ none ∧
    wM14.dev.access tfw pgPool = Access.open ∧ wM14.dev.pool.applying = none ∧ wM14.dev.pool.desc ≠ []) ∧
    (State.reset.dev.access tfw pgPool = Access.open ∧ State.reset.dev.pool.applying = none ∧
    State.reset.dev.cfgBad State.reset.dev.stagedCounts = false ∧ wM21.dev.trained = true ∧ wM21.dev.pool.configured = true ∧
    wM21.dev.pool.applying = some [1, 1, 1, 1, 1, 1] ∧ wM21.dev.pool.waits = [] ∧ (wM22.dev.sp 0).noBuf = true ∧
    wM22.dev.fget pgPool Reg.POOL.NOBUF_WAIT ≠ 0 ∧ wM22.dev.pool.configured = true ∧
    ((State.reset.dev.sp 0).noBuf = false ∨ State.reset.dev.fget pgPool Reg.POOL.NOBUF_WAIT = 0) ∧
    ((wM23.dev.sp 0).noBuf = false ∨ wM23.dev.fget pgPool Reg.POOL.NOBUF_WAIT = 0)) :=
  ⟨by decide +kernel, by decide +kernel, by decide +kernel, by decide +kernel⟩

theorem test_witness_EndpointsAndFunctions :
    (wF1.dev.epPresent 0 = true ∧ (wF1.dev.ep 0).perst = false ∧ wF1.dev.therm.mains = true ∧
    (State.reset.dev.epPresent 1 = false ∨ (State.reset.dev.ep 1).perst = true) ∧ wF2.dev.fon (pgPcie 0) Reg.PCIE.LINK_UP = true ∧
    State.reset.dev.fon (pgPcie 0) Reg.PCIE.LINK_UP = false ∧ wF3.dev.epPresent 0 = true ∧ (wF3.dev.ep 0).wasUp = true ∧ (wF3.dev.ep 0).perst = false ∧
    State.reset.dev.epPresent 0 = true ∧ (State.reset.dev.ep 0).wasUp = false ∧ wF4.dev.epPresent 0 = true ∧ (wF4.dev.ep 0).wasUp = false ∧
    State.reset.dev.epPresent 1 = false ∧ (State.reset.dev.vectorsOf (funcOf 1 63) ≤ 2047) ∧ (31 < wF7.dev.vectorsOf (funcOf 0 0))) ∧
    ((31 < wF8.dev.vectorsOf (funcOf 0 0)) ∧ wF9.dev.fon (pgPcie 0) Reg.PCIE.LINK_UP = true) :=
  ⟨by decide +kernel, by decide +kernel⟩

theorem test_witness_FetchesAndFailedTransfers :
    (wF10.dev.nextRing 0 = some 0 ∧ ((State.reset.dev.sq 4095).size = 0 ∨ (State.reset.dev.sq 4095).heldNobuf = true) ∧
    ((wF11.dev.sq 0).size = 0 ∨ (wF11.dev.sq 0).heldNobuf = true) ∧ (wF12.dev.sq 0).size ≠ 0 ∧ (wF12.dev.sq 0).heldNobuf = false ∧
    wF12.dev.sqServed 0 = false ∧ (wF13.dev.sq 0).size ≠ 0 ∧ (wF13.dev.sq 0).heldNobuf = false ∧ wF13.dev.sqServed 0 = true ∧
    (wF13.dev.nextRing (funcEp (wF13.dev.sq 0).func) ≠ some 0) ∧ (wF10.dev.sq 0).size ≠ 0 ∧ (wF10.dev.sq 0).heldNobuf = false ∧
    wF10.dev.sqServed 0 = true ∧ (wF10.dev.nextRing (funcEp (wF10.dev.sq 0).func) = some 0) ∧ (wF10.dev.turnsOf (funcEp (wF10.dev.sq 0).func) < 16) ∧
    (wF10.dev.readsOut (funcEp (wF10.dev.sq 0).func) + (readPieces 64 (wF10.dev.ep (funcEp (wF10.dev.sq 0).func)).ctl.readReq ((wF10.dev.sq 0).entryAddr (((wF10.dev.sq 0).head + (wF10.dev.sq 0).inTurns) % ringEntries (wF10.dev.sq 0).size)) (64 * (wF10.dev.sq 0).turnSize)).length ≤ wF10.dev.readLimit (funcEp (wF10.dev.sq 0).func))) ∧
    ((wF14.dev.sq 0).size ≠ 0 ∧ (wF14.dev.sq 0).heldNobuf = false ∧ wF14.dev.sqServed 0 = true ∧
    (wF14.dev.nextRing (funcEp (wF14.dev.sq 0).func) = some 0) ∧ (wF14.dev.turnsOf (funcEp (wF14.dev.sq 0).func) < 16) ∧
    (wF14.dev.readsOut (funcEp (wF14.dev.sq 0).func) + (readPieces 64 (wF14.dev.ep (funcEp (wF14.dev.sq 0).func)).ctl.readReq ((wF14.dev.sq 0).entryAddr (((wF14.dev.sq 0).head + (wF14.dev.sq 0).inTurns) % ringEntries (wF14.dev.sq 0).size)) (64 * (wF14.dev.sq 0).turnSize)).length ≤ wF14.dev.readLimit (funcEp (wF14.dev.sq 0).func)) ∧
    (State.reset.dev.sq 0).turns = [] ∧ (wF15.dev.sq 0).turns = [4, 1] ∧ (wF15.dev.sq 0).size ≠ 0 ∧
    ((State.reset.dev.cq 0).pendingMsg = 0 ∨ (State.reset.dev.cq 0).irqEn = false) ∧ (wF16.dev.cq 0).pendingMsg ≠ 0 ∧ (wF16.dev.cq 0).irqEn = true ∧
    ((wF16.dev.cq 0).vector < wF16.dev.vectorsOf (wF16.dev.cq 0).func) ∧
    (mget (fun x => true) wF16.dev.vecMasked (2048 * (wF16.dev.cq 0).func + (wF16.dev.cq 0).vector) = false) ∧
    ((wF16.dev.func (wF16.dev.cq 0).func).bme = true) ∧ (wF17.dev.sq 0).turns = [4]) ∧
    ((State.reset.dev.sq 7).turns = []) :=
  ⟨by decide +kernel, by decide +kernel, by decide +kernel⟩

theorem test_witness_RingsAndDoorbells :
    (wF22.dev.access tfw (pgRings (512 * 0)) = Access.open ∧ wF22.dev.ringSel 0 = 0 ∧ 4 ≠ 0 ∧ (wF22.dev.sq 0).size = 0 ∧
    State.reset.dev.access tfw (pgRings (512 * 7)) = Access.open ∧ State.reset.dev.ringSel 7 = 3584 ∧ 15 ≠ 0 ∧ (State.reset.dev.cq 3584).size = 0 ∧
    wF12.dev.access tfw (pgRings (512 * 0)) = Access.open ∧ wF12.dev.ringSel 0 = 0 ∧ 1 ≠ 0 ∧ (wF12.dev.sq 0).size ≠ 0 ∧
    wF23.dev.access tfw (pgRings (512 * 0)) = Access.open ∧ wF23.dev.ringSel 0 = 0 ∧ (wF23.dev.cq 0).size ≠ 0 ∧
    wF24.dev.access tfw (pgRings (512 * 0)) = Access.open) ∧
    (wF24.dev.ringSel 0 = 0 ∧ wF25.dev.access tfw (pgRings (512 * 0)) = Access.open ∧ wF25.dev.ringSel 0 = 0 ∧ (wF25.dev.cq 0).held = [] ∧
    wF26.dev.access tfw (pgRings (512 * 0)) = Access.open ∧ wF26.dev.ringSel 0 = 0 ∧ State.reset.dev.fget pgBoot Reg.BOOT.STATE ≠ 2 ∧
    State.reset.dev.domainOf (Accessor.fn 1 0) < 2 ∧ (State.reset.dev.sq 4095).size = 0 ∧ wF12.dev.fget pgBoot Reg.BOOT.STATE ≠ 2 ∧
    wF12.dev.domainOf (Accessor.fn 0 0) < 2 ∧ ((wF12.dev.sq 0).func = funcOf 0 0) ∧
    ((128 + 3 + 124) % ringEntries (wF12.dev.sq 0).size + ringEntries (wF12.dev.sq 0).size - (wF12.dev.sq 0).tail) % ringEntries (wF12.dev.sq 0).size ≤ ringEntries (wF12.dev.sq 0).size - 1 - (wF12.dev.sq 0).pending ∧
    ringEntries (wF12.dev.sq 0).size - 1 - (wF12.dev.sq 0).pending < (2 % ringEntries (wF12.dev.sq 0).size + ringEntries (wF12.dev.sq 0).size - (wF12.dev.sq 0).tail) % ringEntries (wF12.dev.sq 0).size ∧
    wF12.dev.domainOf (Accessor.fn 1 0) < 2 ∧ ((wF12.dev.sq 0).func ≠ funcOf 1 0)) ∧
    ((State.reset.dev.cq 4095).size = 0 ∧ wF27.dev.fget pgBoot Reg.BOOT.STATE ≠ 2 ∧ wF27.dev.domainOf (Accessor.fn 0 0) < 2 ∧ (wF27.dev.cq 0).size ≠ 0 ∧
    ((wF27.dev.cq 0).func = funcOf 0 0) ∧ (wF27.dev.cq 0).held = [] ∧
    (2 % ringEntries (wF27.dev.cq 0).size + ringEntries (wF27.dev.cq 0).size - (wF27.dev.cq 0).head) % ringEntries (wF27.dev.cq 0).size ≤ (wF27.dev.cq 0).used ∧
    (wF27.dev.cq 0).used < (3 % ringEntries (wF27.dev.cq 0).size + ringEntries (wF27.dev.cq 0).size - (wF27.dev.cq 0).head) % ringEntries (wF27.dev.cq 0).size ∧
    wF27.dev.domainOf (Accessor.fn 1 0) < 2 ∧ ((wF27.dev.cq 0).func ≠ funcOf 1 0) ∧ wF28.dev.access tfw (pgRings (512 * 0)) = Access.open ∧
    wF28.dev.ringSel 0 = 0 ∧ wF29.dev.access tfw (pgRings (512 * 0)) = Access.open ∧ wF29.dev.ringSel 0 = 0 ∧ (wF29.dev.sq 0).size = 0) :=
  ⟨by decide +kernel, by decide +kernel, by decide +kernel⟩

theorem test_witness_HeartbeatsAndHolds :
    wF30.dev.access tpf (pgPcie 0) = Access.open ∧ tpf.num = 64 * 0 ∧ wF30.dev.fon (pgPcie 0) Reg.PCIE.HOST_LOST = false ∧ (wF31.dev.ep 0).beat ≠ none ∧
    (State.reset.dev.ep 0).beat = none ∧
    (bitAt (State.reset.dev.fget pgMgmt Reg.MGMT.HOLDING) 7 = false ∨ State.reset.dev.fget pgMgmt Reg.MGMT.UNLOAD_MIN = 0) ∧
    bitAt (wF32.dev.fget pgMgmt Reg.MGMT.HOLDING) 7 = true ∧ wF32.dev.fget pgMgmt Reg.MGMT.UNLOAD_MIN ≠ 0 ∧
    wF34.dev.access tpf (pgPcie 0) = Access.open ∧ wF34.dev.fon (pgPcie 0) Reg.PCIE.HOST_LOST = true ∧ wF34.dev.fon (pgPcie 0) Reg.PCIE.LINK_UP = true ∧
    State.reset.dev.access tfw (pgPcie 0) = Access.open ∧ tfw.num ≠ 64 * 0 ∧ State.reset.dev.access tfw (pgPcie 1) = Access.open ∧
    wF31.dev.access tfw (pgPcie 0) = Access.open :=
  by decide +kernel

theorem test_witness_AccessesThroughBar0 :
    State.reset.dev.access tfw pgIdent = Access.open ∧ State.reset.dev.access tfw pgPool = Access.open ∧ wF33.dev.access tfw pgAlarm = Access.open ∧
    tten.dev.access tpf pgMgmt = Access.violation :=
  by decide +kernel

theorem test_witness_FetchedCommandsBeginOrWait :
    (Op.unload.carries = false ∧ (State.reset.dev.jobOf (thdr 0) Op.unload []).handles = [] ∧ (Op.bufRelease 0).carries = false ∧
    (State.reset.dev.jobOf (thdr 8) (Op.bufRelease 0) []).handles = [0] ∧ (State.reset.dev.jobOf (thdr 8) (Op.bufRelease 0) []).targetOk = true ∧
    (State.reset.dev.fetched (thdr 8).sq).pool.isFree 0 = true ∧ (wG1.dev.fetched (thdr 0).sq).startsNow (wG1.dev.jobOf (thdr 0) Op.unload []) = false ∧
    (thdr 0).target < 8 ∧ (wG1.dev.jobOf (thdr 0) Op.unload []).targetOk = true ∧
    (State.reset.dev.fetched (thdr 8).sq).startsNow (State.reset.dev.jobOf (thdr 8) (Op.bufAlloc 5) []) = false ∧
    (¬((thdr 8).target < 8 ∧ (State.reset.dev.jobOf (thdr 8) (Op.bufAlloc 5) []).targetOk = true)) ∧
    (State.reset.dev.fetched (thdr 0).sq).startsNow (State.reset.dev.jobOf (thdr 0) Op.unload []) = true ∧
    (State.reset.dev.fetched (thdr 0).sq).check (State.reset.dev.jobOf (thdr 0) Op.unload []) = Chk.status stNotReady ∧
    (wG2.dev.fetched (thdr 8).sq).startsNow (wG2.dev.jobOf (thdr 8) Op.takeover []) = true ∧
    (wG2.dev.fetched (thdr 8).sq).check (wG2.dev.jobOf (thdr 8) Op.takeover []) = Chk.prot vCommand 0 ∧
    (wG3.dev.fetched (thdr 0).sq).startsNow (wG3.dev.jobOf (thdr 0) (Op.format 9 []) []) = true) ∧
    ((wG3.dev.fetched (thdr 0).sq).check (wG3.dev.jobOf (thdr 0) (Op.format 9 []) []) = Chk.ok ∧
    ((wG3.dev.fetched (thdr 0).sq).ready (wG3.dev.jobOf (thdr 0) (Op.format 9 []) [])).check7 (thdr 0).target (wG3.dev.jobOf (thdr 0) (Op.format 9 []) []) = some stInvalidField) :=
  ⟨by decide +kernel, by decide +kernel⟩

theorem test_witness_ChecksAreInOrder :
    (xG1.targetOk = false ∧ xG2.targetOk = false ∧ xG3.targetOk = true ∧ wG2.dev.resourceFault xG3 = some (vCommand, 0) ∧ xG4.targetOk = true ∧
    wG4.dev.resourceFault xG4 = none ∧ xG4.hdr.target < 8 ∧ wG4.dev.fenced xG4.hdr.target = true ∧ xG5.targetOk = true ∧
    State.reset.dev.resourceFault xG5 = none ∧ xG5.hdr.target < 8 ∧ State.reset.dev.fenced xG5.hdr.target = false ∧ xG5.op.isTape = true ∧
    State.reset.dev.cartState xG5.hdr.target ≠ 3 ∧ xG6.targetOk = true ∧ wG5.dev.resourceFault xG6 = none) ∧
    (xG6.hdr.target < 8 ∧ wG5.dev.fenced xG6.hdr.target = false ∧ xG6.op.needsFormat = true ∧ wG5.dev.cartState xG6.hdr.target = 3 ∧
    (wG5.dev.sp xG6.hdr.target).cart.initialised = false ∧ wG3.dev.resourceFault xG6 = none ∧ wG3.dev.fenced xG6.hdr.target = false ∧
    wG3.dev.cartState xG6.hdr.target = 3 ∧ (wG3.dev.sp xG6.hdr.target).cart.initialised = true ∧
    (State.reset.dev.stream twrite.hdr.stream).isOpen = false ∧ (wG6.dev.stream xG7.hdr.stream).isOpen = true ∧
    (wG6.dev.stream xG7.hdr.stream).spoke ≠ xG7.hdr.target ∧ (wG7.dev.sp xG6.hdr.target).recStream = some 0 ∧ wG6.dev.bindFault xG8 = none ∧
    wG6.dev.recordFault xG8.hdr.target xG8 = none ∧ xG8.op.carries = true) ∧
    (xG8.hdr.dmode = 2 ∧ xG8.hdr.dlen ≠ 0 ∧ hdrList xG8.hdr = none) :=
  ⟨by decide +kernel, by decide +kernel, by decide +kernel⟩

theorem test_witness_QueriesAndModuleCommands :
    ((State.reset.dev.fetched (thdr 8).sq).passes (State.reset.dev.jobOf (thdr 8) Op.nop []) ∧
    (wG3.dev.fetched (thdr 0).sq).passes (wG3.dev.jobOf (thdr 0) Op.nop []) ∧ (thdr 0).target = 0 ∧
    (wG3.dev.fetched (thdr 0).sq).passes (wG3.dev.jobOf (thdr 0) Op.readPosition []) ∧
    (wG3.dev.fetched (thdr 0).sq).passes (wG3.dev.jobOf (thdr 0) Op.tapeStatus []) ∧
    (wG3.dev.fetched (thdr 0).sq).passes (wG3.dev.jobOf (thdr 0) Op.cancel []) ∧
    (wG3.dev.fetched (thdr 0).sq).passes (wG3.dev.jobOf (thdr 0) (Op.cmRead 8192) []) ∧
    ((wG3.dev.fetched (thdr 0).sq).ready (wG3.dev.jobOf (thdr 0) (Op.cmRead 8192) [])).xferLen (thdr 0) = 0 ∧ (tlen 0 1).target = 0 ∧
    (wG8.dev.fetched (tlen 0 1).sq).passes (wG8.dev.jobOf (tlen 0 1) (Op.cmRead 8192) []) ∧
    ((wG8.dev.fetched (tlen 0 1).sq).ready (wG8.dev.jobOf (tlen 0 1) (Op.cmRead 8192) [])).xferLen (tlen 0 1) ≠ 0 ∧
    (wG3.dev.fetched (thdr 0).sq).passes (wG3.dev.jobOf (thdr 0) (Op.cmWrite 8192 []) []) ∧
    ((wG3.dev.fetched (thdr 0).sq).ready (wG3.dev.jobOf (thdr 0) (Op.cmWrite 8192 []) [])).xferLen (thdr 0) = 0 ∧
    (wG8.dev.fetched (tlen 0 1).sq).passes (wG8.dev.jobOf (tlen 0 1) (Op.cmWrite 8192 [1, 2]) []) ∧ (tlen 0 1).dmode ≠ 3 ∧
    ((wG8.dev.fetched (tlen 0 1).sq).ready (wG8.dev.jobOf (tlen 0 1) (Op.cmWrite 8192 [1, 2]) [])).xferLen (tlen 0 1) ≠ 0) ∧
    ((tbuf 0).target = 0 ∧ (wG9.dev.fetched (tbuf 0).sq).passes (wG9.dev.jobOf (tbuf 0) (Op.cmWrite 8192 []) []) ∧ (tbuf 0).dmode = 3 ∧
    ((wG9.dev.fetched (tbuf 0).sq).ready (wG9.dev.jobOf (tbuf 0) (Op.cmWrite 8192 []) [])).xferLen (tbuf 0) ≠ 0 ∧ (thdr 8).target = 8 ∧
    (State.reset.dev.fetched (thdr 8).sq).passes (State.reset.dev.jobOf (thdr 8) Op.streamQuery []) ∧
    (State.reset.dev.fetched (thdr 8).sq).passes (State.reset.dev.jobOf (thdr 8) Op.takeover []) ∧
    ((State.reset.dev.fetched (thdr 8).sq).takeoverRefused (funcEp (State.reset.dev.jobOf (thdr 8) Op.takeover []).fn) = true) ∧
    (wG10.dev.fetched (thdr 8).sq).passes (wG10.dev.jobOf (thdr 8) Op.takeover []) ∧
    ((wG10.dev.fetched (thdr 8).sq).takeoverRefused (funcEp (wG10.dev.jobOf (thdr 8) Op.takeover []).fn) = false) ∧
    (wG11.dev.fetched (thdr 8).sq).passes (wG11.dev.jobOf (thdr 8) Op.takeover []) ∧
    ((wG11.dev.fetched (thdr 8).sq).takeoverRefused (funcEp (wG11.dev.jobOf (thdr 8) Op.takeover []).fn) = false) ∧
    (wG12.dev.fetched (thdr 8).sq).passes (wG12.dev.jobOf (thdr 8) (Op.bufAlloc 5) []) ∧
    (wG12.dev.fetched (thdr 8).sq).hostManaged (wG12.dev.jobOf (thdr 8) (Op.bufAlloc 5) []).dom = false ∧
    (wG13.dev.fetched (thdr 8).sq).passes (wG13.dev.jobOf (thdr 8) (Op.bufAlloc 5) []) ∧
    (wG13.dev.fetched (thdr 8).sq).hostManaged (wG13.dev.jobOf (thdr 8) (Op.bufAlloc 5) []).dom = true) ∧
    (((wG13.dev.fetched (thdr 8).sq).alloc (16 + (wG13.dev.jobOf (thdr 8) (Op.bufAlloc 5) []).dom) 5).snd = none ∧
    (wG14.dev.fetched (thdr 8).sq).passes (wG14.dev.jobOf (thdr 8) (Op.bufAlloc 5) []) ∧
    (wG14.dev.fetched (thdr 8).sq).hostManaged (wG14.dev.jobOf (thdr 8) (Op.bufAlloc 5) []).dom = true ∧
    (wG15.dev.fetched (thdr 8).sq).passes (wG15.dev.jobOf (thdr 8) (Op.bufRef 0) []) ∧
    ((wG15.dev.fetched (thdr 8).sq).ready (wG15.dev.jobOf (thdr 8) (Op.bufRef 0) [])).hostManaged (wG15.dev.jobOf (thdr 8) (Op.bufRef 0) []).dom = true ∧
    (wG15.dev.fetched (thdr 8).sq).passes (wG15.dev.jobOf (thdr 8) (Op.bufRelease 0) []) ∧
    ((wG15.dev.fetched (thdr 8).sq).ready (wG15.dev.jobOf (thdr 8) (Op.bufRelease 0) [])).hostManaged (wG15.dev.jobOf (thdr 8) (Op.bufRelease 0) []).dom = true ∧
    (wG15.dev.fetched (thdr 8).sq).passes (wG15.dev.jobOf (thdr 8) (Op.bufRef 1) []) ∧
    ((wG15.dev.fetched (thdr 8).sq).ready (wG15.dev.jobOf (thdr 8) (Op.bufRef 1) [])).hostManaged (wG15.dev.jobOf (thdr 8) (Op.bufRef 1) []).dom = true ∧
    (wG15.dev.fetched (thdr 8).sq).passes (wG15.dev.jobOf (thdr 8) (Op.bufRelease 1) []) ∧
    ((wG15.dev.fetched (thdr 8).sq).ready (wG15.dev.jobOf (thdr 8) (Op.bufRelease 1) [])).hostManaged (wG15.dev.jobOf (thdr 8) (Op.bufRelease 1) []).dom = true ∧
    (tlen 8 1).target = 8 ∧ (wG16.dev.fetched (tlen 8 1).sq).passes (wG16.dev.jobOf (tlen 8 1) (Op.bufLoad 0 4000 [1, 2, 3]) []) ∧
    ((wG16.dev.fetched (tlen 8 1).sq).ready (wG16.dev.jobOf (tlen 8 1) (Op.bufLoad 0 4000 [1, 2, 3]) [])).hostManaged (wG16.dev.jobOf (tlen 8 1) (Op.bufLoad 0 4000 [1, 2, 3]) []).dom = true ∧
    (wG16.dev.fetched (tlen 8 1).sq).passes (wG16.dev.jobOf (tlen 8 1) (Op.bufStore 0 4000) []) ∧
    ((wG16.dev.fetched (tlen 8 1).sq).ready (wG16.dev.jobOf (tlen 8 1) (Op.bufStore 0 4000) [])).hostManaged (wG16.dev.jobOf (tlen 8 1) (Op.bufStore 0 4000) []).dom = true) ∧
    ((wG16.dev.fetched (tlen 8 1).sq).passes (wG16.dev.jobOf (tlen 8 1) (Op.bufLoad 1 4000 [1, 2, 3]) []) ∧
    ((wG16.dev.fetched (tlen 8 1).sq).ready (wG16.dev.jobOf (tlen 8 1) (Op.bufLoad 1 4000 [1, 2, 3]) [])).hostManaged (wG16.dev.jobOf (tlen 8 1) (Op.bufLoad 1 4000 [1, 2, 3]) []).dom = true ∧
    (wG16.dev.fetched (tlen 8 1).sq).passes (wG16.dev.jobOf (tlen 8 1) (Op.bufStore 1 4000) []) ∧
    ((wG16.dev.fetched (tlen 8 1).sq).ready (wG16.dev.jobOf (tlen 8 1) (Op.bufStore 1 4000) [])).hostManaged (wG16.dev.jobOf (tlen 8 1) (Op.bufStore 1 4000) []).dom = true ∧
    wG15.dev.pool.isFree 0 = false ∧ wG15.dev.domRef 0 0 ≠ 0 ∧ wG15.dev.domRef 3 0 = 0) :=
  ⟨by decide +kernel, by decide +kernel, by decide +kernel, by decide +kernel⟩

theorem test_witness_WritesMarksAndStreams :
    (parEnc (parKeep 196608) = 3 ∧ parEnc (parKeep 131072) ≠ 1 ∧ parEnc (parKeep 131072) ≠ 3 ∧ parEnc (parKeep 65536) = 1 ∧
    wG17.dev.owns (wG17.dev.prot kStream 5) kKeyslot (parSlot (parKeep 65536)) = false ∧ parEnc (parKeep 16842752) = 1 ∧
    State.reset.dev.owns (State.reset.dev.prot kStream 5) kKeyslot (parSlot (parKeep 16842752)) = true ∧
    (State.reset.dev.slot (parSlot (parKeep 16842752))).loaded = false ∧
    wG18.dev.owns (wG18.dev.prot kStream 5) kKeyslot (parSlot (parKeep 16842752)) = true ∧ (wG18.dev.slot (parSlot (parKeep 16842752))).loaded = true ∧
    (thdr 0).target = 0 ∧ (wG19.dev.fetched (thdr 0).sq).passes (wG19.dev.jobOf (thdr 0) (Op.write false false false) []) ∧
    ((wG19.dev.fetched (thdr 0).sq).ready (wG19.dev.jobOf (thdr 0) (Op.write false false false) [])).hostPacked 0 = true ∧
    (wG20.dev.fetched (thdr 0).sq).passes (wG20.dev.jobOf (thdr 0) (Op.write false false false) []) ∧
    ((wG20.dev.fetched (thdr 0).sq).ready (wG20.dev.jobOf (thdr 0) (Op.write false false false) [])).hostPacked 0 = false ∧
    ((wG20.dev.fetched (thdr 0).sq).ready (wG20.dev.jobOf (thdr 0) (Op.write false false false) [])).fon (pgWriter 0) Reg.WRITER.HALTED = true) ∧
    ((wG21.dev.fetched (thdr 0).sq).passes (wG21.dev.jobOf (thdr 0) (Op.write false false false) []) ∧
    ((wG21.dev.fetched (thdr 0).sq).ready (wG21.dev.jobOf (thdr 0) (Op.write false false false) [])).hostPacked 0 = false ∧
    ((wG21.dev.fetched (thdr 0).sq).ready (wG21.dev.jobOf (thdr 0) (Op.write false false false) [])).fon (pgWriter 0) Reg.WRITER.HALTED = false ∧
    (((wG21.dev.fetched (thdr 0).sq).ready (wG21.dev.jobOf (thdr 0) (Op.write false false false) [])).sp 0).posObj ≠ (((wG21.dev.fetched (thdr 0).sq).ready (wG21.dev.jobOf (thdr 0) (Op.write false false false) [])).sp 0).eodOf (((wG21.dev.fetched (thdr 0).sq).ready (wG21.dev.jobOf (thdr 0) (Op.write false false false) [])).sp 0).sess.part ∧
    (tlen 0 1).target = 0 ∧ (wG6.dev.fetched (tlen 0 1).sq).passes (wG6.dev.jobOf (tlen 0 1) (Op.write false false false) [1]) ∧
    ((wG6.dev.fetched (tlen 0 1).sq).ready (wG6.dev.jobOf (tlen 0 1) (Op.write false false false) [1])).hostPacked 0 = false ∧
    ((wG6.dev.fetched (tlen 0 1).sq).ready (wG6.dev.jobOf (tlen 0 1) (Op.write false false false) [1])).fon (pgWriter 0) Reg.WRITER.HALTED = false ∧
    (((wG6.dev.fetched (tlen 0 1).sq).ready (wG6.dev.jobOf (tlen 0 1) (Op.write false false false) [1])).sp 0).posObj = (((wG6.dev.fetched (tlen 0 1).sq).ready (wG6.dev.jobOf (tlen 0 1) (Op.write false false false) [1])).sp 0).eodOf (((wG6.dev.fetched (tlen 0 1).sq).ready (wG6.dev.jobOf (tlen 0 1) (Op.write false false false) [1])).sp 0).sess.part ∧
    chargeOf (tlen 0 1).dlen + (((wG6.dev.fetched (tlen 0 1).sq).ready (wG6.dev.jobOf (tlen 0 1) (Op.write false false false) [1])).sp 0).wr.charges ≤ (((wG6.dev.fetched (tlen 0 1).sq).ready (wG6.dev.jobOf (tlen 0 1) (Op.write false false false) [1])).sp 0).bytesLeft ∧
    (wG22.dev.fetched (tlen 0 1).sq).passes (wG22.dev.jobOf (tlen 0 1) (Op.write false false false) [1]) ∧
    ((wG22.dev.fetched (tlen 0 1).sq).ready (wG22.dev.jobOf (tlen 0 1) (Op.write false false false) [1])).hostPacked 0 = false ∧
    ((wG22.dev.fetched (tlen 0 1).sq).ready (wG22.dev.jobOf (tlen 0 1) (Op.write false false false) [1])).fon (pgWriter 0) Reg.WRITER.HALTED = false ∧
    (((wG22.dev.fetched (tlen 0 1).sq).ready (wG22.dev.jobOf (tlen 0 1) (Op.write false false false) [1])).sp 0).posObj = (((wG22.dev.fetched (tlen 0 1).sq).ready (wG22.dev.jobOf (tlen 0 1) (Op.write false false false) [1])).sp 0).eodOf (((wG22.dev.fetched (tlen 0 1).sq).ready (wG22.dev.jobOf (tlen 0 1) (Op.write false false false) [1])).sp 0).sess.part ∧
    (((wG22.dev.fetched (tlen 0 1).sq).ready (wG22.dev.jobOf (tlen 0 1) (Op.write false false false) [1])).sp 0).bytesLeft < chargeOf (tlen 0 1).dlen + (((wG22.dev.fetched (tlen 0 1).sq).ready (wG22.dev.jobOf (tlen 0 1) (Op.write false false false) [1])).sp 0).wr.charges ∧
    (wG23.dev.sp 0).cur = some twrite) ∧
    (twrite.op = Op.write false false false ∧ (wG23.dev.sp 0).curStep = 2 ∧ wG23.dev.landed 0 twrite = true ∧
    wG23.dev.fon (pgWriter 0) Reg.WRITER.HALTED = true ∧ (wG24.dev.sp 0).cur = some twrite ∧ (wG24.dev.sp 0).curStep = 2 ∧
    wG24.dev.landed 0 twrite = true ∧ wG24.dev.fon (pgWriter 0) Reg.WRITER.HALTED = false ∧
    parNcf (if (wG24.dev.stream twrite.hdr.stream).recOpen = true then (wG24.dev.stream twrite.hdr.stream).params else (wG24.dev.stream twrite.hdr.stream).next.getD (wG24.dev.stream twrite.hdr.stream).params) = false ∧
    (wG25.dev.sp 0).cur = some twrite ∧ (wG25.dev.sp 0).curStep = 2 ∧ wG25.dev.landed 0 twrite = true ∧
    wG25.dev.fon (pgWriter 0) Reg.WRITER.HALTED = false ∧
    parNcf (if (wG25.dev.stream twrite.hdr.stream).recOpen = true then (wG25.dev.stream twrite.hdr.stream).params else (wG25.dev.stream twrite.hdr.stream).next.getD (wG25.dev.stream twrite.hdr.stream).params) = true ∧
    parEnc (if (wG25.dev.stream twrite.hdr.stream).recOpen = true then (wG25.dev.stream twrite.hdr.stream).params else (wG25.dev.stream twrite.hdr.stream).next.getD (wG25.dev.stream twrite.hdr.stream).params) ≠ 2 ∧
    (walkPart true false (wG25.dev.piecesBytes (wG25.dev.supplied 0 twrite.hdr.stream ++ List.filter (fun q => decide (0 < q.len)) (wG25.dev.sp 0).landBufs)) = none)) ∧
    ((wG25.dev.stream twrite.hdr.stream).recOpen = false ∧ (wG26.dev.sp 0).cur = some twrite ∧ (wG26.dev.sp 0).curStep = 2 ∧
    wG26.dev.landed 0 twrite = true ∧ wG26.dev.fon (pgWriter 0) Reg.WRITER.HALTED = false ∧
    parNcf (if (wG26.dev.stream twrite.hdr.stream).recOpen = true then (wG26.dev.stream twrite.hdr.stream).params else (wG26.dev.stream twrite.hdr.stream).next.getD (wG26.dev.stream twrite.hdr.stream).params) = true ∧
    parEnc (if (wG26.dev.stream twrite.hdr.stream).recOpen = true then (wG26.dev.stream twrite.hdr.stream).params else (wG26.dev.stream twrite.hdr.stream).next.getD (wG26.dev.stream twrite.hdr.stream).params) ≠ 2 ∧
    (walkPart true false (wG26.dev.piecesBytes (wG26.dev.supplied 0 twrite.hdr.stream ++ List.filter (fun q => decide (0 < q.len)) (wG26.dev.sp 0).landBufs)) = none) ∧
    (wG26.dev.stream twrite.hdr.stream).recOpen = true ∧ (State.reset.dev.sp 0).cur = none ∧
    (wG19.dev.fetched (thdr 0).sq).passes (wG19.dev.jobOf (thdr 0) (Op.writeMark false 1) []) ∧ (wG19.dev.fetched (thdr 0).sq).hostPacked 0 = true ∧
    (wG20.dev.fetched (thdr 0).sq).passes (wG20.dev.jobOf (thdr 0) (Op.writeMark false 1) []) ∧ (wG20.dev.fetched (thdr 0).sq).hostPacked 0 = false ∧
    (wG20.dev.fetched (thdr 0).sq).fon (pgWriter 0) Reg.WRITER.HALTED = true ∧
    (wG22.dev.fetched (thdr 0).sq).passes (wG22.dev.jobOf (thdr 0) (Op.writeMark false 2) [])) ∧
    ((wG22.dev.fetched (thdr 0).sq).hostPacked 0 = false ∧ (wG22.dev.fetched (thdr 0).sq).fon (pgWriter 0) Reg.WRITER.HALTED = false ∧
    ((wG22.dev.fetched (thdr 0).sq).sp 0).posObj = ((wG22.dev.fetched (thdr 0).sq).sp 0).eodOf ((wG22.dev.fetched (thdr 0).sq).sp 0).sess.part ∧
    ((wG22.dev.fetched (thdr 0).sq).sp 0).bytesLeft < 16 * 2 + ((wG22.dev.fetched (thdr 0).sq).sp 0).wr.charges ∧
    (wG6.dev.fetched (thdr 0).sq).passes (wG6.dev.jobOf (thdr 0) (Op.writeMark false 0) []) ∧ (wG6.dev.fetched (thdr 0).sq).hostPacked 0 = false ∧
    (wG6.dev.fetched (thdr 0).sq).fon (pgWriter 0) Reg.WRITER.HALTED = false ∧
    ((wG6.dev.fetched (thdr 0).sq).sp 0).posObj = ((wG6.dev.fetched (thdr 0).sq).sp 0).eodOf ((wG6.dev.fetched (thdr 0).sq).sp 0).sess.part ∧
    16 * 0 + ((wG6.dev.fetched (thdr 0).sq).sp 0).wr.charges ≤ ((wG6.dev.fetched (thdr 0).sq).sp 0).bytesLeft ∧
    (wG6.dev.fetched (thdr 0).sq).passes (wG6.dev.jobOf (thdr 0) (Op.writeMark false 2) []) ∧
    16 * 2 + ((wG6.dev.fetched (thdr 0).sq).sp 0).wr.charges ≤ ((wG6.dev.fetched (thdr 0).sq).sp 0).bytesLeft ∧ 2 ≠ 0 ∧
    (wG6.dev.fetched (thdr 0).sq).passes (wG6.dev.jobOf (thdr 0) Op.sync []) ∧ ((wG6.dev.fetched (thdr 0).sq).sp 0).wr.objs = [] ∧
    ((wG6.dev.fetched (thdr 0).sq).sp 0).wr.placed = [] ∧ ((wG6.dev.fetched (thdr 0).sq).sp 0).wr.failed = []) ∧
    ((wG27.dev.fetched (thdr 0).sq).passes (wG27.dev.jobOf (thdr 0) Op.sync []) ∧ (wG27.dev.fetched (thdr 0).sq).hostPacked 0 = false ∧
    ((wG27.dev.fetched (thdr 0).sq).sp 0).wr.objs = [] ∧ ((wG27.dev.fetched (thdr 0).sq).sp 0).wr.placed = [] ∧
    ((wG27.dev.fetched (thdr 0).sq).sp 0).wr.failed ≠ [] ∧ (wG6.dev.fetched (thdr 0).sq).passes (wG6.dev.jobOf (thdr 0) (Op.streamOpen 7) []) ∧
    ((wG6.dev.fetched (thdr 0).sq).stream (thdr 0).stream).isOpen = true ∧
    (wG3.dev.fetched (thdr 0).sq).passes (wG3.dev.jobOf (thdr 0) (Op.streamOpen 196608) []) ∧
    ((wG3.dev.fetched (thdr 0).sq).stream (thdr 0).stream).isOpen = false ∧
    (((wG3.dev.fetched (thdr 0).sq).inTurn 0 (wG3.dev.jobOf (thdr 0) (Op.streamOpen 196608) [])).paramsFault (thdr 0).stream 196608).fst = some stInvalidField ∧
    (wG3.dev.fetched (thdr 0).sq).passes (wG3.dev.jobOf (thdr 0) (Op.streamOpen 7) []) ∧
    (((wG3.dev.fetched (thdr 0).sq).inTurn 0 (wG3.dev.jobOf (thdr 0) (Op.streamOpen 7) [])).paramsFault (thdr 0).stream 7).fst = none ∧
    (wG6.dev.fetched (thdr 0).sq).passes (wG6.dev.jobOf (thdr 0) (Op.streamSet 196608) []) ∧
    (((wG6.dev.fetched (thdr 0).sq).inTurn 0 (wG6.dev.jobOf (thdr 0) (Op.streamSet 196608) [])).paramsFault (thdr 0).stream 196608).fst = some stInvalidField ∧
    (wG6.dev.fetched (thdr 0).sq).passes (wG6.dev.jobOf (thdr 0) (Op.streamSet 7) []) ∧
    (((wG6.dev.fetched (thdr 0).sq).inTurn 0 (wG6.dev.jobOf (thdr 0) (Op.streamSet 7) [])).paramsFault (thdr 0).stream 7).fst = none) ∧
    ((wG6.dev.fetched (thdr 0).sq).passes (wG6.dev.jobOf (thdr 0) Op.streamClose []) ∧
    (((wG6.dev.fetched (thdr 0).sq).sp 0).wr.ofStream (thdr 0).stream = false ∨ (wG6.dev.fetched (thdr 0).sq).fon (pgWriter 0) Reg.WRITER.HALTED = true) ∧
    (wG28.dev.fetched (thdr 0).sq).passes (wG28.dev.jobOf (thdr 0) Op.streamClose []) ∧
    ((wG28.dev.fetched (thdr 0).sq).sp 0).wr.ofStream (thdr 0).stream = true ∧ (wG28.dev.fetched (thdr 0).sq).fon (pgWriter 0) Reg.WRITER.HALTED = false) :=
  ⟨by decide +kernel, by decide +kernel, by decide +kernel, by decide +kernel, by decide +kernel, by decide +kernel, by decide +kernel⟩

theorem test_witness_ReadsMovesAndSheets :
    ((thdr 0).target = 0 ∧ (wG6.dev.fetched (thdr 0).sq).passes (wG6.dev.jobOf (thdr 0) (Op.read false) []) ∧
    ((wG6.dev.fetched (thdr 0).sq).ready (wG6.dev.jobOf (thdr 0) (Op.read false) [])).nothingBefore 0 (wG6.dev.jobOf (thdr 0) (Op.read false) []) ∧
    (wG28.dev.fetched (thdr 0).sq).passes (wG28.dev.jobOf (thdr 0) (Op.read false) []) ∧
    (((wG28.dev.fetched (thdr 0).sq).ready (wG28.dev.jobOf (thdr 0) (Op.read false) [])).sp 0).wr.uncommitted ≠ [] ∧
    ((wG28.dev.fetched (thdr 0).sq).ready (wG28.dev.jobOf (thdr 0) (Op.read false) [])).fon (pgWriter 0) Reg.WRITER.HALTED = false ∧
    (((wG28.dev.fetched (thdr 0).sq).ready (wG28.dev.jobOf (thdr 0) (Op.read false) [])).sp 0).failSeq = 0 ∧
    (wG3.dev.fetched (thdr 0).sq).passes (wG3.dev.jobOf (thdr 0) (Op.locate 3 0 false 0) []) ∧
    (wG3.dev.fetched (thdr 0).sq).nothingBefore 0 (wG3.dev.jobOf (thdr 0) (Op.locate 3 0 false 0) []) ∧
    (wG29.dev.fetched (thdr 0).sq).passes (wG29.dev.jobOf (thdr 0) (Op.locate 3 0 false 0) []) ∧
    (wG29.dev.fetched (thdr 0).sq).nothingBefore 0 (wG29.dev.jobOf (thdr 0) (Op.locate 3 0 false 0) []) ∧
    0 ≠ ((wG29.dev.fetched (thdr 0).sq).sp 0).posPart ∧ ((wG29.dev.fetched (thdr 0).sq).sp 0).sess.isOpen = false ∧
    (wG30.dev.fetched (thdr 0).sq).passes (wG30.dev.jobOf (thdr 0) (Op.locate 3 0 false 0) []) ∧
    (wG30.dev.fetched (thdr 0).sq).nothingBefore 0 (wG30.dev.jobOf (thdr 0) (Op.locate 3 0 false 0) []) ∧
    0 ≠ ((wG30.dev.fetched (thdr 0).sq).sp 0).posPart) ∧
    (((wG30.dev.fetched (thdr 0).sq).sp 0).sess.isOpen = true ∧ (wG3.dev.fetched (thdr 0).sq).passes (wG3.dev.jobOf (thdr 0) (Op.space (-2) 0) []) ∧
    (wG3.dev.fetched (thdr 0).sq).nothingBefore 0 (wG3.dev.jobOf (thdr 0) (Op.space (-2) 0) []) ∧
    (wG3.dev.fetched (thdr 0).sq).passes (wG3.dev.jobOf (thdr 0) Op.closeSession []) ∧
    (wG3.dev.fetched (thdr 0).sq).nothingBefore 0 (wG3.dev.jobOf (thdr 0) Op.closeSession []) ∧
    ((wG3.dev.fetched (thdr 0).sq).sp 0).sess.isOpen = false ∧ (wG31.dev.fetched (thdr 0).sq).passes (wG31.dev.jobOf (thdr 0) Op.closeSession []) ∧
    (wG31.dev.fetched (thdr 0).sq).nothingBefore 0 (wG31.dev.jobOf (thdr 0) Op.closeSession []) ∧
    ((wG31.dev.fetched (thdr 0).sq).sp 0).sess.isOpen = true ∧ (wG3.dev.fetched (thdr 0).sq).passes (wG3.dev.jobOf (thdr 0) (Op.format 1 [100]) []) ∧
    (wG3.dev.fetched (thdr 0).sq).nothingBefore 0 (wG3.dev.jobOf (thdr 0) (Op.format 1 [100]) []) ∧
    (wG3.dev.fetched (thdr 0).sq).passes (wG3.dev.jobOf (thdr 0) Op.unload []) ∧
    (wG3.dev.fetched (thdr 0).sq).nothingBefore 0 (wG3.dev.jobOf (thdr 0) Op.unload []) ∧
    (wG3.dev.fetched (thdr 0).sq).passes (wG3.dev.jobOf (thdr 0) (Op.sheetRead 0 5 0) []) ∧
    (((wG3.dev.fetched (thdr 0).sq).ready (wG3.dev.jobOf (thdr 0) (Op.sheetRead 0 5 0) [])).lad 0).raw = none ∧
    (wG32.dev.fetched (thdr 0).sq).passes (wG32.dev.jobOf (thdr 0) (Op.sheetRead 0 5 0) [])) ∧
    ((((wG32.dev.fetched (thdr 0).sq).ready (wG32.dev.jobOf (thdr 0) (Op.sheetRead 0 5 0) [])).lad 0).raw = some ({ num := 5 }, 1) ∧
    (wG3.dev.fetched (thdr 0).sq).passes (wG3.dev.jobOf (thdr 0) (Op.sheetRead 1 5 0) []) ∧
    ((wG3.dev.fetched (thdr 0).sq).ready (wG3.dev.jobOf (thdr 0) (Op.sheetRead 1 5 0) [])).nothingBefore 0 (wG3.dev.jobOf (thdr 0) (Op.sheetRead 1 5 0) []) ∧
    (wG3.dev.fetched (thdr 0).sq).passes (wG3.dev.jobOf (thdr 0) Op.rawRelease []) ∧
    (wG3.dev.fetched (thdr 0).sq).passes (wG3.dev.jobOf (thdr 0) (Op.sheetWrite []) []) ∧
    (((wG3.dev.fetched (thdr 0).sq).ready (wG3.dev.jobOf (thdr 0) (Op.sheetWrite []) [])).inTurn 0 (wG3.dev.jobOf (thdr 0) (Op.sheetWrite []) [])).sheetWriteRefused 0 (wG3.dev.jobOf (thdr 0) (Op.sheetWrite []) []) = some stSequence ∧
    tsheetHdr.target = 0 ∧ (wG33.dev.fetched tsheetHdr.sq).passes (wG33.dev.jobOf tsheetHdr (Op.sheetWrite []) []) ∧
    (((wG33.dev.fetched tsheetHdr.sq).ready (wG33.dev.jobOf tsheetHdr (Op.sheetWrite []) [])).inTurn 0 (wG33.dev.jobOf tsheetHdr (Op.sheetWrite []) [])).sheetWriteRefused 0 (wG33.dev.jobOf tsheetHdr (Op.sheetWrite []) []) = none) :=
  ⟨by decide +kernel, by decide +kernel, by decide +kernel⟩

theorem test_witness_ProtectionTable :
    (wH1.dev.access tfw pgProtect = Access.open ∧ wH1.dev.fget pgProtect Reg.PROTECT.KIND < 7 ∧ wH2.dev.access tfw pgProtect = Access.open ∧
    wH2.dev.fget pgProtect Reg.PROTECT.KIND < 7 ∧ wH3.dev.access tfw pgProtect = Access.open ∧ wH3.dev.fget pgProtect Reg.PROTECT.KIND < 7 ∧
    wH4.dev.access tfw pgProtect = Access.open ∧ 7 ≤ wH4.dev.fget pgProtect Reg.PROTECT.KIND ∧ wH5.dev.access tfw pgProtect = Access.open ∧
    wH6.dev.access tfw pgProtect = Access.open ∧ wH6.dev.commitRefusal ≠ 0 ∧ wH7.dev.access tfw pgProtect = Access.open ∧ wH7.dev.commitRefusal ≠ 0 ∧
    wH8.dev.access tfw pgProtect = Access.open ∧ wH8.dev.commitRefusal = 0 ∧ 127 < 128) ∧
    (protOf wH6.dev.keep.staged kFunc 127 = 1 ∧ (∀ (f : Nat), f < 128 → 2 ≤ protOf wH7.dev.keep.staged kFunc f)) :=
  ⟨by decide +kernel, by decide +kernel⟩

theorem test_witness_MeasurementsAreAnswered :
    (wH9.dev.chipStewards = true ∧ 1 ≤ 1 ∧ 2 ≤ 2 ∧ wH10.dev.chipStewards = true ∧ wH10.dev.fon pgBoot Reg.BOOT.IDENTITY = true ∧
    wH9.dev.fon pgBoot Reg.BOOT.IDENTITY = false ∧ 1 ≤ 6 ∧ 6 ≤ 6 ∧ 6 < 7 ∧ 7 ≠ 255 ∧ 6 < 256 ∧ 256 ≠ 255 ∧
    [129, 130, 131, 132, 224, 225, 227].contains 226 = false ∧ [129, 130, 131, 132, 224, 225, 227].contains 133 = false ∧
    State.reset.dev.chipStewards = false ∧ State.reset.dev.boot.staged = none) ∧
    (25 < 26 ∧ 0 < 26 ∧ wH9.dev.fget pgBoot Reg.BOOT.STATUS ≠ 1 ∧ wH9.dev.fget pgBoot Reg.BOOT.STATUS ≠ 2) :=
  ⟨by decide +kernel, by decide +kernel⟩

theorem test_witness_FirmwareUpdates :
    (State.reset.dev.access tfw pgBoot = Access.open ∧ State.reset.dev.fget pgBoot Reg.BOOT.STATUS ≠ 1 ∧ State.reset.dev.fget pgBoot Reg.BOOT.STATUS ≠ 2 ∧
    wH11.dev.access tfw pgBoot = Access.open ∧ (wH11.dev.fget pgBoot Reg.BOOT.STATUS = 1 ∨ wH11.dev.fget pgBoot Reg.BOOT.STATUS = 2) ∧
    wH12.dev.access tfw pgBoot = Access.open ∧ (wH12.dev.fget pgBoot Reg.BOOT.STATUS = 1 ∨ wH12.dev.fget pgBoot Reg.BOOT.STATUS = 2) ∧
    wH12.dev.fget pgBoot Reg.BOOT.STATUS = 1 ∧ wH11.dev.fget pgBoot Reg.BOOT.STATUS ≠ 1 ∧ State.reset.dev.fget pgBoot Reg.BOOT.STATE ≠ 2 ∧
    wH13.dev.access tfw pgBoot = Access.open ∧ wH13.dev.fget pgBoot Reg.BOOT.STATE = 2 ∧ wH13.dev.fget pgBoot Reg.BOOT.STATUS = 3 ∧
    wH14.dev.access tfw pgBoot = Access.open ∧ wH14.dev.svnFuses < wH14.dev.svnAim ∧ State.reset.dev.svnAim ≤ State.reset.dev.svnFuses) ∧
    (wH11.dev.fget pgBoot Reg.BOOT.STATUS = 2 ∧ wH15.dev.fon pgBoot Reg.BOOT.BUSY = true ∧ State.reset.dev.fon pgBoot Reg.BOOT.BUSY = false) :=
  ⟨by decide +kernel, by decide +kernel⟩

theorem test_witness_KeyLoadsAndZeroisation :
    (wH16.dev.access tfw pgKeystore = Access.open ∧ wH16.dev.fon pgKeystore Reg.KEYSTORE.BUSY = true ∧ wH17.dev.access tfw pgKeystore = Access.open ∧
    wH17.dev.fon pgKeystore Reg.KEYSTORE.BUSY = false ∧ wH17.dev.tamperLatched = true ∧ State.reset.dev.access tfw pgKeystore = Access.open ∧
    State.reset.dev.fon pgKeystore Reg.KEYSTORE.BUSY = false ∧ State.reset.dev.tamperLatched = false ∧
    State.reset.dev.fon pgBoot Reg.BOOT.IDENTITY = false ∧ wH18.dev.access tfw pgKeystore = Access.open ∧
    wH18.dev.fon pgKeystore Reg.KEYSTORE.BUSY = false ∧ wH18.dev.tamperLatched = false ∧ wH18.dev.fon pgBoot Reg.BOOT.IDENTITY = true ∧
    tbound.dev.access tfw pgKeystore = Access.open ∧ tbound.dev.fon pgKeystore Reg.KEYSTORE.BUSY = false ∧
    tbound.dev.slotBound (tbound.dev.fget pgKeystore Reg.KEYSTORE.SLOT) = true) ∧
    (State.reset.dev.slotBound (State.reset.dev.fget pgKeystore Reg.KEYSTORE.SLOT) = false ∧
    State.reset.dev.kek (State.reset.dev.fget pgKeystore Reg.KEYSTORE.KEK) = [] ∧ wH19.dev.access tfw pgKeystore = Access.open ∧
    wH19.dev.fon pgKeystore Reg.KEYSTORE.BUSY = false ∧ wH19.dev.slotBound (wH19.dev.fget pgKeystore Reg.KEYSTORE.SLOT) = false ∧
    wH19.dev.kek (wH19.dev.fget pgKeystore Reg.KEYSTORE.KEK) ≠ [] ∧ wH19.dev.tamperLatched = true ∧ wH20.dev.access tfw pgKeystore = Access.open ∧
    wH20.dev.fon pgKeystore Reg.KEYSTORE.BUSY = false ∧ wH20.dev.slotBound (wH20.dev.fget pgKeystore Reg.KEYSTORE.SLOT) = false ∧
    wH20.dev.kek (wH20.dev.fget pgKeystore Reg.KEYSTORE.KEK) ≠ [] ∧ wH20.dev.tamperLatched = false ∧ wH21.dev.access tfw pgKeystore = Access.open ∧
    State.reset.dev.keep.ksLoad = none ∧ wH22.dev.keep.ksLoad = some (KsLoad.kek 3 [1]) ∧ wH23.dev.keep.ksLoad = some (KsLoad.kek 3 [1])) ∧
    (wH24.dev.keep.ksLoad = some (KsLoad.key 3 1 [2] [1] 7 8) ∧ wH25.dev.keep.ksLoad = some (KsLoad.key 3 1 [2] [1] 7 8) ∧
    State.reset.dev.access tfw pgAlarm = Access.open) :=
  ⟨by decide +kernel, by decide +kernel, by decide +kernel⟩

theorem test_witness_ThermalSamplesAndSteps :
    (3 ≤ 7 ∧ [1, 2].length < 4 ∧ 7 ≤ 7 ∧ [1, 2, 3].length < 4 ∧ [1700, 1700, 1700, 1700].length = 4 ∧ 0 ≤ 7 ∧ [1750, 1750, 1750, 1744].length = 4 ∧
    0 < 2 ∧ 2 ≤ 7 ∧ (∀ (t : Int), t ∈ [1750, 1750, 1750, 1744] → thrOf 2 ≤ t) ∧ [1750, 1750, 1750, 1743].length = 4 ∧ 0 < 1 ∧ 1 ≤ 7 ∧
    (∀ (t : Int), t ∈ [1750, 1750, 1750, 1743] → thrOf 1 ≤ t) ∧ [0, 0, 0, 0].length = 4 ∧ (∃ t, t ∈ [0, 0, 0, 0] ∧ t < thrOf 1)) ∧
    ((∃ t, t ∈ [1750, 1750, 1750, 1743] ∧ t < thrOf 2) ∧ [1632, 0, 0, 0].length = 4 ∧ (∃ t, t ∈ [1632, 0, 0, 0] ∧ thrOf 1 - 48 ≤ t) ∧
    [1631, 0, 0, 0].length = 4 ∧ (∀ (t : Int), t ∈ [1631, 0, 0, 0] → t < thrOf 1 - 48) ∧ (∃ t, t ∈ [1631, 0, 0, 0] ∧ t < thrOf 1) ∧
    State.reset.dev.therm.stby = false ∧ wH27.dev.therm.stby = true ∧
    ((tsam wH27 (tall26 400)).therm.tripped = true ∨ (tsam wH27 (tall26 400)).therm.mains = false) ∧ wH28.dev.therm.stby = true ∧
    ((tsam wH28 (tall26 1520)).therm.tripped = true ∨ (tsam wH28 (tall26 1520)).therm.mains = false) ∧ wH29.dev.therm.stby = true ∧
    (tsam wH29 (tall26 400)).therm.tripped = false ∧ (tsam wH29 (tall26 400)).therm.mains = true ∧ (tsam wH29 (tall26 400)).tripCond = none ∧
    wH29.dev.therm.mains = true) ∧
    ((tsamD wH29 (tall26 400)).unsettled pgThermal = false ∧ (tsamT wH29 (tall26 400)).requestStep.therm.mains = true ∧ wH30.dev.therm.stby = true ∧
    (tsam wH30 (tall26 1750)).therm.tripped = false ∧ (tsam wH30 (tall26 1750)).therm.mains = true ∧ (tsam wH30 (tall26 1750)).tripCond = none ∧
    wH30.dev.therm.mains = true ∧ (tsamD wH30 (tall26 1750)).unsettled pgThermal = false ∧ (tsamT wH30 (tall26 1750)).requestStep.therm.mains = true ∧
    (tsam wH29 (tall26 2080)).therm.tripped = false ∧ (tsam wH29 (tall26 2080)).therm.mains = true ∧
    (tsam wH29 (tall26 2080)).tripCond = some (1, 0, 2080)) :=
  ⟨by decide +kernel, by decide +kernel, by decide +kernel⟩

theorem test_witness_ThermalAndPowerEvents :
    (wH31.dev.therm.tripped = false ∧ wH32.dev.therm.tripped = false ∧ wH33.dev.therm.tripped = true ∧ wH34.dev.therm.tripped = true ∧
    wH34.dev.therm.coolSince ≠ none ∧ (State.reset.dev.therm.tripped = false ∨ State.reset.dev.therm.coolSince = none) ∧
    (wH33.dev.therm.tripped = false ∨ wH33.dev.therm.coolSince = none) ∧ State.reset.dev.fon pgPower Reg.POWER.SLEWING = false ∧
    wH38.dev.fon pgPower Reg.POWER.SLEWING = true ∧ wH38.dev.therm.supply ≠ wH38.dev.fget pgPower Reg.POWER.STEP ∧
    wH39.dev.fon pgThermal Reg.THERMAL.RATE_ADD = false ∧ wH40.dev.fon pgThermal Reg.THERMAL.RATE_ADD = false ∧
    wH31.dev.fon pgThermal Reg.THERMAL.RATE_ADD = false ∧ wH41.dev.fon pgThermal Reg.THERMAL.RATE_ADD = true ∧ (trated wH41).therm.calmSince = some 1 ∧
    1 + 10000000000 ≤ wH41.dev.now) ∧
    (wH42.dev.fon pgThermal Reg.THERMAL.RATE_ADD = true ∧ (trated wH42).therm.calmSince = some 2 ∧ wH42.dev.now < 2 + 10000000000 ∧
    wH43.dev.fon pgThermal Reg.THERMAL.RATE_ADD = true ∧ (trated wH43).therm.calmSince = some 4000000000 ∧ wH43.dev.now < 4000000000 + 10000000000 ∧
    wH44.dev.fon pgThermal Reg.THERMAL.RATE_ADD = true ∧ (trated wH44).therm.calmSince = none) :=
  ⟨by decide +kernel, by decide +kernel⟩

theorem test_witness_Supplies :
    wH31.dev.fon pgBoot Reg.BOOT.BUSY = false ∧ State.reset.dev.fon pgBoot Reg.BOOT.BUSY = false ∧
    (State.reset.dev.therm.stby = false ∨ State.reset.dev.therm.p12 = true) ∧ (wH45.dev.therm.stby = false ∨ wH45.dev.therm.p12 = true) ∧
    wH46.dev.therm.stby = true ∧ wH46.dev.therm.p12 = false ∧ wH27.dev.therm.stby = true ∧ wH27.dev.therm.p12 = false ∧
    State.reset.dev.therm.p12 = false ∧ wH47.dev.therm.p12 = true ∧ wH47.dev.therm.mains = true ∧ (0 = 0 ∨ wH47.dev.therm.mains = false) ∧
    (5 = 0 ∨ State.reset.dev.therm.mains = false) ∧ 5 ≠ 0 ∧ 1 ≠ 0 :=
  by decide +kernel

theorem test_witness_DamageErrorsAndReadmission :
    (wI1.dev.fon (pgLink 0) Reg.HEADER.RETIRED = true ∧ wI2.dev.fon (pgLink 0) Reg.HEADER.RETIRED = false ∧ wI2.dev.fget pgMgmt Reg.MGMT.LIMIT = 0 ∧
    State.reset.dev.access tfw (pgLink 0) = Access.open ∧ State.reset.dev.access tfw pgPool = Access.open ∧ wI3.dev.access tfw pgMgmt = Access.open ∧
    pageOf (pgCrypt 1) = some (PageTy.CRYPT, 1) ∧ wI3.dev.fon (pgCrypt 1) Reg.HEADER.RETIRED = true ∧ pgCrypt 1 / 256 = 4 ∧
    wI4.dev.access tfw pgMgmt = Access.open ∧ pageOf (pgCrypt 1) ≠ none ∧ wI4.dev.fon (pgCrypt 1) Reg.HEADER.RETIRED = false ∧ pgCrypt 1 / 256 < 8 ∧
    wI5.dev.access tfw pgMgmt = Access.open ∧ pageOf (pgComp 1) ≠ none ∧ wI5.dev.fon (pgComp 1) Reg.HEADER.RETIRED = false) ∧
    (pgComp 1 / 256 < 8) :=
  ⟨by decide +kernel, by decide +kernel⟩

theorem test_witness_ResetsAndFences :
    (State.reset.dev.access tfw pgMgmt = Access.open ∧ State.reset.dev.domainOf tfw ≠ 0 ∧ State.reset.dev.access tpf pgMgmt = Access.open ∧
    State.reset.dev.domainOf tpf = 0 ∧ wI6.dev.access tpf pgMgmt = Access.open ∧ wI6.dev.domainOf tpf = 0 ∧ 8 ≤ 8 ∧ 8 ≤ 15 ∧ 7 < 8 ∧ 0 < 8 ∧
    wI8.dev.access tpf pgMgmt = Access.open ∧ wI8.dev.domainOf tpf = 0 ∧ wI8.dev.fenced 7 = true ∧ State.reset.dev.fenced 7 = false ∧
    wI9.dev.access tpf pgMgmt = Access.open ∧ wI9.dev.fon (pgLink 0) Reg.LINK.CAD_ON = true) ∧
    (wI9.dev.cartState 0 = 0 ∧ (State.reset.dev.fon (pgLink 7) Reg.LINK.CAD_ON = false ∨ State.reset.dev.cartState 7 ≠ 0) ∧
    wI10.dev.access tpf pgMgmt = Access.open ∧ (wI10.dev.fon (pgLink 0) Reg.LINK.CAD_ON = false ∨ wI10.dev.cartState 0 ≠ 0) ∧
    wI11.dev.access tpf pgMgmt = Access.open ∧ (wI11.dev.sp 7).drv.present = false ∧ wI11.dev.fon (pgLink 7) Reg.LINK.CAD_ON = true ∧
    ((State.reset.dev.sp 7).drv.present = true ∨ State.reset.dev.fon (pgLink 7) Reg.LINK.CAD_ON = false) ∧ wI12.dev.access tpf pgMgmt = Access.open ∧
    ((wI12.dev.sp 0).drv.present = true ∨ wI12.dev.fon (pgLink 0) Reg.LINK.CAD_ON = false)) :=
  ⟨by decide +kernel, by decide +kernel⟩

theorem test_witness_StewardsAndBanks :
    ((State.reset.dev.released = false ∨ (State.reset.dev.stw 11).state = 1 ∨ (State.reset.dev.stw 11).state = 3) ∧
    (wI13.dev.released = false ∨ (wI13.dev.stw 11).state = 1 ∨ (wI13.dev.stw 11).state = 3) ∧
    (wI14.dev.released = false ∨ (wI14.dev.stw 0).state = 1 ∨ (wI14.dev.stw 0).state = 3) ∧ wI15.dev.released = true ∧ (wI15.dev.stw 11).state ≠ 1 ∧
    (wI15.dev.stw 11).state ≠ 3 ∧ ((wI15.dev.stw 11).recent wI15.dev.now).length < 2 ∧ wI15.dev.switchStat ≠ 1 ∧ wI16.dev.released = true ∧
    (wI16.dev.stw 3).state ≠ 1 ∧ (wI16.dev.stw 3).state ≠ 3 ∧ ((wI16.dev.stw 3).recent wI16.dev.now).length < 2 ∧ wI16.dev.switchStat ≠ 1 ∧
    wI17.dev.released = true ∧ (wI17.dev.stw 4).state ≠ 1 ∧ (wI17.dev.stw 4).state ≠ 3) ∧
    (((wI17.dev.stw 4).recent wI17.dev.now).length < 2 ∧ wI17.dev.switchStat = 1 ∧ wI18.dev.released = true ∧ (wI18.dev.stw 3).state ≠ 1 ∧
    (wI18.dev.stw 3).state ≠ 3 ∧ 2 ≤ ((wI18.dev.stw 3).recent wI18.dev.now).length ∧ wI19.dev.released = true ∧ (wI19.dev.stw 5).state ≠ 1 ∧
    (wI19.dev.stw 5).state ≠ 3 ∧ 2 ≤ ((wI19.dev.stw 5).recent wI19.dev.now).length ∧ wI20.dev.access tfw (pgMgmtI (11 / 3)) = Access.open ∧
    (wI20.dev.stw 11).state = 3 ∧ State.reset.dev.access tfw (pgMgmtI (11 / 3)) = Access.open ∧ (State.reset.dev.stw 11).state ≠ 3 ∧
    (State.reset.dev.stw 11).state ≠ 2 ∧ (wI21.dev.stw 3).state = 2) ∧
    (3 < 4 ∧ wI21.dev.switchStat ≠ 2 ∧ (wI22.dev.stw 4).state = 2 ∧ 4 ≤ 4 ∧ wI22.dev.switchStat ≠ 2 ∧ (wI23.dev.stw 11).state = 2 ∧ 4 ≤ 11 ∧
    wI23.dev.switchStat ≠ 2 ∧ (wI17.dev.stw 3).state = 0 ∧ (∃ k, k < 12 ∧ k ≠ 3 ∧ (wI17.dev.stw k).state ≠ 1) ∧ wI24.dev.switchStat = 1 ∧
    wI24.dev.released = true ∧ (wI24.dev.stw 0).state = 0 ∧ (∀ (k : Nat), k < 12 → k ≠ 0 → (wI24.dev.stw k).state = 1) ∧ State.reset.dev.switchStat ≠ 1 ∧
    State.reset.dev.switchStat ≠ 2) ∧
    (wI25.dev.switchStat = 2 ∧ State.reset.dev.access tpf pgMgmt = Access.open ∧ State.reset.dev.domainOf tpf = 0 ∧
    State.reset.dev.fget pgBoot Reg.BOOT.STATUS ≠ 3 ∧ wI26.dev.access tpf pgMgmt = Access.open ∧ wI26.dev.domainOf tpf = 0 ∧ wI26.dev.switchStat ≠ 1 ∧
    wI26.dev.switchStat ≠ 2 ∧ wI26.dev.fget pgBoot Reg.BOOT.STATUS = 3 ∧ imgSvn (wI26.dev.boot.staged.getD []) < wI26.dev.svnFuses ∧
    wI27.dev.access tpf pgMgmt = Access.open ∧ wI27.dev.domainOf tpf = 0 ∧ wI27.dev.switchStat ≠ 1 ∧ wI27.dev.switchStat ≠ 2 ∧
    wI27.dev.fget pgBoot Reg.BOOT.STATUS = 3 ∧ wI27.dev.svnFuses ≤ imgSvn (wI27.dev.boot.staged.getD [])) ∧
    ((∃ k, k < 12 ∧ (wI27.dev.stw k).state = 3) ∧ wI7.dev.access tpf pgMgmt = Access.open ∧ wI7.dev.domainOf tpf = 0 ∧ wI7.dev.switchStat ≠ 1 ∧
    wI7.dev.switchStat ≠ 2 ∧ wI7.dev.fget pgBoot Reg.BOOT.STATUS = 3 ∧ wI7.dev.svnFuses ≤ imgSvn (wI7.dev.boot.staged.getD []) ∧
    (∀ (k : Nat), k < 12 → (wI7.dev.stw k).state ≠ 3)) :=
  ⟨by decide +kernel, by decide +kernel, by decide +kernel, by decide +kernel, by decide +kernel⟩

theorem test_witness_StartUpSteps :
    (wI28.dev.therm.stby = true ∧ wI28.dev.therm.p12 = true ∧ wI28.dev.therm.tripped = false ∧ wI28.dev.therm.railFault = false ∧
    wI28.dev.therm.mains = false ∧ wI29.dev.stepDue 2 = true ∧ wI30.dev.stepDue 3 = true ∧ wI31.dev.stepDue 4 = true ∧ wI32.dev.stepDue 5 = true ∧
    wI32.dev.fget pgBoot Reg.BOOT.STATE ≠ 2 ∧ wI33.dev.stepDue 6 = true ∧ wI33.dev.fon pgMgmt Reg.MGMT.FAULT = false ∧ 7 ≠ 15 ∧
    wI34.dev.stepDue 7 = true ∧ wI34.dev.pool.configured = true ∧ wI35.dev.stepDue 7 = true) ∧
    (wI35.dev.pool.configured = false ∧ wI36.dev.stepDue 8 = true ∧ wI37.dev.stepDue 9 = true ∧ State.reset.dev.stepDue 4 = false ∧
    wI38.dev.stepDue 5 = false ∧ State.reset.dev.stepDue 6 = false ∧ wI38.dev.stepDue 7 = false ∧ State.reset.dev.stepDue 8 = false ∧
    State.reset.dev.stepDue 9 = false) :=
  ⟨by decide +kernel, by decide +kernel⟩

theorem test_witness_PortAndAccounts :
    wI39.dev.therm.mains = true ∧ wI39.dev.tapGuarded = false ∧ wI40.dev.therm.mains = true ∧ wI40.dev.tapGuarded = true ∧
    State.reset.dev.therm.mains = false :=
  by decide +kernel

theorem test_witness_EveryStepKeepsHopsSound : State.reset.hopsSound ∧ step State.reset = .next State.reset.tick :=
  ⟨test_reset_hops_sound, rfl⟩

end Sys2Proof.Tests
end

section
/-! The coded, raw and empty forms of an NCF block (R107 to R109): one equation of `blockBytes` per form, and from them the sizes. -/

namespace Sys2Proof.Machine

/-! ### The header is 16 bytes (R107) -/

@[simp] theorem length_bytesLE (n x : Nat) : (bytesLE n x).length = n := by
  induction n generalizing x with
  | zero => rfl
  | succ n ih => simp [bytesLE, ih]

@[simp] theorem length_bytesBE (n x : Nat) : (bytesBE n x).length = n := by
  simp [bytesBE]

@[simp] theorem NcfHeader.length_bytes (h : NcfHeader) : h.bytes.length = 16 := by
  simp [NcfHeader.bytes]

@[simp] theorem NcfHeader.drop_bytes_append (h : NcfHeader) (body : List Byte) : (h.bytes ++ body).drop 16 = body :=
  List.drop_left' h.length_bytes

/-! ### The form of a block (R109) -/

/-- The coded form of a block is kept: the stream codes, the form is shorter than the raw one, and it stands for the block (log entry 25). -/
def PBlk.KeepsCoded (b : PBlk) (coding near : Bool) (host body : List Byte) : Prop :=
  coding = true ∧ body.length < host.length ∧ bodyOk near host body b.refs = true

/-- The header of a block that stores `body` for its host bytes. -/
def PBlk.header (b : PBlk) (type : Nat) (far : Bool) (host body : List Byte) : NcfHeader :=
  { type := type, first := b.first, last := b.last, farUsed := far, inLen := host.length, bodyLen := body.length, check := ncfCheck host }

section
variable {coding near : Bool} {b : PBlk} {host body : List Byte}

theorem PBlk.keepsCoded_iff_decide : b.KeepsCoded coding near host body ↔
    (coding && decide (body.length < host.length) && bodyOk near host body b.refs) = true := by
  simp [PBlk.KeepsCoded, and_assoc]

theorem PBlk.KeepsCoded.host_ne_nil (h : b.KeepsCoded coding near host body) : host ≠ [] :=
  List.ne_nil_of_length_pos (Nat.zero_lt_of_lt h.2.1)

theorem PBlk.not_keepsCoded_of_coding_off : ¬ b.KeepsCoded false near host body :=
  fun h => Bool.false_ne_true h.1

theorem blockBytes_nil : blockBytes coding near b [] body = ((b.header 0 false [] []).bytes, false) := by
  simp [blockBytes, PBlk.header]

theorem blockBytes_of_keepsCoded (h : b.KeepsCoded coding near host body) :
    blockBytes coding near b host body = ((b.header 1 (!b.refs.isEmpty) host body).bytes ++ body, true) := by
  have hne : host.isEmpty = false := List.isEmpty_eq_false_iff.mpr h.host_ne_nil
  simp only [blockBytes, hne, PBlk.keepsCoded_iff_decide.mp h, PBlk.header, if_true, Bool.false_eq_true, if_false]

theorem blockBytes_of_not_keepsCoded (hne : host ≠ []) (h : ¬ b.KeepsCoded coding near host body) :
    blockBytes coding near b host body = ((b.header 2 false host host).bytes ++ host, false) := by
  have hne' : host.isEmpty = false := List.isEmpty_eq_false_iff.mpr hne
  simp only [blockBytes, hne', PBlk.keepsCoded_iff_decide.not.mp h, PBlk.header, Bool.false_eq_true, if_false]

/-! ### What the forms give -/

theorem blockBytes_coded_iff : (blockBytes coding near b host body).2 = true ↔ b.KeepsCoded coding near host body := by
  by_cases h : b.KeepsCoded coding near host body
  · simp [blockBytes_of_keepsCoded h, h]
  · by_cases hne : host = []
    · subst hne; simp [blockBytes_nil, h]
    · simp [blockBytes_of_not_keepsCoded hne h, h]

theorem length_blockBytes_lt_of_keepsCoded (h : b.KeepsCoded coding near host body) :
    (blockBytes coding near b host body).1.length < host.length + 16 := by
  have hlen : body.length < host.length := h.2.1
  simp only [blockBytes_of_keepsCoded h, List.length_append, NcfHeader.length_bytes]
  omega

theorem length_blockBytes_of_not_keepsCoded (hne : host ≠ []) (h : ¬ b.KeepsCoded coding near host body) :
    (blockBytes coding near b host body).1.length = host.length + 16 := by
  simp [blockBytes_of_not_keepsCoded hne h, Nat.add_comm]

theorem drop_blockBytes_of_not_keepsCoded (hne : host ≠ []) (h : ¬ b.KeepsCoded coding near host body) :
    (blockBytes coding near b host body).1.drop 16 = host := by
  simp [blockBytes_of_not_keepsCoded hne h]

theorem length_blockBytes_le : (blockBytes coding near b host body).1.length ≤ host.length + 16 := by
  by_cases h : b.KeepsCoded coding near host body
  · exact (length_blockBytes_lt_of_keepsCoded h).le
  · by_cases hne : host = []
    · subst hne; simp [blockBytes_nil]
    · exact (length_blockBytes_of_not_keepsCoded hne h).le

end

theorem sum_length_blockBytes_le (coding near : Bool) (l : List (PBlk × List Byte × List Byte)) :
    (l.map (fun x => (blockBytes coding near x.1 x.2.1 x.2.2).1.length)).sum ≤
      (l.map (fun x => x.2.1.length)).sum + 16 * l.length := by
  induction l with
  | nil => simp
  | cons x l ih =>
    have hx : (blockBytes coding near x.1 x.2.1 x.2.2).1.length ≤ x.2.1.length + 16 := length_blockBytes_le
    simp only [List.map_cons, List.sum_cons, List.length_cons]
    omega

end Sys2Proof.Machine
end

section
/-! The statement about the size of coded and raw blocks (R109). -/

namespace Sys2Proof.Proofs

open Sys2Proof.Machine

/-- Settles O32, from the forms of a block: coded where that form is kept (R109, log entry 25), raw otherwise; the sizes of a record's
blocks add up block by block. -/
theorem blocksNeverGrow : Obligations.BlocksNeverGrow := by
  refine ⟨fun coding near l => ?_, fun near b host body hne => ?_, fun coding near b host body hne => ⟨fun h => ?_, fun h => ?_, ?_⟩⟩
  · simpa only [List.sum_eq_foldl] using sum_length_blockBytes_le coding near l
  · have hraw : ¬ b.KeepsCoded false near host body := PBlk.not_keepsCoded_of_coding_off
    exact ⟨Bool.eq_false_iff.mpr (blockBytes_coded_iff.not.mpr hraw), drop_blockBytes_of_not_keepsCoded hne hraw⟩
  · exact length_blockBytes_lt_of_keepsCoded (blockBytes_coded_iff.mp h)
  · have hraw : ¬ b.KeepsCoded coding near host body := blockBytes_coded_iff.not.mp (Bool.eq_false_iff.mp h)
    exact ⟨length_blockBytes_of_not_keepsCoded hne hraw, drop_blockBytes_of_not_keepsCoded hne hraw⟩
  · rw [blockBytes_coded_iff, PBlk.KeepsCoded, Nat.add_lt_add_iff_right]

end Sys2Proof.Proofs
end

section
/-! The derailleur in host-assisted speed selection (R183): what the caps read, what a shift writes, what a write of COG_REQ comes to, and the
stops that no mode moves. -/

namespace Sys2Proof.Machine

variable {d : Dev} {n : Nat}

/-! ### What the caps and the mode read (R180) -/

theorem pgDr_ne_pgDetect {m t : Nat} (ht : t < 9) : pgDr n ≠ pgDetect m t := by
  simp only [pgDr, pgDetect, spokeRegion, PageId, ne_eq]; omega

theorem pgDr_ne_pgDecode {m t : Nat} (ht : t < 9) : pgDr n ≠ pgDecode m t := by
  simp only [pgDr, pgDecode, spokeRegion, PageId, ne_eq]; omega

theorem pgMotion_ne_pgDr {m : Nat} : pgMotion m ≠ pgDr n := by
  simp only [pgDr, pgMotion, spokeRegion, PageId, ne_eq]; omega

theorem Dev.serviceable_fset_page {pg pg' : PageId} (f : Fld) (v : Nat) (h : pg ≠ pg') :
    (d.fset pg f v).serviceable pg' = d.serviceable pg' := by
  simp only [Dev.serviceable, Dev.fon, Dev.fget_fset_page d f _ v h]

/-- The tiles of a spoke are counted in its DETECT and DECODE pages alone (R27). -/
@[simp] theorem Dev.tiles_fset_pgDr (d : Dev) (n m : Nat) (f : Fld) (v : Nat) : (d.fset (pgDr n) f v).tiles m = d.tiles m := by
  refine congrArg List.length (List.filter_congr fun t ht => ?_)
  have ht : t < 9 := List.mem_range.mp ht
  simp only [Dev.tileOk, Dev.serviceable_fset_page f v (pgDr_ne_pgDetect ht), Dev.serviceable_fset_page f v (pgDr_ne_pgDecode ht)]

theorem Dev.capOf_fset_pgDr {f : Fld} (v : Nat) (hthrottle : f.slot ≠ Reg.DERAILLEUR.THROTTLE_COG.slot)
    (hlimit : f.slot ≠ Reg.DERAILLEUR.COG_LIMIT.slot) : (d.fset (pgDr n) f v).capOf n = d.capOf n := by
  simp only [Dev.capOf, Dev.tiles_fset_pgDr, Dev.fget_fset_slot d _ _ v hthrottle, Dev.fget_fset_slot d _ _ v hlimit]

@[simp] theorem Dev.capOf_fset_COG_REQ (d : Dev) (n v : Nat) : (d.fset (pgDr n) Reg.DERAILLEUR.COG_REQ v).capOf n = d.capOf n :=
  Dev.capOf_fset_pgDr v (by decide) (by decide)

@[simp] theorem Dev.mode_fset_COG_REQ (d : Dev) (n v : Nat) :
    (d.fset (pgDr n) Reg.DERAILLEUR.COG_REQ v).mode (pgDr n) = d.mode (pgDr n) :=
  Dev.fget_fset_slot d _ _ v (by decide)

theorem Dev.startCog_of_hostAssisted (h : d.mode (pgDr n) = 1) :
    d.startCog n = max (cogEff (d.fget (pgDr n) Reg.DERAILLEUR.COG_REQ)) (d.capOf n) := if_pos h

theorem Dev.startCog_fset_COG_REQ (v : Nat) (h : d.mode (pgDr n) = 1) :
    (d.fset (pgDr n) Reg.DERAILLEUR.COG_REQ v).startCog n = max (cogEff (v % 16)) (d.capOf n) := by
  rw [Dev.startCog_of_hostAssisted (by rwa [Dev.mode_fset_COG_REQ]), Dev.fget_fset_same, Dev.capOf_fset_COG_REQ]
  rfl

/-! ### A shift (R180, R184) -/

@[simp] theorem Dev.fget_modDrv (d : Dev) (n : Nat) (g : Drive → Drive) (pg : PageId) (f : Fld) :
    (d.modDrv n g).fget pg f = d.fget pg f := rfl

@[simp] theorem Dev.drv_modDrv_same (d : Dev) (n : Nat) (g : Drive → Drive) : ((d.modDrv n g).sp n).drv = g (d.sp n).drv := by
  simp [Dev.modDrv]

theorem Dev.shiftTo_of_streaming (t : Nat) (h : (d.sp n).drv.streaming = true) :
    d.shiftTo n t = (((d.modDrv n fun x => { x with tgtCog := t }).fset (pgDr n) Reg.DERAILLEUR.TARGET_COG t).fset
      (pgDr n) Reg.DERAILLEUR.SHIFTING 1).fset (pgMotion n) Reg.MOTION.STATE 1 := by
  simp [Dev.shiftTo, Dev.ev_eq, h]

theorem Dev.shiftTo_of_not_streaming (t : Nat) (h : (d.sp n).drv.streaming = false) :
    d.shiftTo n t = d.modDrv n fun x => { x with tgtCog := t } := by
  simp [Dev.shiftTo, h]

/-- The target of a shift is kept whether or not the tape streams: one that does not stream takes it up at its next run-up. -/
@[simp] theorem Dev.tgtCog_shiftTo (d : Dev) (n t : Nat) : ((d.shiftTo n t).sp n).drv.tgtCog = t := by
  cases h : (d.sp n).drv.streaming
  · simp [Dev.shiftTo_of_not_streaming t h]
  · simp [Dev.shiftTo_of_streaming t h]

theorem Dev.fget_shiftTo {f : Fld} (t : Nat) (htarget : Reg.DERAILLEUR.TARGET_COG.slot ≠ f.slot)
    (hshifting : Reg.DERAILLEUR.SHIFTING.slot ≠ f.slot) : (d.shiftTo n t).fget (pgDr n) f = d.fget (pgDr n) f := by
  cases h : (d.sp n).drv.streaming
  · rw [Dev.shiftTo_of_not_streaming t h, Dev.fget_modDrv]
  · rw [Dev.shiftTo_of_streaming t h, Dev.fget_fset_page _ _ _ _ pgMotion_ne_pgDr, Dev.fget_fset_slot _ _ _ _ hshifting,
      Dev.fget_fset_slot _ _ _ _ htarget, Dev.fget_modDrv]

theorem Dev.shifting_shiftTo (t : Nat) (h : (d.sp n).drv.streaming = true) :
    (d.shiftTo n t).fget (pgDr n) Reg.DERAILLEUR.SHIFTING = 1 := by
  rw [Dev.shiftTo_of_streaming t h, Dev.fget_fset_page _ _ _ _ pgMotion_ne_pgDr, Dev.fget_fset_same]
  rfl

theorem Dev.targetCog_shiftTo (t : Nat) (h : (d.sp n).drv.streaming = true) :
    (d.shiftTo n t).fget (pgDr n) Reg.DERAILLEUR.TARGET_COG = t % 16 := by
  rw [Dev.shiftTo_of_streaming t h, Dev.fget_fset_page _ _ _ _ pgMotion_ne_pgDr, Dev.fget_fset_slot _ _ _ _ (by decide),
    Dev.fget_fset_same]
  rfl

/-! ### A write of COG_REQ (R183) -/

theorem Dev.cogReq_of_not_hostAssisted (v : Nat) (h : d.mode (pgDr n) ≠ 1) :
    d.cogReq n v = d.fset (pgDr n) Reg.DERAILLEUR.COG_REQ v := by
  simp [Dev.cogReq, h]

/-- In host-assisted speed selection a write of COG_REQ that moves the target is a shift, whatever else holds. -/
theorem Dev.cogReq_of_hostAssisted (v : Nat) (h : d.mode (pgDr n) = 1) :
    d.cogReq n v = if max (cogEff (v % 16)) (d.capOf n) ≠ (d.sp n).drv.tgtCog
      then (d.fset (pgDr n) Reg.DERAILLEUR.COG_REQ v).shiftTo n (max (cogEff (v % 16)) (d.capOf n))
      else d.fset (pgDr n) Reg.DERAILLEUR.COG_REQ v := by
  simp [Dev.cogReq, h, Dev.startCog_fset_COG_REQ]

theorem Dev.COG_REQ_cogReq (d : Dev) (n v : Nat) : (d.cogReq n v).fget (pgDr n) Reg.DERAILLEUR.COG_REQ = v % 16 := by
  have hstored : (d.fset (pgDr n) Reg.DERAILLEUR.COG_REQ v).fget (pgDr n) Reg.DERAILLEUR.COG_REQ = v % 16 := Dev.fget_fset_same ..
  by_cases h : d.mode (pgDr n) = 1
  · rw [Dev.cogReq_of_hostAssisted v h]
    split
    · rw [Dev.fget_shiftTo _ (by decide) (by decide), hstored]
    · exact hstored
  · rw [Dev.cogReq_of_not_hostAssisted v h, hstored]

theorem Dev.tgtCog_cogReq (v : Nat) (h : d.mode (pgDr n) = 1) :
    ((d.cogReq n v).sp n).drv.tgtCog = max (cogEff (v % 16)) (d.capOf n) := by
  rw [Dev.cogReq_of_hostAssisted v h]
  split
  next => exact Dev.tgtCog_shiftTo ..
  next hsame => exact (not_ne_iff.mp hsame).symm

theorem Dev.cogReq_of_target_moves (v : Nat) (h : d.mode (pgDr n) = 1)
    (hmoves : max (cogEff (v % 16)) (d.capOf n) ≠ (d.sp n).drv.tgtCog) :
    d.cogReq n v = (d.fset (pgDr n) Reg.DERAILLEUR.COG_REQ v).shiftTo n (max (cogEff (v % 16)) (d.capOf n)) := by
  rw [Dev.cogReq_of_hostAssisted v h, if_pos hmoves]

theorem exec_cogReqWrite (a : Accessor) (n : Fin 8) (cog : Nat) (s : State) :
    exec (.cogReqWrite a n cog) s = s.writeDev a (pgDr n) (fun d => d.cogReq n cog) := rfl

/-! ### What watermarks and the read-ahead do, and the stop of a run that starves (R137, R181, R182) -/

theorem Dev.drEval_of_hostAssisted (h : d.mode (pgDr n) = 1) : d.drEval n = d := by
  simp [Dev.drEval, h]

/-- A read run at cog 12, outside the ladder's stage 2, whose read-ahead has reached RA_LIMIT, stops in either mode. -/
theorem Dev.raLimit_of_reached (hstream : (d.sp n).drv.streaming = true) (hread : (d.sp n).drv.reading = true)
    (hstage : (d.rd n).ladder.stage ≠ 2) (hcog : d.fget (pgDr n) Reg.DERAILLEUR.CUR_COG = 12)
    (hfill : max (d.fget (pgDr n) Reg.DERAILLEUR.RA_LIMIT) (d.fget (pgDr n) Reg.DERAILLEUR.RA_HIGH) ≤
      d.fget (pgDr n) Reg.DERAILLEUR.RA_FILL_MIB) :
    d.raLimit n = (d.readStopDue n).modRd n (fun r => { r with stopped := true, noBuf := false }) :=
  if_pos (by simpa [hstream, hread, hstage, hcog] using hfill)

theorem Spoke.nextReserved_of_nothing_due {s : Spoke} (h : s.wr.dueQ = []) : s.nextReserved = false := by
  simp [Spoke.nextReserved, h]

/-- A slot that may be written, with nothing due, no padding and no close to end it, starves the run (R137). -/
theorem Dev.judgeSlot_of_nothing_due (hstop : (d.sp n).wr.stop = .none) (hquiesce : d.fon (pgWriter n) Reg.HEADER.QUIESCE_REQ = false)
    (hslot : slotAllowed (zoneOfWrap (d.sp n).wr.wrap) (d.sp n).wr.slotsUsed (d.sp n).wr.ahead = true)
    (hdue : (d.sp n).wr.dueQ = []) (hpad : d.padCase n = false) (hclose : (d.sp n).sess.closing = none) :
    d.judgeSlot n = (d.fset (pgWriter n) Reg.WRITER.STARVE_STOP 1, .starve) := by
  simp [Dev.judgeSlot, Dev.ev_eq, hstop, hquiesce, hslot, hdue, hpad, hclose, Spoke.nextReserved_of_nothing_due hdue]

end Sys2Proof.Machine
end

section
/-! The statement about host-assisted speed selection (R183). -/

namespace Sys2Proof.Proofs

open Sys2Proof.Machine

/-- In host-assisted speed selection a write of COG_REQ moves the target at once, and on a tape that streams the shift begins with it. -/
theorem completes_cogReqWrite_of_hostAssisted {s : State} {a : Accessor} {n : Fin 8} (cog : Nat)
    (hopen : s.dev.access a (pgDr n) = .open) (h : s.dev.mode (pgDr n) = 1) :
    Completes (.cogReqWrite a n cog) s (fun t =>
      t.dev.fget (pgDr n) Reg.DERAILLEUR.COG_REQ = cog % 16 ∧
      (t.dev.sp n).drv.tgtCog = max (cogEff (cog % 16)) (s.dev.capOf n) ∧
      (max (cogEff (cog % 16)) (s.dev.capOf n) ≠ (s.dev.sp n).drv.tgtCog → (s.dev.sp n).drv.streaming = true →
        t.dev.fget (pgDr n) Reg.DERAILLEUR.SHIFTING = 1 ∧
        t.dev.fget (pgDr n) Reg.DERAILLEUR.TARGET_COG = max (cogEff (cog % 16)) (s.dev.capOf n) % 16)) := by
  refine .of_writeDev (exec_cogReqWrite ..) hopen ⟨Dev.COG_REQ_cogReq .., Dev.tgtCog_cogReq cog h, fun hmoves hstream => ?_⟩
  rw [State.modDev_dev, Dev.cogReq_of_target_moves cog h hmoves]
  exact ⟨Dev.shifting_shiftTo _ hstream, Dev.targetCog_shiftTo _ hstream⟩

/-- In the other mode a write of COG_REQ is stored, and nothing else has changed. -/
theorem completes_cogReqWrite_of_not_hostAssisted {s : State} {a : Accessor} {n : Fin 8} (cog : Nat)
    (hopen : s.dev.access a (pgDr n) = .open) (h : s.dev.mode (pgDr n) ≠ 1) :
    Completes (.cogReqWrite a n cog) s (fun t =>
      t.dev.fget (pgDr n) Reg.DERAILLEUR.COG_REQ = cog % 16 ∧
      (∀ f : Fld, f.slot ≠ Reg.DERAILLEUR.COG_REQ.slot → t.dev.fget (pgDr n) f = s.dev.fget (pgDr n) f) ∧
      { t with dev := { t.dev with regs := s.dev.regs } } = s) := by
  refine .of_writeDev (exec_cogReqWrite ..) hopen ⟨Dev.COG_REQ_cogReq .., ?_⟩
  rw [State.modDev_dev, Dev.cogReq_of_not_hostAssisted cog h]
  exact ⟨fun f hf => Dev.fget_fset_slot _ _ _ _ hf.symm, rfl⟩

/-- Settles O21: the watermark rule and the stops by their own equations, the write of COG_REQ by what it comes to in either mode (R183). -/
theorem hostAssistedSpeed : Obligations.HostAssistedSpeed :=
  ⟨fun _ _ h => ⟨Dev.startCog_of_hostAssisted h, Dev.drEval_of_hostAssisted h, Dev.raLimit_of_reached, Dev.judgeSlot_of_nothing_due⟩,
    fun _ _ _ cog hopen => ⟨completes_cogReqWrite_of_hostAssisted cog hopen, completes_cogReqWrite_of_not_hostAssisted cog hopen⟩⟩

end Sys2Proof.Proofs
end

section
/-! Transport loss, by a lost echo or by silence (R190, R413): each report sets its flag and its event on the LINK page, which leaves the
spoke's presence as it was, and presence decides on the fence. -/

namespace Sys2Proof.Machine

variable {d : Dev} {n : Nat}

theorem Dev.transportLost_of_present (h : (d.sp n).drv.present = true) : d.transportLost n = d.fence n 1 := if_pos h

theorem Dev.transportLost_of_absent (h : (d.sp n).drv.present = false) : d.transportLost n = d :=
  if_neg (Bool.eq_false_iff.mp h)

theorem exec_echoLost (n : Fin 8) (s : State) : exec (.echoLost n) s =
    s.onAll (fun d => ((d.fset (pgLink n) Reg.LINK.ECHO_LOST 1).fset (pgLink n) Reg.LINK.ECHO_EVT 1).transportLost n) := rfl

theorem exec_linkSilent (n : Fin 8) (s : State) : exec (.linkSilent n) s =
    s.onAll (fun d => ((d.fset (pgLink n) Reg.LINK.SILENT 1).fset (pgLink n) Reg.LINK.SILENT_EVT 1).transportLost n) := rfl

/-! ### A command that reports transport loss by a flag and an event of the LINK page -/

section Report

variable {c : Instr} {s : State} {flag evt : Fld}
  (hc : exec c s = s.onAll (fun d => ((d.fset (pgLink n) flag 1).fset (pgLink n) evt 1).transportLost n))

include hc

theorem exec_transportLost_of_present (h : (s.dev.sp n).drv.present = true) :
    exec c s = .next (s.modDev (fun d => (((d.fset (pgLink n) flag 1).fset (pgLink n) evt 1).fence n 1).followAll)) := by
  have hpresent : (((s.dev.fset (pgLink n) flag 1).fset (pgLink n) evt 1).sp n).drv.present = true := by simpa using h
  simp only [hc, State.onAll_eq, State.modDev, Dev.transportLost_of_present hpresent]

theorem exec_transportLost_of_absent (h : (s.dev.sp n).drv.present = false) :
    exec c s = .next (s.modDev (fun d => ((d.fset (pgLink n) flag 1).fset (pgLink n) evt 1).followAll)) := by
  have habsent : (((s.dev.fset (pgLink n) flag 1).fset (pgLink n) evt 1).sp n).drv.present = false := by simpa using h
  simp only [hc, State.onAll_eq, State.modDev, Dev.transportLost_of_absent habsent]

end Report

end Sys2Proof.Machine
end

section
/-! The statement about transport loss (R413). -/

namespace Sys2Proof.Proofs

open Sys2Proof.Machine

/-- Settles O24: either report is its two flags and, on a present spoke alone, the fence with cause LOST (R190, R413). -/
theorem transportLoss : Obligations.TransportLoss := fun s n => by
  have hecho := exec_echoLost n s
  have hsilent := exec_linkSilent n s
  constructor
  · intro hpresent
    exact ⟨exec_transportLost_of_present hecho hpresent, exec_transportLost_of_present hsilent hpresent⟩
  · intro habsent
    exact ⟨exec_transportLost_of_absent hecho habsent, exec_transportLost_of_absent hsilent habsent⟩

end Sys2Proof.Proofs
end

section
/-! What a command comes to, class by class: the writes through BAR0, the ring commands, the reads, the doorbells, and the rest, whose
meaning is a step of the device alone. -/

namespace Sys2Proof.Machine

/-- The answer is a next state in which only the device has changed. -/
def Res.devOnly (s : State) (r : Res) : Prop := ∃ d : Dev, r = .next { s with dev := d }

theorem Res.devOnly_next (s : State) (f : Dev → Dev) : Res.devOnly s (.next (s.modDev f)) := ⟨_, rfl⟩

theorem State.write_devOnly {s : State} {k : State → Res} (a : Accessor) (pg : PageId) (h : Res.devOnly s (k s)) :
    Res.devOnly s (s.write a pg k) := by
  cases hx : s.dev.access a pg
  · rw [State.write_open s a pg k hx]; exact h
  · rw [State.write_absent s a pg k hx]; exact ⟨_, rfl⟩
  · rw [State.write_violation s a pg k hx]; exact Res.devOnly_next s _

theorem State.writeDev_devOnly (s : State) (a : Accessor) (pg : PageId) (f : Dev → Dev) : Res.devOnly s (s.writeDev a pg f) :=
  State.write_devOnly a pg (Res.devOnly_next s f)

theorem State.writeRoot_modDev_devOnly (s : State) (a : Accessor) (f : Dev → Dev) :
    Res.devOnly s (s.writeRoot a (fun s => s.modDev f)) := by
  refine State.write_devOnly a pgMgmt ?_
  dsimp only
  split
  · exact Res.devOnly_next s f
  · exact ⟨_, rfl⟩

theorem State.write_eq_write (s : State) (a : Accessor) (pg : PageId) (k : State → Res) :
    ∃ k', s.write a pg k = s.write a pg k' := ⟨k, rfl⟩

theorem State.writeDev_eq_write (s : State) (a : Accessor) (pg : PageId) (f : Dev → Dev) :
    ∃ k, s.writeDev a pg f = s.write a pg k := ⟨_, rfl⟩

theorem State.writeRoot_eq_write (s : State) (a : Accessor) (f : State → State) :
    ∃ k, s.writeRoot a f = s.write a pgMgmt k := ⟨_, rfl⟩

/-- Every command that `barWrite` lists is a write through BAR0 (R366, R422). -/
theorem exec_of_barWrite {c : Instr} {a : Accessor} {pg : PageId} (h : barWrite c = some (a, pg))
    (hoff : ∀ off v be, c = .registerWrite a pg off v be → offDefined pg off = true) (s : State) :
    ∃ k, exec c s = s.write a pg k := by
  cases c
  case registerWrite a' pg' off v be =>
    cases h
    exact ⟨_, if_pos (hoff off v be rfl)⟩
  all_goals cases h
  case flush | quiesceReq | readmit | keyClear | zeroiseAll => simp only [exec]; exact State.write_eq_write ..
  case moduleReset | keepReset | spokeReset | spokeFenceSet | spokeFenceLift | switchGo => simp only [exec]; exact State.writeRoot_eq_write ..
  all_goals (simp only [exec]; exact State.writeDev_eq_write ..)

theorem exec_registerWrite_of_undefined {pg off : Nat} (a : Accessor) (v be : Nat) (s : State) (h : offDefined pg off = false) :
    exec (.registerWrite a pg off v be) s = .next s :=
  if_neg (Bool.eq_false_iff.mp h)

/-- A command of a ring is a command fetched (R308). -/
theorem exec_of_ringCommand {c : Instr} {h : CmdHdr} {op : Op} {data : List Byte} (hc : ringCommand c = some (h, op, data)) (s : State) :
    exec c s = s.host h op data := by
  cases c
  all_goals cases hc
  all_goals rfl

/-! ### The device alone -/

theorem State.read_devOnly (s : State) (a : Accessor) (pg : PageId) (off : Nat) : Res.devOnly s (.next (s.read a pg off)) := by
  unfold State.read
  dsimp only
  split
  · exact Res.devOnly_next s _
  · split <;> exact ⟨_, rfl⟩

theorem State.latchRead_devOnly (s : State) (a : Accessor) (pg : PageId) (off : Nat) (f : Dev → Dev) :
    Res.devOnly s (.next (s.latchRead a pg off f)) := by
  obtain ⟨d, hd⟩ := s.read_devOnly a pg off
  have hread : s.read a pg off = { s with dev := d } := by injection hd
  unfold State.latchRead
  split
  · exact ⟨f d, by rw [hread]; rfl⟩
  · exact ⟨d, by rw [hread]⟩

theorem State.quiesceReq_devOnly (s : State) (pg : PageId) : Res.devOnly s (.next (s.quiesceReq pg)) := by
  unfold State.quiesceReq
  split
  · exact ⟨_, rfl⟩
  · dsimp only
    split
    · exact ⟨_, rfl⟩
    · split <;> exact ⟨_, rfl⟩

theorem State.quiesced_devOnly (s : State) (pg : PageId) : Res.devOnly s (.next (s.quiesced pg)) := by
  unfold State.quiesced
  split <;> exact ⟨_, rfl⟩

/-- A doorbell changes the device alone, or its value is out of range (UB-9). -/
theorem State.doorbell_outcome (s : State) (e : Fin 2) (f : Fin 64) (q : Fin 4096) (b : Dev → Bell) :
    Res.devOnly s (s.doorbell e f q b) ∨ s.doorbell e f q b = .fault .doorbellOutOfRange := by
  unfold State.doorbell
  dsimp only
  split
  · exact .inl ⟨_, rfl⟩
  · split
    · exact .inl ⟨_, rfl⟩
    · split
      · exact .inl ⟨_, rfl⟩
      · exact .inr rfl
      · exact .inl ⟨_, rfl⟩

/-- A command that `touchesHops` does not list changes the device alone, or it is a doorbell out of range (UB-9). -/
theorem exec_devOnly {c : Instr} (hc : touchesHops c = false) (s : State) : Res.devOnly s (exec c s) ∨
    (exec c s = .fault .doorbellOutOfRange ∧ ∃ e f q v, c = .sqTailDoorbell e f q v ∨ c = .cqHeadDoorbell e f q v) := by
  cases c
  case sqTailDoorbell e f q v =>
    exact (s.doorbell_outcome e f q (fun d => d.sqBell q (funcOf e f) v)).imp_right fun h => ⟨h, e, f, q, v, .inl rfl⟩
  case cqHeadDoorbell e f q v =>
    exact (s.doorbell_outcome e f q (fun d => d.cqBell q (funcOf e f) v)).imp_right fun h => ⟨h, e, f, q, v, .inr rfl⟩
  case chainPush | chainPop | creditReturn | wordReplay | gateFifoWrite | gateFifoPop | flush | registerWrite | workUnitDamaged |
    moduleReset | spokeReset | spokeFenceLift | readmit | p3v3StbyGood | thermalSample | tripComparator | brownOut | railFault => cases hc
  all_goals refine .inl ?_
  all_goals simp only [exec]
  case quiesceReq => exact State.write_devOnly _ _ (State.quiesceReq_devOnly ..)
  case blockQuiesced => exact State.quiesced_devOnly ..
  case keyClear | zeroiseAll => exact State.write_devOnly _ _ ⟨_, rfl⟩
  case keepReset | spokeFenceSet | switchGo => exact State.writeRoot_modDev_devOnly ..
  case nowLoRead | lostObjLoRead | ivCountLoRead | seqLoRead | tpwLoRead => exact State.latchRead_devOnly ..
  case pageViolationRead => exact State.read_devOnly ..
  case modeChange | blockEnable | waveBandWrite | deadMapClear | cogReqWrite | ladderStepHandover | ladderStepRung | ladderStepRaw |
    ladderStepUnreadable | vmClr | injArm | apply | ringEnable | ringDisable | sqCreditWrite | heartbeat | hbWindowWrite |
    domainFenceLift | stageSet | discard | commit | updateStart | updData | updateEnd | updateRelease | svnCommit | kekGo | keyGo |
    kekClear | errForce | revive => exact State.writeDev_devOnly ..
  all_goals exact ⟨_, rfl⟩

/-! ### The queue of commands -/

/-- The answer is a next state with the same commands waiting. -/
def Res.keepsQueue (s : State) (r : Res) : Prop := ∃ t, r = .next t ∧ t.pending = s.pending

theorem Res.devOnly.keepsQueue {s : State} {r : Res} (h : Res.devOnly s r) : Res.keepsQueue s r := by
  obtain ⟨d, hd⟩ := h
  exact ⟨_, hd, rfl⟩

theorem State.write_keepsQueue {s : State} {k : State → Res} (a : Accessor) (pg : PageId) (h : Res.keepsQueue s (k s)) :
    Res.keepsQueue s (s.write a pg k) := by
  cases hx : s.dev.access a pg
  · rw [State.write_open s a pg k hx]; exact h
  · rw [State.write_absent s a pg k hx]; exact ⟨_, rfl, rfl⟩
  · rw [State.write_violation s a pg k hx]; exact ⟨_, rfl, rfl⟩

theorem State.writeRoot_keepsQueue {s : State} {f : State → State} (a : Accessor) (h : (f s).pending = s.pending) :
    Res.keepsQueue s (s.writeRoot a f) := by
  refine State.write_keepsQueue a pgMgmt ⟨_, rfl, ?_⟩
  split
  · exact h
  · rfl

@[simp] theorem State.receive_pending (s : State) (c : ChainId) (w : CoreWord) (err : BitVec 67) (k : Nat) :
    (s.receive c w err k).pending = s.pending := by
  unfold State.receive
  dsimp only
  split
  · simp
  · split <;> simp

@[simp] theorem State.receiveGate_pending (s : State) (g : GateId) (w : CoreWord) (err : BitVec 67) (k : Nat) :
    (s.receiveGate g w err k).pending = s.pending := by
  unfold State.receiveGate
  dsimp only
  split
  · split <;> simp
  · split <;> simp

@[simp] theorem State.creditChain_pending (s : State) (c : ChainId) : (s.creditChain c).pending = s.pending := by
  simp [State.creditChain]

@[simp] theorem State.replayWord_pending (s : State) (err : BitVec 67) (h : Hop) : (s.replayWord err h).pending = s.pending := by
  cases h with
  | chain c =>
    simp only [State.replayWord]
    split
    · rfl
    · split <;> simp
  | gate g =>
    simp only [State.replayWord]
    split
    · simp
    · split <;> simp

@[simp] theorem State.popGate_pending (s : State) (g : GateId) (err : BitVec 67) : (s.popGate g err).pending = s.pending := by
  unfold State.popGate
  dsimp only
  split
  · rfl
  · split <;> simp

@[simp] theorem State.flushChain_pending (s : State) (c : ChainId) : (s.flushChain c).pending = s.pending := by
  unfold State.flushChain
  dsimp only
  split <;> simp

@[simp] theorem State.chainWrite_pending (s : State) (c : ChainId) (k v be : Nat) : (s.chainWrite c k v be).pending = s.pending := by
  unfold State.chainWrite
  dsimp only
  split
  · split <;> simp
  · split
    · simp
    · split <;> simp

@[simp] theorem State.writeReg_pending (s : State) (a : Accessor) (pg : PageId) (off v be : Nat) :
    (s.writeReg a pg off v be).pending = s.pending := by
  unfold State.writeReg
  split
  · rfl
  · dsimp only
    split
    · split <;> simp
    · split
      · split <;> simp
      · simp

@[simp] theorem State.powered_pending (s : State) (f : Dev → Dev) : (s.powered f).pending = s.pending := by
  unfold State.powered
  dsimp only
  split <;> rfl

@[simp] theorem State.resetTarget_pending (s : State) (n : Fin 16) : (s.resetTarget n).pending = s.pending := by
  unfold State.resetTarget
  dsimp only
  split <;> rfl

@[simp] theorem State.liftMask_pending (s : State) (m : Nat) : (s.liftMask m).pending = s.pending := by
  unfold State.liftMask
  rw [State.modDev_pending]
  exact foldl_keeps State.pending (fun (x : State) n => (x.resetSpokeHops n).modDev (fun d => d.lift n)) (fun _ _ => rfl) _ s

@[simp] theorem State.resetBlockHops_pending (s : State) (pg : PageId) : (s.resetBlockHops pg).pending = s.pending := by
  unfold State.resetBlockHops
  split
  · rfl
  · dsimp only
    split
    · rfl
    · split <;> rfl

@[simp] theorem State.readmitSel_pending (s : State) : s.readmitSel.pending = s.pending := by
  unfold State.readmitSel
  dsimp only
  rw [State.modDev_pending]
  split <;> simp

/-- A push is refused with no credit alone (UB-1). -/
theorem State.push_outcome (s : State) (c : ChainId) (cell : Nat) (asks : List Nat) (w : CoreWord) (err : BitVec 67) :
    Res.keepsQueue s (s.after (s.push c cell asks w err)) ∨
    (s.after (s.push c cell asks w err) = .fault .pushWithoutCredit ∧ (s.chain c).credits = 0) := by
  unfold State.push
  dsimp only
  split
  next h => exact .inr ⟨rfl, h⟩
  next =>
    split
    · exact .inl ⟨_, rfl, rfl⟩
    · exact .inl ⟨_, rfl, by simp⟩

/-- The write of a gate FIFO is refused to a self-timed producer with no free entry alone (UB-1). -/
theorem State.writeGate_outcome (s : State) (g : GateId) (w : CoreWord) (err : BitVec 67) :
    Res.keepsQueue s (s.after (s.writeGate g w err)) ∨
    (s.after (s.writeGate g w err) = .fault .pushWithoutCredit ∧ g.clockedWrites = false ∧ 32 ≤ (s.gate g).words.length) := by
  unfold State.writeGate
  dsimp only
  split
  · exact .inl ⟨_, rfl, rfl⟩
  · split
    · refine .inl ?_
      split
      · exact ⟨_, rfl, by simp⟩
      · split
        · exact ⟨_, rfl, rfl⟩
        · exact ⟨_, rfl, by simp⟩
    next hc =>
      split
      · exact .inl ⟨_, rfl, by simp⟩
      next hw => exact .inr ⟨rfl, by simpa using hc, by omega⟩

theorem exec_flush (a : Accessor) (c : ChainId) (s : State) :
    exec (.flush a c) s = s.write a (consumerPage c) (fun s => .next (s.flushChain c)) := rfl

theorem exec_moduleReset (a : Accessor) (s : State) :
    exec (.moduleReset a) s = s.writeRoot a (fun s => s.resetHops.modDev Dev.moduleReset) := rfl

theorem exec_spokeReset (a : Accessor) (n : Fin 16) (s : State) :
    exec (.spokeReset a n) s = s.writeRoot a (fun s => s.resetTarget n) := rfl

theorem exec_spokeFenceLift (a : Accessor) (m : BitVec 8) (s : State) :
    exec (.spokeFenceLift a m) s = s.writeRoot a (fun s => s.liftMask m.toNat) := rfl

theorem exec_readmit (a : Accessor) (s : State) :
    exec (.readmit a) s = s.write a pgMgmt (fun s => .next s.readmitSel) := rfl

/-- What a command can come to: a next state with the queue as it was, UB-1 or UB-9 (R417). -/
theorem exec_outcome (c : Instr) (s : State) : Res.keepsQueue s (exec c s) ∨
    (exec c s = .fault .pushWithoutCredit ∧ ((∃ id w err, c = .chainPush id w err ∧ (s.chain id).credits = 0) ∨
      ∃ g w err, c = .gateFifoWrite g w err ∧ g.clockedWrites = false ∧ 32 ≤ (s.gate g).words.length)) ∨
    (exec c s = .fault .doorbellOutOfRange ∧ ∃ e f q v, c = .sqTailDoorbell e f q v ∨ c = .cqHeadDoorbell e f q v) := by
  by_cases ht : touchesHops c = false
  · exact (exec_devOnly ht s).imp Res.devOnly.keepsQueue .inr
  · cases c
    case chainPush id w err => exact (s.push_outcome id w.cell w.asks w.word err).imp_right fun h => .inl ⟨h.1, .inl ⟨id, w, err, rfl, h.2⟩⟩
    case gateFifoWrite g w err => exact (s.writeGate_outcome g w err).imp_right fun h => .inl ⟨h.1, .inr ⟨g, w, err, rfl, h.2⟩⟩
    case chainPop => exact .inl ⟨_, rfl, State.popChain_pending ..⟩
    case creditReturn => exact .inl ⟨_, rfl, State.creditChain_pending ..⟩
    case wordReplay => exact .inl ⟨_, rfl, State.replayWord_pending ..⟩
    case gateFifoPop => exact .inl ⟨_, rfl, State.popGate_pending ..⟩
    case flush a c => exact .inl (exec_flush a c s ▸ State.write_keepsQueue _ _ ⟨_, rfl, State.flushChain_pending ..⟩)
    case registerWrite a pg off v be =>
      refine .inl ?_
      simp only [exec, execRegisterWrite, State.writeAt]
      split
      · exact State.write_keepsQueue _ _ ⟨_, rfl, State.writeReg_pending ..⟩
      · exact ⟨_, rfl, rfl⟩
    case workUnitDamaged => exact .inl ⟨_, rfl, State.damage_pending ..⟩
    case moduleReset a => exact .inl (exec_moduleReset a s ▸ State.writeRoot_keepsQueue a rfl)
    case spokeReset a n => exact .inl (exec_spokeReset a n s ▸ State.writeRoot_keepsQueue a (State.resetTarget_pending ..))
    case spokeFenceLift a m => exact .inl (exec_spokeFenceLift a m s ▸ State.writeRoot_keepsQueue a (State.liftMask_pending ..))
    case readmit a => exact .inl (exec_readmit a s ▸ State.write_keepsQueue _ _ ⟨_, rfl, State.readmitSel_pending ..⟩)
    case p3v3StbyGood => exact .inl ⟨_, rfl, rfl⟩
    case thermalSample | tripComparator | brownOut | railFault => exact .inl ⟨_, rfl, State.powered_pending ..⟩
    all_goals exact absurd rfl ht

end Sys2Proof.Machine
end

section
/-! The statements about the queue, and about the pages that a write through BAR0 does not reach. -/

namespace Sys2Proof.Proofs

open Sys2Proof.Machine

/-- Settles O1: by the definition of a step. -/
theorem stepRunsTheFrontCommand : Obligations.StepRunsTheFrontCommand := by
  intro c rest s h
  simp only [step, h]

/-- Settles O3, from what each command can come to: a next state with the queue as it was, UB-1 or UB-9; and from the commands whose
meaning is a step of the device alone. -/
theorem framesOfQueueAndHops : Obligations.FramesOfQueueAndHops := by
  refine ⟨fun c s => ?_, fun c s t ht => ?_, fun c s t hc ht => ?_⟩
  · exact (exec_outcome c s).imp_left fun ⟨t, ht, _⟩ => ⟨t, ht⟩
  · rcases exec_outcome c s with ⟨u, hu, hq⟩ | ⟨hf, -⟩ | ⟨hf, -⟩
    · cases hu.symm.trans ht
      exact hq
    · cases hf.symm.trans ht
    · cases hf.symm.trans ht
  · rcases exec_devOnly hc s with ⟨d, hd⟩ | ⟨hf, -⟩
    · cases hd.symm.trans ht
      exact ⟨rfl, rfl⟩
    · cases hf.symm.trans ht

end Sys2Proof.Proofs
end

section
/-! Who reaches a page, and what a recorded PAGE violation changes (R355, R366, R422, R427). -/

namespace Sys2Proof.Machine

variable {d : Dev} {a : Accessor} {pg : PageId}

theorem Dev.access_of_unlisted (a : Accessor) (h : pageOf pg = none) : d.access a pg = .absent := by
  simp [Dev.access, h]

theorem Dev.access_fw (i : Fin 12) (h : pageOf pg ≠ none) : d.access (.fw i) pg = .open := by
  simp [Dev.access, h]

/-- In recovery only KEEP answers a function (R355). -/
theorem Dev.access_fn_of_recovery (e : Fin 2) (f : Fin 64) (h : pageOf pg ≠ none) (hrec : d.fget pgBoot Reg.BOOT.STATE = 2)
    (hkeep : pg / 256 ≠ 2) : d.access (.fn e f) pg = .absent := by
  simp [Dev.access, h, hrec, hkeep]

theorem Dev.access_fn (e : Fin 2) (f : Fin 64) (h : pageOf pg ≠ none) (hans : ¬ (d.fget pgBoot Reg.BOOT.STATE = 2 ∧ pg / 256 ≠ 2)) :
    d.access (.fn e f) pg = if d.domainOf (.fn e f) < 2 then .open
      else if d.domFenced (d.domainOf (.fn e f)) || d.prot kPage pg != d.domainOf (.fn e f) then .violation else .open := by
  have hb : (d.fget pgBoot Reg.BOOT.STATE == 2 && pg / 256 != 2) = false := by simpa using hans
  simp [Dev.access, h, hb]

/-- A tenant's function reaches the pages of its own domain, while the domain is not fenced (R366, R368). -/
theorem Dev.access_fn_tenant (e : Fin 2) (f : Fin 64) (h : pageOf pg ≠ none)
    (hans : ¬ (d.fget pgBoot Reg.BOOT.STATE = 2 ∧ pg / 256 ≠ 2)) (hdom : 2 ≤ d.domainOf (.fn e f)) :
    d.access (.fn e f) pg = if d.prot kPage pg = d.domainOf (.fn e f) ∧ d.domFenced (d.domainOf (.fn e f)) = false then .open
      else .violation := by
  rw [Dev.access_fn e f h hans, if_neg (Nat.not_lt.mpr hdom)]
  cases hf : d.domFenced (d.domainOf (.fn e f)) <;> by_cases hp : d.prot kPage pg = d.domainOf (.fn e f) <;> simp [hp]

/-! ### What an error event and a violation leave as it was -/

/-- Field `f` lies in a register that none of an error event's does (R399). -/
def Fld.offErrors (f : Fld) : Prop := f.lo < 32 ∧ (f.off < 0x010 ∨ 0x024 ≤ f.off)

theorem Fld.slot_ne_of_off_lt {f g : Fld} (hf : f.lo < 32) (hg : g.lo < 32) (h : f.off < g.off ∨ g.off < f.off) : f.slot ≠ g.slot := by
  unfold Fld.slot
  omega

theorem Dev.fget_errCount {f : Fld} (bit : Nat) {pg' : PageId} (h : pg' ≠ pg ∨ f.offErrors) :
    (d.errCount pg bit).fget pg' f = d.fget pg' f := by
  have keep : ∀ (e : Dev) (g : Fld) (v : Nat), g.lo < 32 → 0x010 ≤ g.off → g.off < 0x024 →
      (e.fset pg g v).fget pg' f = e.fget pg' f := by
    intro e g v hlo hge hlt
    rcases h with h | ⟨hf, ho⟩
    · exact Dev.fget_fset_page e g f v h.symm
    · exact Dev.fget_fset_slot e pg pg' v (Fld.slot_ne_of_off_lt hlo hf (by omega))
  unfold Dev.errCount
  dsimp only
  split
  · exact keep _ _ _ (by decide) (by decide) (by decide)
  · rw [Dev.ev_eq, Dev.bump_eq, keep, keep, keep, keep] <;> decide

theorem Dev.fget_errEvent {f : Fld} (bit : Nat) {pg' : PageId} (h : pg' ≠ pg ∨ f.offErrors) :
    (d.errEvent pg bit).fget pg' f = d.fget pg' f := by
  have hstat : ∀ v, (d.fset pg Reg.HEADER.ERR_STAT v).fget pg' f = d.fget pg' f := by
    intro v
    rcases h with h | ⟨hf, ho⟩
    · exact Dev.fget_fset_page d _ f v h.symm
    · exact Dev.fget_fset_slot d pg pg' v (Fld.slot_ne_of_off_lt (by decide) hf (by simp only [Reg.HEADER.ERR_STAT]; omega))
  unfold Dev.errEvent
  dsimp only
  split
  · exact hstat _
  · exact (Dev.fget_errCount bit h).trans (hstat _)

/-! ### Steps that change registers alone -/

/-- `e` is `d` but for its registers. -/
def Dev.regsOnly (d e : Dev) : Prop := { e with regs := d.regs } = d

theorem Dev.regsOnly_refl (d : Dev) : d.regsOnly d := rfl

theorem Dev.regsOnly.trans {d e f : Dev} (h : d.regsOnly e) (h' : e.regsOnly f) : d.regsOnly f := by
  unfold Dev.regsOnly at *
  rw [← h, ← h']

theorem Dev.regsOnly.keep {d e : Dev} (h : d.regsOnly e) : e.keep = d.keep := by
  unfold Dev.regsOnly at h
  have hkeep := congrArg Dev.keep h
  exact hkeep

theorem Dev.regsOnly_fset (d : Dev) (pg : PageId) (f : Fld) (v : Nat) : d.regsOnly (d.fset pg f v) := rfl

theorem Dev.regsOnly_errCount (d : Dev) (pg : PageId) (bit : Nat) : d.regsOnly (d.errCount pg bit) := by
  unfold Dev.errCount
  dsimp only
  split
  · exact Dev.regsOnly_fset ..
  · exact (((Dev.regsOnly_fset ..).trans (Dev.regsOnly_fset ..)).trans (Dev.regsOnly_fset ..)).trans (Dev.regsOnly_fset ..)

/-- An error event changes registers alone. -/
theorem Dev.regsOnly_errEvent (d : Dev) (pg : PageId) (bit : Nat) : d.regsOnly (d.errEvent pg bit) := by
  unfold Dev.errEvent
  dsimp only
  split
  · exact Dev.regsOnly_fset ..
  · exact (Dev.regsOnly_fset d pg _ _).trans (Dev.regsOnly_errCount _ pg bit)

/-! ### A violation recorded while its policy only counts (R366) -/

/-- `e` is `d` but for fields of the ALARM page and KEEP's count of violations per domain. -/
structure Dev.alarmOnly (d e : Dev) : Prop where
  rest : { e with regs := d.regs, keep := d.keep } = d
  pages : ∀ (pg : PageId) (f : Fld), pg ≠ pgAlarm → e.fget pg f = d.fget pg f
  keep : { e.keep with domViol := d.keep.domViol } = d.keep

theorem Dev.alarmOnly_refl (d : Dev) : d.alarmOnly d := ⟨rfl, fun _ _ _ => rfl, rfl⟩

theorem Dev.alarmOnly.trans {d e f : Dev} (h : d.alarmOnly e) (h' : e.alarmOnly f) : d.alarmOnly f where
  rest := (congrArg (fun x : Dev => { x with regs := d.regs, keep := d.keep }) h'.rest).trans h.rest
  pages pg g hp := (h'.pages pg g hp).trans (h.pages pg g hp)
  keep := (congrArg (fun x : Keep => { x with domViol := d.keep.domViol }) h'.keep).trans h.keep

theorem Dev.alarmOnly_fset (d : Dev) (f : Fld) (v : Nat) : d.alarmOnly (d.fset pgAlarm f v) :=
  ⟨rfl, fun _ g hp => Dev.fget_fset_page d f g v hp.symm, rfl⟩

theorem Dev.alarmOnly_domViol (d : Dev) (g : SMap Nat → SMap Nat) : d.alarmOnly (d.modKeep (fun k => { k with domViol := g k.domViol })) :=
  ⟨rfl, fun _ _ _ => rfl, rfl⟩

/-- What is noted of a violation before its policy acts (R366). -/
def Dev.noteViolation (d : Dev) (kind index dom : Nat) : Dev :=
  let d := (d.bump pgAlarm Reg.ALARM.VIOL_CNT 1).ev pgAlarm Reg.ALARM.VIOLATION
  let d := d.modKeep (fun k => { k with domViol := mmod (fun _ => 0) k.domViol dom (satAdd 0xFFFFFFFF · 1) })
  if d.fon pgAlarm Reg.ALARM.VALID then d
  else (((d.fset pgAlarm Reg.ALARM.KIND kind).fset pgAlarm Reg.ALARM.LAST_VIOL_DOMAIN dom).fset pgAlarm Reg.ALARM.INDEX index).ev
    pgAlarm Reg.ALARM.VALID

theorem Dev.violation_eq (d : Dev) (kind index : Nat) {dom : Nat} (h : 2 ≤ dom) :
    d.violation kind index dom = (d.noteViolation kind index dom).applyPolicy ((d.noteViolation kind index dom).policyOf kind) dom :=
  if_neg (Nat.not_lt.mpr h)

theorem Dev.violation_of_own (d : Dev) (kind index : Nat) {dom : Nat} (h : dom < 2) : d.violation kind index dom = d := if_pos h

theorem Dev.applyPolicy_zero (d : Dev) (dom : Nat) : d.applyPolicy 0 dom = d := rfl

theorem Dev.alarmOnly_noteViolation (d : Dev) (kind index dom : Nat) : d.alarmOnly (d.noteViolation kind index dom) := by
  have hcount : d.alarmOnly (((d.bump pgAlarm Reg.ALARM.VIOL_CNT 1).ev pgAlarm Reg.ALARM.VIOLATION).modKeep
      (fun k => { k with domViol := mmod (fun _ => 0) k.domViol dom (satAdd 0xFFFFFFFF · 1) })) :=
    ((Dev.alarmOnly_fset d _ _).trans (Dev.alarmOnly_fset _ _ _)).trans
      (Dev.alarmOnly_domViol _ (fun m => mmod (fun _ => 0) m dom (satAdd 0xFFFFFFFF · 1)))
  unfold Dev.noteViolation
  dsimp only
  split
  · exact hcount
  · exact (((hcount.trans (Dev.alarmOnly_fset ..)).trans (Dev.alarmOnly_fset ..)).trans (Dev.alarmOnly_fset ..)).trans
      (Dev.alarmOnly_fset ..)

/-- A violation noted leaves every field at an offset below LAST_VIOL's (R375), the policies among them. -/
theorem Dev.fget_noteViolation (d : Dev) (kind index dom : Nat) (pg : PageId) {f : Fld} (hlo : f.lo < 32) (hoff : f.off < 0x04C) :
    (d.noteViolation kind index dom).fget pg f = d.fget pg f := by
  have keep : ∀ (e : Dev) (g : Fld) (v : Nat), g.lo < 32 → 0x04C ≤ g.off → (e.fset pgAlarm g v).fget pg f = e.fget pg f :=
    fun e g v hg ho => Dev.fget_fset_slot e pgAlarm pg v (Fld.slot_ne_of_off_lt hg hlo (by omega))
  have hcount : (((d.bump pgAlarm Reg.ALARM.VIOL_CNT 1).ev pgAlarm Reg.ALARM.VIOLATION).modKeep
      (fun k => { k with domViol := mmod (fun _ => 0) k.domViol dom (satAdd 0xFFFFFFFF · 1) })).fget pg f = d.fget pg f :=
    (keep _ _ _ (by decide) (by decide)).trans (keep _ _ _ (by decide) (by decide))
  unfold Dev.noteViolation
  dsimp only
  split
  · exact hcount
  · exact ((keep _ _ _ (by decide) (by decide)).trans ((keep _ _ _ (by decide) (by decide)).trans
      ((keep _ _ _ (by decide) (by decide)).trans (keep _ _ _ (by decide) (by decide))))).trans hcount

theorem Dev.alarmOnly_violation_page (index dom : Nat) (h : d.policyOf vPage = 0) : d.alarmOnly (d.violation vPage index dom) := by
  rcases Nat.lt_or_ge dom 2 with hdom | hdom
  · rw [Dev.violation_of_own d _ _ hdom]
    exact Dev.alarmOnly_refl d
  · have hpol : (d.noteViolation vPage index dom).policyOf vPage = 0 :=
      (Dev.fget_noteViolation d vPage index dom pgAlarm (f := Reg.ALARM.PAGE) (by decide) (by decide)).trans h
    rw [Dev.violation_eq d _ _ hdom, hpol, Dev.applyPolicy_zero]
    exact Dev.alarmOnly_noteViolation ..

theorem Dev.pageViolation_of_counts (a : Accessor) (pg : PageId) (h : d.policyOf vPage = 0) :
    d.pageViolation a pg = (d.violation vPage pg (d.domainOf a)).errEvent pg errProt := if_pos h

end Sys2Proof.Machine
end

section
/-! The statements about who reaches a page and what a refused write does. -/

namespace Sys2Proof.Proofs

open Sys2Proof.Machine

/-- Settles O5: the commands that `barWrite` lists are writes through BAR0, with the three outcomes of one; a PAGE violation is noted, and
is an error event of the page. -/
theorem writesOutsideADomainOnlyRecord : Obligations.WritesOutsideADomainOnlyRecord := by
  refine ⟨fun c s a pg hc hoff => ?_, fun s a pg off v be h => exec_registerWrite_of_undefined a v be s h, fun d a pg hpol => ?_⟩
  · obtain ⟨k, hk⟩ := exec_of_barWrite hc hoff s
    exact ⟨fun h => hk.trans (State.write_absent s a pg k h), fun h => hk.trans (State.write_violation s a pg k h)⟩
  · have hviol := Dev.alarmOnly_violation_page (d := d) pg (d.domainOf a) hpol
    have herr := Dev.regsOnly_errEvent (d.violation vPage pg (d.domainOf a)) pg errProt
    rw [Dev.pageViolation_of_counts a pg hpol]
    refine ⟨?_, fun pg' f hlo halarm herrs => ?_, ?_⟩
    · exact (congrArg (fun e : Dev => { e with regs := d.regs, keep := d.keep }) herr).trans hviol.rest
    · exact (Dev.fget_errEvent errProt (herrs.imp id fun ho => ⟨hlo, ho⟩)).trans (hviol.pages pg' f halarm)
    · rw [herr.keep]
      exact hviol.keep

/-- Settles O6: the branches of an access, for firmware, in recovery, and for a function of each kind of domain. -/
theorem whoReachesAPage : Obligations.WhoReachesAPage := by
  refine fun d a pg => ⟨Dev.access_of_unlisted a, fun hpg i ha => ha ▸ Dev.access_fw i hpg, fun hpg e f ha => ?_⟩
  subst ha
  refine ⟨Dev.access_fn_of_recovery e f hpg, fun hans => ⟨fun hdom => ?_, fun hdom => ?_⟩⟩
  · rw [Dev.access_fn e f hpg hans, if_pos hdom]
  · rw [Dev.access_fn_tenant e f hpg hans hdom]
    split
    next hown => exact ⟨⟨fun _ => hown, fun _ => rfl⟩, fun h => absurd rfl h⟩
    next hother => exact ⟨⟨fun h => Access.noConfusion h, fun h => absurd h hother⟩, fun _ => rfl⟩

end Sys2Proof.Proofs
end

section
/-! What chains and gate FIFOs do (chapter 2): the round among the cells, a push, a pop, a replay, a flush; a write and a pop of a gate
FIFO; the edge of a clock. -/

namespace Sys2Proof.Machine

/-! ### The round among requesters (R13) -/

theorem mod_add_sub_mod {n k : Nat} (ptr : Nat) (hk : k < n) : ((ptr + k) % n + n - ptr % n) % n = k := by
  have hr : ptr % n < n := Nat.mod_lt _ (by omega)
  rw [Nat.add_mod, Nat.mod_eq_of_lt hk]
  rcases Nat.lt_or_ge (ptr % n + k) n with h | h
  · rw [Nat.mod_eq_of_lt h, show ptr % n + k + n - ptr % n = k + n by omega, Nat.add_mod_right, Nat.mod_eq_of_lt hk]
  · rw [Nat.mod_eq_sub_mod h, Nat.mod_eq_of_lt (by omega : ptr % n + k - n < n), show ptr % n + k - n + n - ptr % n = k by omega,
      Nat.mod_eq_of_lt hk]

theorem add_mod_sub_mod {n j : Nat} (ptr : Nat) (hj : j < n) : (ptr + (j + n - ptr % n) % n) % n = j := by
  have hr : ptr % n < n := Nat.mod_lt _ (by omega)
  rw [Nat.add_mod, Nat.mod_mod, ← Nat.add_mod, Nat.add_mod, Nat.add_mod_mod, show ptr % n + (j + n - ptr % n) = j + n by omega,
    Nat.add_mod_right, Nat.mod_eq_of_lt hj]

/-- A round-robin grants a requester that asks, the nearest behind its pointer (R13). -/
theorem rrPick_eq_some {n ptr i : Nat} {asks : Nat → Bool} (h : rrPick n ptr asks = some i) :
    asks i = true ∧ i < n ∧ ∀ j, asks j = true → j < n → (i + n - ptr % n) % n ≤ (j + n - ptr % n) % n := by
  rw [rrPick, List.find?_map, Option.map_eq_some_iff] at h
  obtain ⟨k, hk, rfl⟩ := h
  obtain ⟨hask, hkn, hfirst⟩ := List.find?_range_eq_some.mp hk
  have hkn : k < n := List.mem_range.mp hkn
  refine ⟨hask, Nat.mod_lt _ (by omega), fun j hj hjn => ?_⟩
  rw [mod_add_sub_mod ptr hkn]
  by_contra hlt
  have := hfirst _ (Nat.lt_of_not_le hlt)
  simp [add_mod_sub_mod ptr hjn, hj] at this

theorem Chain.grants_of_open {x : Chain} {n : Nat} {asks : List Nat} (h : x.itemOpen = true) : x.grants n asks = some x.holder :=
  if_pos h

theorem Chain.grants_of_closed {x : Chain} {n : Nat} {asks : List Nat} (h : x.itemOpen = false) :
    x.grants n asks = rrPick n x.next asks.contains :=
  if_neg (Bool.eq_false_iff.mp h)

/-! ### Chains -/

variable {s : State} {c : ChainId}

theorem Chain.latch_none_eta {x : Chain} (h : x.latch = none) : { x with latch := none } = x := by
  rw [← h]

@[simp] theorem Chain.granted_credits (x : Chain) (n i : Nat) : (x.granted n i).credits = x.credits := rfl

theorem State.chain_setChain_other (s : State) {a b : ChainId} (x : Chain) (h : b ≠ a) : (s.setChain a x).chain b = s.chain b := by
  rw [State.chain_setChain, if_neg (fun e => h (ChainId.key_inj a b e).symm)]

theorem State.popChain_of_not_mayPop (h : (s.chain c).mayPop = false) :
    s.popChain c = s.setChain c { s.chain c with popWaits := true } := by
  simp [State.popChain, h]

theorem State.popChain_of_mayPop {w : CoreWord} {r : List (CoreWord × Bool)} (hw : (s.chain c).words = (w, false) :: r)
    (h : (s.chain c).mayPop = true) (hsoi : w.soi = ((s.chain c).popped == 0)) : s.popChain c = s.setChain c (s.chain c).pop := by
  have hsound : (w.soi == ((s.chain c).popped != 0)) = false := by
    rw [hsoi, bne]; cases (s.chain c).popped == 0 <;> rfl
  simp [State.popChain, h, hw, hsound]

theorem Chain.pop_of_cons {x : Chain} {w : CoreWord} {b : Bool} {r : List (CoreWord × Bool)} (h : x.words = (w, b) :: r) :
    x.pop = { x with words := r, transit := x.transit + 1, popWaits := false, popped := if w.eoi then 0 else x.popped + 1,
                     begun := !w.eoi } := by
  simp [Chain.pop, h]

theorem Chain.mayPop_of_empty {x : Chain} (h : x.words = []) : x.mayPop = false := by
  simp [Chain.mayPop, h]

theorem Chain.mayPop_of_begun {x : Chain} (hw : x.words ≠ []) (hb : x.begun = true) : x.mayPop = true := by
  simp [Chain.mayPop, hw, hb]

/-- Below the threshold, with the item neither begun nor whole, the pop is not allowed (R38). -/
theorem Chain.mayPop_of_below {x : Chain} (hb : x.begun = false) (hitem : (itemPresent x.words).2 = false)
    (hlt : x.popped + (itemPresent x.words).1 < x.threshold) : x.mayPop = false := by
  simp [Chain.mayPop, hb, hitem, Nat.not_le.mpr hlt]

theorem State.receive_bad {w : CoreWord} {err : BitVec 67} {k : Nat} (hp : parityOk (w.wire ^^^ err.toNat) = false) (hk : k < 4) :
    s.receive c w err k = s.setChain c { s.chain c with latch := some (w, k) } := by
  simp [State.receive, hp, Nat.not_le.mpr hk]

theorem State.receive_exhausted {w : CoreWord} {err : BitVec 67} {k : Nat} (hp : parityOk (w.wire ^^^ err.toNat) = false) (hk : 4 ≤ k) :
    s.receive c w err k = (s.setChain c { s.chain c with latch := none }).damage
      (fun d => d.exhausted (consumerPage c) (consumerUnit c)) := by
  simp [State.receive, hp, hk]

theorem exec_chainPush (c : ChainId) (w : Offer) (err : BitVec 67) (s : State) :
    exec (.chainPush c w err) s = s.after (s.push c w.cell w.asks w.word err) := rfl

theorem exec_chainPush_of_no_credit (cell : Nat) (asks : List Nat) (w : CoreWord) (err : BitVec 67) (h : (s.chain c).credits = 0) :
    exec (.chainPush c ⟨cell, asks, w⟩ err) s = .fault .pushWithoutCredit := by
  simp [exec_chainPush, State.push, State.after, h]

theorem exec_chainPush_of_waits {cell : Nat} {asks : List Nat} (w : CoreWord) (err : BitVec 67) (hc : (s.chain c).credits ≠ 0)
    (hg : (s.chain c).grants (producers c) (cell :: asks) ≠ some cell) : exec (.chainPush c ⟨cell, asks, w⟩ err) s = .next s := by
  simp [exec_chainPush, State.push, State.after, hc, hg]

theorem exec_chainPush_of_granted {cell : Nat} {asks : List Nat} (w : CoreWord) (err : BitVec 67) (hc : (s.chain c).credits ≠ 0)
    (hl : (s.chain c).latch = none) (hg : (s.chain c).grants (producers c) (cell :: asks) = some cell) :
    exec (.chainPush c ⟨cell, asks, w⟩ err) s =
      .next ((s.setChain c ((s.chain c).granted (producers c) cell)).receive c w err 1) := by
  simp [exec_chainPush, State.push, State.after, hc, hl, hg]

/-- A word pushed well is taken by the chain of the cell granted, and then a pop that waits is served (R35, R42). -/
theorem exec_chainPush_of_good {cell : Nat} {asks : List Nat} (w : CoreWord) (hc : (s.chain c).credits ≠ 0)
    (hl : (s.chain c).latch = none) (hg : (s.chain c).grants (producers c) (cell :: asks) = some cell) :
    exec (.chainPush c ⟨cell, asks, w⟩ 0) s =
      .next ((s.setChain c (((s.chain c).granted (producers c) cell).take w false)).servePop c) := by
  have hl' : ((s.chain c).granted (producers c) cell).latch = none := hl
  rw [exec_chainPush_of_granted w 0 hc hl hg, State.receive_ok, State.chain_setChain_same, Chain.latch_none_eta hl',
    State.setChain_setChain]

theorem Chain.take_of_drain {x : Chain} (w : CoreWord) (b : Bool) (h : x.drain = true) : x.take w b = x.swallow w := if_pos h

theorem Chain.take_of_not_drain {x : Chain} (w : CoreWord) (b : Bool) (h : x.drain = false) : x.take w b = x.accept w b :=
  if_neg (Bool.eq_false_iff.mp h)

theorem Chain.swallow_of_eoi {x : Chain} {w : CoreWord} (h : w.eoi = true) : x.swallow w = x.flushed := if_pos h

theorem Chain.swallow_of_not_eoi {x : Chain} {w : CoreWord} (h : w.eoi = false) :
    x.swallow w = { x with credits := x.credits - 1, transit := x.transit + 1 } := if_neg (Bool.eq_false_iff.mp h)

/-- On an empty chain a pop that waits goes on waiting. -/
theorem State.servePop_setChain_of_empty {x : Chain} (h : x.words = []) :
    (s.setChain c x).servePop c = s.setChain c x := by
  cases hp : x.popWaits with
  | false => exact State.servePop_idle _ c (by simpa using hp)
  | true =>
    have hstill : { x with popWaits := true } = x := by rw [← hp]
    rw [State.servePop_waits _ c (by simpa using hp), State.popChain_of_not_mayPop (by simpa using Chain.mayPop_of_empty h),
      State.chain_setChain_same, hstill, State.setChain_setChain]

theorem State.servePop_setChain_idle {x : Chain} (h : x.popWaits = false) : (s.setChain c x).servePop c = s.setChain c x :=
  State.servePop_idle _ c (by simpa using h)

theorem exec_chainPop (c : ChainId) (s : State) : exec (.chainPop c) s = .next (s.popChain c) := rfl

theorem exec_creditReturn (c : ChainId) (s : State) :
    exec (.creditReturn c) s = .next ((s.setChain c (s.chain c).creditBack.close).servePop c) := rfl

theorem exec_wordReplay (h : Hop) (err : BitVec 67) (s : State) : exec (.wordReplay h err) s = .next (s.replayWord err h) := rfl

theorem State.replayWord_chain {w : CoreWord} {k : Nat} (err : BitVec 67) (hl : (s.chain c).latch = some (w, k))
    (hc : (s.chain c).credits ≠ 0) :
    s.replayWord err (.chain c) = (s.modDev (fun d => d.replayed (consumerPage c))).receive c w err (k + 1) := by
  simp [State.replayWord, hl, hc]

/-! ### A flush (R43) -/

theorem exec_flush_of_open {a : Accessor} (h : s.dev.access a (consumerPage c) = .open) :
    exec (.flush a c) s = .next (s.flushChain c) := by
  rw [exec_flush, State.write_open s a _ _ h]

theorem State.flushChain_chain (s : State) (c : ChainId) : (s.flushChain c).chain c = (s.chain c).flush := by
  unfold State.flushChain
  dsimp only
  split <;> simp

theorem State.flushChain_other (s : State) {c c' : ChainId} (h : c' ≠ c) : (s.flushChain c).chain c' = s.chain c' := by
  unfold State.flushChain
  dsimp only
  split <;> simp [State.chain_setChain_other s _ h]

theorem State.flushChain_gates (s : State) (c : ChainId) : (s.flushChain c).gates = s.gates := by
  unfold State.flushChain
  dsimp only
  split <;> simp

theorem Chain.flush_of_closed {x : Chain} (hb : x.flushBusy = false) (ho : x.itemOpen = false) :
    x.flush = Chain.flushed { x with transit := x.transit + x.words.length, words := [], popped := 0, begun := false } := by
  simp [Chain.flush, hb, ho]

theorem Chain.flush_of_open {x : Chain} (hb : x.flushBusy = false) (ho : x.itemOpen = true) :
    x.flush = { x with transit := x.transit + x.words.length, words := [], popped := 0, begun := false, flushBusy := true, drain := true,
                       drainSeen := true } := by
  simp [Chain.flush, hb, ho]

theorem Chain.flush_of_busy {x : Chain} (hb : x.flushBusy = true) : x.flush = x := if_pos hb

theorem Chain.sound_bounds {k : Nat} {x : Chain} (h : x.sound k = true) :
    x.credits + x.words.length + x.transit = x.grant ∧ x.grant ≤ x.depth ∧ x.grantReg ≤ x.depth := by
  simp only [Chain.sound, Bool.and_eq_true, decide_eq_true_eq, beq_iff_eq] at h
  obtain ⟨⟨⟨-, hsum⟩, hgrant⟩, hreg⟩ := h
  exact ⟨hsum, hgrant, hreg⟩

/-! ### Gate FIFOs -/

variable {g : GateId}

theorem Gate.latch_none_eta {x : Gate} (h : x.latch = none) : { x with latch := none } = x := by
  rw [← h]

theorem State.gate_setGate_other (s : State) {a b : GateId} (x : Gate) (h : b ≠ a) : (s.setGate a x).gate b = s.gate b := by
  rw [State.gate_setGate, if_neg (fun e => h (GateId.key_inj a b e).symm)]

theorem Gate.get_of_cons {x : Gate} {w : CoreWord} {r : List CoreWord} (h : x.words = w :: r) :
    x.get = { x with words := r, rptr := (x.rptr + 1) % 64, popWaits := false, begun := !w.eoi, tries := 0 } := by
  simp [Gate.get, h]

/-- A good copy of a word in sequence is popped (R32, R33, R39). -/
theorem State.takeGate_of_good {w : CoreWord} {r : List CoreWord} (hw : (s.gate g).words = w :: r) (hs : w.soi = !(s.gate g).begun) :
    s.takeGate g 0 = s.setGate g (s.gate g).get := by
  have hseq : (s.gate g).outOfSequence = false := by
    cases hb : (s.gate g).begun <;> simp_all [Gate.outOfSequence]
  simp [State.takeGate, hw, parityOk_wire, hseq]

theorem State.takeGate_of_bad {w : CoreWord} {r : List CoreWord} {err : BitVec 67} (hw : (s.gate g).words = w :: r)
    (hp : parityOk (w.wire ^^^ err.toNat) = false) (ht : (s.gate g).tries < 3) :
    s.takeGate g err = s.setGate g { s.gate g with tries := (s.gate g).tries + 1 } := by
  simp [State.takeGate, hw, hp, Nat.not_le.mpr ht]

theorem State.receiveGate_of_good (w : CoreWord) (k : Nat) (hp : (s.gate g).popWaits = false) :
    s.receiveGate g w 0 k = s.setGate g (Gate.put { s.gate g with latch := none } w) := by
  simp [State.receiveGate, parityOk_wire, ofWire_wire, Gate.put, hp]

theorem State.receiveGate_of_bad {w : CoreWord} {err : BitVec 67} {k : Nat} (hp : parityOk (w.wire ^^^ err.toNat) = false) (hk : k < 4) :
    s.receiveGate g w err k = s.setGate g { s.gate g with latch := some (w, k) } := by
  simp [State.receiveGate, hp, Nat.not_le.mpr hk]

theorem exec_gateFifoWrite (g : GateId) (w : CoreWord) (err : BitVec 67) (s : State) :
    exec (.gateFifoWrite g w err) s = s.after (s.writeGate g w err) := rfl

/-- A write with a free entry in the writer's view is received (R39, R40). -/
theorem exec_gateFifoWrite_of_free {w : CoreWord} {err : BitVec 67} (hl : (s.gate g).latch = none) (hh : (s.gate g).held = none)
    (hw : (s.gate g).words.length < 32) (hv : g.clockedWrites = true → (s.gate g).clkView true < 32) :
    exec (.gateFifoWrite g w err) s = .next (s.receiveGate g w err 1) := by
  cases hc : g.clockedWrites <;> simp_all [exec_gateFifoWrite, State.writeGate, State.after]

theorem exec_gateFifoWrite_of_held (w : CoreWord) (err : BitVec 67) (hl : (s.gate g).latch = none) (hh : (s.gate g).held = none)
    (hc : g.clockedWrites = true) (hv : 32 ≤ (s.gate g).clkView true) (hcan : g.canHold = true) :
    exec (.gateFifoWrite g w err) s = .next (s.setGate g { s.gate g with held := some w }) := by
  simp [exec_gateFifoWrite, State.writeGate, State.after, hl, hh, hc, hcan, Nat.not_lt.mpr hv]

theorem exec_gateFifoWrite_of_overrun (w : CoreWord) (err : BitVec 67) (hl : (s.gate g).latch = none) (hh : (s.gate g).held = none)
    (hc : g.clockedWrites = true) (hv : 32 ≤ (s.gate g).clkView true) (hcan : g.canHold = false) :
    exec (.gateFifoWrite g w err) s =
      .next ((s.setGate g { s.gate g with overrun := true }).damage (fun d => d.overrunLane g)) := by
  simp [exec_gateFifoWrite, State.writeGate, State.after, hl, hh, hc, hcan, Nat.not_lt.mpr hv]

theorem exec_gateFifoWrite_of_full (w : CoreWord) (err : BitVec 67) (hl : (s.gate g).latch = none) (hh : (s.gate g).held = none)
    (hc : g.clockedWrites = false) (hw : 32 ≤ (s.gate g).words.length) :
    exec (.gateFifoWrite g w err) s = .fault .pushWithoutCredit := by
  simp [exec_gateFifoWrite, State.writeGate, State.after, hl, hh, hc, Nat.not_lt.mpr hw]

theorem exec_gateFifoPop (g : GateId) (err : BitVec 67) (s : State) : exec (.gateFifoPop ⟨g, err⟩) s = .next (s.popGate g err) := rfl

theorem State.popGate_of_seen (err : BitVec 67) (ht : (s.gate g).tries = 0) (hv : (s.gate g).sees g.clockedWrites = true) :
    s.popGate g err = s.takeGate g err := by
  simp [State.popGate, ht, hv]

theorem State.popGate_of_unseen (err : BitVec 67) (ht : (s.gate g).tries = 0) (hv : (s.gate g).sees g.clockedWrites = false) :
    s.popGate g err = s.setGate g { s.gate g with popWaits := true } := by
  simp [State.popGate, ht, hv]

theorem Gate.sees_of_cons {x : Gate} {w : CoreWord} {r : List CoreWord} {clocked : Bool} (hw : x.words = w :: r)
    (hv : clocked = false → x.clkView false ≠ 0) : x.sees clocked = true := by
  cases clocked <;> simp_all [Gate.sees, Gate.coreView]

theorem Gate.sees_eq_false {x : Gate} {clocked : Bool} (h : x.words = [] ∨ (clocked = false ∧ x.clkView false = 0)) :
    x.sees clocked = false := by
  rcases h with h | ⟨hc, hv⟩
  · simp [Gate.sees, h]
  · simp [Gate.sees, hc, hv]

theorem State.replayWord_gate_latched {w : CoreWord} {k : Nat} (err : BitVec 67) (hl : (s.gate g).latch = some (w, k)) :
    s.replayWord err (.gate g) = (s.modDev (fun d => d.replayed (gatePage g))).receiveGate g w err (k + 1) := by
  simp [State.replayWord, hl]

theorem State.replayWord_gate_tried (err : BitVec 67) (hl : (s.gate g).latch = none) (ht : (s.gate g).tries ≠ 0) :
    s.replayWord err (.gate g) = (s.modDev (fun d => d.replayed (gatePage g))).takeGate g err := by
  simp [State.replayWord, hl, ht]

/-! ### The edge of a clock (R19, R40) -/

theorem gateClocked_key (g : GateId) : gateClocked g.key = g.clockedWrites := by
  cases g <;> simp only [gateClocked, GateId.key, GateId.clockedWrites] <;> grind

theorem gateOfKey_key (g : GateId) : gateOfKey g.key = g := by
  apply GateId.key_inj
  cases g <;> simp only [gateOfKey, GateId.key] <;> grind [GateId.key]

theorem Gate.edge_empty (clocked : Bool) : ({} : Gate).edge clocked = {} := by
  cases clocked <;> rfl

@[simp] theorem Gate.edge_popWaits (x : Gate) (clocked : Bool) : (x.edge clocked).popWaits = x.popWaits := by
  cases hheld : x.held <;> simp [Gate.edge, Gate.put, hheld, apply_ite Gate.popWaits]

/-- The timebase counts once the crystal is stable. -/
def Dev.clocked (d : Dev) : Dev := { d with now := if d.crystal then (d.now + 20) % 2 ^ 64 else d.now }

/-- The state after a clock edge, before a pop that waits goes on. -/
def State.edged (s : State) : State :=
  { s with dev := s.dev.clocked, gates := mmap (fun _ => {}) s.gates (fun k g => g.edge (gateClocked k)) }

/-- The gate FIFOs of a list of numbers serve the pops that wait. -/
def State.served (s : State) (ks : List Nat) : State := ks.foldl (fun s k => s.serveGate (gateOfKey k)) s

theorem State.tick_eq (s : State) : s.tick = s.edged.served (s.edged.gates.map (·.1)) := by
  have hdev : (if s.dev.crystal then { s.dev with now := (s.dev.now + 20) % 2 ^ 64 } else s.dev) = s.dev.clocked := by
    by_cases h : s.dev.crystal = true
    · rw [Dev.clocked, if_pos h, if_pos h]
    · rw [Dev.clocked, if_neg h, if_neg h]
  simp only [State.tick, State.served, State.edged, hdev]

theorem State.gate_edged (s : State) (h : mwf (fun _ => ({} : Gate)) s.gates = true) (g : GateId) :
    s.edged.gate g = (s.gate g).edge g.clockedWrites := by
  rw [← gateClocked_key]
  exact mget_mmap _ (fun k (x : Gate) => x.edge (gateClocked k)) (fun k => Gate.edge_empty (gateClocked k)) s.gates h g.key

theorem State.serveGate_of_idle (h : (s.gate g).popWaits = false) : s.serveGate g = s := by
  simp [State.serveGate, h]

theorem State.serveGate_of_waiting (hp : (s.gate g).popWaits = true) (hs : (s.gate g).sees g.clockedWrites = true) :
    s.serveGate g = s.takeGate g 0 := by
  simp [State.serveGate, hp, hs]

theorem State.served_of_idle (ks : List Nat) (h : ∀ g : GateId, (s.gate g).popWaits = false) : s.served ks = s := by
  induction ks with
  | nil => rfl
  | cons k ks ih =>
    rw [State.served, List.foldl_cons, State.serveGate_of_idle (h _)]
    exact ih

/-- Where one pop alone waits, the first visit to its gate FIFO serves it, and nothing else happens. -/
theorem State.served_of_one_waiting {ks : List Nat} (hk : g.key ∈ ks) (hother : ∀ g', g' ≠ g → (s.gate g').popWaits = false)
    (hp : (s.gate g).popWaits = true) (hs : (s.gate g).sees g.clockedWrites = true) {w : CoreWord} {r : List CoreWord}
    (hw : (s.gate g).words = w :: r) (hseq : w.soi = !(s.gate g).begun) : s.served ks = s.setGate g (s.gate g).get := by
  induction ks with
  | nil => cases hk
  | cons k ks ih =>
    rw [State.served, List.foldl_cons]
    by_cases hg : gateOfKey k = g
    · rw [hg, State.serveGate_of_waiting hp hs, State.takeGate_of_good hw hseq]
      refine State.served_of_idle ks fun g' => ?_
      by_cases hg' : g' = g
      · subst hg'
        simp [Gate.get]
      · rw [State.gate_setGate_other s _ hg', hother g' hg']
    · rw [State.serveGate_of_idle (hother _ hg)]
      refine ih ((List.mem_cons.mp hk).resolve_left fun e => hg ?_)
      rw [← e, gateOfKey_key]

theorem mem_keys_of_mget_ne {α : Type} {dflt : Nat → α} {m : SMap α} {k : Nat} (h : mget dflt m k ≠ dflt k) : k ∈ m.map (·.1) := by
  induction m with
  | nil => exact absurd rfl h
  | cons p r ih =>
    obtain ⟨a, b⟩ := p
    by_cases ha : a = k
    · simp [ha]
    · rw [mget, if_neg ha] at h
      exact List.mem_cons_of_mem _ (ih h)

/-- A gate FIFO that sees a word in sequence holds one. -/
theorem Gate.words_of_sees {x : Gate} {clocked : Bool} (hs : x.sees clocked = true) (hseq : x.outOfSequence = false) :
    ∃ w r, x.words = w :: r ∧ w.soi = !x.begun := by
  cases hw : x.words with
  | nil => simp [Gate.sees, hw] at hs
  | cons w r =>
    refine ⟨w, r, rfl, ?_⟩
    cases hb : x.begun <;> simpa [Gate.outOfSequence, hw, hb] using hseq

/-! ### What is sound, and why a step may leave it

`Gate.sound` bounds what the clocked side sees (`seen`) by what is present, and says nothing of `tries`: it allows a word whose first copy
was bad while the synchroniser of the clocked reader still shows an empty FIFO. -/

theorem chainReset_sound (k : Nat) : (chainReset k).sound k = true := by
  simp [Chain.sound, chainReset]

theorem emptyGate_sound (clocked : Bool) : ({} : Gate).sound clocked = true := by
  cases clocked <;> decide

theorem State.reset_hopsSound : State.reset.hopsSound :=
  ⟨rfl, rfl, fun k => chainReset_sound k, fun k => emptyGate_sound (gateClocked k)⟩

/-- One word is present, its first copy was bad, and the clocked reader's synchroniser has not shown it. -/
def unseenRetry : Gate := { words := [⟨true, true, 0⟩], wptr := 1, tries := 1 }

/-- That gate FIFO on write lane 0 of spoke 0, with its replay next in the queue. -/
def unseenRetryState : State :=
  { pending := [.wordReplay (.gate (.writeLane 0 0)) 0], gates := [(512, unseenRetry)] }

theorem unseenRetryState_hopsSound : unseenRetryState.hopsSound := by
  refine ⟨rfl, by decide, fun k => chainReset_sound k, fun k => ?_⟩
  by_cases hk : 512 = k
  · subst hk
    decide
  · have hget : mget (fun _ => ({} : Gate)) unseenRetryState.gates k = {} := by simp [unseenRetryState, mget, hk]
    rw [hget]
    exact emptyGate_sound _

/-- A good replay pops the word: the reader's pointer is then beyond what its side has seen (R40). -/
theorem unseenRetry_get_not_sound : unseenRetry.get.sound false = false := by decide

theorem exec_unseenRetry {s : State} (hg : s.gate (.writeLane 0 0) = unseenRetry) :
    ∃ t, exec (.wordReplay (.gate (.writeLane 0 0)) 0) s = .next t ∧ t.gate (.writeLane 0 0) = unseenRetry.get := by
  have hlatch : (s.gate (.writeLane 0 0)).latch = none := by rw [hg]; rfl
  have htries : (s.gate (.writeLane 0 0)).tries ≠ 0 := by rw [hg]; decide
  have hwords : (s.gate (.writeLane 0 0)).words = [⟨true, true, 0⟩] := by rw [hg]; rfl
  have hseq : true = !(s.gate (.writeLane 0 0)).begun := by rw [hg]; rfl
  have hpop := State.replayWord_gate_tried 0 hlatch htries
  rw [State.takeGate_of_good (s := s.modDev (fun d => d.replayed (gatePage (.writeLane 0 0)))) hwords hseq] at hpop
  refine ⟨_, (exec_wordReplay (.gate (.writeLane 0 0)) 0 s).trans (congrArg _ hpop), ?_⟩
  rw [State.gate_setGate_same, State.gate_modDev, hg]

end Sys2Proof.Machine
end

section
/-! The statements about chains and gate FIFOs (R13, R31 to R43), the clock period of an empty queue, and the state after reset. -/

namespace Sys2Proof.Proofs

open Sys2Proof.Machine

/-- Refutes O4: a sound state may hold a gate FIFO, read by its clocked side, whose word has had a bad copy while the synchroniser shows no
word; a good replay pops it all the same, and the reader's pointer passes what its side has seen. -/
theorem not_everyStepKeepsHopsSound : ¬ Obligations.EveryStepKeepsHopsSound := by
  intro h
  obtain ⟨t, ht, hgate⟩ := exec_unseenRetry (s := { unseenRetryState with pending := [] }) rfl
  obtain ⟨-, -, -, hsound⟩ := h unseenRetryState t unseenRetryState_hopsSound ht
  have hlane : (t.gate (.writeLane 0 0)).sound false = true := hsound 512
  rw [hgate, unseenRetry_get_not_sound] at hlane
  exact Bool.false_ne_true hlane

/-- Settles O2: the edge of every gate FIFO, and then the visit to each that serves the one pop that waits, if one does. -/
theorem emptyQueueIsOneClockPeriod : Obligations.EmptyQueueIsOneClockPeriod := by
  intro s hpend hwf d hd
  have hstep : step s = .next s.tick := by simp only [step, hpend]
  have hdev : s.edged.dev = d := hd.symm
  refine ⟨fun hidle => ?_, fun g hwait hothers hsees hseq => ?_⟩
  · have htick : s.tick = s.edged := by
      rw [State.tick_eq]
      exact State.served_of_idle _ fun g => by rw [State.gate_edged s hwf, Gate.edge_popWaits, hidle g]
    exact ⟨s.edged, htick ▸ hstep, hpend, rfl, hdev, State.gate_edged s hwf⟩
  · rw [← State.gate_edged s hwf] at hsees hseq ⊢
    have hwait' : (s.edged.gate g).popWaits = true := by rw [State.gate_edged s hwf, Gate.edge_popWaits, hwait]
    obtain ⟨w, r, hw, hsoi⟩ := Gate.words_of_sees hsees hseq
    have hkey : g.key ∈ s.edged.gates.map (·.1) := mem_keys_of_mget_ne (dflt := fun _ => ({} : Gate)) fun e => by
      rw [State.gate, e] at hwait'
      cases hwait'
    have htick : s.tick = s.edged.setGate g (s.edged.gate g).get := by
      rw [State.tick_eq]
      exact State.served_of_one_waiting hkey
        (fun g' hg' => by rw [State.gate_edged s hwf, Gate.edge_popWaits, hothers g' hg']) hwait' hsees hw hsoi
    exact ⟨s.edged.setGate g (s.edged.gate g).get, htick ▸ hstep, hpend, rfl, hdev, State.gate_setGate_same .., fun g' hg' => by
      rw [State.gate_setGate_other _ _ hg', State.gate_edged s hwf]⟩

/-- Settles O7: the round grants the nearest that asks; a push of the cell granted is taken by the chain, and then serves a pop that waits. -/
theorem chainPushes : Obligations.ChainPushes := by
  refine ⟨fun x n asks i hi => ⟨fun ho => ?_, fun ho => ?_⟩, fun s c cell asks w hc hl => ⟨fun hg err => ?_, fun hg => ?_⟩,
    fun s c cell asks w err h => exec_chainPush_of_no_credit cell asks w err h,
    fun s g w err hc hl hh hw => exec_gateFifoWrite_of_full w err hl hh hc hw⟩
  · exact Option.some.inj ((Chain.grants_of_open ho).symm.trans hi).symm
  · obtain ⟨hask, hlt, hnear⟩ := rrPick_eq_some ((Chain.grants_of_closed ho).symm.trans hi)
    exact ⟨List.contains_iff_mem.mp hask, hlt, fun j hj => hnear j (List.contains_iff_mem.mpr hj)⟩
  · exact exec_chainPush_of_waits w err hc hg
  · have hpush := exec_chainPush_of_good w hc hl hg
    let x := (s.chain c).granted (producers c) cell
    refine ⟨fun hd hp => ?_, fun hd hp he => ?_, fun hd he => ?_, fun hd hp => ?_⟩
    · rw [hpush, Chain.take_of_not_drain (x := x) w false hd]
      exact congrArg _ (State.servePop_setChain_idle hp)
    · rw [hpush, Chain.take_of_drain (x := x) w false hd, Chain.swallow_of_not_eoi he]
      exact congrArg _ (State.servePop_setChain_idle hp)
    · rw [hpush, Chain.take_of_drain (x := x) w false hd, Chain.swallow_of_eoi he, State.servePop_setChain_of_empty rfl]
      refine ⟨_, rfl, ?_⟩
      rw [State.chain_setChain_same]
      exact ⟨rfl, rfl, rfl, rfl, rfl, rfl, fun c' hc' => State.chain_setChain_other s _ hc'⟩
    · rw [hpush, Chain.take_of_not_drain (x := x) w false hd, State.servePop_waits _ c (by rw [State.chain_setChain_same]; exact hp)]
      rfl

/-- Settles O8: the three forms of a flush, and what the sum of a sound chain's credits bounds. -/
theorem flushesAndGrants : Obligations.FlushesAndGrants := by
  refine ⟨fun s a c hopen => ?_, fun s c hs => ?_⟩
  · have hflush := exec_flush_of_open hopen
    refine ⟨fun hb ho => ?_, fun hb ho hpop => ?_, fun hb => ?_⟩
    · refine ⟨_, hflush, ?_⟩
      rw [State.flushChain_chain, Chain.flush_of_closed hb ho]
      exact ⟨rfl, rfl, rfl, rfl, rfl, fun c' hc' => State.flushChain_other s hc', State.flushChain_gates s c⟩
    · rw [hflush, State.flushChain, Chain.flush_of_open hb ho]
      simp [hpop]
    · refine ⟨_, hflush, fun c' => ?_, State.flushChain_gates s c, ?_⟩
      · by_cases hc' : c' = c
        · subst hc'
          rw [State.flushChain_chain, Chain.flush_of_busy hb]
        · exact State.flushChain_other s hc'
      · simp [State.flushChain, hb]
  · obtain ⟨-, -, hchains, -⟩ := hs
    obtain ⟨hsum, hgrant, -⟩ := Chain.sound_bounds (hchains c.key)
    exact ⟨by unfold State.chain; omega, hgrant⟩

/-- Settles O9: a pop by whether the chain allows it, and a credit that arrives with nothing to close. -/
theorem popAndCreditReturn : Obligations.PopAndCreditReturn := by
  refine ⟨fun s c w r hw hmay hsoi => ?_, fun s c hmay => ?_, fun s c => Chain.mayPop_of_begun, fun s c => Chain.mayPop_of_below,
    fun s c ht hcl hp => ?_⟩
  · rw [exec_chainPop, State.popChain_of_mayPop hw hmay hsoi, Chain.pop_of_cons hw]
  · rw [exec_chainPop, State.popChain_of_not_mayPop hmay]
  · have hback : (s.chain c).creditBack.close =
        { s.chain c with transit := (s.chain c).transit - 1, credits := (s.chain c).credits + 1 } := by
      simp [Chain.creditBack, Chain.close, ht, hcl]
    rw [exec_creditReturn, hback]
    exact congrArg _ (State.servePop_setChain_idle hp)

/-- Settles O10: what a receiver does with a bad copy, with a good one, and with the fourth bad one. -/
theorem parityReplay : Obligations.ParityReplay := by
  refine ⟨fun s c cell asks w err hc hl hg hp => ?_, fun s c w k hl hc hd hpop => ?_, fun s c w k err hl hk hc hp => ?_,
    fun s g w err hl hh hw hv hp => ?_, fun s g w k hl hpop => ?_, fun s g w r err hw hl hp ht => ⟨fun h0 hs => ?_, fun h0 => ?_⟩⟩
  · rw [exec_chainPush_of_granted w err hc hl hg, State.receive_bad hp (by decide), State.chain_setChain_same, State.setChain_setChain]
    rfl
  · rw [exec_wordReplay, State.replayWord_chain 0 hl hc, State.receive_ok, State.chain_modDev,
      Chain.take_of_not_drain (x := { s.chain c with latch := none }) w false hd]
    exact congrArg _ (State.servePop_setChain_idle hpop)
  · rw [exec_wordReplay, State.replayWord_chain err hl hc, State.receive_exhausted hp (by omega)]
    rfl
  · rw [exec_gateFifoWrite_of_free hl hh hw hv, State.receiveGate_of_bad hp (by decide)]
  · rw [exec_wordReplay, State.replayWord_gate_latched 0 hl,
      State.receiveGate_of_good (s := s.modDev (fun d => d.replayed (gatePage g))) w (k + 1) hpop]
    rfl
  · rw [exec_gateFifoPop, State.popGate_of_seen err h0 hs, State.takeGate_of_bad hw hp ht, h0]
  · rw [exec_wordReplay, State.replayWord_gate_tried err hl h0,
      State.takeGate_of_bad (s := s.modDev (fun d => d.replayed (gatePage g))) hw hp ht]
    rfl

/-- Settles O11: a write by what the writer sees, a pop by what the reader sees. -/
theorem gateFifos : Obligations.GateFifos := by
  refine ⟨fun s g w hl hh => ⟨fun hw hv hpop => ?_, fun hc hv hcan err => ?_, fun hc hv hcan err => ?_⟩,
    fun s g ht => ⟨fun w r hw hv hsoi => ?_, fun hno err => ?_⟩⟩
  · rw [exec_gateFifoWrite_of_free hl hh hw hv, State.receiveGate_of_good w 1 hpop, Gate.latch_none_eta hl]
    rfl
  · exact exec_gateFifoWrite_of_held w err hl hh hc hv hcan
  · exact exec_gateFifoWrite_of_overrun w err hl hh hc hv hcan
  · rw [exec_gateFifoPop, State.popGate_of_seen 0 ht (Gate.sees_of_cons hw hv), State.takeGate_of_good hw hsoi, Gate.get_of_cons hw]
  · rw [exec_gateFifoPop, State.popGate_of_unseen err ht (Gate.sees_eq_false hno)]

/-- Settles O60: nothing is listed in any map, so each reads its reset value. -/
theorem afterReset : Obligations.AfterReset :=
  ⟨rfl, State.reset_hopsSound, fun _ => ⟨rfl, rfl⟩, fun _ => rfl, rfl, fun _ => rfl, fun _ _ => rfl, rfl, rfl, by decide,
    fun _ => ⟨rfl, rfl⟩, by decide⟩

end Sys2Proof.Proofs
end

section
/-! Quiescing (R22, R23): a field holds what its map lists, and a write cuts it to the field's width. -/

namespace Sys2Proof.Machine

/-- A device whose map lists 2 in the one-bit field MODE of page `pg`: no write leaves one, yet it is a device. -/
def wideMode (pg : PageId) : Dev := { regs := [(pg, [(Reg.HEADER.BLK_CTRL_MODE.slot, 2)])] }

theorem wideMode_fget (pg : PageId) : (wideMode pg).fget pg Reg.HEADER.BLK_CTRL_MODE = 2 := by
  simp [Dev.fget, Dev.page, wideMode, mget]

/-- The mode in force after QUIESCE_REQ clears is MODE cut to one bit. -/
theorem Dev.modeInForce_unquiesce (d : Dev) (pg : PageId) :
    (d.unquiesce pg).fget pg Reg.HEADER.MODE_IN_FORCE = d.fget pg Reg.HEADER.BLK_CTRL_MODE % 2 := by
  have hset : ((d.clr pg Reg.HEADER.QUIESCE_REQ).fset pg Reg.HEADER.MODE_IN_FORCE
      (d.fget pg Reg.HEADER.BLK_CTRL_MODE)).fget pg Reg.HEADER.MODE_IN_FORCE = d.fget pg Reg.HEADER.BLK_CTRL_MODE % 2 :=
    Dev.fget_fset_same ..
  unfold Dev.unquiesce
  dsimp only
  split
  · exact hset
  · exact (Dev.fget_fset_slot _ _ _ _ (by decide)).trans hset

end Sys2Proof.Machine
end

section
/-! Latch-making reads (R425), each for the reader alone. -/

namespace Sys2Proof.Machine

variable {s : State} {a : Accessor}

theorem State.read_of_open {pg : PageId} {off : Nat} (h : s.dev.access a pg = .open) (ho : offDefined pg off = true) :
    s.read a pg off = s.modDev (fun d => d.emit (.readData a.num (4096 * pg + off) (s.readReg a.num pg off))) := by
  simp [State.read, h, ho]

theorem State.latchRead_of_open {pg : PageId} {off : Nat} (f : Dev → Dev) (h : s.dev.access a pg = .open) (ho : offDefined pg off = true) :
    s.latchRead a pg off f =
      s.modDev (fun d => f (d.emit (.readData a.num (4096 * pg + off) (s.readReg a.num pg off)))) := by
  simp only [State.latchRead, h, State.read_of_open h ho]
  rfl

theorem Completes.of_latchRead {c : Instr} {pg : PageId} {off : Nat} {f : Dev → Dev} {P : State → Prop}
    (hc : exec c s = .next (s.latchRead a pg off f)) (h : s.dev.access a pg = .open) (ho : offDefined pg off = true)
    (hp : P (s.modDev (fun d => f (d.emit (.readData a.num (4096 * pg + off) (s.readReg a.num pg off)))))) : Completes c s P :=
  ⟨_, hc.trans (congrArg _ (State.latchRead_of_open f h ho)), hp⟩

theorem exec_nowLoRead (a : Accessor) (s : State) : exec (.nowLoRead a) s =
    .next (s.latchRead a pgTimebase Reg.TIMEBASE.NOW_LO.off (fun d => d.latch latchNow a.num (bitsOf d.now 32 32))) := rfl

theorem exec_tpwLoRead (a : Accessor) (n : Fin 8) (s : State) : exec (.tpwLoRead a n) s =
    .next (s.latchRead a (pgServo n) Reg.SERVO.TPW_LO.off (fun d => d.latch (latchTpw n) a.num (bitsOf (d.sp n).drv.tpw 32 4))) := rfl

theorem exec_lostObjLoRead (a : Accessor) (n : Fin 8) (s : State) : exec (.lostObjLoRead a n) s =
    .next (s.latchRead a (pgSh n) Reg.SAMPLEHOLD.LOST_OBJ_LO.off
      (fun d => d.latch (latchLost n) a.num (bitsOf (d.rd n).lostObj 32 16))) := rfl

theorem exec_ivCountLoRead (a : Accessor) (s : State) : exec (.ivCountLoRead a) s =
    .next (s.latchRead a pgKeystore Reg.KEYSTORE.IV_COUNT_LO.off (fun d => d.latchIvCount a.num)) := rfl

theorem exec_seqLoRead (a : Accessor) (s : State) : exec (.seqLoRead a) s =
    .next (s.latchRead a pgProtect Reg.PROTECT.SEQ_LO.off (fun d => d.latchLedgerAll a.num)) := rfl

theorem Completes.of_seqLoRead {P : State → Prop} (h : s.dev.access a pgProtect = .open) (hp : P (s.modDev (fun d =>
    (d.emit (.readData a.num (4096 * pgProtect + Reg.PROTECT.SEQ_LO.off)
      (s.readReg a.num pgProtect Reg.PROTECT.SEQ_LO.off))).latchLedgerAll a.num))) : Completes (.seqLoRead a) s P :=
  .of_latchRead (exec_seqLoRead a s) h (by decide) hp

theorem Dev.latched_latch_same (d : Dev) (k a v : Nat) : (d.latch k a v).latched k a = v := by
  simp [Dev.latched_latch]

theorem Dev.latched_latch_reader (d : Dev) (k v j : Nat) {a b : Nat} (h : b ≠ a) : (d.latch k a v).latched j b = d.latched j b := by
  simp [Dev.latched_latch, h.symm]

theorem Dev.latched_latch_other (d : Dev) (a v b : Nat) {k j : Nat} (h : j ≠ k) : (d.latch k a v).latched j b = d.latched j b := by
  simp [Dev.latched_latch, h.symm]

/-- A latch of one value, after the low register has gone out, is all that changes. -/
theorem latchedFor_latch (s : State) (a : Accessor) (pg off k v : Nat) :
    LatchedFor a pg off k v s
      (s.modDev (fun d => (d.emit (.readData a.num (4096 * pg + off) (s.readReg a.num pg off))).latch k a.num v)) :=
  ⟨rfl, Dev.latched_latch_same .., fun j _ hb => Dev.latched_latch_reader _ k v j hb, rfl⟩

/-- The ledger's words `is`, latched one after another. -/
def Dev.latchWords (d : Dev) (a : Nat) (f : Nat → Nat) (is : List Nat) : Dev := is.foldl (fun e i => e.latch (latchLedger i) a (f i)) d

theorem Dev.latchWords_reader (a : Nat) (f : Nat → Nat) (is : List Nat) (j : Nat) {b : Nat} (h : b ≠ a) (d : Dev) :
    (d.latchWords a f is).latched j b = d.latched j b :=
  foldl_keeps (fun e : Dev => e.latched j b) _ (fun e i => Dev.latched_latch_reader e (latchLedger i) (f i) j h) is d

theorem Dev.latchWords_other (a : Nat) (f : Nat → Nat) (is : List Nat) (b : Nat) {j : Nat} (h : ∀ i, j ≠ latchLedger i) (d : Dev) :
    (d.latchWords a f is).latched j b = d.latched j b :=
  foldl_keeps (fun e : Dev => e.latched j b) _ (fun e i => Dev.latched_latch_other e a (f i) b (h i)) is d

theorem Dev.latchWords_out (d : Dev) (a : Nat) (f : Nat → Nat) (is : List Nat) : (d.latchWords a f is).out = d.out :=
  foldl_keeps Dev.out (fun (e : Dev) i => e.latch (latchLedger i) a (f i)) (fun _ _ => rfl) is d

theorem Dev.latchWords_frame (a : Nat) (f : Nat → Nat) (is : List Nat) (o : List Out) (l : SMap (SMap Nat)) (d : Dev) :
    { d.latchWords a f is with out := o, latches := l } = { d with out := o, latches := l } :=
  foldl_keeps (fun e : Dev => { e with out := o, latches := l }) (fun (e : Dev) i => e.latch (latchLedger i) a (f i)) (fun _ _ => rfl) is d

theorem Dev.latchWords_same (a : Nat) (f : Nat → Nat) (i : Nat) : ∀ (is : List Nat) (d : Dev), i ∈ is →
    (d.latchWords a f is).latched (latchLedger i) a = f i := by
  have hinj : ∀ j, j ≠ i → latchLedger i ≠ latchLedger j := fun j hj => by unfold latchLedger; omega
  intro is
  induction is using List.reverseRecOn with
  | nil => intro d h; cases h
  | append_singleton is j ih =>
    intro d h
    rw [Dev.latchWords, List.foldl_append, List.foldl_cons, List.foldl_nil]
    by_cases hj : j = i
    · subst hj
      exact Dev.latched_latch_same ..
    · rw [Dev.latched_latch_other _ a (f j) a (hinj j hj)]
      exact ih d (by simpa [Ne.symm hj] using h)

theorem Dev.latchLedgerAll_eq (d : Dev) (a : Nat) : d.latchLedgerAll a =
    (d.latch latchSeq a (bitsOf d.keep.seq 32 32)).latchWords a (fun i => natLE ((d.keep.ledger.drop (4 * i)).take 4)) (List.range 16) := rfl

theorem latchSeq_ne_latchLedger (i : Nat) : latchSeq ≠ latchLedger i := by
  unfold latchSeq latchLedger; omega

/-- SEQ and words of the ledger latched after the low register has gone out are all that changes (R374). -/
theorem latchedFor_latchWords (s : State) (a : Accessor) (pg off : Nat) (v : Dev → Nat) (f : Dev → Nat → Nat) (is : List Nat) :
    LatchedFor a pg off latchSeq (v s.dev) s (s.modDev (fun d =>
      ((d.emit (.readData a.num (4096 * pg + off) (s.readReg a.num pg off))).latch latchSeq a.num (v d)).latchWords a.num (f d) is)) :=
  ⟨(Dev.latchWords_out ..).trans rfl,
    (Dev.latchWords_other _ _ _ _ latchSeq_ne_latchLedger _).trans (Dev.latched_latch_same ..),
    fun j _ hb => (Dev.latchWords_reader _ _ _ j hb _).trans (Dev.latched_latch_reader _ _ _ j hb),
    congrArg (fun e : Dev => { s with dev := e }) (Dev.latchWords_frame a.num (f s.dev) is s.dev.out s.dev.latches
      ((s.dev.emit (.readData a.num (4096 * pg + off) (s.readReg a.num pg off))).latch latchSeq a.num (v s.dev)))⟩

theorem offDefined_TPW_LO : ∀ n : Fin 8, offDefined (pgServo n) Reg.SERVO.TPW_LO.off = true := by decide

theorem offDefined_LOST_OBJ_LO : ∀ n : Fin 8, offDefined (pgSh n) Reg.SAMPLEHOLD.LOST_OBJ_LO.off = true := by decide

end Sys2Proof.Machine
end

section
/-! The statements about quiescing and about latch-making reads. -/

namespace Sys2Proof.Proofs

open Sys2Proof.Machine

/-- Refutes O12: its last part speaks of every device, and a device may list 2 in the one-bit field MODE; the mode in force that
QUIESCE_REQ's clearing writes is cut to one bit. -/
theorem not_quiesceModeAndEnable : ¬ Obligations.QuiesceModeAndEnable := by
  rintro ⟨-, -, -, h⟩
  obtain ⟨-, hmode, -⟩ := h (wideMode pgTimebase) pgTimebase
  rw [Dev.modeInForce_unquiesce, wideMode_fget] at hmode
  exact absurd hmode (by decide)

/-- Settles O13: an accessor that reaches the page reads the low register, and its latch takes the rest; of SEQ the ledger's words too. -/
theorem latchingReadsLatchForTheReader : Obligations.LatchingReadsLatchForTheReader := by
  refine fun s a => ⟨fun h => .of_latchRead (exec_nowLoRead a s) h (by decide) (latchedFor_latch ..),
    fun n h => .of_latchRead (exec_tpwLoRead a n s) h (offDefined_TPW_LO n) (latchedFor_latch ..),
    fun n h => .of_latchRead (exec_lostObjLoRead a n s) h (offDefined_LOST_OBJ_LO n) (latchedFor_latch ..),
    fun h => .of_latchRead (exec_ivCountLoRead a s) h (by decide) (latchedFor_latch ..),
    fun h => .of_seqLoRead h ?_⟩
  simp only [Dev.latchLedgerAll_eq, Dev.emit_keep, State.modDev_dev]
  exact ⟨latchedFor_latchWords s a _ _ (fun d => bitsOf d.keep.seq 32 32) (fun d i => natLE ((d.keep.ledger.drop (4 * i)).take 4)) _,
    fun i hi => Dev.latchWords_same a.num _ i (List.range 16) _ (List.mem_range.mpr hi)⟩

end Sys2Proof.Proofs
end

section
/-! Packing and sealing (R68, R70, R91, R93, R135, R272). -/

namespace Sys2Proof.Machine

theorem exec_packerPlace (n : Fin 8) (s : State) : exec (.packerPlace n) s = s.onSpoke n (fun d => d.packPlace n) := rfl

theorem exec_sheetSeal (n : Fin 8) (s : State) : exec (.sheetSeal n) s = s.onSpoke n (fun d => d.sealNext n) := rfl

@[simp] theorem Dev.sp_bump (d : Dev) (pg : PageId) (f : Fld) (k m : Nat) : (d.bump pg f k).sp m = d.sp m := rfl
@[simp] theorem Dev.sp_unit (d : Dev) (pg : PageId) (m : Nat) : (d.unit pg).sp m = d.sp m := rfl

/-! ### An entry (R68, R69) -/

theorem hostFit_le : ∀ (l : List (Nat × Nat)) (pos len acc : Nat), hostFit l pos len acc ≤ len
  | [], _, _, _ => Nat.le_refl _
  | b :: r, pos, len, acc => by
    unfold hostFit
    split
    · exact hostFit_le r pos len acc
    · split
      · exact Nat.le_refl _
      · split
        · omega
        · exact hostFit_le r pos len _

theorem entryLen_le_pieces (o : Obj) (x : Sheet) : entryLen o x ≤ piecesLen o.pieces :=
  (hostFit_le ..).trans (Nat.min_le_left ..)

/-! ### A step of the packer (R70, R135) -/

variable {d : Dev} {n : Nat} {o : Obj} {r : List Obj} {x : Sheet}

theorem Dev.packPlace_of_not_mayPack (ho : (d.sp n).wr.objs = o :: r) (hm : d.mayPack n = false) : d.packPlace n = d := by
  simp [Dev.packPlace, ho, hm]

theorem Dev.packPlace_of_room (ho : (d.sp n).wr.objs = o :: r) (hr : o.ready = true) (hm : d.mayPack n = true)
    (hx : (d.sp n).wr.openSheet.bind (d.sp n).wr.sheet? = some x) (hf : fits o x = true) :
    d.packPlace n = ((d.unit (pgWriter n)).placeEntry n o x).closeRest n := by
  simp [Dev.packPlace, ho, hr, hm, hx, hf]

theorem Dev.packPlace_of_no_room (ho : (d.sp n).wr.objs = o :: r) (hr : o.ready = true) (hm : d.mayPack n = true)
    (hx : (d.sp n).wr.openSheet.bind (d.sp n).wr.sheet? = some x) (hf : fits o x = false) :
    d.packPlace n = if (((d.unit (pgWriter n)).closeOpen n true).sp n).wr.nobuf then (d.unit (pgWriter n)).closeOpen n true
      else (((d.unit (pgWriter n)).closeOpen n true).openAndPlace n o).closeRest n := by
  simp [Dev.packPlace, ho, hr, hm, hx, hf]

theorem Dev.packPlace_of_no_sheet (ho : (d.sp n).wr.objs = o :: r) (hr : o.ready = true) (hm : d.mayPack n = true)
    (hx : (d.sp n).wr.openSheet.bind (d.sp n).wr.sheet? = none) :
    d.packPlace n = ((d.unit (pgWriter n)).openAndPlace n o).closeRest n := by
  simp [Dev.packPlace, ho, hr, hm, hx]

/-! ### A sheet sealed (R91, R93) -/

variable {k : Nat} {q : List Nat}

theorem Dev.sealNext_of_no_bank (hq : (d.sp n).wr.closedQ = k :: q) (hx : (d.sp n).wr.sheet? k = some x)
    (hb : (d.sp n).wr.bankFor x = false) : d.sealNext n = d := by
  simp [Dev.sealNext, hq, hx, hb]

theorem Dev.sealNext_of_refused (hq : (d.sp n).wr.closedQ = k :: q) (hx : (d.sp n).wr.sheet? k = some x)
    (hb : (d.sp n).wr.bankFor x = true)
    (he : (if x.kind = 2 then some d else d.takeAccs n (sheetBlock k)).bind (fun e => e.takeSheetBufs n x) = none) :
    d.sealNext n = d.packStops n := by
  simp [Dev.sealNext, hq, hx, hb, he]

theorem Dev.sealNext_of_granted (hq : (d.sp n).wr.closedQ = k :: q) (hx : (d.sp n).wr.sheet? k = some x)
    (hb : (d.sp n).wr.bankFor x = true) {e : Dev}
    (he : (if x.kind = 2 then some d else d.takeAccs n (sheetBlock k)).bind (fun e => e.takeSheetBufs n x) = some e) :
    d.sealNext n = e.sealWith n x := by
  simp [Dev.sealNext, hq, hx, hb, he]

theorem satAdd_lt (w x k : Nat) : satAdd (2 ^ w - 1) x k < 2 ^ w :=
  Nat.lt_of_le_of_lt (Nat.min_le_left ..) (Nat.sub_lt (Nat.two_pow_pos w) Nat.one_pos)

/-- A counter raised saturates at its field's largest value (R101). -/
@[simp] theorem Dev.fget_bump_same (d : Dev) (pg : PageId) (f : Fld) (k : Nat) :
    (d.bump pg f k).fget pg f = satAdd (2 ^ f.w - 1) (d.fget pg f) k := by
  rw [Dev.bump_eq, Dev.fget_fset_same, Nat.mod_eq_of_lt (satAdd_lt ..)]

@[simp] theorem Dev.wr_modWr_same (d : Dev) (n : Nat) (f : Wr → Wr) : ((d.modWr n f).sp n).wr = f (d.sp n).wr := by
  simp [Dev.modWr]

@[simp] theorem Dev.fget_modWr (d : Dev) (n : Nat) (g : Wr → Wr) (pg : PageId) (f : Fld) : (d.modWr n g).fget pg f = d.fget pg f := rfl

theorem Dev.packStops_spec (d : Dev) (n : Nat) : ((d.packStops n).sp n).wr = { (d.sp n).wr with nobuf := true } ∧
    (d.packStops n).fget pgPool Reg.POOL.NOBUFS = satAdd (2 ^ Reg.POOL.NOBUFS.w - 1) (d.fget pgPool Reg.POOL.NOBUFS) 1 := by
  simp [Dev.packStops]

theorem Dev.sealWith_of_parity (hk : x.kind = 2) (hu : d.unsettled (pgWriter n) = false) :
    d.sealWith n x = ((d.modWr n (fun w => { (w.modSheet x.num (fun y => { y with sealedF := true, bank := true })) with
      closedQ := w.closedQ.filter (· != x.num), dueQ := w.dueQ ++ [(x.num, 0)], nobuf := false })).bump (pgWriter n)
        Reg.WRITER.C2ENC_CNT 1).afterSeal n x := by
  simp [Dev.sealWith, Dev.packedFree, hk, hu]

end Sys2Proof.Machine
end

section
/-! The statement about packing and sealing. -/

namespace Sys2Proof.Proofs

open Sys2Proof.Machine

theorem next_modDev_congr {s : State} {f g : Dev → Dev} (h : f s.dev = g s.dev) :
    (.next (s.modDev f) : Res) = .next (s.modDev g) := by
  simp only [State.modDev, h]

/-- Settles O14: the branches of a packing step and of a seal. -/
theorem packingAndSealing : Obligations.PackingAndSealing := by
  refine ⟨fun s n o r ho hr => ⟨fun hm => ?_, fun hm d1 hd1 => ?_⟩, fun s n k q x hq hx => ⟨fun hb => ?_, fun hb e he => ?_⟩,
    fun d n x hk hu => Dev.sealWith_of_parity hk hu⟩
  · rw [exec_packerPlace]
    exact next_modDev_congr (congrArg (Dev.follow · n) (Dev.packPlace_of_not_mayPack ho hm))
  · subst hd1
    refine ⟨fun x hx hf => ⟨?_, rfl, rfl, rfl, entryLen_le_pieces o x⟩, fun x hx hf => ?_, fun hx => ?_⟩
    · rw [exec_packerPlace]
      exact next_modDev_congr (congrArg (Dev.follow · n) (Dev.packPlace_of_room ho hr hm hx hf))
    · refine .of_onSpoke (exec_packerPlace n s) ⟨fun hb => ?_, fun hb => ?_⟩
      · rw [Dev.packPlace_of_no_room ho hr hm hx hf]
        exact if_pos hb
      · rw [Dev.packPlace_of_no_room ho hr hm hx hf]
        exact if_neg (Bool.eq_false_iff.mp hb)
    · rw [exec_packerPlace]
      exact next_modDev_congr (congrArg (Dev.follow · n) (Dev.packPlace_of_no_sheet ho hr hm hx))
  · rw [exec_sheetSeal]
    exact next_modDev_congr (congrArg (Dev.follow · n) (Dev.sealNext_of_no_bank hq hx hb))
  · refine .of_onSpoke (exec_sheetSeal n s) ?_
    cases e with
    | none =>
      rw [Dev.sealNext_of_refused hq hx hb he.symm]
      obtain ⟨hwr, hcnt⟩ := s.dev.packStops_spec n
      refine ⟨fun e' h => (by cases h), fun _ => ⟨?_, hcnt, ?_⟩⟩
      · rw [hwr]
      · rw [hwr]
        exact hq
    | some e =>
      rw [Dev.sealNext_of_granted hq hx hb he.symm]
      exact ⟨fun e' h => (by cases h; rfl), fun h => (by cases h)⟩

end Sys2Proof.Proofs
end

section
/-! Frames, postambles and closing patterns (R137, R140 to R142, R148, R149, R153). -/

namespace Sys2Proof.Machine

theorem exec_postambleEnd (n : Fin 8) (s : State) : exec (.postambleEnd n) s = s.onSpoke n (fun d => d.postambleEnd n) := rfl

theorem exec_closingDwellEnd (n : Fin 8) (s : State) : exec (.closingDwellEnd n) s = s.onSpoke n (fun d => d.closingDwellEnd n) := rfl

theorem exec_writeFrame (n : Fin 8) (lane : Fin 2) (phase : Nat) (s : State) :
    exec (.writeFrame n lane phase) s = s.onSpoke n (fun d => d.writeFrame n lane phase) := rfl

variable {d e : Dev} {n : Nat} {cur : Nat × Nat}

theorem Dev.postambleEnd_of_stop (hs : (d.sp n).wr.slot = some cur) (ht : (d.sp n).wr.slotSent = true)
    (he : e = ((((d.modWr n (fun w => w.markPostamble cur)).bankRelease n cur.1).sealNext n).advanceClose n).sealNext n)
    (hk : (e.judgeSlot n).2 ≠ .none) :
    d.postambleEnd n = (e.judgeSlot n).1.modWr n (fun w =>
      { w with stop := (e.judgeSlot n).2, lane0 := w.lane0 ++ [.closing], lane1 := w.lane1 ++ [.closing] }) := by
  simp only [Dev.postambleEnd, hs, ht, Bool.not_true, Bool.false_eq_true, if_false, ← he]

theorem Dev.postambleEnd_of_none (hs : (d.sp n).wr.slot = some cur) (ht : (d.sp n).wr.slotSent = true)
    (he : e = ((((d.modWr n (fun w => w.markPostamble cur)).bankRelease n cur.1).sealNext n).advanceClose n).sealNext n)
    (hk : (e.judgeSlot n).2 = .none) :
    d.postambleEnd n = if (((e.judgeSlot n).1.fixArea n cur).sp n).wr.areaOn then
        ((e.judgeSlot n).1.fixArea n cur).modWr n (fun w => { w with slotDue := true })
      else ((e.judgeSlot n).1.fixArea n cur).beginSlot n := by
  simp only [Dev.postambleEnd, hs, ht, Bool.not_true, Bool.false_eq_true, if_false, ← he]
  rcases hj : e.judgeSlot n with ⟨d', k⟩
  rw [hj] at hk
  cases hk
  rfl

theorem Dev.modWr_congr {f g : Wr → Wr} (h : f (d.sp n).wr = g (d.sp n).wr) : d.modWr n f = d.modWr n g := by
  simp only [Dev.modWr, Dev.modSp, h]

theorem Dev.closingDwellEnd_of_in (hs : (d.sp n).wr.slot = some cur) (h0 : (d.sp n).wr.lane0 = [.closing])
    (h1 : (d.sp n).wr.lane1 = [.closing]) (hv : (d.sp n).wr.slotVerdictsIn cur = true)
    (he : e = (d.modWr n (fun w =>
      { w with lane0 := [], lane1 := [], frame0 := 0, frame1 := 0,
               runUm := w.runUm + bitsToUm (zoneOfWrap w.wrap) (64 * max w.frame0 w.frame1) })).fixArea n cur) :
    d.closingDwellEnd n = if (e.sp n).wr.areaOn then e.modWr n (fun w => { w with ending := true }) else e.runEnds n (d.sp n).wr.stop := by
  have hd : e = (d.modWr n (fun w =>
      { w with lane0 := [], lane1 := [], frame0 := 0, frame1 := 0,
               runUm := w.runUm + bitsToUm (zoneOfWrap (d.sp n).wr.wrap) (64 * max (d.sp n).wr.frame0 (d.sp n).wr.frame1) })).fixArea n cur :=
    he.trans (congrArg (Dev.fixArea · n cur) (Dev.modWr_congr rfl))
  simp only [Dev.closingDwellEnd, hs, h0, h1, hv, ne_eq, not_true_eq_false, decide_false, Bool.or_self, Bool.not_true, Bool.false_eq_true,
    if_false, ← hd]

theorem Dev.closingDwellEnd_of_to_come (hs : (d.sp n).wr.slot = some cur) (hv : (d.sp n).wr.slotVerdictsIn cur = false) :
    d.closingDwellEnd n = d := by
  simp [Dev.closingDwellEnd, hs, hv]

/-! ### A frame (R140 to R142) -/

variable {lane phase : Nat}

theorem Dev.writeFrame_idle (h : (d.sp n).wr.lane lane = []) :
    d.writeFrame n lane phase = (d.modWr n (fun w => w.setLine lane (lineFrame ((d.sp n).wr.scr lane) idleBlock []).1 w.winh)).emit
      (.frame n lane (lineFrame ((d.sp n).wr.scr lane) idleBlock []).2) := by
  simp only [Dev.writeFrame, h]

end Sys2Proof.Machine
end

section
/-! The statement about frames and closing patterns. -/

namespace Sys2Proof.Proofs

open Sys2Proof.Machine

/-- Settles O15: the branches of a postamble's end, of the closing pattern's end and of a frame. -/
theorem framesAndClosingPatterns : Obligations.FramesAndClosingPatterns := by
  refine ⟨fun s n cur hs ht e he => .of_onSpoke (exec_postambleEnd n s) ⟨fun hk => ?_, fun hk ha => ?_, fun hk ha => ?_⟩,
    fun s n cur hs h0 h1 => ⟨fun hv e he => .of_onSpoke (exec_closingDwellEnd n s) ⟨fun ha => ?_, fun ha => ?_⟩, fun hv => ?_⟩,
    fun s n lane phase => ⟨fun h => .of_onSpoke (exec_writeFrame n lane phase s) (Dev.writeFrame_idle h),
      fun st r f tpw off hl hf ht ho x hx e he => .of_onSpoke (exec_writeFrame n lane phase s) ?_⟩⟩
  · exact Dev.postambleEnd_of_stop hs ht he hk
  · exact (Dev.postambleEnd_of_none hs ht he hk).trans (if_pos ha)
  · exact (Dev.postambleEnd_of_none hs ht he hk).trans (if_neg (Bool.eq_false_iff.mp ha))
  · exact (Dev.closingDwellEnd_of_in hs h0 h1 hv he).trans (if_pos ha)
  · exact (Dev.closingDwellEnd_of_in hs h0 h1 hv he).trans (if_neg (Bool.eq_false_iff.mp ha))
  · rw [exec_closingDwellEnd]
    exact next_modDev_congr (congrArg (Dev.follow · n) (Dev.closingDwellEnd_of_to_come hs hv))
  · subst hf ht ho hx he
    simp only [Dev.writeFrame, hl]

end Sys2Proof.Proofs
end

section
/-! Verdicts and the verify decode (R151, R152, R155 to R158). -/

namespace Sys2Proof.Machine

theorem exec_verdict (n : Fin 8) (seg : SegId) (found hdr idOk : Bool) (r : SegResult) (data : List Byte) (s : State) :
    exec (.verdict n seg found hdr idOk r data) s = s.onSpoke n (fun d => d.verdict n seg found hdr idOk r data) := rfl

theorem exec_verifyDecodeStart (n : Fin 8) (sheet gen : Nat) (s : State) :
    exec (.verifyDecodeStart n sheet gen) s = s.onSpoke n (fun d => d.verifyStart n sheet gen) := rfl

theorem exec_verifyDecodeDone (n : Fin 8) (s : State) : exec (.verifyDecodeDone n) s = s.onSpoke n (fun d => d.verifyDone n) := rfl

section verdictOf

variable {cap0 found hdr idOk : Bool} {r : SegResult} {il lf : Nat}

theorem verdictOf_of_not_received (h : (found && hdr && idOk) = false) : verdictOf cap0 found hdr idOk r il lf = .fail := by
  unfold verdictOf
  exact if_pos (by cases found <;> cases hdr <;> simp_all)

theorem verdictOf_of_received (h : (found && hdr && idOk) = true) : verdictOf cap0 found hdr idOk r il lf =
    if cap0 then (if r.freewheel || r.altAlign then .fail else .pass)
    else if !r.converged then .fail
    else if r.freewheel || r.altAlign || (il != 0 && decide (il ≤ r.iters)) || (lf != 0 && decide (r.llr < lf)) then .low else .pass := by
  obtain ⟨⟨rfl, rfl⟩, rfl⟩ := by simpa using h
  rfl

theorem verdictOf_of_converged (h : (found && hdr && idOk) = true) (hc : cap0 = false) (hr : r.converged = true) :
    verdictOf cap0 found hdr idOk r il lf =
      if r.freewheel = true ∨ r.altAlign = true ∨ (il ≠ 0 ∧ il ≤ r.iters) ∨ (lf ≠ 0 ∧ r.llr < lf) then .low else .pass := by
  simp [verdictOf_of_received h, hc, hr, or_assoc]

end verdictOf

variable {d : Dev} {n : Nat} {seg : SegId} {c : Copy} {v : Verdict} {row : Option RowRec}

theorem Dev.takeVerdict_of_fill_cut (hc : ((d.sp n).wr.sheet? seg.sheet).bind (fun x => x.copy? seg.gen) = some c)
    (hf : seg.fill = true) (h : c.fillCuts.contains seg.row = true) : d.takeVerdict n seg v row = d := by
  simp only [Dev.takeVerdict, hc, hf, h, if_true]

theorem Dev.takeVerdict_of_fill (hc : ((d.sp n).wr.sheet? seg.sheet).bind (fun x => x.copy? seg.gen) = some c)
    (hf : seg.fill = true) (h : c.fillCuts.contains seg.row = false) :
    d.takeVerdict n seg v row = (d.countVerdict n (seg.row % 64) v).bump (pgVerify n) Reg.HEADER.UNITS 1 := by
  simp only [Dev.takeVerdict, hc, hf, h, if_true, Bool.false_eq_true, if_false, Dev.unit_eq]

theorem Dev.takeVerdict_of_cut (hc : ((d.sp n).wr.sheet? seg.sheet).bind (fun x => x.copy? seg.gen) = some c)
    (hf : seg.fill = false) (h : c.cuts.contains (8 * seg.row + seg.rwslot) = true) : d.takeVerdict n seg v row = d := by
  simp only [Dev.takeVerdict, hc, hf, h, if_true, Bool.false_eq_true, if_false]

/-- The device with a verdict counted, noted in its copy and its row taken (R152, R157). -/
def Dev.verdictNoted (d : Dev) (n : Nat) (seg : SegId) (v : Verdict) (row : Option RowRec) : Dev :=
  ((d.countVerdict n (seg.row % 64) v).bump (pgVerify n) Reg.HEADER.UNITS 1).modWr n (fun w =>
    (w.modCopy seg.sheet seg.gen (fun c => { c with verdicts := (8 * seg.row + seg.rwslot, v) :: c.verdicts })).takeRow seg.sheet seg.row row)

theorem Dev.takeVerdict_of_kept (hc : ((d.sp n).wr.sheet? seg.sheet).bind (fun x => x.copy? seg.gen) = some c)
    (hf : seg.fill = false) (h : c.cuts.contains (8 * seg.row + seg.rwslot) = false) :
    (v = .pass → d.takeVerdict n seg v row = d.verdictNoted n seg v row) ∧
    (v = .low → d.takeVerdict n seg v row = (d.verdictNoted n seg v row).candidate n seg.sheet seg.gen seg.row) ∧
    (v = .fail → d.takeVerdict n seg v row = (d.verdictNoted n seg v row).candidate n seg.sheet seg.gen seg.row ∨
      ∃ c', d.takeVerdict n seg v row =
        ((d.verdictNoted n seg v row).candidate n seg.sheet seg.gen seg.row).deadCheck n seg.sheet (seg.row % 64) c') := by
  refine ⟨fun hv => ?_, fun hv => ?_, fun hv => ?_⟩ <;> subst hv <;>
    simp only [Dev.takeVerdict, hc, hf, h, if_true, Bool.false_eq_true, if_false, Dev.unit_eq, reduceCtorEq] <;>
    rw [← Dev.verdictNoted] <;> split
  · rfl
  · rfl
  · rfl
  · rfl
  · exact .inl rfl
  · exact .inr ⟨_, rfl⟩

theorem Dev.verifyStart_of_due {num gen : Nat} (hc : ((d.sp n).wr.sheet? num).bind (fun x => x.copy? gen) = some c)
    (ha : c.areaDone = true) (hi : c.verdictsIn = true) (hd : c.decoded = false) (hv : (d.sp n).wr.verifying = none)
    (ht : d.takesWork (pgVerify n) = true) : d.verifyStart n num gen =
      d.modWr n (fun w => { (w.modCopy num gen (fun c => { c with decoded := true })) with
        verifying := some ⟨num, gen, d.fget (pgWriter n) Reg.WRITER.DEAD_COUNT, min 80 (d.fget (pgVerify n) Reg.VERIFY.ERR_LIMIT),
          d.fget (pgVerify n) Reg.VERIFY.RELEASE_HEADROOM⟩ }) := by
  simp [Dev.verifyStart, hc, ha, hi, hd, hv, ht]

theorem Dev.verifyEnds_of_settles {w : VDec} {x : Sheet} (hx : x.given = false) : d.verifyEnds n w x true = d.settle n w.sheet := by
  simp [Dev.verifyEnds, hx]

theorem Dev.verifyEnds_of_unsettled {w : VDec} {x : Sheet} {ok : Bool} (h : ok = false ∨ x.given = true) : d.verifyEnds n w x ok =
    if (x.isClose && w.gen == 3) = true then
      (if x.kind = 4 then (d.ev (pgVerify n) Reg.VERIFY.UNSETTLED).eodFails n else d.ev (pgVerify n) Reg.VERIFY.UNSETTLED)
    else (d.ev (pgVerify n) Reg.VERIFY.UNSETTLED).orderCopy n w.sheet w.gen false := by
  have hn : (ok && !x.given) = false := by rcases h with h | h <;> simp [h]
  simp only [Dev.verifyEnds, hn, Bool.false_eq_true, if_false]

theorem Dev.verifyDone_of_open {w : VDec} {x : Sheet} {y : SheetDecode} {ok : Bool} (hv : (d.sp n).wr.verifying = some w)
    (hx : (d.sp n).wr.sheet? w.sheet = some x) (hs : x.settled = false) (hu : d.unsettled (pgVerify n) = false)
    (hy : y = c2Sheet x.rows (inlineErasures x.rows) w.limit)
    (ho : ok = (y.resolved && decide (settleHeadroom w.release w.dead ≤ y.headroom))) :
    d.verifyDone n = ((((((d.bump (pgVerify n) Reg.HEADER.UNITS 1).modWr n (fun u => u.verifyOver w.sheet)).miscorr n y.changed.length).fset
      (pgVerify n) Reg.VERIFY.VFY_SHEET w.sheet).fput (pgVerify n) Reg.VERIFY.SETTLED (ok && !x.settled && !x.given)).fset (pgVerify n)
      Reg.VERIFY.OFF5C_HEADROOM y.headroom).verifyEnds n w x ok := by
  have hdec : (d.bump (pgVerify n) Reg.HEADER.UNITS 1).decodeSheet n x.rows (inlineErasures x.rows) w.limit =
      (d.bump (pgVerify n) Reg.HEADER.UNITS 1, y) := by
    rw [hy]
    exact if_neg (Bool.eq_false_iff.mp hu)
  subst ho
  simp only [Dev.verifyDone, hv, Dev.sp_bump, hx, hdec, hs, Bool.false_eq_true, if_false, Dev.unit_eq]

end Sys2Proof.Machine
end

section
/-! The statement about verdicts and the verify decode. -/

namespace Sys2Proof.Proofs

open Sys2Proof.Machine

/-- Settles O16: the rule of the verdict, its effect branch by branch, and the verify decode's start and end. -/
theorem verdictsAndVerifyDecode : Obligations.VerdictsAndVerifyDecode := by
  refine ⟨fun cap0 found hdr idOk r il lf => ⟨fun h => verdictOf_of_not_received h, fun h hc => ?_, fun h hc hr => ?_, fun h hc hr => ?_⟩,
    fun s n seg c found hdr idOk r data v hc hv => ?_, fun s n num gen c hc ha hi hd hv ht => ?_,
    fun s n v x hv hx hs hu y ok hy ho e he => .of_onSpoke (exec_verifyDecodeDone n s) ?_⟩
  · simp [verdictOf_of_received h, hc]
  · simp [verdictOf_of_received h, hc, hr]
  · rw [verdictOf_of_converged h hc hr]
    split <;> simp_all
  · subst hv
    simp only [exec_verdict]
    refine ⟨fun hf h => ?_, fun hf h => ?_, fun hf h => ?_, fun hf h e he => ?_⟩
    · exact next_modDev_congr (congrArg (Dev.follow · n) (Dev.takeVerdict_of_fill_cut hc hf h))
    · exact next_modDev_congr (congrArg (Dev.follow · n) (Dev.takeVerdict_of_cut hc hf h))
    · exact next_modDev_congr (congrArg (Dev.follow · n) (Dev.takeVerdict_of_fill hc hf h))
    · subst he
      exact .of_onSpoke (exec_verdict n seg found hdr idOk r data s) (Dev.takeVerdict_of_kept hc hf h)
  · rw [exec_verifyDecodeStart]
    exact next_modDev_congr (congrArg (Dev.follow · n) (Dev.verifyStart_of_due hc ha hi hd hv ht))
  · rw [Dev.verifyDone_of_open hv hx hs hu hy ho, ← he]
    refine ⟨fun ho' hg => ?_, fun h hl => ?_, fun h hl => ?_⟩
    · rw [ho', Dev.verifyEnds_of_settles hg]
    · exact (Dev.verifyEnds_of_unsettled h).trans (if_neg (Bool.eq_false_iff.mp hl))
    · exact (Dev.verifyEnds_of_unsettled h).trans (if_pos hl)

end Sys2Proof.Proofs
end

section
/-! Dead marks (R156): DEAD_MAP is the sum of two fields, and a field holds what its map lists. -/

namespace Sys2Proof.Machine

theorem exec_deadMapClear (a : Accessor) (n : Fin 8) (mask : BitVec 64) (s : State) :
    exec (.deadMapClear a n mask) s = s.writeDev a (pgWriter n) (fun d => d.deadMapClear n mask.toNat) := rfl

/-- A mask that meets no dead channel leaves every register. -/
theorem Dev.deadMapClear_regs_of_none (d : Dev) (n mask : Nat) (h : mask &&& d.deadMap n = 0) : (d.deadMapClear n mask).regs = d.regs := by
  have hnone : (List.range 64).filter (bitAt 0) = [] := by decide
  simp only [Dev.deadMapClear, h, hnone, List.foldl_nil]
  rfl

/-- A device whose map lists 2^32 in DEAD_MAP_LO, which has 32 bits, and marks channel 32: no write leaves one, yet it is a device. -/
def wideDeadMap : State :=
  { dev := { regs := [(pgWriter 0, [(Reg.WRITER.DEAD_MAP_LO.slot, 2 ^ 32), (Reg.WRITER.DEAD_MAP_HI.slot, 1)])] } }

end Sys2Proof.Machine
end

section
/-! The statement about the hold of writing and the writer's registers. -/

namespace Sys2Proof.Proofs

open Sys2Proof.Machine

/-- Refutes O17: its clause on DEAD_MAP speaks of every device. Where DEAD_MAP_LO holds 2^32, that bit and channel 32's mark add up to
bit 33 of the map, and a mask of channel 32 alone clears nothing. -/
theorem not_writeHoldAndWriterRegisters : ¬ Obligations.WriteHoldAndWriterRegisters := by
  rintro ⟨-, h⟩
  obtain ⟨-, ⟨t, ht, -, -, hhi, -⟩, -⟩ := h wideDeadMap (.fw 0) 0 0 0 0 0 0 (BitVec.ofNat 64 (2 ^ 32)) (by decide)
  rw [exec_deadMapClear, State.writeDev_open _ _ _ _ (by decide)] at ht
  cases ht
  have hregs := Dev.deadMapClear_regs_of_none wideDeadMap.dev 0 (2 ^ 32) (by decide)
  have hsame : ((wideDeadMap.dev.deadMapClear 0 (2 ^ 32)).fget (pgWriter 0) Reg.WRITER.DEAD_MAP_HI) =
      wideDeadMap.dev.fget (pgWriter 0) Reg.WRITER.DEAD_MAP_HI := by
    simp only [Dev.fget, Dev.page, hregs]
  have hbit := hhi 0 (by decide)
  rw [State.modDev_dev] at hbit
  exact absurd (hsame ▸ hbit) (by decide)

end Sys2Proof.Proofs
end

section
/-! What an operation on one spoke keeps: every other spoke, some fields of one page, a part of the spoke itself. -/

namespace Sys2Proof.Machine

/-- From `d` to `e` every spoke but `n` is as it was, and so are the fields `fs` of page `pg` and the part `p` of spoke `n`. -/
structure Dev.Keeps {α : Type} (n : Nat) (pg : PageId) (fs : List Fld) (p : Spoke → α) (d e : Dev) : Prop where
  others : ∀ m, m ≠ n → e.sp m = d.sp m
  regs : ∀ f ∈ fs, e.fget pg f = d.fget pg f
  part : p (e.sp n) = p (d.sp n)

theorem Dev.sp_modSp_other (d : Dev) {n m : Nat} (f : Spoke → Spoke) (h : m ≠ n) : (d.modSp n f).sp m = d.sp m := by
  simp [Dev.sp_modSp, Ne.symm h]

theorem Dev.modWr_eq (d : Dev) (n : Nat) (f : Wr → Wr) : d.modWr n f = d.modSp n (fun s => { s with wr := f s.wr }) := rfl
theorem Dev.modDrv_eq (d : Dev) (n : Nat) (f : Drive → Drive) : d.modDrv n f = d.modSp n (fun s => { s with drv := f s.drv }) := rfl

namespace Dev.Keeps

variable {α : Type} {n : Nat} {pg : PageId} {fs : List Fld} {p : Spoke → α} {d e g : Dev}

theorem refl (d : Dev) : Keeps n pg fs p d d := ⟨fun _ _ => rfl, fun _ _ => rfl, rfl⟩

theorem trans (h : Keeps n pg fs p d e) (k : Keeps n pg fs p e g) : Keeps n pg fs p d g :=
  ⟨fun m hm => (k.others m hm).trans (h.others m hm), fun f hf => (k.regs f hf).trans (h.regs f hf), k.part.trans h.part⟩

theorem mono {gs : List Fld} (h : Keeps n pg fs p d e) (hs : ∀ f ∈ gs, f ∈ fs) : Keeps n pg gs p d e :=
  ⟨h.others, fun f hf => h.regs f (hs f hf), h.part⟩

theorem map {β : Type} {q : Spoke → β} (h : Keeps n pg fs p d e) (r : α → β) (hq : ∀ s, q s = r (p s)) : Keeps n pg fs q d e :=
  ⟨h.others, h.regs, by rw [hq, hq, h.part]⟩

theorem ite {c : Prop} [Decidable c] (h : c → Keeps n pg fs p d e) (k : ¬ c → Keeps n pg fs p d g) :
    Keeps n pg fs p d (if c then e else g) := by
  split
  · next hc => exact h hc
  · next hc => exact k hc

theorem fset_page (h : Keeps n pg fs p d e) {pg' : PageId} (f' : Fld) (v : Nat) (hp : pg' ≠ pg) : Keeps n pg fs p d (e.fset pg' f' v) :=
  h.trans ⟨fun _ _ => rfl, fun f _ => Dev.fget_fset_page e f' f v hp, rfl⟩

theorem fset (h : Keeps n pg fs p d e) (pg' : PageId) (f' : Fld) (v : Nat) (hs : ∀ f ∈ fs, f'.slot ≠ f.slot) :
    Keeps n pg fs p d (e.fset pg' f' v) :=
  h.trans ⟨fun _ _ => rfl, fun f hf => Dev.fget_fset_slot e pg' pg v (hs f hf), rfl⟩

theorem modSp_at (h : Keeps n pg fs p d e) {f : Spoke → Spoke} (hf : p (f (e.sp n)) = p (e.sp n)) : Keeps n pg fs p d (e.modSp n f) :=
  h.trans ⟨fun _ hm => Dev.sp_modSp_other e f hm, fun _ _ => rfl, by rw [Dev.sp_modSp_same, hf]⟩

theorem modSp (h : Keeps n pg fs p d e) {f : Spoke → Spoke} (hf : ∀ s, p (f s) = p s := by exact fun _ => rfl) : Keeps n pg fs p d (e.modSp n f) := h.modSp_at (hf _)

theorem nextFree (h : Keeps n pg fs p d e) : Keeps n pg fs p d e.nextFree := h.trans ⟨fun _ _ => rfl, fun _ _ => rfl, rfl⟩

theorem emit (h : Keeps n pg fs p d e) (o : Out) : Keeps n pg fs p d (e.emit o) := h.trans ⟨fun _ _ => rfl, fun _ _ => rfl, rfl⟩

theorem foldl {β : Type} {f : Dev → β → Dev} (hf : ∀ (x : Dev) (b : β), Keeps n pg fs p x (f x b)) :
    ∀ (l : List β) {d e : Dev}, Keeps n pg fs p d e → Keeps n pg fs p d (l.foldl f e)
  | [], _, _, h => h
  | b :: l, _, e, h => foldl hf l (h.trans (hf e b))

/-- A message down the control link counts it, and moves the spoke's SEQ on (R191). -/
theorem ctl (h : Keeps n pg fs p d e) (ty : Nat) (l : List Byte) (hp : pgLink n ≠ pg)
    (hq : ∀ (s : Spoke) (k : Nat), p { s with drv := { s.drv with txSeq := k } } = p s := by exact fun _ _ => rfl) : Keeps n pg fs p d (e.ctl n ty l) := by
  simp only [Dev.ctl, Dev.modDrv_eq, Dev.unit_eq, Dev.bump_eq]
  split
  · exact h
  · exact (((h.emit _).modSp (by exact (hq · _))).fset_page _ _ hp).fset_page _ _ hp

/-- Writing held off shows in the writer alone (R147). -/
theorem evalHold (h : Keeps n pg fs p d e) (hp : pgWriter n ≠ pg) (hq : ∀ s : Spoke, s.wr.winh = false →
    p { s with wr := { s.wr with winh := true, gated0 := true, gated1 := true } } = p s := by exact fun _ _ => rfl) : Keeps n pg fs p d (e.evalHold n) := by
  simp only [Dev.evalHold, Dev.modWr_eq, Dev.ev_eq]
  split
  · next hc =>
    have hw : (e.sp n).wr.winh = false := by simpa using (Bool.and_eq_true_iff.mp hc).2
    exact ((h.modSp_at (by exact hq _ hw)).fset_page _ _ hp).fset_page _ _ hp
  · exact h

end Dev.Keeps

end Sys2Proof.Machine
end

section
/-! Servo samples (R170 to R172): what a frame's words and the end of a wrap keep of the sample. -/

namespace Sys2Proof.Machine

theorem pgMotion_ne_pgServo (n : Nat) : pgMotion n ≠ pgServo n := fun h => absurd (Nat.add_left_cancel h) (by decide)
theorem pgLink_ne_pgServo (n : Nat) : pgLink n ≠ pgServo n := fun h => absurd (Nat.add_left_cancel h) (by decide)
theorem pgWriter_ne_pgServo (n : Nat) : pgWriter n ≠ pgServo n := fun h => absurd (Nat.add_left_cancel h) (by decide)
theorem pgDr_ne_pgServo (n : Nat) : pgDr n ≠ pgServo n := fun h => absurd (Nat.add_left_cancel h) (by decide)

/-- The fields that a sample writes. -/
def sampleFields : List Fld := [Reg.SERVO.READERS, Reg.SERVO.VALID, Reg.SERVO.INVALID, Reg.SERVO.PES]

/-- What a sample leaves in the spoke. -/
def samplePart (s : Spoke) : Nat × Nat × Nat := (s.wr.pesGood, s.drv.invalidRun, s.drv.lastAct)

/-- What the words of a frame leave in the spoke: the writer too. -/
def framePart (s : Spoke) : Wr × Nat × Nat := (s.wr, s.drv.invalidRun, s.drv.lastAct)

/-- From `d` to `e` what a sample writes is kept, and the writer. -/
abbrev Dev.KeepsFrame (n : Nat) (d e : Dev) : Prop := Dev.Keeps n (pgServo n) sampleFields framePart d e

/-- From `d` to `e` what a sample writes is kept. -/
abbrev Dev.KeepsSample (n : Nat) (d e : Dev) : Prop := Dev.Keeps n (pgServo n) sampleFields samplePart d e

namespace Dev.KeepsFrame

open Dev.Keeps

variable {n : Nat} {d e : Dev}

theorem refuse (h : KeepsFrame n d e) (code : Nat) : KeepsFrame n d (e.refuse n code) := by
  have hm := pgMotion_ne_pgServo n
  have hl := pgLink_ne_pgServo n
  simp only [Dev.refuse, Dev.setCart, Dev.loadPhase, Dev.setMotion, Dev.mech, Dev.modDrv_eq, Dev.ev_eq]
  refine .ite (fun _ => ?_) fun _ => ?_ <;>
    exact ((((((h.fset_page _ _ hm).fset_page _ _ hm).fset_page _ _ hm).fset_page _ _ hm).modSp).fset_page _ _ hm).ctl _ _ hl

theorem bandDiffers (h : KeepsFrame n d e) (b band : Nat) : KeepsFrame n d (e.bandDiffers n b band) := by
  have h1 : KeepsFrame n d (e.fset (pgServo n) Reg.SERVO.BAND_MISMATCH 1) := h.fset _ _ _ (by decide)
  simp only [Dev.bandDiffers, Dev.ev_eq]
  exact .ite (fun _ => h) fun _ => .ite (fun _ => KeepsFrame.refuse h1 4) fun _ => h1

theorem wordIn (h : KeepsFrame n d e) (forward : Bool) (acc : Option (List Bool)) (m : Option (Bool × Bool)) :
    KeepsFrame n d (e.wordIn n forward acc m).1 := by
  unfold Dev.wordIn
  split
  · exact h
  · exact .ite (fun _ => h.fset _ Reg.SERVO.WORD_CRC 1 (by decide)) fun _ => h

theorem putTpw (h : KeepsFrame n d e) : KeepsFrame n d (e.putTpw n) := by
  simp only [Dev.putTpw, Dev.modDrv_eq]
  split
  · exact h
  · exact (h.modSp).fset _ _ _ (by decide)

theorem headTo (h : KeepsFrame n d e) (l : Nat) : KeepsFrame n d (e.headTo n l) := by
  simp only [Dev.headTo, Dev.fput_eq, Dev.modDrv_eq]
  have h1 := (h.fset_page Reg.MOTION.DIR (b2n (wrapForward l)) (pgMotion_ne_pgServo n)).modSp
    (f := fun s => { s with drv := { s.drv with head := l } })
  exact .ite (fun _ => h1) fun _ => h1.ctl _ _ (pgLink_ne_pgServo n)

theorem endStream (h : KeepsFrame n d e) : KeepsFrame n d (e.endStream n) := by
  have hd := pgDr_ne_pgServo n
  simp only [Dev.endStream, Dev.clr_eq, Dev.modDrv_eq]
  exact ((((h.modSp).fset_page _ _ hd).fset_page _ _ hd).fset_page _ _ hd).fset_page _ _ hd

theorem servoWord (h : KeepsFrame n d e) (forward : Bool) (low up : Option (Bool × Bool)) : KeepsFrame n d (e.servoWord n forward low up) := by
  have hxy := KeepsFrame.wordIn (KeepsFrame.wordIn h forward (e.sp n).drv.word low) forward (e.sp n).drv.wordUp up
  simp only [Dev.servoWord, Dev.modDrv_eq]
  refine KeepsFrame.putTpw ?_
  split
  · split
    · exact hxy.modSp
    · exact KeepsFrame.bandDiffers hxy.modSp.modSp _ _
  · refine KeepsFrame.bandDiffers ?_ _ _
    split
    · exact hxy.modSp
    · exact KeepsFrame.bandDiffers hxy.modSp.modSp _ _

end Dev.KeepsFrame

theorem Dev.KeepsFrame.sample {n : Nat} {d e : Dev} (h : Dev.KeepsFrame n d e) : Dev.KeepsSample n d e :=
  h.map (fun x => (x.1.pesGood, x.2)) fun _ => rfl

namespace Dev.KeepsSample

open Dev.Keeps

variable {n : Nat} {d e : Dev}

theorem velocity (h : KeepsSample n d e) (rs : List ReaderFrame) : KeepsSample n d (e.velocity n rs) := by
  simp only [Dev.velocity, Dev.modDrv_eq, Dev.modWr_eq]
  split
  · exact h.modSp
  · exact ((h.modSp).modSp).fset _ Reg.SERVO.VEL _ (by decide)

theorem controlledStop (d : Dev) (n : Nat) : KeepsSample n d (d.controlledStop n) := by
  have h1 := ((KeepsFrame.endStream (n := n) (.refl d)).sample).modSp (f := fun s => { s with rd := { s.rd with stopAt := none } })
  have hm := pgMotion_ne_pgServo n
  simp only [Dev.controlledStop, Dev.setMotion, Dev.ev_eq, Dev.modDrv_eq, Dev.modWr_eq]
  exact .ite (fun _ => h1) fun _ => (((h1.modSp.modSp).fset_page _ _ hm).fset_page _ _ hm).evalHold (pgWriter_ne_pgServo n)

end Dev.KeepsSample

/-- At the end of a wrap a read run turns round or stops; else nothing happens (R186). -/
theorem Dev.readTurn_cases (d : Dev) (n : Nat) : Dev.KeepsFrame n d (d.readTurn n) ∨ d.readTurn n = d.controlledStop n := by
  unfold Dev.readTurn
  dsimp only
  split
  · exact .inl (.refl d)
  · split
    · exact .inl (.refl d)
    · split
      · exact .inl (KeepsFrame.headTo (((KeepsFrame.endStream (.refl d)).modSp).fset_page _ _ (pgMotion_ne_pgServo n)) _)
      · exact .inr rfl

theorem Dev.readTurn_keepsSample (d : Dev) (n : Nat) : Dev.KeepsSample n d (d.readTurn n) := by
  rcases d.readTurn_cases n with h | h
  · exact h.sample
  · exact h ▸ KeepsSample.controlledStop d n

/-! ### Writing held off, and a controlled stop (R147, R176) -/

theorem Dev.winh_evalHold (d : Dev) (n : Nat) (h : d.holdCond n = true ∨ (d.sp n).wr.winh = true) :
    ((d.evalHold n).sp n).wr.winh = true := by
  simp only [Dev.evalHold, Dev.ev_eq, Dev.modWr_eq]
  split
  · simp
  · next hc => rcases h with h | h <;> simp_all

/-- The device as a controlled stop of a moving tape leaves it, but for the hold of writing. -/
def Dev.stopping (d : Dev) (n : Nat) : Dev :=
  ((((d.endStream n).modSp n (fun s => { s with rd := { s.rd with stopAt := none } })).modDrv n (fun x =>
    { x with ctrlStop := true, turning := false, parked := false, runUp := false })).modWr n (fun w =>
    { w with speedBad := true })).setMotion n 6 |>.ev (pgMotion n) Reg.MOTION.CTRL_STOP

theorem Dev.sp_endStream (d : Dev) (n : Nat) : (d.endStream n).sp n = { d.sp n with drv := { (d.sp n).drv with streaming := false, reading := false } } := by
  simp [Dev.endStream, Dev.clr_eq, Dev.modDrv_eq]

theorem Dev.controlledStop_of_moving {d : Dev} {n : Nat} (h : (d.sp n).drv.tapeStopped = false) :
    d.controlledStop n = (d.stopping n).evalHold n := by
  unfold Dev.controlledStop
  dsimp only
  rw [Dev.sp_modSp_same, Dev.sp_endStream]
  exact if_neg (Bool.eq_false_iff.mp h)

theorem Dev.controlledStop_of_stopped {d : Dev} {n : Nat} (h : (d.sp n).drv.tapeStopped = true) :
    d.controlledStop n = (d.endStream n).modSp n (fun s => { s with rd := { s.rd with stopAt := none } }) := by
  unfold Dev.controlledStop
  dsimp only
  rw [Dev.sp_modSp_same, Dev.sp_endStream]
  exact if_pos h

theorem Dev.sp_stopping (d : Dev) (n : Nat) : (d.stopping n).sp n = { d.sp n with
    wr := { (d.sp n).wr with speedBad := true }, rd := { (d.sp n).rd with stopAt := none },
    drv := { (d.sp n).drv with streaming := false, reading := false, ctrlStop := true, turning := false, parked := false, runUp := false } } := by
  simp [Dev.stopping, Dev.setMotion, Dev.ev_eq, Dev.modDrv_eq, Dev.modWr_eq, Dev.sp_endStream]

theorem Dev.fget_endStream (d : Dev) (n : Nat) {pg : PageId} (f : Fld) (h : pgDr n ≠ pg) : (d.endStream n).fget pg f = d.fget pg f := by
  simp [Dev.endStream, Dev.clr_eq, Dev.modDrv_eq, Dev.fget_fset, h]

theorem Dev.fget_stopping (d : Dev) (n : Nat) {pg : PageId} (f : Fld) (h : pgDr n ≠ pg) (hm : pgMotion n ≠ pg) :
    (d.stopping n).fget pg f = d.fget pg f := by
  simp [Dev.stopping, Dev.setMotion, Dev.ev_eq, Dev.modDrv_eq, Dev.modWr_eq, Dev.fget_fset, hm, Dev.fget_endStream d n f h]

theorem pgDr_ne_pgMotion (n : Nat) : pgDr n ≠ pgMotion n := fun h => absurd (Nat.add_left_cancel h) (by decide)
theorem pgWriter_ne_pgMotion (n : Nat) : pgWriter n ≠ pgMotion n := fun h => absurd (Nat.add_left_cancel h) (by decide)

theorem Dev.stopping_STATE (d : Dev) (n : Nat) : (d.stopping n).fget (pgMotion n) Reg.MOTION.STATE = 6 := by
  simp [Dev.stopping, Dev.setMotion, Dev.ev_eq, Dev.fget_fset, show Reg.MOTION.CTRL_STOP.slot ≠ Reg.MOTION.STATE.slot by decide]
  rfl

theorem Dev.stopping_CTRL_STOP (d : Dev) (n : Nat) : (d.stopping n).fget (pgMotion n) Reg.MOTION.CTRL_STOP = 1 := by
  simp [Dev.stopping, Dev.ev_eq, show Reg.MOTION.CTRL_STOP.w = 1 from rfl]

theorem Dev.fget_stopping_motion (d : Dev) (n : Nat) {f : Fld} (h : Reg.MOTION.STATE.slot ≠ f.slot) (hc : Reg.MOTION.CTRL_STOP.slot ≠ f.slot) :
    (d.stopping n).fget (pgMotion n) f = d.fget (pgMotion n) f := by
  simp [Dev.stopping, Dev.setMotion, Dev.ev_eq, Dev.modDrv_eq, Dev.modWr_eq, Dev.fget_fset, h, hc, Dev.fget_endStream d n f (pgDr_ne_pgMotion n)]

/-- Writing held off changes nothing but the writer (R147). -/
theorem Dev.evalHold_keeps (d : Dev) (n : Nat) {pg : PageId} (fs : List Fld) (h : pgWriter n ≠ pg) :
    Dev.Keeps n pg fs Spoke.drv d (d.evalHold n) := .evalHold (.refl d) h

theorem Dev.fget_evalHold (d : Dev) (n : Nat) {pg : PageId} (f : Fld) (h : pgWriter n ≠ pg) : (d.evalHold n).fget pg f = d.fget pg f :=
  (d.evalHold_keeps n [f] h).regs f (List.mem_singleton.mpr rfl)

theorem Dev.drv_evalHold (d : Dev) (n : Nat) : ((d.evalHold n).sp n).drv = (d.sp n).drv :=
  (d.evalHold_keeps n [] (pgWriter_ne_pgMotion n)).part

theorem Dev.sp_evalHold_other (d : Dev) {n m : Nat} (h : m ≠ n) : (d.evalHold n).sp m = d.sp m :=
  (d.evalHold_keeps n [] (pgWriter_ne_pgMotion n)).others m h

theorem Dev.sp_stopping_other (d : Dev) {n m : Nat} (h : m ≠ n) : (d.stopping n).sp m = d.sp m := by
  simp [Dev.stopping, Dev.setMotion, Dev.ev_eq, Dev.clr_eq, Dev.modDrv_eq, Dev.modWr_eq, Dev.endStream, Dev.sp_modSp_other, h]

/-! ### A write run broken by a controlled stop (R153, R176) -/

section breakRun

variable {d : Dev} {n : Nat}

/-- The device as a stop breaks the run of a moving tape, but for the hold of writing. -/
theorem Dev.breakRun_of_moving (h : (d.sp n).drv.tapeStopped = false) : d.breakRun n = ((d.modWr n (fun w =>
    { w with stop := if w.running && w.stop == .none then .inhibitLoss else w.stop })).stopping n).evalHold n :=
  Dev.controlledStop_of_moving (by simpa [Dev.modWr_eq] using h)

theorem Dev.fget_breakRun (h : (d.sp n).drv.tapeStopped = false) {pg : PageId} (f : Fld) (hd : pgDr n ≠ pg) (hm : pgMotion n ≠ pg)
    (hw : pgWriter n ≠ pg) : (d.breakRun n).fget pg f = d.fget pg f := by
  rw [Dev.breakRun_of_moving h, Dev.fget_evalHold _ _ _ hw, Dev.fget_stopping _ _ _ hd hm, Dev.fget_modWr]

theorem Dev.fget_breakRun_motion (h : (d.sp n).drv.tapeStopped = false) {f : Fld} (hs : Reg.MOTION.STATE.slot ≠ f.slot)
    (hc : Reg.MOTION.CTRL_STOP.slot ≠ f.slot) : (d.breakRun n).fget (pgMotion n) f = d.fget (pgMotion n) f := by
  rw [Dev.breakRun_of_moving h, Dev.fget_evalHold _ _ _ (pgWriter_ne_pgMotion n), Dev.fget_stopping_motion _ _ hs hc, Dev.fget_modWr]

theorem Dev.drv_breakRun (h : (d.sp n).drv.tapeStopped = false) : ((d.breakRun n).sp n).drv =
    { (d.sp n).drv with streaming := false, reading := false, ctrlStop := true, turning := false, parked := false, runUp := false } := by
  rw [Dev.breakRun_of_moving h, Dev.drv_evalHold, Dev.sp_stopping]
  simp [Dev.modWr_eq]

theorem Dev.breakRun_STATE (h : (d.sp n).drv.tapeStopped = false) : (d.breakRun n).fget (pgMotion n) Reg.MOTION.STATE = 6 := by
  rw [Dev.breakRun_of_moving h, Dev.fget_evalHold _ _ _ (pgWriter_ne_pgMotion n), Dev.stopping_STATE]

theorem Dev.breakRun_CTRL_STOP (h : (d.sp n).drv.tapeStopped = false) : (d.breakRun n).fget (pgMotion n) Reg.MOTION.CTRL_STOP = 1 := by
  rw [Dev.breakRun_of_moving h, Dev.fget_evalHold _ _ _ (pgWriter_ne_pgMotion n), Dev.stopping_CTRL_STOP]

theorem Dev.winh_breakRun (h : (d.sp n).drv.tapeStopped = false) : ((d.breakRun n).sp n).wr.winh = true := by
  rw [Dev.breakRun_of_moving h]
  exact Dev.winh_evalHold _ _ (.inl (by simp [Dev.holdCond, Dev.sp_stopping]))

theorem Dev.sp_breakRun_other (h : (d.sp n).drv.tapeStopped = false) {m : Nat} (hm : m ≠ n) : (d.breakRun n).sp m = d.sp m := by
  rw [Dev.breakRun_of_moving h, Dev.sp_evalHold_other _ hm, Dev.sp_stopping_other _ hm, Dev.modWr_eq, Dev.sp_modSp_other _ _ hm]

end breakRun

/-! ### Samples (R170, R172) -/

theorem Dev.unsettled_modSp (d : Dev) (n : Nat) (f : Spoke → Spoke) (pg : PageId) : (d.modSp n f).unsettled pg = d.unsettled pg := rfl
theorem Dev.unsettled_fset (d : Dev) (pg' : PageId) (f : Fld) (v : Nat) (pg : PageId) : (d.fset pg' f v).unsettled pg = d.unsettled pg := rfl

section samples

variable (d : Dev) (n : Nat)

/-- An invalid sample, but for the hold of writing and the ACT message. -/
def Dev.missed (d : Dev) (n : Nat) : Dev :=
  ((((d.modDrv n (fun x => { x with invalidRun := x.invalidRun + 1 })).modWr n (fun w => { w with pesGood := 0 })).clr (pgServo n)
    Reg.SERVO.VALID).ev (pgServo n) Reg.SERVO.INVALID)

theorem Dev.invalidSample_eq : d.invalidSample n = ((d.missed n).evalHold n).actHold n := rfl

theorem Dev.sp_missed : (d.missed n).sp n = { d.sp n with
    wr := { (d.sp n).wr with pesGood := 0 }, drv := { (d.sp n).drv with invalidRun := (d.sp n).drv.invalidRun + 1 } } := by
  simp [Dev.missed, Dev.ev_eq, Dev.clr_eq, Dev.modDrv_eq, Dev.modWr_eq]

theorem Dev.sp_missed_other {m : Nat} (h : m ≠ n) : (d.missed n).sp m = d.sp m := by
  simp [Dev.missed, Dev.ev_eq, Dev.clr_eq, Dev.modDrv_eq, Dev.modWr_eq, Dev.sp_modSp_other, h]

/-- The hold of writing and the held command keep the sample. -/
theorem Dev.missed_keeps : Dev.KeepsSample n (d.missed n) (d.invalidSample n) := by
  rw [Dev.invalidSample_eq, Dev.actHold]
  exact ((Dev.Keeps.refl _).evalHold (pgWriter_ne_pgServo n)).ctl _ _ (pgLink_ne_pgServo n)

theorem Dev.ctl_wr (ty : Nat) (l : List Byte) : ((d.ctl n ty l).sp n).wr = (d.sp n).wr :=
  ((Dev.Keeps.refl (p := Spoke.wr) (fs := []) d).ctl ty l (pgLink_ne_pgServo n)).part

theorem Dev.winh_invalidSample : ((d.invalidSample n).sp n).wr.winh = true := by
  rw [Dev.invalidSample_eq, Dev.actHold, Dev.ctl_wr]
  exact Dev.winh_evalHold _ _ (.inl (by simp [Dev.holdCond, Dev.sp_missed]))

theorem Dev.missed_VALID : (d.missed n).fget (pgServo n) Reg.SERVO.VALID = 0 := by
  simp [Dev.missed, Dev.ev_eq, Dev.clr_eq, Dev.fget_fset, show Reg.SERVO.INVALID.slot ≠ Reg.SERVO.VALID.slot by decide]

theorem Dev.missed_INVALID : (d.missed n).fget (pgServo n) Reg.SERVO.INVALID = 1 := by
  simp [Dev.missed, Dev.ev_eq, show Reg.SERVO.INVALID.w = 1 from rfl]

theorem Dev.missed_READERS : (d.missed n).fget (pgServo n) Reg.SERVO.READERS = d.fget (pgServo n) Reg.SERVO.READERS := by
  simp [Dev.missed, Dev.ev_eq, Dev.clr_eq, Dev.fget_fset, show Reg.SERVO.INVALID.slot ≠ Reg.SERVO.READERS.slot by decide,
    show Reg.SERVO.VALID.slot ≠ Reg.SERVO.READERS.slot by decide]

/-- What a valid sample leaves in the spoke. -/
def validPart (s : Spoke) : Nat × Nat := (s.wr.pesGood, s.drv.invalidRun)

theorem Dev.gatherErrors_keeps (rs : List ReaderFrame) (fs : List Fld) :
    Dev.Keeps n (pgServo n) fs (fun s => s.wr.pesGood) d (d.gatherErrors n rs) := by
  refine Dev.Keeps.foldl (fun e r => ?_) _ (.refl d)
  split
  · exact (Dev.Keeps.refl e).modSp
  · exact .refl e

/-- A valid sample of position error `pes`, width error `tw`, but for what tells of a large error, the hold of writing and the ACT message. -/
def Dev.sampled (d : Dev) (n : Nat) (pes tw : Int) (good : Nat → Nat) (hist : List Int) : Dev :=
  (((((d.modDrv n (fun x => { x with invalidRun := 0, pesHist := hist })).modWr n (fun w => { w with pesGood := good w.pesGood })).ev (pgServo n)
    Reg.SERVO.VALID).fset (pgServo n) Reg.SERVO.PES (toField 16 pes)).fset (pgServo n) Reg.SERVO.PES_RMS (rmsOf hist)).fset (pgServo n)
    Reg.SERVO.TW_ERR (toField 16 tw)

variable (pes tw : Int) (good : Nat → Nat) (hist : List Int)

theorem Dev.sampled_part : validPart ((d.sampled n pes tw good hist).sp n) = (good (d.sp n).wr.pesGood, 0) := by
  simp [Dev.sampled, Dev.ev_eq, Dev.modDrv_eq, Dev.modWr_eq, validPart]

theorem Dev.sp_sampled_other {m : Nat} (h : m ≠ n) : (d.sampled n pes tw good hist).sp m = d.sp m := by
  simp [Dev.sampled, Dev.ev_eq, Dev.modDrv_eq, Dev.modWr_eq, Dev.sp_modSp_other, h]

theorem Dev.sampled_VALID : (d.sampled n pes tw good hist).fget (pgServo n) Reg.SERVO.VALID = 1 := by
  simp [Dev.sampled, Dev.ev_eq, Dev.fget_fset, show Reg.SERVO.TW_ERR.slot ≠ Reg.SERVO.VALID.slot by decide,
    show Reg.SERVO.PES_RMS.slot ≠ Reg.SERVO.VALID.slot by decide, show Reg.SERVO.PES.slot ≠ Reg.SERVO.VALID.slot by decide,
    show Reg.SERVO.VALID.w = 1 from rfl]

theorem Dev.sampled_PES : (d.sampled n pes tw good hist).fget (pgServo n) Reg.SERVO.PES = toField 16 pes % 65536 := by
  simp [Dev.sampled, Dev.fget_fset, show Reg.SERVO.TW_ERR.slot ≠ Reg.SERVO.PES.slot by decide,
    show Reg.SERVO.PES_RMS.slot ≠ Reg.SERVO.PES.slot by decide, show Reg.SERVO.PES.w = 16 from rfl]

theorem Dev.sampled_READERS : (d.sampled n pes tw good hist).fget (pgServo n) Reg.SERVO.READERS = d.fget (pgServo n) Reg.SERVO.READERS := by
  simp [Dev.sampled, Dev.ev_eq, Dev.fget_fset, Dev.modDrv_eq, show Reg.SERVO.TW_ERR.slot ≠ Reg.SERVO.READERS.slot by decide,
    show Reg.SERVO.PES_RMS.slot ≠ Reg.SERVO.READERS.slot by decide, show Reg.SERVO.PES.slot ≠ Reg.SERVO.READERS.slot by decide,
    show Reg.SERVO.VALID.slot ≠ Reg.SERVO.READERS.slot by decide]

/-- A valid sample: of a block not under UB-4 its position error is the mean error of the valid readers; what follows keeps it. -/
theorem Dev.validSample_keeps (rs : List ReaderFrame) : ∃ e pes tw hist, Dev.Keeps n (pgServo n) sampleFields (fun s => s.wr.pesGood) d e ∧
    (d.unsettled (pgServo n) = false → pes = meanInt (d.readerErrors n rs [0, 1, 2, 3])) ∧
    Dev.Keeps n (pgServo n) sampleFields validPart (e.sampled n pes tw (fun g => if 90 < pes.natAbs then 0 else min 4 (g + 1)) hist)
      (d.validSample n rs) := by
  refine ⟨(if d.unsettled (pgServo n) then d.nextFree else d).gatherErrors n rs,
    if d.unsettled (pgServo n) then ofField 16 d.freeVal else meanInt (d.readerErrors n rs [0, 1, 2, 3]),
    meanInt (d.readerErrors n rs [2, 3]) - meanInt (d.readerErrors n rs [0, 1]),
    ((if d.unsettled (pgServo n) then ofField 16 d.freeVal else meanInt (d.readerErrors n rs [0, 1, 2, 3])) :: (d.sp n).drv.pesHist).take 4096,
    .trans (.ite (fun _ => (Dev.Keeps.refl d).nextFree) fun _ => .refl d) (Dev.gatherErrors_keeps _ n rs _),
    fun hu => if_neg (Bool.eq_false_iff.mp hu), ?_⟩
  simp only [Dev.validSample, Dev.act, decide_eq_true_eq]
  refine (Dev.Keeps.nextFree (.evalHold ?_ (pgWriter_ne_pgServo n))).modSp.ctl _ _ (pgLink_ne_pgServo n)
  exact .ite (fun _ => ((Dev.Keeps.refl _).fset _ Reg.SERVO.PES_OVER 1 (by decide)).fset _ Reg.SERVO.PES_OVER_CNT _ (by decide)) fun _ => .refl _

/-- The errors of the readers rest on fields and a place that velocity does not change. -/
theorem Dev.readerErrors_congr {d e : Dev} {n : Nat} (ht : e.fget (pgServo n) Reg.SERVO.TF_OFFSET = d.fget (pgServo n) Reg.SERVO.TF_OFFSET)
    (hw : e.fon (pgWriter n) Reg.WRITER.WRITING = d.fon (pgWriter n) Reg.WRITER.WRITING) (hh : (e.sp n).drv.head = (d.sp n).drv.head)
    (hr : ∀ r, e.fget (pgServo n) (Reg.SERVO.TRIM r) = d.fget (pgServo n) (Reg.SERVO.TRIM r)) (rs : List ReaderFrame) (ids : List Nat) :
    e.readerErrors n rs ids = d.readerErrors n rs ids := by
  unfold Dev.readerErrors
  simp only [ht, hw, hh, hr]

/-- The device as a frame finds it once its readers and its velocity are noted. -/
def Dev.timed (d : Dev) (n : Nat) (rs : List ReaderFrame) : Dev :=
  ((d.fset (pgServo n) Reg.SERVO.READERS (readersMask rs)).unit (pgServo n)).velocity n rs

variable (rs : List ReaderFrame)

theorem Dev.fget_velocity {pg : PageId} {f : Fld} (h : pgServo n ≠ pg ∨ Reg.SERVO.VEL.slot ≠ f.slot) :
    (d.velocity n rs).fget pg f = d.fget pg f := by
  simp only [Dev.velocity, Dev.modDrv_eq, Dev.modWr_eq]
  split
  · rfl
  · rw [Dev.fget_fset, if_neg (fun hc => h.elim (· hc.1) (· hc.2))]
    rfl

theorem Dev.velocity_head : ((d.velocity n rs).sp n).drv.head = (d.sp n).drv.head := by
  simp only [Dev.velocity, Dev.modDrv_eq, Dev.modWr_eq]
  split <;> simp

theorem Dev.timed_keeps : Dev.KeepsSample n ((d.fset (pgServo n) Reg.SERVO.READERS (readersMask rs)).unit (pgServo n)) (d.timed n rs) :=
  KeepsSample.velocity (.refl _) rs

theorem Dev.timed_READERS : (d.timed n rs).fget (pgServo n) Reg.SERVO.READERS = readersMask rs % 2 ^ Reg.SERVO.READERS.w := by
  rw [(d.timed_keeps n rs).regs _ (by decide), Dev.unit_eq, Dev.bump_eq, Dev.fget_fset_slot _ _ _ _ (by decide), Dev.fget_fset_same]

theorem Dev.timed_readerErrors (ids : List Nat) : (d.timed n rs).readerErrors n rs ids = d.readerErrors n rs ids := by
  refine Dev.readerErrors_congr ?_ ?_ ?_ (fun r => ?_) rs ids
  · rw [Dev.timed, Dev.fget_velocity _ _ _ (.inr (by decide)), Dev.unit_eq, Dev.bump_eq, Dev.fget_fset_slot _ _ _ _ (by decide),
      Dev.fget_fset_slot _ _ _ _ (by decide)]
  · rw [Dev.fon, Dev.timed, Dev.fget_velocity _ _ _ (.inl (pgWriter_ne_pgServo n).symm), Dev.unit_eq, Dev.bump_eq,
      Dev.fget_fset_page _ _ _ _ (pgWriter_ne_pgServo n).symm, Dev.fget_fset_page _ _ _ _ (pgWriter_ne_pgServo n).symm, Dev.fon]
  · rw [Dev.timed, Dev.velocity_head]
    rfl
  · have hslot (f : Fld) (hf : f.off < 0x68) (hl : f.lo < 32) : f.slot ≠ (Reg.SERVO.TRIM r).slot := by
      simp only [Fld.slot, Reg.SERVO.TRIM]
      omega
    rw [Dev.timed, Dev.fget_velocity _ _ _ (.inr (hslot _ (by decide) (by decide))), Dev.unit_eq, Dev.bump_eq,
      Dev.fget_fset_slot _ _ _ _ (hslot _ (by decide) (by decide)), Dev.fget_fset_slot _ _ _ _ (hslot _ (by decide) (by decide))]

theorem Dev.timed_unsettled (pg : PageId) : (d.timed n rs).unsettled pg = d.unsettled pg := by
  simp only [Dev.timed, Dev.velocity, Dev.modDrv_eq, Dev.modWr_eq, Dev.unit_eq, Dev.bump_eq]
  split <;> simp only [Dev.unsettled_modSp, Dev.unsettled_fset]

end samples

theorem Dev.servoFrame_of_valid {d : Dev} {n : Nat} {rs : List ReaderFrame} (h : sampleValid (readersMask rs) = true) :
    Dev.KeepsSample n ((d.timed n rs).validSample n rs) (d.servoFrame n rs) := by
  unfold Dev.servoFrame
  dsimp only
  rw [if_pos h]
  exact (KeepsFrame.servoWord (.refl _) _ _ _).sample.trans (Dev.readTurn_keepsSample _ n)

/-- The words of a frame and the end of a wrap leave writing held off. -/
theorem Dev.winh_after {d : Dev} {n : Nat} (h : (d.sp n).wr.winh = true) (forward : Bool) (low up : Option (Bool × Bool)) :
    (((d.servoWord n forward low up).readTurn n).sp n).wr.winh = true := by
  have hw : ((d.servoWord n forward low up).sp n).wr.winh = true :=
    (congrArg (fun x : Wr × Nat × Nat => x.1.winh) (KeepsFrame.servoWord (.refl d) forward low up).part).trans h
  generalize d.servoWord n forward low up = e at hw ⊢
  rcases e.readTurn_cases n with hk | hs
  · exact (congrArg (fun x : Wr × Nat × Nat => x.1.winh) hk.part).trans hw
  · rw [hs]
    cases hst : (e.sp n).drv.tapeStopped with
    | true => simpa [Dev.controlledStop_of_stopped hst, Dev.sp_endStream] using hw
    | false =>
      rw [Dev.controlledStop_of_moving hst]
      exact Dev.winh_evalHold _ _ (.inl (by simp [Dev.holdCond, Dev.sp_stopping]))

theorem Dev.servoFrame_of_invalid {d : Dev} {n : Nat} {rs : List ReaderFrame} (h : sampleValid (readersMask rs) = false) :
    Dev.KeepsSample n ((d.timed n rs).invalidSample n) (d.servoFrame n rs) ∧ ((d.servoFrame n rs).sp n).wr.winh = true := by
  unfold Dev.servoFrame
  dsimp only
  rw [if_neg (Bool.eq_false_iff.mp h)]
  exact ⟨(KeepsFrame.servoWord (.refl _) _ _ _).sample.trans (Dev.readTurn_keepsSample _ n), Dev.winh_after (Dev.winh_invalidSample _ n) ..⟩

end Sys2Proof.Machine
end

section
/-! The loss and return of servo and of tension (R170, R177, R194). -/

namespace Sys2Proof.Machine

theorem exec_servoFrame (n : Fin 8) (ts : List ReaderTimes) (cs ds : List (List Int)) (s : State) :
    exec (.servoFrame n ts cs ds) s = s.onDev (fun d => d.servoFrame n (ReaderFrame.join ts cs ds)) := rfl
theorem exec_servoLost (n : Fin 8) (s : State) : exec (.servoLost n) s = s.onDev (fun d => d.servoLost n) := rfl
theorem exec_tensionFault (n : Fin 8) (s : State) : exec (.tensionFault n) s = s.onDev (fun d => d.tensionFault n) := rfl
theorem exec_tensionEstablished (n : Fin 8) (s : State) : exec (.tensionEstablished n) s = s.onSpoke n (fun d => d.tensionSet n) := rfl
theorem exec_servoReacquired (n : Fin 8) (s : State) : exec (.servoReacquired n) s = s.onSpoke n (fun d => d.servoAcquired n) := rfl

/-- An effect that leaves the device as it was leaves the state as it was. -/
theorem State.onDev_of_eq {s : State} {f : Dev → Dev} (h : f s.dev = s.dev) : s.onDev f = .next s := by
  rw [State.onDev, State.modDev, h]

section

variable {d : Dev} {n : Nat}

theorem Dev.servoLost_of_few (h : (d.sp n).drv.invalidRun < 16) : d.servoLost n = d := by simp [Dev.servoLost, h]

theorem Dev.servoLost_of_run (h : 16 ≤ (d.sp n).drv.invalidRun) (hl : (d.sp n).drv.lost = false) : d.servoLost n =
    ((d.modDrv n (fun x => { x with lost := true, word := none, wordUp := none, frameNo := none })).ev (pgServo n) Reg.SERVO.LOST).breakRun n := by
  simp [Dev.servoLost, hl, Nat.not_lt.mpr h]

/-- Servo lost on a tape in motion (R170, R176). -/
theorem Dev.lostStop_spec (hs : (d.sp n).drv.tapeStopped = false) {e : Dev} (he : e = ((d.modDrv n (fun x =>
      { x with lost := true, word := none, wordUp := none, frameNo := none })).ev (pgServo n) Reg.SERVO.LOST).breakRun n) :
    (e.sp n).drv.lost = true ∧ e.fget (pgServo n) Reg.SERVO.LOST = 1 ∧ e.fget (pgMotion n) Reg.MOTION.STATE = 6 ∧
    e.fget (pgMotion n) Reg.MOTION.CTRL_STOP = 1 ∧ (e.sp n).drv.streaming = false ∧ (e.sp n).wr.winh = true ∧
    ∀ m, m ≠ n → e.sp m = d.sp m := by
  subst he
  have hmoving : (((d.modDrv n (fun x => { x with lost := true, word := none, wordUp := none, frameNo := none })).ev (pgServo n)
      Reg.SERVO.LOST).sp n).drv.tapeStopped = false := by
    rw [Dev.ev_eq, Dev.sp_fset, Dev.drv_modDrv_same]
    exact hs
  refine ⟨?_, ?_, Dev.breakRun_STATE hmoving, Dev.breakRun_CTRL_STOP hmoving, ?_, Dev.winh_breakRun hmoving, fun m hm => ?_⟩
  · rw [Dev.drv_breakRun hmoving, Dev.ev_eq, Dev.sp_fset, Dev.drv_modDrv_same]
  · rw [Dev.fget_breakRun hmoving _ (pgDr_ne_pgServo n) (pgMotion_ne_pgServo n) (pgWriter_ne_pgServo n), Dev.ev_eq, Dev.fget_fset_same]
    decide
  · rw [Dev.drv_breakRun hmoving]
  · rw [Dev.sp_breakRun_other hmoving hm, Dev.ev_eq, Dev.sp_fset, Dev.modDrv_eq, Dev.sp_modSp_other _ _ hm]

/-- A tension fault of a tape in motion (R176, R177). -/
theorem Dev.faultStop_spec (hs : (d.sp n).drv.tapeStopped = false) {e : Dev} (he : e = (((d.ev (pgMotion n) Reg.MOTION.TENSION_FAULT).bump
      (pgMotion n) Reg.MOTION.TENSION_FAULTS 1).modDrv n (fun x => { x with needTension := true, tensionLow := false })).breakRun n) :
    (e.sp n).drv.needTension = true ∧ e.fget (pgMotion n) Reg.MOTION.TENSION_FAULT = 1 ∧
    e.fget (pgMotion n) Reg.MOTION.TENSION_FAULTS =
      satAdd (2 ^ Reg.MOTION.TENSION_FAULTS.w - 1) (d.fget (pgMotion n) Reg.MOTION.TENSION_FAULTS) 1 ∧
    e.fget (pgMotion n) Reg.MOTION.STATE = 6 ∧ (e.sp n).drv.streaming = false ∧ (e.sp n).wr.winh = true := by
  subst he
  have hmoving : ((((d.ev (pgMotion n) Reg.MOTION.TENSION_FAULT).bump (pgMotion n) Reg.MOTION.TENSION_FAULTS 1).modDrv n (fun x =>
      { x with needTension := true, tensionLow := false })).sp n).drv.tapeStopped = false := by
    rw [Dev.drv_modDrv_same]
    exact hs
  refine ⟨?_, ?_, ?_, Dev.breakRun_STATE hmoving, ?_, Dev.winh_breakRun hmoving⟩
  · rw [Dev.drv_breakRun hmoving, Dev.drv_modDrv_same]
  · rw [Dev.fget_breakRun_motion hmoving (by decide) (by decide), Dev.fget_modDrv, Dev.bump_eq, Dev.fget_fset_slot _ _ _ _ (by decide),
      Dev.ev_eq, Dev.fget_fset_same]
    decide
  · rw [Dev.fget_breakRun_motion hmoving (by decide) (by decide), Dev.fget_modDrv, Dev.fget_bump_same, Dev.ev_eq,
      Dev.fget_fset_slot _ _ _ _ (by decide)]
  · rw [Dev.drv_breakRun hmoving]

theorem Dev.tensionFault_of_good (h : d.tensionBad n = false) : d.tensionFault n = d := by simp [Dev.tensionFault, h]

theorem Dev.tensionFault_of_bad (h : d.tensionBad n = true) : d.tensionFault n =
    (((d.ev (pgMotion n) Reg.MOTION.TENSION_FAULT).bump (pgMotion n) Reg.MOTION.TENSION_FAULTS 1).modDrv n (fun x =>
      { x with needTension := true, tensionLow := false })).breakRun n := by
  simp [Dev.tensionFault, h]

theorem Dev.tensionBad_iff : d.tensionBad n = true ↔ (d.sp n).drv.tensionLow = true ∨
    (10 * d.fget (pgMotion n) Reg.MOTION.TENSION < 7 * tensionEff (d.fget (pgMotion n) Reg.MOTION.TENSION_SET) ∨
     13 * tensionEff (d.fget (pgMotion n) Reg.MOTION.TENSION_SET) < 10 * d.fget (pgMotion n) Reg.MOTION.TENSION) := by
  simp [Dev.tensionBad, tensionOff]

theorem Dev.tensionSet_of_stopped (h : (d.sp n).drv.tapeStopped = true) {e : Dev}
    (he : e = d.modDrv n (fun x => { x with needTension := false, tensionLow := false })) :
    d.tensionSet n = if d.cartState n = 2 ∧ d.phase n = 3 then ((e.loadPhase n 4).headTo n 0).loadRuns n 1 else e.moveOn n := by
  subst he
  simp only [Dev.tensionSet, h, Bool.not_true, Bool.false_eq_true, if_false, Bool.and_eq_true, decide_eq_true_eq]
  rfl

theorem Dev.servoAcquired_of_load (hn : (d.sp n).drv.needTension = false) (hc : d.cartState n = 2) (hp : d.phase n = 4) :
    d.servoAcquired n = (((d.servoBack n).modDrv n (fun x => { x with errSums := [] })).loadPhase n 5).loadRuns n 2 := by
  simp [Dev.servoAcquired, hn, hc, hp]

theorem Dev.servoAcquired_of_lost (hn : (d.sp n).drv.needTension = false) (h : ¬ (d.cartState n = 2 ∧ d.phase n = 4))
    (hl : (d.sp n).drv.lost = true) (hs : (d.sp n).drv.tapeStopped = true) :
    d.servoAcquired n = if d.cartState n = 2 then (d.servoBack n).loadRuns n 2 else (d.servoBack n).moveOn n := by
  have hload : (decide (d.cartState n = 2) && decide (d.phase n = 4) && !(d.sp n).drv.needTension) = false := by
    simpa [hn] using h
  unfold Dev.servoAcquired
  rw [hload, if_neg Bool.false_ne_true, if_pos (by simp [hl, hs, hn])]

end

end Sys2Proof.Machine
end

section
/-! The statement about servo and tension. -/

namespace Sys2Proof.Proofs

open Sys2Proof.Machine

/-- A servo frame: what the sample leaves, and what a frame's words and the end of a wrap keep of it. -/
theorem servoFrame_completes (s : State) (n : Fin 8) (ts : List ReaderTimes) (cs ds : List (List Int)) (rs : List ReaderFrame)
    (hrs : rs = ReaderFrame.join ts cs ds) : Completes (.servoFrame n ts cs ds) s (fun t =>
      t.dev.fget (pgServo n) Reg.SERVO.READERS = readersMask rs % 2 ^ Reg.SERVO.READERS.w ∧
      (sampleValid (readersMask rs) = true → s.dev.unsettled (pgServo n) = false →
        t.dev.fget (pgServo n) Reg.SERVO.VALID = 1 ∧ (t.dev.sp n).drv.invalidRun = 0 ∧
        t.dev.fget (pgServo n) Reg.SERVO.PES = toField 16 (meanInt (s.dev.readerErrors n rs [0, 1, 2, 3])) % 65536 ∧
        (t.dev.sp n).wr.pesGood = (if 90 < (meanInt (s.dev.readerErrors n rs [0, 1, 2, 3])).natAbs then 0 else min 4 ((s.dev.sp n).wr.pesGood + 1))) ∧
      (sampleValid (readersMask rs) = false →
        t.dev.fget (pgServo n) Reg.SERVO.VALID = 0 ∧ t.dev.fget (pgServo n) Reg.SERVO.INVALID = 1 ∧
        (t.dev.sp n).drv.invalidRun = (s.dev.sp n).drv.invalidRun + 1 ∧ (t.dev.sp n).wr.pesGood = 0 ∧ (t.dev.sp n).wr.winh = true ∧
        (t.dev.sp n).drv.lastAct = (s.dev.sp n).drv.lastAct) ∧
      (∀ m, m ≠ n.val → t.dev.sp m = s.dev.sp m)) := by
  subst hrs
  refine .of_onDev (exec_servoFrame n ts cs ds s) ?_
  rw [State.modDev_dev]
  generalize ReaderFrame.join ts cs ds = rs
  have ht := s.dev.timed_keeps n rs
  cases hv : sampleValid (readersMask rs) with
  | true =>
    obtain ⟨e, pes, tw, hist, he, hpes, hb⟩ := (s.dev.timed n rs).validSample_keeps n rs
    have hk := hb.trans ((Dev.servoFrame_of_valid (d := s.dev) (n := n) hv).map (fun x => (x.1, x.2.1)) fun _ => rfl)
    have hpart : validPart ((s.dev.servoFrame n rs).sp n) = (if 90 < pes.natAbs then 0 else min 4 ((s.dev.sp n).wr.pesGood + 1), 0) := by
      rw [hk.part, Dev.sampled_part, he.part]
      exact congrArg (fun x : Nat × Nat × Nat => (if 90 < pes.natAbs then 0 else min 4 (x.1 + 1), 0)) ht.part
    obtain ⟨hgood, hrun⟩ := Prod.mk.inj hpart
    refine ⟨?_, fun _ hu => ?_, fun h => absurd h.symm Bool.false_ne_true, fun m hm => ?_⟩
    · rw [hk.regs _ (by decide), Dev.sampled_READERS, he.regs _ (by decide), Dev.timed_READERS]
    · have hmean : pes = meanInt (s.dev.readerErrors n rs [0, 1, 2, 3]) := by
        rw [hpes (by rw [Dev.timed_unsettled, hu]), Dev.timed_readerErrors]
      rw [← hmean, hk.regs _ (by decide), Dev.sampled_VALID, hk.regs _ (by decide), Dev.sampled_PES]
      exact ⟨rfl, hrun, rfl, hgood⟩
    · rw [hk.others m hm, Dev.sp_sampled_other _ _ _ _ _ _ hm, he.others m hm, ht.others m hm]
      rfl
  | false =>
    obtain ⟨hk, hw⟩ := Dev.servoFrame_of_invalid (d := s.dev) (n := n) hv
    have hm := ((s.dev.timed n rs).missed_keeps n).trans hk
    have hpart : samplePart ((s.dev.servoFrame n rs).sp n) = (0, (s.dev.sp n).drv.invalidRun + 1, (s.dev.sp n).drv.lastAct) := by
      rw [hm.part, Dev.sp_missed]
      exact congrArg (fun x : Nat × Nat × Nat => (0, x.2.1 + 1, x.2.2)) ht.part
    obtain ⟨hgood, hrest⟩ := Prod.mk.inj hpart
    obtain ⟨hrun, hact⟩ := Prod.mk.inj hrest
    refine ⟨?_, fun h => absurd h Bool.false_ne_true, fun _ => ⟨?_, ?_, hrun, hgood, hw, hact⟩, fun m hm' => ?_⟩
    · rw [hm.regs _ (by decide), Dev.missed_READERS, Dev.timed_READERS]
    · rw [hm.regs _ (by decide), Dev.missed_VALID]
    · rw [hm.regs _ (by decide), Dev.missed_INVALID]
    · rw [hm.others m hm', Dev.sp_missed_other _ _ hm', ht.others m hm']
      rfl

/-- Settles O18. -/
theorem servoAndTension : Obligations.ServoAndTension := by
  refine ⟨servoFrame_completes, fun s n => ⟨fun h => ?_, fun h hl hs => .of_onDev (exec_servoLost n s) ?_,
    fun h hs => .of_onDev (exec_tensionFault n s) ?_, fun h => ?_, Dev.tensionBad_iff⟩,
    fun s n h e he => .of_onSpoke (exec_tensionEstablished n s) ⟨fun hc hp => ?_, fun hn => ?_⟩,
    fun s n hn e he => ⟨fun hc hp => .of_onSpoke (exec_servoReacquired n s) ?_, fun h hl hs => .of_onSpoke (exec_servoReacquired n s) ?_⟩⟩
  · exact (exec_servoLost n s).trans (State.onDev_of_eq (f := fun d => d.servoLost n) (Dev.servoLost_of_few h))
  · rw [State.modDev_dev, Dev.servoLost_of_run h hl]
    exact Dev.lostStop_spec hs rfl
  · rw [State.modDev_dev, Dev.tensionFault_of_bad h]
    exact Dev.faultStop_spec hs rfl
  · exact (exec_tensionFault n s).trans (State.onDev_of_eq (f := fun d => d.tensionFault n) (Dev.tensionFault_of_good h))
  · exact (Dev.tensionSet_of_stopped h he).trans (if_pos ⟨hc, hp⟩)
  · exact (Dev.tensionSet_of_stopped h he).trans (if_neg hn)
  · subst he
    exact Dev.servoAcquired_of_load hn hc hp
  · subst he
    exact Dev.servoAcquired_of_lost hn h hl hs

end Sys2Proof.Proofs
end

section
/-! A reel cycle (R176, R190, R192, R196). -/

namespace Sys2Proof.Machine

theorem exec_reelCycle (n : Fin 8) (echo : Option Nat) (s : State) :
    exec (.reelCycle ⟨n, echo⟩) s = s.onDev (fun d => d.reelCycle n echo) := rfl

theorem pgMotion_ne_pgLink (n : Nat) : pgMotion n ≠ pgLink n := fun h => absurd (Nat.add_left_cancel h) (by decide)
theorem pgLink_ne_pgMgmt (n : Nat) : pgLink n ≠ pgMgmt := by unfold pgLink pgMgmt spokeRegion; exact Nat.ne_of_gt (by omega)
theorem pgMotion_ne_pgMgmt (n : Nat) : pgMotion n ≠ pgMgmt := by unfold pgMotion pgMgmt spokeRegion; exact Nat.ne_of_gt (by omega)

section ctl

variable {d : Dev} {n ty : Nat} {l : List Byte}

theorem Dev.ctl_of_fenced (h : d.fenced n = true) : d.ctl n ty l = d := by simp [Dev.ctl, h]

theorem Dev.out_ctl_of_open (h : d.fenced n = false) :
    (d.ctl n ty l).out = .ctl n (linkFrame ty (d.sp n).drv.txSeq l) :: d.out := by
  simp only [Dev.ctl, h]
  rfl

/-- A message changes nothing in the drive but its SEQ. -/
theorem Dev.drv_ctl {α : Type} (p : Drive → α) (hp : ∀ x k, p { x with txSeq := k } = p x := by exact fun _ _ => rfl) (d : Dev) (n ty : Nat)
    (l : List Byte) : p ((d.ctl n ty l).sp n).drv = p (d.sp n).drv :=
  ((Dev.Keeps.refl (n := n) (pg := pgMotion n) (p := fun s => p s.drv) (fs := []) d).ctl ty l (pgMotion_ne_pgLink n).symm
    fun s k => hp s.drv k).part

theorem Dev.sp_ctl_other (d : Dev) {n m : Nat} (ty : Nat) (l : List Byte) (h : m ≠ n) : (d.ctl n ty l).sp m = d.sp m :=
  ((Dev.Keeps.refl (pg := pgMotion n) (p := fun _ => ()) (fs := []) d).ctl ty l (pgMotion_ne_pgLink n).symm).others m h

theorem Dev.fget_ctl (d : Dev) (n ty : Nat) (l : List Byte) {pg : PageId} (f : Fld) (h : pgLink n ≠ pg) :
    (d.ctl n ty l).fget pg f = d.fget pg f :=
  ((Dev.Keeps.refl (p := fun _ => ()) (fs := [f]) d).ctl ty l h).regs f (List.mem_singleton.mpr rfl)

/-- Of its own page a message counts UNITS and TX_FRAMES (R201). -/
theorem Dev.fget_ctl_link (d : Dev) (n ty : Nat) (l : List Byte) {f : Fld} (h : Reg.LINK.TX_FRAMES.slot ≠ f.slot)
    (hu : Reg.HEADER.UNITS.slot ≠ f.slot) : (d.ctl n ty l).fget (pgLink n) f = d.fget (pgLink n) f := by
  unfold Dev.ctl
  dsimp only
  split
  · rfl
  · rw [Dev.unit_eq, Dev.bump_eq, Dev.fget_fset_slot _ _ _ _ hu, Dev.bump_eq, Dev.fget_fset_slot _ _ _ _ h]
    rfl

theorem Dev.free_ctl (d : Dev) (n ty : Nat) (l : List Byte) : (d.ctl n ty l).free = d.free := by
  unfold Dev.ctl
  dsimp only
  split <;> rfl

end ctl

/-! ### The parts of a cycle -/

/-- The radius of a reel that turned `delta` counts at velocity `v`, in field `f`. -/
def Dev.radius (d : Dev) (n : Nat) (f : Fld) (v : Int) (delta : Nat) : Dev :=
  if delta = 0 then d else d.fset (pgMotion n) f (reelRadius v delta)

/-- What a cycle does to the registers: the radii of the reels that turned, its unit, and the cadence echo. -/
def Dev.reeled (d : Dev) (n : Nat) (echo : Option Nat) : Dev :=
  (((d.radius n Reg.MOTION.SUPPLY_R (d.reelVelocity n) (d.sp n).drv.dSupply).radius n Reg.MOTION.TAKEUP_R (d.reelVelocity n)
    (d.sp n).drv.dTakeup).unit (pgMotion n)).echoSeen n echo

section reeled

variable (d : Dev) (n : Nat) (f : Fld) (v : Int) (delta : Nat) (echo : Option Nat)

theorem Dev.regsOnly_radius : d.regsOnly (d.radius n f v delta) := by
  unfold Dev.radius
  split
  · exact .refl d
  · exact Dev.regsOnly_fset ..

theorem Dev.regsOnly_echoSeen : d.regsOnly (d.echoSeen n echo) := by
  unfold Dev.echoSeen
  split
  · exact Dev.regsOnly_refl d
  · split
    · exact Dev.regsOnly_refl d
    · dsimp only
      split
      · exact (Dev.regsOnly_fset ..).trans (Dev.regsOnly_fset ..)
      · exact Dev.regsOnly_fset ..

theorem Dev.regsOnly_reeled : d.regsOnly (d.reeled n echo) :=
  (((Dev.regsOnly_radius ..).trans (Dev.regsOnly_radius ..)).trans (Dev.regsOnly_fset ..)).trans (Dev.regsOnly_echoSeen ..)

theorem Dev.fget_radius_slot (pg : PageId) {g : Fld} (h : pgMotion n ≠ pg ∨ f.slot ≠ g.slot) : (d.radius n f v delta).fget pg g = d.fget pg g := by
  unfold Dev.radius
  split
  · rfl
  · rw [Dev.fget_fset, if_neg (fun hc => h.elim (· hc.1) (· hc.2))]

theorem Dev.fget_radius_same (h : delta ≠ 0) : (d.radius n f v delta).fget (pgMotion n) f = reelRadius v delta % 2 ^ f.w := by
  rw [Dev.radius, if_neg h, Dev.fget_fset_same]

theorem Dev.fget_echoSeen_page {pg : PageId} (g : Fld) (h : pgLink n ≠ pg) : (d.echoSeen n echo).fget pg g = d.fget pg g := by
  unfold Dev.echoSeen
  split
  · rfl
  · split
    · rfl
    · dsimp only
      split
      · rw [Dev.clr_eq, Dev.fget_fset_page _ _ _ _ h, Dev.fget_fset_page _ _ _ _ h]
      · rw [Dev.fget_fset_page _ _ _ _ h]

/-- A cadence echo seen (R190, R201). -/
theorem Dev.echoSeen_some {e : Nat} (h : d.fon (pgLink n) Reg.LINK.CAD_ON = true) :
    (d.echoSeen n (some e)).fget (pgLink n) Reg.LINK.ECHO_DELAY = min 65535 e % 2 ^ Reg.LINK.ECHO_DELAY.w ∧
    (e ≤ 200 → (d.echoSeen n (some e)).fget (pgLink n) Reg.LINK.ECHO_LOST = 0) := by
  unfold Dev.echoSeen
  simp only [h, Bool.not_true, Bool.false_eq_true, if_false]
  refine ⟨?_, fun he => ?_⟩
  · split
    · rw [Dev.clr_eq, Dev.fget_fset_slot _ _ _ _ (by decide), Dev.fget_fset_same]
    · rw [Dev.fget_fset_same]
  · rw [if_pos he, Dev.clr_eq, Dev.fget_fset_same, Nat.zero_mod]

theorem Dev.fget_reeled_page {pg : PageId} (g : Fld) (h : pgLink n ≠ pg) (hm : pgMotion n ≠ pg) : (d.reeled n echo).fget pg g = d.fget pg g := by
  rw [Dev.reeled, Dev.fget_echoSeen_page _ _ _ _ h, Dev.unit_eq, Dev.bump_eq, Dev.fget_fset_page _ _ _ _ hm,
    Dev.fget_radius_slot _ _ _ _ _ _ (.inl hm), Dev.fget_radius_slot _ _ _ _ _ _ (.inl hm)]

theorem Dev.reeled_SUPPLY_R (h : (d.sp n).drv.dSupply ≠ 0) :
    (d.reeled n echo).fget (pgMotion n) Reg.MOTION.SUPPLY_R = reelRadius (d.reelVelocity n) (d.sp n).drv.dSupply % 65536 := by
  rw [Dev.reeled, Dev.fget_echoSeen_page _ _ _ _ (pgMotion_ne_pgLink n).symm, Dev.unit_eq, Dev.bump_eq, Dev.fget_fset_slot _ _ _ _ (by decide),
    Dev.fget_radius_slot _ _ _ _ _ _ (.inr (by decide)), Dev.fget_radius_same _ _ _ _ _ h]
  rfl

theorem Dev.reeled_echo {e : Nat} (h : d.fon (pgLink n) Reg.LINK.CAD_ON = true) :
    (d.reeled n (some e)).fget (pgLink n) Reg.LINK.ECHO_DELAY = min 65535 e % 2 ^ Reg.LINK.ECHO_DELAY.w ∧
    (e ≤ 200 → (d.reeled n (some e)).fget (pgLink n) Reg.LINK.ECHO_LOST = 0) := by
  refine Dev.echoSeen_some _ n ?_
  rw [Dev.fon, Dev.unit_eq, Dev.bump_eq, Dev.fget_fset_page _ _ _ _ (pgMotion_ne_pgLink n),
    Dev.fget_radius_slot _ _ _ _ _ _ (.inl (pgMotion_ne_pgLink n)), Dev.fget_radius_slot _ _ _ _ _ _ (.inl (pgMotion_ne_pgLink n))]
  exact h

theorem Dev.reelCycle_of_unload (h : (d.sp n).drv.unloadStep = 4) : d.reelCycle n echo =
    (((d.reeled n echo).modDrv n (fun x => { x with needTension := true, unloadStep := 5 })).reelSend n 0 0).mech n 2 := if_pos h

theorem Dev.reelCycle_of_loop (h : (d.sp n).drv.unloadStep ≠ 4) : d.reelCycle n echo =
    (d.reeled n echo).nextFree.nextFree.reelSend n ((d.reeled n echo).freeVal % 65536) ((d.reeled n echo).nextFree.freeVal % 65536) := if_neg h

end reeled

/-! ### What a change of registers alone leaves -/

namespace Dev.regsOnly

variable {d e : Dev}

theorem sp (h : d.regsOnly e) (m : Nat) : e.sp m = d.sp m := by
  have hs := congrArg (fun x : Dev => x.sp m) h
  exact hs

theorem free (h : d.regsOnly e) : e.free = d.free := by
  have hs := congrArg Dev.free h
  exact hs

theorem out (h : d.regsOnly e) : e.out = d.out := by
  have hs := congrArg Dev.out h
  exact hs

end Dev.regsOnly

end Sys2Proof.Machine
end

section
/-! The statement about reel cycles. -/

namespace Sys2Proof.Proofs

open Sys2Proof.Machine

/-- Settles O19: the registers of a cycle, then its one message. -/
theorem reelCycles : Obligations.ReelCycles := by
  refine fun s n echo => ⟨fun hu => .of_onDev (exec_reelCycle n echo s) ?_, fun hu => .of_onDev (exec_reelCycle n echo s) ?_⟩ <;>
    have hr := s.dev.regsOnly_reeled n echo
  · have hf0 : (s.dev.reeled n echo).freeVal = s.dev.freeVal := congrArg Config.freeValue hr.free
    have hf1 : (s.dev.reeled n echo).nextFree.freeVal = s.dev.nextFree.freeVal := congrArg (fun k => Config.freeValue (k + 1)) hr.free
    rw [State.modDev_dev, Dev.reelCycle_of_loop _ _ _ hu, Dev.reelSend, hf0, hf1]
    generalize he : (s.dev.reeled n echo).nextFree.nextFree.modDrv n (fun x =>
      { x with reelI := (s.dev.freeVal % 65536, s.dev.nextFree.freeVal % 65536) }) = e
    have hfget (pg : PageId) (f : Fld) : e.fget pg f = (s.dev.reeled n echo).fget pg f := by
      rw [← he, Dev.fget_modDrv]
      rfl
    have hfenced : e.fenced n = s.dev.fenced n := by
      simp only [Dev.fenced]
      rw [hfget, Dev.fget_reeled_page _ _ _ _ (pgLink_ne_pgMgmt n) (pgMotion_ne_pgMgmt n)]
    have hout : e.out = s.dev.out := by
      rw [← he]
      exact hr.out
    have hseq : (e.sp n).drv.txSeq = (s.dev.sp n).drv.txSeq := by
      rw [← he, Dev.drv_modDrv_same]
      exact congrArg (fun x : Spoke => x.drv.txSeq) (hr.sp n)
    refine ⟨?_, ?_, fun h => ?_, fun h => ?_, fun m hm => ?_, fun h => ?_, fun k hk hc => ?_⟩
    · rw [Dev.drv_ctl Drive.reelI, ← he, Dev.drv_modDrv_same]
    · rw [Dev.free_ctl, ← he]
      exact congrArg (· + 2) hr.free
    · rw [Dev.out_ctl_of_open (hfenced.trans h), hout, hseq]
    · rw [Dev.ctl_of_fenced (hfenced.trans h), hout]
    · rw [Dev.sp_ctl_other _ _ _ hm, ← he, Dev.modDrv_eq, Dev.sp_modSp_other _ _ hm]
      exact hr.sp m
    · rw [Dev.fget_ctl _ _ _ _ _ (pgMotion_ne_pgLink n).symm, hfget, Dev.reeled_SUPPLY_R _ _ _ h]
    · subst hk
      rw [Dev.fget_ctl_link _ _ _ _ (by decide) (by decide), hfget, Dev.fget_ctl_link _ _ _ _ (by decide) (by decide), hfget]
      exact Dev.reeled_echo _ _ hc
  · rw [State.modDev_dev, Dev.reelCycle_of_unload _ _ _ hu, Dev.reelSend, Dev.mech]
    refine ⟨?_, ?_, ?_, ?_⟩
    · rw [Dev.drv_ctl Drive.reelI, Dev.drv_ctl Drive.reelI, Dev.drv_modDrv_same]
    · rw [Dev.drv_ctl Drive.unloadStep, Dev.drv_ctl Drive.unloadStep, Dev.drv_modDrv_same, Dev.drv_modDrv_same]
    · rw [Dev.drv_ctl Drive.needTension, Dev.drv_ctl Drive.needTension, Dev.drv_modDrv_same, Dev.drv_modDrv_same]
    · rw [Dev.free_ctl, Dev.free_ctl]
      exact hr.free

end Sys2Proof.Proofs
end

section
/-! Shifts, dwells and the watermark rule (R179 to R181). -/

namespace Sys2Proof.Machine

theorem exec_shiftComplete (n : Fin 8) (s : State) : exec (.shiftComplete n) s = s.onSpoke n (fun d => d.shiftComplete n) := rfl
theorem exec_dwellEnd (n : Fin 8) (s : State) : exec (.dwellEnd n) s = s.onDev (fun d => d.dwellEnd n) := rfl

variable {d e : Dev} {n : Nat}

theorem Dev.shiftComplete_of_none (h : d.fon (pgDr n) Reg.DERAILLEUR.SHIFTING = false) : d.shiftComplete n = d := by
  simp [Dev.shiftComplete, h]

/-- What a shift's end leaves, but for the dwell (R179). -/
theorem Dev.shiftComplete_of_shifting (h : d.fon (pgDr n) Reg.DERAILLEUR.SHIFTING = true)
    (he : e = ((((d.fset (pgDr n) Reg.DERAILLEUR.SHIFTING 0).fset (pgDr n) Reg.DERAILLEUR.CUR_COG
      (d.fget (pgDr n) Reg.DERAILLEUR.TARGET_COG)).bump (pgDr n) Reg.DERAILLEUR.SHIFTS 1).modDrv n (fun x =>
      { x with fillAtDone := d.fget (pgWriter n) Reg.WRITER.FILL_MIB,
               raFillAtDone := d.fget (pgDr n) Reg.DERAILLEUR.RA_FILL_MIB })).setMotion n 2) :
    d.shiftComplete n = (if d.fget (pgDr n) Reg.DERAILLEUR.SHIFT_DWELL = 0 then (e.fset (pgDr n) Reg.DERAILLEUR.DWELL 0).drEval n
      else e.fset (pgDr n) Reg.DERAILLEUR.DWELL 1).raLimit n := by
  have hpage : pgDr n ≠ pgWriter n := fun h => absurd (Nat.add_left_cancel h) (by decide)
  have hdwell : e.fget (pgDr n) Reg.DERAILLEUR.SHIFT_DWELL = d.fget (pgDr n) Reg.DERAILLEUR.SHIFT_DWELL := by
    rw [he, Dev.setMotion, Dev.fget_fset_page _ _ _ _ pgMotion_ne_pgDr, Dev.fget_modDrv, Dev.bump_eq, Dev.fget_fset_slot _ _ _ _ (by decide),
      Dev.fget_fset_slot _ _ _ _ (by decide), Dev.fget_fset_slot _ _ _ _ (by decide)]
  have hfill (f : Dev) (hf : f = ((d.fset (pgDr n) Reg.DERAILLEUR.SHIFTING 0).fset (pgDr n) Reg.DERAILLEUR.CUR_COG
      (d.fget (pgDr n) Reg.DERAILLEUR.TARGET_COG)).bump (pgDr n) Reg.DERAILLEUR.SHIFTS 1) :
      f.fget (pgWriter n) Reg.WRITER.FILL_MIB = d.fget (pgWriter n) Reg.WRITER.FILL_MIB ∧
      f.fget (pgDr n) Reg.DERAILLEUR.RA_FILL_MIB = d.fget (pgDr n) Reg.DERAILLEUR.RA_FILL_MIB := by
    rw [hf, Dev.bump_eq, Dev.fget_fset_page _ _ _ _ hpage, Dev.fget_fset_page _ _ _ _ hpage, Dev.fget_fset_page _ _ _ _ hpage,
      Dev.fget_fset_slot _ _ _ _ (by decide), Dev.fget_fset_slot _ _ _ _ (by decide), Dev.fget_fset_slot _ _ _ _ (by decide)]
    exact ⟨rfl, rfl⟩
  obtain ⟨hw, hr⟩ := hfill _ rfl
  simp only [Dev.shiftComplete, h, Bool.not_true, Bool.false_eq_true, if_false, Dev.clr_eq, Dev.ev_eq, hw, hr, ← he, hdwell]

theorem Dev.dwellEnd_of_dwell (h : d.fon (pgDr n) Reg.DERAILLEUR.DWELL = true) :
    d.dwellEnd n = (d.fset (pgDr n) Reg.DERAILLEUR.DWELL 0).drEval n := if_pos h

theorem Dev.dwellEnd_of_none (h : d.fon (pgDr n) Reg.DERAILLEUR.DWELL = false) : d.dwellEnd n = d := if_neg (Bool.eq_false_iff.mp h)

/-! ### The watermark rule (R180, R181) -/

theorem Dev.drEval_of_idle (h : (d.sp n).drv.streaming = false ∨ d.mode (pgDr n) = 1 ∨ d.fon (pgDr n) Reg.DERAILLEUR.SHIFTING = true ∨
    d.fon (pgDr n) Reg.DERAILLEUR.DWELL = true) : d.drEval n = d := by
  refine if_pos ?_
  simpa [or_assoc] using h

section evaluated

variable (hs : (d.sp n).drv.streaming = true) (hm : d.mode (pgDr n) ≠ 1) (hsh : d.fon (pgDr n) Reg.DERAILLEUR.SHIFTING = false)
  (hdw : d.fon (pgDr n) Reg.DERAILLEUR.DWELL = false)

include hs hm hsh hdw

/-- A pair that is UB-5, and a block under UB-4, make the target a free cog (R417). -/
theorem Dev.drEval_of_free (h : (d.pairBroken n || d.unsettled (pgDr n)) = true) : d.drEval n =
    if d.freeCog n = d.fget (pgDr n) Reg.DERAILLEUR.TARGET_COG then d.nextFree else d.nextFree.shiftTo n (d.freeCog n) := by
  unfold Dev.drEval
  dsimp only
  rw [if_neg (by simp [hs, hm, hsh, hdw]), if_pos h]

/-- The rule as R181 gives it. -/
theorem Dev.drEval_of_rule (h : (d.pairBroken n || d.unsettled (pgDr n)) = false) {t : Nat} (ht : t = d.fget (pgDr n) Reg.DERAILLEUR.TARGET_COG) :
    d.drEval n = if (d.shiftInputs n).1 = true ∧ t < 12 then (d.shiftTo n (t + 1)).ev (pgDr n) Reg.DERAILLEUR.DOWNSHIFT
      else if (d.shiftInputs n).2 = true ∧ d.capOf n < t then (d.shiftTo n (t - 1)).ev (pgDr n) Reg.DERAILLEUR.UPSHIFT else d := by
  unfold Dev.drEval
  dsimp only
  rw [if_neg (by simp [hs, hm, hsh, hdw]), if_neg (Bool.eq_false_iff.mp h), ← ht, shiftWish]
  simp only [Bool.and_eq_true, decide_eq_true_eq]
  split
  · rfl
  · split <;> rfl

end evaluated

theorem Dev.targetCog_shiftTo_ev (t : Nat) (f : Fld) (hf : f.slot ≠ Reg.DERAILLEUR.TARGET_COG.slot) (h : (d.sp n).drv.streaming = true) (ht : t ≤ 12) :
    ((d.shiftTo n t).ev (pgDr n) f).fget (pgDr n) Reg.DERAILLEUR.TARGET_COG = t := by
  rw [Dev.ev_eq, Dev.fget_fset_slot _ _ _ _ hf, Dev.targetCog_shiftTo t h, Nat.mod_eq_of_lt (by omega)]

theorem Dev.freeCog_within (h : d.capOf n ≤ 12) : d.capOf n ≤ d.freeCog n ∧ d.freeCog n ≤ 12 := by
  have hlt : d.freeVal % (13 - d.capOf n) < 13 - d.capOf n := Nat.mod_lt _ (by omega)
  simp only [Dev.freeCog]
  omega

end Sys2Proof.Machine
end

section
/-! The statement about cogs and shifts. -/

namespace Sys2Proof.Proofs

open Sys2Proof.Machine

/-- Settles O20: the rule moves the target by one cog where it moves it, a free cog lies within the cap, and a shift's end is its target. -/
theorem cogsAndShifts : Obligations.CogsAndShifts := by
  refine ⟨fun s n => ⟨fun h e he => .of_onSpoke (exec_shiftComplete n s) ⟨fun hd => ?_, fun hd => ?_⟩, fun h => ?_, fun h => ?_, fun h => ?_⟩,
    fun d n => ⟨Dev.drEval_of_idle, fun hs hm hsh hdw hcap hlo hhi => ?_⟩⟩
  · rw [Dev.shiftComplete_of_shifting h he, if_neg hd]
  · rw [Dev.shiftComplete_of_shifting h he, if_pos hd]
  · rw [exec_shiftComplete]
    exact next_modDev_congr (congrArg (Dev.follow · n) (Dev.shiftComplete_of_none h))
  · rw [exec_dwellEnd]
    exact next_modDev_congr (Dev.dwellEnd_of_dwell h)
  · exact (exec_dwellEnd n s).trans (State.onDev_of_eq (f := fun d => d.dwellEnd n) (Dev.dwellEnd_of_none h))
  · generalize ht : d.fget (pgDr n) Reg.DERAILLEUR.TARGET_COG = t at *
    cases hfree : (d.pairBroken n || d.unsettled (pgDr n)) with
    | true =>
      obtain ⟨hclo, hchi⟩ := Dev.freeCog_within hcap
      have htarget : d.capOf n ≤ (d.drEval n).fget (pgDr n) Reg.DERAILLEUR.TARGET_COG ∧
          (d.drEval n).fget (pgDr n) Reg.DERAILLEUR.TARGET_COG ≤ 12 := by
        rw [Dev.drEval_of_free hs hm hsh hdw hfree]
        split
        · exact ht ▸ ⟨hlo, hhi⟩
        · rw [Dev.targetCog_shiftTo (d := d.nextFree) _ hs, Nat.mod_eq_of_lt (by omega)]
          exact ⟨hclo, hchi⟩
      exact ⟨htarget.1, htarget.2, fun hp hu => absurd hfree (by simp [hp, hu])⟩
    | false =>
      have hrule := Dev.drEval_of_rule hs hm hsh hdw hfree ht.symm
      have hdown := Dev.targetCog_shiftTo_ev (d := d) (n := n) (t + 1) Reg.DERAILLEUR.DOWNSHIFT (by decide) hs
      have hup := Dev.targetCog_shiftTo_ev (d := d) (n := n) (t - 1) Reg.DERAILLEUR.UPSHIFT (by decide) hs
      by_cases h1 : (d.shiftInputs n).1 = true ∧ t < 12
      · rw [if_pos h1] at hrule
        rw [hrule, hdown (by omega)]
        refine ⟨by omega, by omega, fun _ _ => ⟨fun _ _ => rfl, fun hi _ => ?_, fun hi => ?_⟩⟩ <;> simp [hi] at h1
      · rw [if_neg h1] at hrule
        by_cases h2 : (d.shiftInputs n).2 = true ∧ d.capOf n < t
        · rw [if_pos h2] at hrule
          rw [hrule, hup (by omega)]
          refine ⟨by omega, by omega, fun _ _ => ⟨fun hi hlt => absurd ⟨hi, hlt⟩ h1, fun _ _ => rfl, fun hi => ?_⟩⟩
          simp [hi] at h2
        · rw [if_neg h2] at hrule
          rw [hrule, ht]
          exact ⟨hlo, hhi, fun _ _ => ⟨fun hi hlt => absurd ⟨hi, hlt⟩ h1, fun hi hlt => absurd ⟨by rw [hi], hlt⟩ h2, fun _ => rfl⟩⟩

end Sys2Proof.Proofs
end

section
/-! The tape at rest, parked, running up and reaching a place (R176, R182, R185 to R187). -/

namespace Sys2Proof.Machine

theorem exec_tapeStopped (n : Fin 8) (s : State) : exec (.tapeStopped n) s = s.onSpoke n (fun d => d.tapeStops n) := rfl
theorem exec_parkComplete (n : Fin 8) (s : State) : exec (.parkComplete n) s = s.onSpoke n (fun d => d.parkDone n) := rfl
theorem exec_runUpStart (n : Fin 8) (s : State) : exec (.runUpStart n) s = s.onDev (fun d => d.runUpStart n) := rfl
theorem exec_runUpComplete (n : Fin 8) (s : State) : exec (.runUpComplete n) s = s.onSpoke n (fun d => d.runUpDone n) := rfl
theorem exec_locateComplete (n : Fin 8) (s : State) : exec (.locateComplete n) s = s.onSpoke n (fun d => d.locateDone n) := rfl
theorem exec_readResume (n : Fin 8) (s : State) : exec (.readResume n) s = s.onSpoke n (fun d => d.readResume n) := rfl

variable {d e : Dev} {n : Nat}

theorem Dev.rd_modDrv (d : Dev) (n : Nat) (f : Drive → Drive) : (d.modDrv n f).rd n = d.rd n := by
  simp [Dev.rd, Dev.modDrv_eq]

theorem Dev.lad_modDrv (d : Dev) (n : Nat) (f : Drive → Drive) : (d.modDrv n f).lad n = d.lad n := by
  simp [Dev.lad, Dev.rd_modDrv]

theorem Dev.tapeStops_of_moving (hs : (d.sp n).drv.streaming = false) (ht : (d.sp n).drv.tapeStopped = false)
    (hst : d.fget (pgMotion n) Reg.MOTION.STATE = 5 ∨ d.fget (pgMotion n) Reg.MOTION.STATE = 6)
    (he : e = d.modDrv n (fun x => { x with tapeStopped := true, ctrlStop := false })) :
    d.tapeStops n = ((if (d.sp n).drv.reelFault || (d.sp n).drv.mechFault then e.setMotion n 7
      else if d.fget (pgMotion n) Reg.MOTION.STATE = 5 || (d.rd n).stopped || ((d.lad n).parks && (d.sp n).drv.target.isNone) then
        (e.setMotion n 5).fput (pgMotion n) Reg.MOTION.DIR (!wrapForward (d.sp n).drv.head)
      else e.setMotion n 0).moveOn n).goOn n := by
  have hmove : ((d.sp n).drv.streaming || (d.sp n).drv.tapeStopped ||
      (d.fget (pgMotion n) Reg.MOTION.STATE != 5 && d.fget (pgMotion n) Reg.MOTION.STATE != 6)) = false := by
    rcases hst with h | h <;> simp [hs, ht, h]
  unfold Dev.tapeStops
  dsimp only
  rw [if_neg (Bool.eq_false_iff.mp hmove), ← he, ← Dev.rd_modDrv d n (fun x => { x with tapeStopped := true, ctrlStop := false }),
    ← Dev.lad_modDrv d n (fun x => { x with tapeStopped := true, ctrlStop := false }), ← he]

theorem Dev.parkDone_of_park (ht : (d.sp n).drv.tapeStopped = true) (hst : d.fget (pgMotion n) Reg.MOTION.STATE = 5) (hm : d.mayMove n = true) :
    d.parkDone n = (((((d.modDrv n (fun x => { x with parked := true })).setMotion n 0).fset (pgMotion n)
      Reg.MOTION.REPOSITION 1).bump (pgMotion n) Reg.MOTION.REPOSITIONS 1).ladderStopped n).goOn n := by
  simp only [Dev.parkDone, ht, hst, hm, Bool.not_true, ne_eq, not_true_eq_false, decide_false, Bool.or_self, Bool.false_eq_true, if_false,
    Dev.ev_eq]

theorem Dev.runUpStart_of_write (he : e = d.sealNext n) (hr : (e.sp n).drv.runUp = false)
    (ht : (e.sp n).drv.turning = false ∨ (e.rd n).locating = none) (hm : e.mayRun n = true) :
    d.runUpStart n = e.runUpTo n (e.sp n).wr.wrap := by
  have hread : ((e.sp n).drv.turning && (e.rd n).locating.isSome) = false := by rcases ht with h | h <;> simp [h]
  simp only [Dev.runUpStart, ← he, hr, hread, hm, Bool.not_true, Bool.false_eq_true, if_false]

theorem Dev.runUpStart_of_read (he : e = d.sealNext n) (hr : (e.sp n).drv.runUp = false)
    (ht : (e.sp n).drv.turning = true) (hl : (e.rd n).locating ≠ none) (hm : e.mayMove n = true) :
    d.runUpStart n = (e.modDrv n (fun x => { x with runUp := true, tapeStopped := false })).setMotion n 1 := by
  have hread : ((e.sp n).drv.turning && (e.rd n).locating.isSome) = true := by simpa [ht, Option.isSome_iff_ne_none] using hl
  simp only [Dev.runUpStart, ← he, hr, hread, hm, Bool.false_eq_true, if_false, if_true]

section runUpDone

variable (hr : (d.sp n).drv.runUp = true)

include hr

theorem Dev.runUpDone_of_read {k : Nat} (hl : (d.rd n).locating = some k) : d.runUpDone n = d.readRunUp n k := by
  simp only [Dev.runUpDone, hr, hl, Bool.not_true, Bool.false_eq_true, if_false]

variable (he : e = d.modDrv n (fun x => { x with runUp := false })) (hl : (d.rd n).locating = none)

include he hl

theorem Dev.runUpDone_of_refused (hm : d.mayRun n = false) :
    d.runUpDone n = (e.modDrv n (fun x => { x with turning := false, parked := false })).setMotion n 5 := by
  simp only [Dev.runUpDone, hr, hl, hm, Bool.not_true, Bool.false_eq_true, if_false, Bool.not_false, if_true, ← he]

theorem Dev.runUpDone_of_write (hm : d.mayRun n = true) (ht : (d.sp n).drv.turning = false) : d.runUpDone n =
    (((e.noteWrap n (d.sp n).wr.wrap).beginStream n (d.startCog n) false).lanesFrom n ((d.sp n).wr.dueQ.headD (0, 0)).1).runBegins n := by
  have hwr : (e.sp n).wr = (d.sp n).wr := by simp [he, Dev.modDrv_eq]
  simp only [Dev.runUpDone, hr, hl, hm, ht, Bool.not_true, Bool.false_eq_true, if_false, ← he, hwr]

end runUpDone

theorem Dev.locateDone_of_none (h : (d.sp n).drv.target = none) : d.locateDone n = d := by simp only [Dev.locateDone, h]

theorem Dev.locateDone_of_far {w f c : Nat} (h : (d.sp n).drv.target = some (w, f, c)) (hm : d.locateMet n w f c = false) :
    d.locateDone n = d := by
  simp [Dev.locateDone, h, hm]

/-- A locate toward the place of a write ends with the tape parked there (R187). -/
theorem Dev.locateDone_of_write {w f c : Nat} (h : (d.sp n).drv.target = some (w, f, c)) (hm : d.locateMet n w f c = true)
    (hv : d.mayMove n = true) (hst : d.fget (pgMotion n) Reg.MOTION.STATE = 3) (hu : (d.sp n).drv.unloadStep ≠ 3)
    (hl : (d.lad n).phase = .idle) (hf : (d.sp n).seek.final = false) (hr : (d.rd n).locating = none) :
    d.locateDone n = ((((d.modDrv n (fun x => { x with target := none })).fput (pgMotion n) Reg.MOTION.DIR (wrapForward w)).modDrv n (fun x =>
      { x with atWrite := true, parked := true })).modDrv n (fun x => { x with tapeStopped := true })).setMotion n 0 := by
  generalize he : (d.modDrv n (fun x => { x with target := none })).fput (pgMotion n) Reg.MOTION.DIR (wrapForward w) = e
  have hsp : e.sp n = { d.sp n with drv := { (d.sp n).drv with target := none } } := by
    simp [← he, Dev.fput_eq, Dev.modDrv_eq]
  have hlad : (e.lad n).phase = .idle := by rw [← hl]; simp [Dev.lad, Dev.rd, hsp]
  have hrd : (e.rd n).locating = none := by rw [← hr]; simp [Dev.rd, hsp]
  simp only [Dev.locateDone, h, hm, hv, hst, he]
  simp [hsp, hu, hlad, hf, hrd]

section readResume

theorem Dev.readResume_of_running (h : (d.rd n).stopped = false) : d.readResume n = d := by simp [Dev.readResume, h]

theorem Dev.readResume_of_room (h : (d.rd n).stopped = true) (hb : (d.rd n).noBuf = false)
    (hf : d.fget (pgDr n) Reg.DERAILLEUR.RA_FILL_MIB < d.fget (pgDr n) Reg.DERAILLEUR.RA_LOW) (ht : (d.sp n).drv.tapeStopped = true)
    (hp : (d.sp n).drv.parked = true) (ho : (d.sp n).readsOn = true) (hl : (d.lad n).phase = .idle) (hm : d.mayMove n = true)
    (hc : tileCog (d.tiles n) ≠ 0) : d.readResume n =
      (d.modRd n (fun r => { r with locating := some r.nextSheet, stopped := false, noBuf := false })).runUpTo n
        ((d.sp n).placeOf (d.rd n).nextSheet).1 := by
  simp [Dev.readResume, h, hb, hf, ht, hp, ho, hl, hm, hc]

end readResume

end Sys2Proof.Machine
end

section
/-! The statement about stops, parks and run-ups. -/

namespace Sys2Proof.Proofs

open Sys2Proof.Machine

/-- Settles O22: each movement's end, branch by branch. -/
theorem stopsParksAndRunUps : Obligations.StopsParksAndRunUps := by
  refine ⟨fun s n e hs ht hst he => .of_onSpoke (exec_tapeStopped n s) ?_, fun s n ht hst hm => .of_onSpoke (exec_parkComplete n s) ?_,
    fun s n e he hr => ⟨fun ht hm => ?_, fun ht hl hm => ?_⟩,
    fun s n e hr he => ⟨fun hl hm => .of_onSpoke (exec_runUpComplete n s) ?_, fun hl hm ht => .of_onSpoke (exec_runUpComplete n s) ?_,
      fun k hl => .of_onSpoke (exec_runUpComplete n s) ?_⟩,
    fun s n => ⟨fun h => ?_, fun w f c h hm => ?_, fun w f c h hm hv hst hu hl hf hr => .of_onSpoke (exec_locateComplete n s) ?_⟩,
    fun s n => ⟨fun h hb hf ht hp ho hl hm hc => .of_onSpoke (exec_readResume n s) ?_, fun h => ?_⟩⟩
  · rw [Dev.tapeStops_of_moving hs ht hst he]
    refine ⟨fun h => ?_, fun h1 h2 h5 => ?_, fun h1 h2 h6 hd hl => ?_⟩
    · rw [if_pos (by simpa using h)]
    · rw [if_neg (by simp [h1, h2]), if_pos (by simp [h5])]
    · rw [if_neg (by simp [h1, h2]), if_neg (by simp [h6, hd, hl])]
  · exact Dev.parkDone_of_park ht hst hm
  · rw [exec_runUpStart, State.onDev_eq, State.modDev, Dev.runUpStart_of_write he hr ht hm]
  · rw [exec_runUpStart, State.onDev_eq, State.modDev, Dev.runUpStart_of_read he hr ht hl hm]
  · exact Dev.runUpDone_of_refused hr he hl hm
  · exact Dev.runUpDone_of_write hr he hl hm ht
  · exact Dev.runUpDone_of_read hr hl
  · rw [exec_locateComplete]
    exact next_modDev_congr (congrArg (Dev.follow · n) (Dev.locateDone_of_none h))
  · rw [exec_locateComplete]
    exact next_modDev_congr (congrArg (Dev.follow · n) (Dev.locateDone_of_far h hm))
  · exact Dev.locateDone_of_write h hm hv hst hu hl hf hr
  · exact Dev.readResume_of_room h hb hf ht hp ho hl hm hc
  · rw [exec_readResume]
    exact next_modDev_congr (congrArg (Dev.follow · n) (Dev.readResume_of_running h))

end Sys2Proof.Proofs
end

section
/-! The environmental window and calibration (R188, R192, R197). -/

namespace Sys2Proof.Machine

theorem exec_env (n : Fin 8) (tape head : Int) (rh : Nat) (s : State) :
    exec (.env n tape head rh) s = s.onDev (fun d => d.envMsg n tape head rh) := rfl
theorem exec_envTimeout (n : Fin 8) (s : State) : exec (.envTimeout n) s = s.onDev (fun d => d.envTimeout n) := rfl
theorem exec_envHoldEnd (n : Fin 8) (s : State) : exec (.envHoldEnd n) s = s.onDev (fun d => d.envHoldEnds n) := rfl
theorem exec_calibrationTick (n : Fin 8) (m : CalMeas) (s : State) :
    exec (.calibrationTick n m) s = s.onSpoke n (fun d => d.calibrate n m) := rfl

theorem pgWriter_ne_pgLink (n : Nat) : pgWriter n ≠ pgLink n := fun h => absurd (Nat.add_left_cancel h) (by decide)

section hold

variable (d : Dev) (n : Nat)

/-- A hold placed shows in MOTION's ENV_HOLD and ENV_OUT alone. -/
theorem Dev.fget_envHoldBegin {pg : PageId} {f : Fld} (h : pgMotion n ≠ pg ∨ (Reg.MOTION.ENV_HOLD.slot ≠ f.slot ∧ Reg.MOTION.ENV_OUT.slot ≠ f.slot)) :
    (d.envHoldBegin n).fget pg f = d.fget pg f := by
  have hkeep (e : Dev) (g : Fld) (hg : pgMotion n ≠ pg ∨ g.slot ≠ f.slot) : (e.ev (pgMotion n) g).fget pg f = e.fget pg f := by
    rw [Dev.ev_eq, Dev.fget_fset, if_neg (fun hc => hg.elim (· hc.1) (· hc.2))]
  unfold Dev.envHoldBegin
  split
  · rfl
  · rw [Dev.fget_modWr, hkeep _ _ (h.imp id (·.2)), hkeep _ _ (h.imp id (·.1))]

theorem Dev.drv_envHoldBegin : ((d.envHoldBegin n).sp n).drv = (d.sp n).drv := by
  unfold Dev.envHoldBegin
  split
  · rfl
  · simp [Dev.modWr_eq, Dev.ev_eq]

theorem Dev.envHold_envHoldBegin (hg : d.envGates n = true) (hr : (d.sp n).wr.running = true) : (d.envHoldBegin n).envHold n = true := by
  unfold Dev.envHoldBegin
  split
  · next h => simpa [hg, hr] using h
  · rw [Dev.envHold, Dev.fon, Dev.fget_modWr, Dev.ev_eq, Dev.fget_fset_slot _ _ _ _ (by decide), Dev.ev_eq, Dev.fget_fset_same]
    decide

/-! ### Messages of the link and readings of the head -/

theorem Dev.fget_rxFrame_page {pg : PageId} (f : Fld) (h : pgLink n ≠ pg) : (d.rxFrame n).fget pg f = d.fget pg f := by
  rw [Dev.rxFrame, Dev.clr_eq, Dev.fget_fset_page _ _ _ _ h, Dev.unit_eq, Dev.bump_eq, Dev.fget_fset_page _ _ _ _ h, Dev.bump_eq,
    Dev.fget_fset_page _ _ _ _ h]

theorem Dev.rxFrame_RX_FRAMES : (d.rxFrame n).fget (pgLink n) Reg.LINK.RX_FRAMES =
    satAdd (2 ^ Reg.LINK.RX_FRAMES.w - 1) (d.fget (pgLink n) Reg.LINK.RX_FRAMES) 1 := by
  rw [Dev.rxFrame, Dev.clr_eq, Dev.fget_fset_slot _ _ _ _ (by decide), Dev.unit_eq, Dev.bump_eq, Dev.fget_fset_slot _ _ _ _ (by decide),
    Dev.fget_bump_same]

theorem Dev.fget_headReading_page (t : Int) {pg : PageId} (f : Fld) (h : pgWriter n ≠ pg) : (d.headReading n t).fget pg f = d.fget pg f := by
  unfold Dev.headReading
  dsimp only
  split
  · rw [Dev.fget_fset_page _ _ _ _ h]
  · rw [Dev.fget_modWr, Dev.ev_eq, Dev.fget_fset_page _ _ _ _ h, Dev.fget_fset_page _ _ _ _ h, Dev.fget_fset_page _ _ _ _ h]

theorem Dev.headReading_HEAD_TEMP (t : Int) :
    (d.headReading n t).fget (pgWriter n) Reg.WRITER.HEAD_TEMP = toField 16 t % 2 ^ Reg.WRITER.HEAD_TEMP.w := by
  unfold Dev.headReading
  dsimp only
  split
  · rw [Dev.fget_fset_same]
  · rw [Dev.fget_modWr, Dev.ev_eq, Dev.fget_fset_slot _ _ _ _ (by decide), Dev.fget_fset_slot _ _ _ _ (by decide), Dev.fget_fset_same]

/-! ### An ENV message (R192) -/

/-- The device as an ENV message leaves it, but for the hold that a bad reading places. -/
def Dev.envRead (d : Dev) (n : Nat) (tape head : Int) (rh : Nat) : Dev :=
  ((((((d.rxFrame n).fset (pgMotion n) Reg.MOTION.TAPE_TEMP (toField 16 tape)).fset (pgMotion n) Reg.MOTION.RH rh).headReading n head).modDrv n
    (fun x => { x with envInner := envInsideInner tape rh }))).fput (pgMotion n) Reg.MOTION.ENV_OK (envInside tape rh)

variable (tape head : Int) (rh : Nat)

theorem Dev.fget_envMsg {pg : PageId} {f : Fld} (h : pgMotion n ≠ pg ∨ (Reg.MOTION.ENV_HOLD.slot ≠ f.slot ∧ Reg.MOTION.ENV_OUT.slot ≠ f.slot)) :
    (d.envMsg n tape head rh).fget pg f = (d.envRead n tape head rh).fget pg f := by
  unfold Dev.envMsg
  dsimp only
  split
  · rfl
  · exact Dev.fget_envHoldBegin _ n h

theorem Dev.envRead_TAPE_TEMP : (d.envRead n tape head rh).fget (pgMotion n) Reg.MOTION.TAPE_TEMP = toField 16 tape % 65536 := by
  rw [Dev.envRead, Dev.fput_eq, Dev.fget_fset_slot _ _ _ _ (by decide), Dev.fget_modDrv,
    Dev.fget_headReading_page _ _ _ _ (pgWriter_ne_pgMotion n), Dev.fget_fset_slot _ _ _ _ (by decide), Dev.fget_fset_same]
  rfl

theorem Dev.envRead_RH : (d.envRead n tape head rh).fget (pgMotion n) Reg.MOTION.RH = rh % 65536 := by
  rw [Dev.envRead, Dev.fput_eq, Dev.fget_fset_slot _ _ _ _ (by decide), Dev.fget_modDrv,
    Dev.fget_headReading_page _ _ _ _ (pgWriter_ne_pgMotion n), Dev.fget_fset_same]
  rfl

theorem Dev.envRead_ENV_OK : (d.envRead n tape head rh).fget (pgMotion n) Reg.MOTION.ENV_OK = 1 ↔
    (160 ≤ tape ∧ tape ≤ 720) ∧ 2000 ≤ rh ∧ rh ≤ 8000 := by
  have hin : envInside tape rh = true ↔ (160 ≤ tape ∧ tape ≤ 720) ∧ 2000 ≤ rh ∧ rh ≤ 8000 := by simp [envInside, and_assoc]
  rw [Dev.envRead, Dev.fput_eq, Dev.fget_fset_same, ← hin]
  cases envInside tape rh <;> decide

theorem Dev.envRead_HEAD_TEMP : (d.envRead n tape head rh).fget (pgWriter n) Reg.WRITER.HEAD_TEMP = toField 16 head % 2 ^ Reg.WRITER.HEAD_TEMP.w := by
  rw [Dev.envRead, Dev.fput_eq, Dev.fget_fset_page _ _ _ _ (pgWriter_ne_pgMotion n).symm, Dev.fget_modDrv, Dev.headReading_HEAD_TEMP]

theorem Dev.envRead_RX_FRAMES : (d.envRead n tape head rh).fget (pgLink n) Reg.LINK.RX_FRAMES =
    satAdd (2 ^ Reg.LINK.RX_FRAMES.w - 1) (d.fget (pgLink n) Reg.LINK.RX_FRAMES) 1 := by
  have hm := pgMotion_ne_pgLink n
  rw [Dev.envRead, Dev.fput_eq, Dev.fget_fset_page _ _ _ _ hm, Dev.fget_modDrv, Dev.fget_headReading_page _ _ _ _ (pgWriter_ne_pgLink n),
    Dev.fget_fset_page _ _ _ _ hm, Dev.fget_fset_page _ _ _ _ hm, Dev.rxFrame_RX_FRAMES]

end hold

/-! ### Calibration (R197) -/

section calibrate

variable {d : Dev} {n : Nat} {m : CalMeas}

theorem Dev.calibrate_of_stopped (h : (d.stw (4 + n)).state ≠ 0) : d.calibrate n m = d := if_pos h

section running

variable (hr : (d.stw (4 + n)).state = 0)

include hr

theorem Dev.calibrate_of_step5 (hc : d.cartState n = 2) (hp : d.phase n = 5) : d.calibrate n m = d.calStep5 n m := by
  simp [Dev.calibrate, hr, hc, hp]

theorem Dev.calibrate_of_step6 (hc : d.cartState n = 2) (hp : d.phase n = 6) : d.calibrate n m = d.calStep6 n m := by
  simp [Dev.calibrate, hr, hc, hp]

theorem Dev.calibrate_of_streaming (hc : d.cartState n ≠ 2) (hh : d.hostCal n = false) (hs : (d.sp n).drv.streaming = true) :
    d.calibrate n m = (((d.trimReaders n).trimTension n).trimBoost n m.boost).modDrv n (fun x => { x with errSums := [] }) := by
  simp [Dev.calibrate, hr, hc, hh, hs]

theorem Dev.calibrate_of_rest (hc : d.cartState n ≠ 2) (hs : (d.sp n).drv.streaming = false) : d.calibrate n m = d := by
  simp [Dev.calibrate, hr, hc, hs]

end running

theorem Dev.calStep5_of_lost (h : m.acquired = false) : d.calStep5 n m = d.refuse n 5 := by simp [Dev.calStep5, h]

theorem Dev.calStep5_of_next (h : m.acquired = true) (hw : (d.sp n).drv.head < 160) :
    d.calStep5 n m = (d.modDrv n (fun x => { x with word := none, wordUp := none })).headTo n ((d.sp n).drv.head + 32) := by
  simp [Dev.calStep5, h, hw]

end calibrate

/-! ### Trims of the readers (R197) -/

theorem freeToward_near (free k : Nat) (x t : Int) : (freeToward free k x t - x).natAbs ≤ k := by
  have hm : min (t - x).natAbs (free % (k + 1)) ≤ k := by
    have hlt : free % (k + 1) < k + 1 := Nat.mod_lt free (Nat.zero_lt_succ k)
    omega
  unfold freeToward
  dsimp only
  split <;> omega

/-- A signed value that a field of 16 bits holds reads as itself. -/
theorem ofField_toField {y : Int} (h : -32768 ≤ y) (h' : y ≤ 32767) : ofField 16 (toField 16 y % 2 ^ 16) = y := by
  simp only [ofField, toField]
  norm_num
  split <;> omega

theorem ofField_lt (x : Nat) : -32768 ≤ ofField 16 x ∧ ofField 16 x ≤ 32767 := by
  simp only [ofField]
  norm_num
  split <;> omega

/-- One reader's TRIM moved toward `rel`. -/
def Dev.trimReader (e : Dev) (n r : Nat) (rel : Option Int) : Dev :=
  match rel with
  | none => e
  | some t => e.nextFree.fset (pgServo n) (Reg.SERVO.TRIM r) (toField 16 (freeToward e.freeVal 2 (ofField 16 (e.fget (pgServo n) (Reg.SERVO.TRIM r))) t))

theorem Dev.trimReaders_eq (d : Dev) (n : Nat) :
    d.trimReaders n = (List.range 4).foldl (fun e r => e.trimReader n r ((d.sp n).drv.relErr r)) d := rfl

/-- Within 2 of the value before, or the value before stands at the end of the field's range. -/
def TrimNear (x y : Nat) : Prop := (ofField 16 y - ofField 16 x).natAbs ≤ 2 ∨ 32766 ≤ (ofField 16 x).natAbs

theorem Dev.trimReader_near (e : Dev) (n r : Nat) (rel : Option Int) :
    TrimNear (e.fget (pgServo n) (Reg.SERVO.TRIM r)) ((e.trimReader n r rel).fget (pgServo n) (Reg.SERVO.TRIM r)) := by
  cases rel with
  | none => exact .inl (by simp [Dev.trimReader])
  | some t =>
    have hnear := freeToward_near e.freeVal 2 (ofField 16 (e.fget (pgServo n) (Reg.SERVO.TRIM r))) t
    unfold TrimNear
    rw [Dev.trimReader, Dev.fget_fset_same]
    by_cases hx : 32766 ≤ (ofField 16 (e.fget (pgServo n) (Reg.SERVO.TRIM r))).natAbs
    · exact .inr hx
    · exact .inl (by rw [show (Reg.SERVO.TRIM r).w = 16 from rfl, ofField_toField (by omega) (by omega)]; exact hnear)

theorem Dev.trimReader_other (e : Dev) (n : Nat) {r q : Nat} (rel : Option Int) (h : q ≠ r) :
    (e.trimReader n q rel).fget (pgServo n) (Reg.SERVO.TRIM r) = e.fget (pgServo n) (Reg.SERVO.TRIM r) := by
  cases rel with
  | none => rfl
  | some t => exact Dev.fget_fset_slot _ _ _ _ (by simp only [Fld.slot, Reg.SERVO.TRIM]; omega)

/-- Each reader is trimmed once. -/
theorem Dev.trimReader_foldl (n r : Nat) (rel : Nat → Option Int) : ∀ (l : List Nat) (e : Dev),
    (r ∉ l → (l.foldl (fun e q => e.trimReader n q (rel q)) e).fget (pgServo n) (Reg.SERVO.TRIM r) = e.fget (pgServo n) (Reg.SERVO.TRIM r)) ∧
    (l.Nodup → TrimNear (e.fget (pgServo n) (Reg.SERVO.TRIM r))
      ((l.foldl (fun e q => e.trimReader n q (rel q)) e).fget (pgServo n) (Reg.SERVO.TRIM r)))
  | [], e => ⟨fun _ => rfl, fun _ => .inl (by simp)⟩
  | q :: l, e => by
    obtain ⟨hkeep, hnear⟩ := Dev.trimReader_foldl n r rel l (e.trimReader n q (rel q))
    refine ⟨fun h => ?_, fun h => ?_⟩
    · rw [List.mem_cons, not_or] at h
      obtain ⟨hq, hl⟩ := h
      exact (hkeep hl).trans (Dev.trimReader_other e n _ (Ne.symm hq))
    · obtain ⟨hq, hl⟩ := List.nodup_cons.mp h
      by_cases hqr : q = r
      · subst hqr
        rw [List.foldl_cons, hkeep hq]
        exact Dev.trimReader_near e n q _
      · rw [← Dev.trimReader_other e n (rel q) hqr]
        exact hnear hl

end Sys2Proof.Machine
end

section
/-! The statement about the environment and calibration. -/

namespace Sys2Proof.Proofs

open Sys2Proof.Machine

/-- Settles O23: what an ENV message and its absence write, the branches of a calibration, and the trim of each reader. -/
theorem environmentAndCalibration : Obligations.EnvironmentAndCalibration := by
  refine ⟨fun s n tape head rh => ⟨.of_onDev (exec_env n tape head rh s) ?_, .of_onDev (exec_envTimeout n s) ?_,
      fun h => .of_onDev (exec_envHoldEnd n s) ?_, fun h => ?_⟩,
    fun s n m => ⟨fun h => ?_, fun hr hc hp => ⟨fun ha => .of_onSpoke (exec_calibrationTick n m s) ?_,
      fun ha hw => .of_onSpoke (exec_calibrationTick n m s) ?_⟩, fun hr hc hp => .of_onSpoke (exec_calibrationTick n m s) ?_,
      fun hr hc hh hs => .of_onSpoke (exec_calibrationTick n m s) ?_, fun hr hc hs => ?_⟩,
    fun d n r _ => (Dev.trimReader_foldl n r _ _ d).2 List.nodup_range⟩
  · rw [State.modDev_dev, Dev.fget_envMsg _ _ _ _ _ (.inr (by decide)), Dev.fget_envMsg _ _ _ _ _ (.inr (by decide)),
      Dev.fget_envMsg _ _ _ _ _ (.inr (by decide)), Dev.fget_envMsg _ _ _ _ _ (.inl (pgWriter_ne_pgMotion n).symm),
      Dev.fget_envMsg _ _ _ _ _ (.inl (pgMotion_ne_pgLink n))]
    exact ⟨Dev.envRead_TAPE_TEMP .., Dev.envRead_RH .., Dev.envRead_ENV_OK .., Dev.envRead_HEAD_TEMP .., Dev.envRead_RX_FRAMES ..⟩
  · rw [State.modDev_dev, Dev.envTimeout]
    refine ⟨?_, ?_, fun hg hr => Dev.envHold_envHoldBegin _ _ ?_ ?_⟩
    · rw [Dev.fget_envHoldBegin _ _ (.inr (by decide)), Dev.fget_modDrv, Dev.clr_eq, Dev.fget_fset_same, Nat.zero_mod]
    · rw [Dev.drv_envHoldBegin, Dev.drv_modDrv_same]
    · rw [← hg]
      simp only [Dev.envGates, Dev.mode, Dev.fget_modDrv, Dev.clr_eq, Dev.fget_fset_page _ _ _ _ (pgMotion_ne_pgServo n)]
    · simpa [Dev.modDrv_eq, Dev.clr_eq] using hr
  · rw [State.modDev_dev, Dev.envHoldEnds, if_pos h, Dev.envHold, Dev.fon, Dev.clr_eq, Dev.fget_fset_same, Nat.zero_mod]
    rfl
  · exact (exec_envHoldEnd n s).trans (State.onDev_of_eq (f := fun d => d.envHoldEnds n) (if_neg (Bool.eq_false_iff.mp h)))
  · rw [exec_calibrationTick]
    exact next_modDev_congr (congrArg (Dev.follow · n) (Dev.calibrate_of_stopped h))
  · rw [Dev.calibrate_of_step5 hr hc hp, Dev.calStep5_of_lost ha]
  · rw [Dev.calibrate_of_step5 hr hc hp, Dev.calStep5_of_next ha hw]
  · exact Dev.calibrate_of_step6 hr hc hp
  · exact Dev.calibrate_of_streaming hr hc hh hs
  · rw [exec_calibrationTick]
    exact next_modDev_congr (congrArg (Dev.follow · n) (Dev.calibrate_of_rest hr hc hs))

end Sys2Proof.Proofs
end

section
/-! Messages of the control link (R191 to R196). -/

namespace Sys2Proof.Machine

theorem exec_motionStat (n : Fin 8) (supply takeup tension hall fault : Nat) (s : State) :
    exec (.motionStat n supply takeup tension hall fault) s = s.onSpoke n (fun d => d.motionStat n supply takeup tension fault) := rfl
theorem exec_mechStat (n : Fin 8) (state fault coarse : Nat) (s : State) :
    exec (.mechStat n state fault coarse) s = s.onSpoke n (fun d => d.mechStat n state fault) := rfl
theorem exec_cmRsp (n : Fin 8) (tag status : Nat) (data : List Byte) (s : State) :
    exec (.cmRsp n tag status data) s = s.onSpoke n (fun d => (d.rxFrame n).cmAnswer n tag status data) := rfl
theorem exec_ack (n : Fin 8) (type seq status : Nat) (s : State) :
    exec (.ack n type seq status) s = s.onSpoke n (fun d => d.ackMsg n type status) := rfl
theorem exec_badFrame (n : Fin 8) (bytes : List Byte) (s : State) :
    exec (.badFrame ⟨n, bytes⟩) s = s.onDev (fun d => d.badFrame n bytes) := rfl
theorem exec_cmReqTimeout (n : Fin 8) (tag : Nat) (s : State) : exec (.cmReqTimeout n tag) s = s.onSpoke n (fun d => d.cmTimeout n tag) := rfl

variable {d e : Dev} {n : Nat}

theorem Dev.rxFrame_eq (d : Dev) (n : Nat) : d.rxFrame n =
    ((d.bump (pgLink n) Reg.LINK.RX_FRAMES 1).bump (pgLink n) Reg.HEADER.UNITS 1).fset (pgLink n) Reg.LINK.SILENT 0 := rfl

theorem Dev.sp_rxFrame (d : Dev) (n m : Nat) : (d.rxFrame n).sp m = d.sp m := rfl

/-! ### MECH_STAT (R192, R194) -/

/-- The device as a MECH_STAT message of state `k` without a fault finds it. -/
def Dev.mechAt (d : Dev) (n k : Nat) (threaded : Bool) : Dev :=
  ((d.rxFrame n).modDrv n (fun x => { x with mechState := k, mechFault := false, threaded := threaded })).faultOver n

theorem Dev.mechStat_away (he : e = d.mechAt n 0 false) : d.mechStat n 0 0 = if e.cartState n = 0 then e else e.cartGone n := by
  subst he; rfl

theorem Dev.mechStat_present (he : e = d.mechAt n 1 false) (hu : (d.sp n).drv.unloadStep ≠ 5) (hc : e.cartState n = 0) :
    d.mechStat n 1 0 = (e.fset (pgMotion n) Reg.MOTION.CART_STATE 1).beginLoad n := by
  have hm : d.mechStat n 1 0 = if (d.sp n).drv.unloadStep = 5 then (e.modDrv n (fun x => { x with unloadStep := 6 })).mech n 3
      else if e.cartState n = 5 && (d.sp n).drv.threaded then e.mech n 3
      else if e.cartState n = 0 then (e.setCart n 1).beginLoad n else e.beginLoad n := by subst he; rfl
  rw [hm, if_neg hu, if_neg (by simp [hc]), if_pos hc]
  rfl

theorem Dev.mechStat_threaded (he : e = d.mechAt n 3 true) (hc : e.cartState n = 2) (hp : e.phase n = 2) :
    d.mechStat n 3 0 = e.fset (pgMotion n) Reg.MOTION.PHASE 3 := by
  have hm : d.mechStat n 3 0 = if e.cartState n = 2 && e.phase n = 2 then e.loadPhase n 3
      else if e.cartState n ≤ 1 then e.beginLoad n else e := by subst he; rfl
  rw [hm, if_pos (by simp [hc, hp])]
  rfl

/-! ### CM_RSP and requests unanswered (R193) -/

theorem Dev.cmAnswer_of_none {tag status : Nat} {data : List Byte} (h : (d.sp n).drv.cmOut.find? (fun q => q.tag == tag) = none) :
    d.cmAnswer n tag status data = d := by
  simp only [Dev.cmAnswer, h]

theorem Dev.cmAnswer_of_some {tag status : Nat} {data : List Byte} {q : CmReq} {t : CmXfer} {r : List CmXfer}
    (h : (d.sp n).drv.cmOut.find? (fun q => q.tag == tag) = some q) (hc : (d.sp n).drv.cm = t :: r) {t' : CmXfer}
    (ht : t' = { t with done := t.done + q.count, data := if t.isWrite then t.data else spliceAt t.data q.off (takePad 0 q.count data) })
    (he : e = d.modDrv n (fun x => { x with cm := t' :: r, cmOut := x.cmOut.filter (fun p => p.tag != tag) })) :
    d.cmAnswer n tag status data = if status ≠ 0 then d.cmEnds n false
      else if t.len ≤ t.done + q.count then e.cmEnds n true else e.cmPump n 4 := by
  subst he ht
  simp only [Dev.cmAnswer, h, hc]

theorem Dev.cmTimeout_of_none {tag : Nat} (h : (d.sp n).drv.cmOut.find? (fun q => q.tag == tag) = none) : d.cmTimeout n tag = d := by
  simp only [Dev.cmTimeout, h]

theorem Dev.cmTimeout_of_some {tag : Nat} {q : CmReq} (h : (d.sp n).drv.cmOut.find? (fun q => q.tag == tag) = some q) :
    d.cmTimeout n tag = if 3 ≤ q.resends then d.cmEnds n false else (((d.modDrv n (fun x =>
      { x with cmOut := x.cmOut.map (fun p => if p.tag = tag then { p with resends := p.resends + 1 } else p) })).cmResend n q).bump
        (pgLink n) Reg.LINK.CM_RETRY 1) := by
  simp only [Dev.cmTimeout, h]

/-! ### ACK (R192, R195) -/

theorem Dev.ackMsg_eq (d : Dev) (n type status : Nat) : d.ackMsg n type status =
    if type = 5 ∧ status = 1 ∧ d.cartState n = 2 ∧ d.phase n = 2 then (d.rxFrame n).refuse n 6 else d.rxFrame n := by
  have hc : (d.rxFrame n).cartState n = d.cartState n := Dev.fget_rxFrame_page _ _ _ (pgMotion_ne_pgLink n).symm
  have hp : (d.rxFrame n).phase n = d.phase n := Dev.fget_rxFrame_page _ _ _ (pgMotion_ne_pgLink n).symm
  simp only [Dev.ackMsg, hc, hp, Bool.and_eq_true, decide_eq_true_eq, beq_iff_eq, and_assoc]

/-! ### Frames not well formed, and the receiver (R191, R201) -/

theorem Dev.badFrame_of_bad {bytes : List Byte} (h : linkFrameOk bytes = false) :
    d.badFrame n bytes = (d.bump (pgLink n) Reg.LINK.RX_BAD 1).ev (pgLink n) Reg.LINK.BAD_FRAME := if_neg (Bool.eq_false_iff.mp h)

end Sys2Proof.Machine
end

section
/-! The statement about messages and link errors. -/

namespace Sys2Proof.Proofs

open Sys2Proof.Machine

/-- Settles O25: each message after its count, and what a bad frame, a request unanswered and the receiver write. -/
theorem messagesAndLinkErrors : Obligations.MessagesAndLinkErrors := by
  refine ⟨fun s n d0 h0 => ?_, fun s n => ⟨fun bytes h => .of_onDev (exec_badFrame n bytes s) ?_,
    fun tag q h => ⟨fun hq => .of_onSpoke (exec_cmReqTimeout n tag s) ?_, fun hq => .of_onSpoke (exec_cmReqTimeout n tag s) ?_⟩,
    fun tag h => ?_, .of_onDev (f := fun d => d.ev (pgLink n) Reg.LINK.RX_LOCK) rfl ⟨?_, rfl⟩,
    .of_onDev (f := fun d => d.clr (pgLink n) Reg.LINK.RX_LOCK) rfl ⟨?_, rfl⟩⟩⟩
  · rw [← Dev.rxFrame_eq] at h0
    subst h0
    refine ⟨fun supply takeup tension hall => .of_onSpoke (exec_motionStat n supply takeup tension hall 0 s) rfl,
      fun coarse e he => ⟨fun hc => .of_onSpoke (exec_mechStat n 0 0 coarse s) ?_, fun hc => .of_onSpoke (exec_mechStat n 0 0 coarse s) ?_⟩,
      fun coarse e he hu hc => .of_onSpoke (exec_mechStat n 1 0 coarse s) (Dev.mechStat_present he hu hc),
      fun coarse e he hc hp => .of_onSpoke (exec_mechStat n 3 0 coarse s) (Dev.mechStat_threaded he hc hp),
      fun tag status data h => .of_onSpoke (exec_cmRsp n tag status data s) (Dev.cmAnswer_of_none h),
      fun tag status data q t r h hc => ⟨fun hs => .of_onSpoke (exec_cmRsp n tag status data s) ?_,
        fun hs t' e ht he => .of_onSpoke (exec_cmRsp n tag status data s) ?_⟩,
      fun type seq status h => .of_onSpoke (exec_ack n type seq status s) ((Dev.ackMsg_eq ..).trans (if_neg h)),
      fun seq hc hp => .of_onSpoke (exec_ack n 5 seq 1 s) ((Dev.ackMsg_eq ..).trans (if_pos ⟨rfl, rfl, hc, hp⟩))⟩
    · exact (Dev.mechStat_away he).trans (if_pos hc)
    · exact (Dev.mechStat_away he).trans (if_neg hc)
    · exact (Dev.cmAnswer_of_some (d := s.dev.rxFrame n) h hc rfl rfl).trans (if_pos hs)
    · exact (Dev.cmAnswer_of_some (d := s.dev.rxFrame n) h hc ht he).trans (if_neg (not_not.mpr hs))
  · rw [State.modDev_dev, Dev.badFrame_of_bad h, Dev.ev_eq, Dev.fget_fset_slot _ _ _ _ (by decide), Dev.fget_bump_same, Dev.fget_fset_same]
    refine ⟨rfl, by decide, ?_⟩
    rw [State.modDev, Dev.badFrame_of_bad h]
    rfl
  · exact (Dev.cmTimeout_of_some h).trans (if_pos hq)
  · exact (Dev.cmTimeout_of_some h).trans (if_neg (by omega))
  · rw [exec_cmReqTimeout]
    exact next_modDev_congr (congrArg (Dev.follow · n) (Dev.cmTimeout_of_none h))
  · rw [State.modDev_dev, Dev.ev_eq, Dev.fget_fset_same]
    decide
  · rw [State.modDev_dev, Dev.clr_eq, Dev.fget_fset_same, Nat.zero_mod]

end Sys2Proof.Proofs
end

section
/-! What handing on a segment keeps (R222, R224, R235): the tiles, and every page but the sample hold's. -/

namespace Sys2Proof.Machine

theorem Dev.modRd_eq (d : Dev) (n : Nat) (f : Rd → Rd) : d.modRd n f = d.modSp n (fun s => { s with rd := f s.rd }) := rfl
theorem Dev.modLane_eq (d : Dev) (n l : Nat) (f : LaneCtx → LaneCtx) :
    d.modLane n l f = d.modSp n (fun s => { s with rd := { s.rd with lanes := mmod (fun _ => {}) s.rd.lanes l f } }) := rfl

theorem Dev.rd_modRd (d : Dev) (n : Nat) (f : Rd → Rd) : (d.modRd n f).rd n = f (d.rd n) := by
  simp [Dev.rd, Dev.modRd_eq]

theorem Dev.rd_fset (d : Dev) (pg : PageId) (f : Fld) (v n : Nat) : (d.fset pg f v).rd n = d.rd n := rfl
theorem Dev.fget_modRd (d : Dev) (n : Nat) (g : Rd → Rd) (pg : PageId) (f : Fld) : (d.modRd n g).fget pg f = d.fget pg f := rfl
theorem Dev.fget_modLane (d : Dev) (n l : Nat) (g : LaneCtx → LaneCtx) (pg : PageId) (f : Fld) : (d.modLane n l g).fget pg f = d.fget pg f := rfl

/-- From `d` to `e` the tiles of spoke `n` are kept, and the fields `fs` of page `pg`. -/
abbrev Dev.KeepsTiles (n : Nat) (pg : PageId) (fs : List Fld) (d e : Dev) : Prop := Dev.Keeps n pg fs (fun s => s.rd.tiles) d e

namespace Dev.KeepsTiles

open Dev.Keeps

variable {n : Nat} {pg : PageId} {fs : List Fld} {d e : Dev} (hp : pgSh n ≠ pg)

include hp

theorem holdRegs (h : KeepsTiles n pg fs d e) : KeepsTiles n pg fs d (e.holdRegs n) := by
  simp only [Dev.holdRegs]
  exact (h.fset_page _ _ hp).fset_page _ _ hp

theorem unhold (h : KeepsTiles n pg fs d e) (f : CapRec → Bool) : KeepsTiles n pg fs d (e.unhold n f) := by
  simp only [Dev.unhold, Dev.modRd_eq]
  exact KeepsTiles.holdRegs hp h.modSp

theorem offer (h : KeepsTiles n pg fs d e) (c : CapRec) : KeepsTiles n pg fs d (e.offer n c) := by
  simp only [Dev.offer, Dev.modRd_eq, Dev.ev_eq, Dev.bump_eq]
  refine .ite (fun _ => h) fun _ => ?_
  split
  · exact (h.fset_page _ _ hp).fset_page _ _ hp
  · exact KeepsTiles.holdRegs hp h.modSp

omit hp in
theorem meetSheet (h : KeepsTiles n pg fs d e) (num kind gen : Nat) : KeepsTiles n pg fs d (e.meetSheet n num kind gen) := by
  simp only [Dev.meetSheet, Dev.modRd_eq]
  split
  · exact h
  · exact h.modSp

omit hp in
theorem mapCode (h : KeepsTiles n pg fs d e) (id : SegId) (kind code : Nat) : KeepsTiles n pg fs d (e.mapCode n id kind code) := by
  simp only [Dev.mapCode, Dev.modRd_eq]
  exact .ite (fun _ => h) fun _ => (Dev.Keeps.ite (fun _ => h) fun _ => h.modSp).modSp

theorem deliverRow (h : KeepsTiles n pg fs d e) (id : SegId) (kind : Nat) (x : RowRec) (byRung : Bool) :
    KeepsTiles n pg fs d (e.deliverRow n id kind x byRung) := by
  simp only [Dev.deliverRow, Dev.modSheetR, Dev.modRd_eq]
  refine .ite (fun _ => h) fun _ => ?_
  have hmeet := KeepsTiles.meetSheet h id.sheet kind id.gen
  split
  · exact hmeet
  · refine .ite (fun _ => hmeet) fun _ => ?_
    refine .ite (fun _ => KeepsTiles.unhold hp ?_ _) fun _ => ?_ <;>
      exact .ite (fun _ => hmeet.modSp.modSp) fun _ => hmeet.modSp

theorem handBlank (h : KeepsTiles n pg fs d e) (s : TileSeg) (code iters : Nat) (ofs : Int) (noHdr fw alt : Bool) (samples : List Int) :
    KeepsTiles n pg fs d (e.handBlank n s code iters ofs noHdr fw alt samples) := by
  simp only [Dev.handBlank]
  exact .ite (fun _ => KeepsTiles.mapCode h ..) fun _ => KeepsTiles.offer hp (KeepsTiles.deliverRow hp (KeepsTiles.mapCode h ..) ..) _

theorem undecoded (h : KeepsTiles n pg fs d e) (s : TileSeg) (ofs : Int) (fw alt : Bool) (samples : List Int) :
    KeepsTiles n pg fs d (e.undecoded n s ofs fw alt samples) := by
  simp only [Dev.undecoded]
  exact .ite (fun _ => h) fun _ => KeepsTiles.handBlank hp h ..

end Dev.KeepsTiles

end Sys2Proof.Machine
end

section
/-! The AGC and the timing loop (R206, R209). -/

namespace Sys2Proof.Machine

theorem gainStep_near {gain : Nat} (a b : Nat) (h : gain ≤ 120) :
    gainStep gain a b ≤ 120 ∧ gainStep gain a b ≤ gain + 1 ∧ gain ≤ gainStep gain a b + 1 := by
  unfold gainStep
  split
  · omega
  · split <;> omega

/-- In HOLD the AGC leaves GAIN; out of it GAIN stands or moves one step. -/
theorem agcStep_gain (target gain : Nat) (held : Bool) (c : LaneCtx) (o : LoopObs) :
    (agcStep target (c, held, gain) o).2.2 = gain ∨
    ((agcStep target (c, held, gain) o).2.1 = false ∧ ∃ a b, (agcStep target (c, held, gain) o).2.2 = gainStep gain a b) := by
  unfold agcStep
  dsimp only
  cases held with
  | true =>
    simp only [if_true]
    split
    · split
      · exact .inl rfl
      · exact .inl rfl
    · exact .inl rfl
  | false =>
    simp only [Bool.false_eq_true, if_false]
    split
    · exact .inl rfl
    · split
      · exact .inr ⟨rfl, _, _, rfl⟩
      · split
        · exact .inr ⟨rfl, _, _, rfl⟩
        · exact .inl rfl

theorem loopStep_held (c : LaneCtx) (o : LoopObs) : (loopStep true c o).freq = c.freq := rfl

theorem loopStep_bounded (c : LaneCtx) (o : LoopObs) : (loopStep false c o).freq.natAbs ≤ 64424509 := by
  simp only [loopStep, freqMax]
  generalize c.freq + _ = x
  simp only [Bool.false_eq_true, if_false]
  omega

/-- A step of the AGC moves GAIN by at most one, never above 120, and not at all in HOLD. -/
theorem agcStep_near {gain : Nat} (target : Nat) (held : Bool) (c : LaneCtx) (o : LoopObs) (h : gain ≤ 120) :
    (agcStep target (c, held, gain) o).2.2 ≤ 120 ∧ (agcStep target (c, held, gain) o).2.2 ≤ gain + 1 ∧
    gain ≤ (agcStep target (c, held, gain) o).2.2 + 1 ∧
    ((agcStep target (c, held, gain) o).2.1 = true → (agcStep target (c, held, gain) o).2.2 = gain) := by
  rcases agcStep_gain target gain held c o with hg | ⟨hh, a, b, hg⟩
  · rw [hg]
    exact ⟨h, by omega, by omega, fun _ => rfl⟩
  · rw [hg, hh]
    obtain ⟨h1, h2, h3⟩ := gainStep_near a b h
    exact ⟨h1, h2, h3, fun hf => absurd hf Bool.false_ne_true⟩

end Sys2Proof.Machine
end

section
/-! Segments due and arrived (R213 to R218). -/

namespace Sys2Proof.Machine

theorem exec_segmentDue (n : Fin 8) (l : Fin 64) (amp late early : List Nat) (s : State) :
    exec (.segmentDue n l amp late early) s = s.onDev (fun d => d.segmentDue n l (LoopObs.join amp late early)) := rfl
theorem exec_segmentArrived (n : Fin 8) (l : Fin 64) (dist : List (Int × Nat)) (hdr : List (Int × List Bool)) (tone : Bool)
    (samples : List Int) (s : State) :
    exec (.segmentArrived n l dist hdr tone samples) s = s.onDev (fun d => d.segmentArrived n l dist hdr tone samples) := rfl

section due

variable {d e : Dev} {n l : Nat} {obs : List LoopObs}

theorem Dev.segmentDue_of_disabled (h : d.fon (lfe n l) (Reg.LANEFE.ENABLE (l % 16)) = false) : d.segmentDue n l obs = d := by
  simp [Dev.segmentDue, h]

/-- The segment that a locked lane in a sheet predicts (R218). -/
def Dev.dueSeg (e : Dev) (n l : Nat) : TileSeg :=
  { lane := l, seg := ⟨((e.rd n).lane l).sheet, 64 * ((e.rd n).lane l).pos + l, ((e.rd n).lane l).gen, 0, false⟩,
    kind := ((e.rd n).lane l).kind, inArea := false, first := ((e.rd n).lane l).first, cap := e.inlineCap n }

/-- A segment that found every tile full is dropped on each (R218). -/
def Dev.segDrop (e : Dev) (n : Nat) : Dev := (List.range 9).foldl (fun e t => e.ev (pgDetect n t) Reg.DETECT.SEG_DROP) e

theorem Dev.segmentDue_of_locked (h : d.fon (lfe n l) (Reg.LANEFE.ENABLE (l % 16)) = true) (he : e = d.loops n l obs)
    (hm : ((e.rd n).lane l).mode = .locked) (ha : ((e.rd n).lane l).inArea = false) (u : Dev)
    (hu : u = (match e.pickTile n with
      | some t => e.setTile n t ((e.rd n).tileOf t ++ [e.dueSeg n l])
      | none => (e.setTile n 9 ((e.rd n).tileOf 9 ++ [e.dueSeg n l])).segDrop n).modLane n l (fun c => { c with first := false })) :
    d.segmentDue n l obs = if ((e.rd n).lane l).pos = 31 then (u.modLane n l (fun c => { c with pos := 0 })).laneMode n l .gap
      else u.modLane n l (fun c => { c with pos := c.pos + 1 }) := by
  subst hu
  simp only [Dev.segmentDue, h, ← he, hm, ha, Bool.not_true, Bool.false_eq_true, if_false, Dev.dueSeg, Dev.segDrop,
    show (LaneMode.locked == LaneMode.gap) = false from rfl, show (LaneMode.locked == LaneMode.hunt) = false from rfl] <;>
    rfl

theorem pgDetect_injective {n t u : Nat} (h : t ≠ u) : pgDetect n t ≠ pgDetect n u := fun hc => h (Nat.add_left_cancel hc)

theorem Dev.segDrop_SEG_DROP (e : Dev) (n : Nat) {t : Nat} (ht : t < 9) : (e.segDrop n).fget (pgDetect n t) Reg.DETECT.SEG_DROP = 1 := by
  have hfold (l : List Nat) : ∀ e : Dev, (l.foldl (fun e t => e.ev (pgDetect n t) Reg.DETECT.SEG_DROP) e).fget (pgDetect n t) Reg.DETECT.SEG_DROP =
      if t ∈ l then 1 else e.fget (pgDetect n t) Reg.DETECT.SEG_DROP := by
    induction l with
    | nil => intro e; simp
    | cons u l ih =>
      intro e
      rw [List.foldl_cons, ih]
      by_cases hl : t ∈ l
      · simp [hl]
      · by_cases hu : t = u
        · subst hu
          simp [hl, Dev.ev_eq, show Reg.DETECT.SEG_DROP.w = 1 from rfl]
        · simp [hl, hu, Dev.ev_eq, Dev.fget_fset, pgDetect_injective (Ne.symm hu)]
  rw [Dev.segDrop, hfold, if_pos (List.mem_range.mpr ht)]

theorem lfe_ne_pgDetect {n l t : Nat} (hl : l < 64) : lfe n l ≠ pgDetect n t := by
  simp only [lfe, pgLanefe, pgDetect, PageId, ne_eq]; omega

theorem Dev.fget_laneMode {pg : PageId} {f : Fld} (d : Dev) (n l : Nat) (m : LaneMode) (hl : lfe n l ≠ pg ∨ (Reg.LANEFE.SYNC_LOCK (l % 16)).slot ≠ f.slot)
    (hd : pgDet0 n ≠ pg ∨ (Reg.DETECT.HUNTING.slot ≠ f.slot ∧ Reg.DETECT.LOCKED.slot ≠ f.slot)) :
    (d.laneMode n l m).fget pg f = d.fget pg f := by
  simp only [Dev.laneMode, Dev.syncStat, Dev.fput_eq]
  rw [Dev.fget_fset, if_neg (fun hc => hd.elim (· hc.1) (·.2 hc.2)), Dev.fget_fset, if_neg (fun hc => hd.elim (· hc.1) (·.1 hc.2)),
    Dev.fget_fset, if_neg (fun hc => hl.elim (· hc.1) (· hc.2)), Dev.fget_modLane]

end due

section arrived

variable {d e : Dev} {n l : Nat} {dist : List (Int × Nat)} {hdr : List (Int × List Bool)} {tone : Bool} {samples : List Int} {t : Nat} {x : TileSeg}

theorem Dev.segmentArrived_of_none (h : (d.rd n).arriving l = none) (hm : ((d.rd n).lane l).mode ≠ .gap) :
    d.segmentArrived n l dist hdr tone samples = d := by
  simp [Dev.segmentArrived, h, hm]

theorem Dev.segmentArrived_of_tone (h : (d.rd n).arriving l = some t)
    (hx : ((d.rd n).tileOf t).find? (fun y => y.lane == l && !y.ready) = some x) (ht : tone = true) (ha : x.inArea = true) :
    d.segmentArrived n l dist hdr tone samples =
      ((d.setTile n t (updSeg l (fun _ => none) ((d.rd n).tileOf t))).modLane n l (fun c => { c with inArea := false })).laneMode n l .gap := by
  simp [Dev.segmentArrived, h, hx, ht, ha]

theorem Dev.segmentArrived_of_search (h : (d.rd n).arriving l = some t)
    (hx : ((d.rd n).tileOf t).find? (fun y => y.lane == l && !y.ready) = some x) (ht : tone = false ∨ x.inArea = false) {r : Aligned}
    (hr : r = if t = 9 then unsearched else d.searchOf n l x.first dist hdr) :
    d.segmentArrived n l dist hdr tone samples = d.arriveIn n l t r samples := by
  have hgap : (tone && x.inArea) = false := by rcases ht with h | h <;> simp [h]
  simp [Dev.segmentArrived, h, hx, hgap, hr]

section arriveIn

variable {r : Aligned} (hx : ((d.rd n).tileOf t).find? (fun y => y.lane == l && !y.ready) = some x)
  (he : e = (d.laneCount n l r).positionSeen n l r.hdr.isSome)

include hx he

theorem Dev.arriveIn_of_header {h : SegHeader} (hh : r.hdr = some h) : d.arriveIn n l t r samples =
    (e.setTile n t (updSeg l (fun y => some { y with
      ready := true, seg := h.id, kind := h.kind, inArea := h.kind == 5 || h.rwslot != 0, freewheel := r.freewheel,
      altAlign := r.altAlign, align := r.ofs, samples := samples }) ((e.rd n).tileOf t))).rebase n l h r.ofs := by
  subst he
  simp only [Dev.arriveIn, hx, hh]

theorem Dev.arriveIn_of_no_header (hh : r.hdr = none) : d.arriveIn n l t r samples =
    (if t < 9 then (e.setTile n t (updSeg l (fun _ => none) ((e.rd n).tileOf t))).ev (pgDetect n t) Reg.DETECT.HDR_FAIL
      else e.setTile n t (updSeg l (fun _ => none) ((e.rd n).tileOf t))).undecoded n x r.ofs (!r.found) false samples := by
  subst he
  simp only [Dev.arriveIn, hx, hh]

end arriveIn

/-- A tile's registers are its own. -/
theorem Dev.Keeps.setTile {α : Type} {pg : PageId} {fs : List Fld} {p : Spoke → α} {d e : Dev} (h : Dev.Keeps n pg fs p d e) (t : Nat)
    (l : List TileSeg) (hp : pgDetect n t ≠ pg) (hq : ∀ s m, p { s with rd := { s.rd with tiles := m } } = p s) :
    Dev.Keeps n pg fs p d (e.setTile n t l) := by
  simp only [Dev.setTile, Dev.modRd_eq, Dev.fput_eq]
  exact .ite (fun _ => ((h.modSp (by exact (hq · _))).fset_page _ _ hp).fset_page _ _ hp) fun _ => h.modSp (by exact (hq · _))

theorem pgSh_ne_lfe {n l : Nat} (hl : l < 64) : pgSh n ≠ lfe n l := by
  simp only [lfe, pgLanefe, pgSh, PageId, ne_eq]; omega

/-- A segment without a header counts in HDR_FAIL_CNT of its lane, and in no other counter of headers (R214). -/
theorem Dev.laneCount_of_no_header {r : Aligned} (h : r.hdr = none) :
    (d.laneCount n l r).fget (lfe n l) (Reg.LANEFE.HDR_FAIL_CNT (l % 16)) =
      satAdd (2 ^ (Reg.LANEFE.HDR_FAIL_CNT (l % 16)).w - 1) (d.fget (lfe n l) (Reg.LANEFE.HDR_FAIL_CNT (l % 16))) 1 := by
  have hslot : (Reg.LANEFE.SEGMENTS (l % 16)).slot ≠ (Reg.LANEFE.HDR_FAIL_CNT (l % 16)).slot := by
    simp only [Fld.slot, Reg.LANEFE.SEGMENTS, Reg.LANEFE.HDR_FAIL_CNT]; omega
  simp only [Dev.laneCount, h, Option.isSome_none, Option.isNone_none, Bool.false_and, Bool.false_eq_true, if_false, if_true]
  rw [Dev.fget_modLane, Dev.fget_bump_same, Dev.bump_eq, Dev.fget_fset_slot _ _ _ _ hslot]

theorem Dev.arriveIn_HDR_FAIL_CNT {r : Aligned} (hl : l < 64) (hx : ((d.rd n).tileOf t).find? (fun y => y.lane == l && !y.ready) = some x)
    (hh : r.hdr = none) : (d.arriveIn n l t r samples).fget (lfe n l) (Reg.LANEFE.HDR_FAIL_CNT (l % 16)) =
      satAdd (2 ^ (Reg.LANEFE.HDR_FAIL_CNT (l % 16)).w - 1) (d.fget (lfe n l) (Reg.LANEFE.HDR_FAIL_CNT (l % 16))) 1 := by
  rw [Dev.arriveIn_of_no_header hx rfl hh, ← Dev.laneCount_of_no_header hh]
  generalize he : (d.laneCount n l r).positionSeen n l r.hdr.isSome = e
  have hpage : pgDetect n t ≠ lfe n l := (lfe_ne_pgDetect hl).symm
  have htile : Dev.Keeps n (lfe n l) [Reg.LANEFE.HDR_FAIL_CNT (l % 16)] (fun _ => ()) (d.laneCount n l r)
      (if t < 9 then (e.setTile n t (updSeg l (fun _ => none) ((e.rd n).tileOf t))).ev (pgDetect n t) Reg.DETECT.HDR_FAIL
        else e.setTile n t (updSeg l (fun _ => none) ((e.rd n).tileOf t))) := by
    have hseen : Dev.Keeps n (lfe n l) [Reg.LANEFE.HDR_FAIL_CNT (l % 16)] (fun _ => ()) (d.laneCount n l r) e := by
      rw [← he, Dev.positionSeen, Dev.modRd_eq]
      exact (Dev.Keeps.refl _).modSp
    have hset := hseen.setTile t (updSeg l (fun _ => none) ((e.rd n).tileOf t)) hpage fun _ _ => rfl
    exact .ite (fun _ => hset.fset_page _ _ hpage) fun _ => hset
  have hrest := (KeepsTiles.undecoded (n := n) (fs := [Reg.LANEFE.HDR_FAIL_CNT (l % 16)]) (pgSh_ne_lfe hl) (.refl (if t < 9 then
    (e.setTile n t (updSeg l (fun _ => none) ((e.rd n).tileOf t))).ev (pgDetect n t) Reg.DETECT.HDR_FAIL
      else e.setTile n t (updSeg l (fun _ => none) ((e.rd n).tileOf t)))) x r.ofs (!r.found) false samples).map (fun _ => ()) fun _ => rfl
  exact (htile.trans hrest).regs _ (List.mem_singleton.mpr rfl)

end arrived

end Sys2Proof.Machine
end

section
/-! The statement about segments. -/

namespace Sys2Proof.Proofs

open Sys2Proof.Machine

/-- Settles O26: the loops step by step, a segment due with and without a tile, a segment arrived with and without a header. -/
theorem segments : Obligations.Segments := by
  refine ⟨fun target gain held c o h => ?_, fun s n l amp late early obs hobs => ⟨fun h => ?_, fun h d x a hd hm ha hx hat => ?_⟩,
    fun s n l dist hdr tone samples => ⟨fun h hm => ?_, fun t x h hx => ⟨fun ht ha => ?_, fun ht r hr e he => ⟨fun hh hhdr => ?_, fun hhdr => ?_⟩⟩⟩⟩
  · obtain ⟨h1, h2, h3, h4⟩ := agcStep_near target held c o h
    exact ⟨h1, h2, h3, fun hh => ⟨h4 hh, loopStep_held c o⟩, loopStep_bounded c o⟩
  · exact (exec_segmentDue n l amp late early s).trans
      (State.onDev_of_eq (f := fun d => d.segmentDue n l (LoopObs.join amp late early)) (Dev.segmentDue_of_disabled h))
  · subst hobs
    have hseg : x = d.dueSeg n l := hx
    have hdue := Dev.segmentDue_of_locked h hd hm ha _ rfl
    refine ⟨fun t ht hpos => ?_, fun t ht hpos => ?_, fun ht => .of_onDev (exec_segmentDue n l amp late early s) fun t hlt => ?_⟩
    · rw [ht, if_neg (by omega)] at hdue
      rw [exec_segmentDue, hat, hseg]
      exact next_modDev_congr hdue
    · rw [ht, if_pos hpos] at hdue
      rw [exec_segmentDue, hat, hseg]
      exact next_modDev_congr hdue
    · rw [ht] at hdue
      rw [State.modDev_dev, hdue]
      split
      · rw [Dev.fget_laneMode _ _ _ _ (.inl (lfe_ne_pgDetect l.isLt)) (.inr (by decide)), Dev.fget_modLane, Dev.fget_modLane,
          Dev.segDrop_SEG_DROP _ _ hlt]
      · rw [Dev.fget_modLane, Dev.fget_modLane, Dev.segDrop_SEG_DROP _ _ hlt]
  · exact (exec_segmentArrived n l dist hdr tone samples s).trans
      (State.onDev_of_eq (f := fun d => d.segmentArrived n l dist hdr tone samples) (Dev.segmentArrived_of_none h hm))
  · rw [exec_segmentArrived]
    exact next_modDev_congr (Dev.segmentArrived_of_tone h hx ht ha)
  · rw [exec_segmentArrived]
    exact next_modDev_congr ((Dev.segmentArrived_of_search h hx ht hr).trans (Dev.arriveIn_of_header hx he hhdr))
  · refine .of_onDev (exec_segmentArrived n l dist hdr tone samples s) ?_
    rw [State.modDev_dev, Dev.segmentArrived_of_search h hx ht hr]
    exact Dev.arriveIn_HDR_FAIL_CNT l.isLt hx hhdr

end Sys2Proof.Proofs
end

section
/-! The header tries (R213) and what a tile reports (R219). -/

namespace Sys2Proof.Machine

theorem mem_insCand (x y : Int × Nat) (l : List (Int × Nat)) : y ∈ insCand x l ↔ y = x ∨ y ∈ l := by
  induction l with
  | nil => simp [insCand]
  | cons z l ih =>
    rw [insCand]
    split
    · simp
    · simp only [List.mem_cons, ih]
      tauto

/-- The candidates are the offsets examined whose distance is within the threshold. -/
theorem mem_candsOf {examined : Int → Bool} {thresh : Nat} {dist : List (Int × Nat)} {p : Int × Nat} :
    p ∈ candsOf examined thresh dist ↔ p ∈ dist ∧ examined p.1 = true ∧ p.2 ≤ thresh := by
  have hfold (l : List (Int × Nat)) : ∀ m : List (Int × Nat), p ∈ l.foldl (fun l x => insCand x l) m ↔ p ∈ l ∨ p ∈ m := by
    induction l with
    | nil => intro m; simp
    | cons y l ih =>
      intro m
      rw [List.foldl_cons, ih, mem_insCand, List.mem_cons]
      tauto
  rw [candsOf, hfold]
  simp

theorem mem_triesOf {cands : List (Int × Nat)} {k : Int} (h : k ∈ triesOf cands) : k = 0 ∨ ∃ p ∈ cands, p.1 = k := by
  have htake (ht : k ∈ (cands.take 2).map (·.1)) : ∃ p ∈ cands, p.1 = k := by
    obtain ⟨p, hp, hk⟩ := List.mem_map.mp ht
    exact ⟨p, List.mem_of_mem_take hp, hk⟩
  rw [triesOf] at h
  split at h
  · exact .inr (htake h)
  · rcases List.mem_append.mp h with h | h
    · exact .inr (htake h)
    · exact .inl (List.mem_singleton.mp h)

theorem length_triesOf_le (cands : List (Int × Nat)) : (triesOf cands).length ≤ 3 := by
  rw [triesOf]
  split <;> simp only [List.length_append, List.length_map, List.length_take, List.length_singleton] <;> omega

section align

variable {l thresh : Nat} {examined : Int → Bool} {dist : List (Int × Nat)} {hdr : List (Int × List Bool)}

/-- A header used passes at the alignment tried. -/
theorem alignOf_header {h : SegHeader} (hh : (alignOf l examined thresh dist hdr).hdr = some h) :
    headerAt l hdr (alignOf l examined thresh dist hdr).ofs = some h ∧
    (alignOf l examined thresh dist hdr).ofs ∈ triesOf (candsOf examined thresh dist) := by
  cases hf : (triesOf (candsOf examined thresh dist)).find? (fun k => (headerAt l hdr k).isSome) with
  | none => simp [alignOf, hf] at hh
  | some k =>
    simp only [alignOf, hf] at hh ⊢
    exact ⟨hh, List.mem_of_find?_eq_some hf⟩

theorem alignOf_freewheel (hh : (alignOf l examined thresh dist hdr).hdr ≠ none) :
    (alignOf l examined thresh dist hdr).freewheel = true ↔ candsOf examined thresh dist = [] := by
  cases hf : (triesOf (candsOf examined thresh dist)).find? (fun k => (headerAt l hdr k).isSome) with
  | none => simp [alignOf, hf] at hh
  | some k => simp only [alignOf, hf, List.isEmpty_iff]

end align

section result

variable (o : TileOut) (seg : SegId) (lane cap : Nat) (fw alt : Bool)

theorem tileResult_converged : (tileResult o seg lane cap fw alt).converged = true ↔
    o.bits.length = 36864 ∧ c1Check (tileWord o seg lane) = true := by
  simp [tileResult]

theorem tileResult_iters_le : (tileResult o seg lane cap fw alt).iters ≤ cap := by
  simp only [tileResult]
  split
  · exact Nat.zero_le _
  · split <;> omega

theorem tileResult_iters_of_not_converged (h : (tileResult o seg lane cap fw alt).converged = false) :
    (tileResult o seg lane cap fw alt).iters = cap := by
  simp only [tileResult] at h ⊢
  simp only [h, Bool.false_eq_true, if_false]
  split <;> omega

end result

end Sys2Proof.Machine
end

section
/-! A tile finishes a segment (R219, R222, R231). -/

namespace Sys2Proof.Machine

theorem exec_tileDecodeDone (n : Fin 8) (t : Fin 9) (bits : List Bool) (iters llr : Nat) (s : State) :
    exec (.tileDecodeDone n t bits iters llr) s = s.onDev (fun d => d.tileDone n t ⟨bits, iters, llr⟩) := rfl

theorem Dev.tileDone_of_none {d : Dev} {n t : Nat} (o : TileOut) (h : ((d.rd n).tileOf t).find? (·.ready) = none) : d.tileDone n t o = d := by
  simp [Dev.tileDone, h]

/-- The fields of DECODE that a segment's result goes into (R231). -/
def decodeCounts : List Fld := [Reg.DECODE.LAST_ITERS, Reg.DECODE.SEGS_DECODED, Reg.DECODE.CONV_CNT, Reg.DECODE.NONCONV]

section count

variable (d : Dev) (n t : Nat) (res : SegResult)

theorem pgDetect_ne_pgDecode (n t : Nat) : pgDetect n t ≠ pgDecode n t := by
  simp only [pgDetect, pgDecode, PageId, ne_eq]; omega

theorem pgSh_ne_pgDecode {t : Nat} (n : Nat) (ht : t < 9) : pgSh n ≠ pgDecode n t := by
  simp only [pgSh, pgDecode, PageId, ne_eq]; omega

/-- SNR of a lane is none of the fields of DECODE. -/
theorem slot_SNR_ne (i : Nat) : ∀ f ∈ decodeCounts, (Reg.LANEFE.SNR i).slot ≠ f.slot := by
  intro f hf
  have hlo : (Reg.LANEFE.SNR i).slot % 32 = 16 := by simp only [Fld.slot, Reg.LANEFE.SNR]; omega
  have hzero : ∀ f ∈ decodeCounts, f.slot % 32 = 0 := by decide
  exact fun h => by rw [h, hzero f hf] at hlo; exact absurd hlo (by decide)

theorem Dev.tileCount_LAST_ITERS : (d.tileCount n t res).fget (pgDecode n t) Reg.DECODE.LAST_ITERS = res.iters % 2 ^ Reg.DECODE.LAST_ITERS.w := by
  simp only [Dev.tileCount, Dev.unit_eq, Dev.bump_eq, Dev.ev_eq]
  split <;> simp [Dev.fget_fset, Fld.slot, Reg.HEADER.UNITS, Reg.DECODE.LAST_ITERS, Reg.DECODE.CONV_CNT, Reg.DECODE.NONCONV, Reg.DECODE.NONCONV_CNT]

theorem Dev.tileCount_SEGS_DECODED : (d.tileCount n t res).fget (pgDecode n t) Reg.DECODE.SEGS_DECODED =
    satAdd (2 ^ Reg.DECODE.SEGS_DECODED.w - 1) (d.fget (pgDecode n t) Reg.DECODE.SEGS_DECODED) 1 := by
  have hkeep : (d.tileCount n t res).fget (pgDecode n t) Reg.DECODE.SEGS_DECODED =
      (d.bump (pgDecode n t) Reg.DECODE.SEGS_DECODED 1).fget (pgDecode n t) Reg.DECODE.SEGS_DECODED := by
    generalize he : d.bump (pgDecode n t) Reg.DECODE.SEGS_DECODED 1 = e
    simp only [Dev.tileCount, he, Dev.unit_eq, Dev.bump_eq, Dev.ev_eq]
    split <;> simp [Dev.fget_fset, Fld.slot, Reg.HEADER.UNITS, Reg.DECODE.LAST_ITERS, Reg.DECODE.CONV_CNT, Reg.DECODE.NONCONV,
      Reg.DECODE.NONCONV_CNT, Reg.DECODE.SEGS_DECODED, Reg.DECODE.ITER_SUM]
  rw [hkeep, Dev.fget_bump_same]

theorem Dev.tileCount_CONV_CNT (h : res.converged = true) : (d.tileCount n t res).fget (pgDecode n t) Reg.DECODE.CONV_CNT =
    satAdd (2 ^ Reg.DECODE.CONV_CNT.w - 1) (d.fget (pgDecode n t) Reg.DECODE.CONV_CNT) 1 := by
  simp only [Dev.tileCount, h, if_true, Dev.unit_eq]
  rw [Dev.bump_eq, Dev.bump_eq, Dev.fget_fset_slot _ _ _ _ (by decide), Dev.fget_fset_slot _ _ _ _ (by decide), Dev.fget_bump_same,
    Dev.fget_fset_slot _ _ _ _ (by decide), Dev.bump_eq, Dev.fget_fset_slot _ _ _ _ (by decide), Dev.bump_eq, Dev.fget_fset_slot _ _ _ _ (by decide)]

theorem Dev.tileCount_NONCONV (h : res.converged = false) : (d.tileCount n t res).fget (pgDecode n t) Reg.DECODE.NONCONV = 1 := by
  simp only [Dev.tileCount, h, Bool.false_eq_true, if_false, Dev.unit_eq]
  rw [Dev.bump_eq, Dev.bump_eq, Dev.fget_fset_slot _ _ _ _ (by decide), Dev.fget_fset_slot _ _ _ _ (by decide), Dev.ev_eq, Dev.fget_fset_same]
  rfl

theorem Dev.rd_bump (pg : PageId) (f : Fld) (k : Nat) : (d.bump pg f k).rd n = d.rd n := rfl
theorem Dev.rd_ev (pg : PageId) (f : Fld) : (d.ev pg f).rd n = d.rd n := rfl

theorem Dev.rd_tileCount : (d.tileCount n t res).rd n = d.rd n := by
  simp only [Dev.tileCount, Dev.unit_eq]
  split <;> simp only [Dev.rd_bump, Dev.rd_ev, Dev.rd_fset]

end count

section keeps

variable {n : Nat} {pg : PageId} {fs : List Fld} {d e : Dev}

theorem Dev.KeepsTiles.snrSeen (h : KeepsTiles n pg fs d e) (l : Nat) (samples : List Int) (bits : List Bool)
    (hs : ∀ f ∈ fs, (Reg.LANEFE.SNR (l % 16)).slot ≠ f.slot) : KeepsTiles n pg fs d (e.snrSeen n l samples bits) := by
  simp only [Dev.snrSeen, Dev.modLane_eq]
  exact h.modSp.fset _ _ _ hs

theorem Dev.KeepsTiles.adaptSet (h : KeepsTiles n pg fs d e) (l set : Nat) (samples : List Int) (bits : List Bool) :
    KeepsTiles n pg fs d (e.adaptSet n l set samples bits) := by
  simp only [Dev.adaptSet, Dev.modRd_eq]
  exact .foldl (fun x k => (Dev.Keeps.refl x).nextFree.modSp) _ h

theorem Dev.KeepsTiles.adapt (h : KeepsTiles n pg fs d e) (l t : Nat) (samples : List Int) (bits : List Bool) :
    KeepsTiles n pg fs d (e.adapt n l t samples bits) := by
  simp only [Dev.adapt]
  refine .ite (fun _ => h) fun _ => .ite (fun _ => ?_) fun _ => KeepsTiles.adaptSet h ..
  exact (Dev.Keeps.foldl (fun x k => KeepsTiles.adaptSet (.refl x) ..) _ (KeepsTiles.adaptSet h ..)).modSp

end keeps

/-- The tile's registers and its segments once its oldest is finished: they stand so until the end (R222, R231). -/
theorem Dev.tileDone_keeps {d : Dev} {n t : Nat} {o : TileOut} {x : TileSeg} (ht : t < 9) (hx : ((d.rd n).tileOf t).find? (·.ready) = some x)
    (hu : d.unsettled (pgDetect n t) = false) (hv : d.unsettled (pgDecode n t) = false) (hw : d.unsettled (lfe n x.lane) = false) :
    KeepsTiles n (pgDecode n t) decodeCounts
      ((d.setTile n t (((d.rd n).tileOf t).erase x)).tileCount n t (tileResult o x.seg x.lane x.cap x.freewheel x.altAlign)) (d.tileDone n t o) := by
  have hsh := pgSh_ne_pgDecode n ht
  simp only [Dev.tileDone, hx, hu, hv, hw, Bool.or_false, Bool.false_eq_true, if_false]
  generalize (d.setTile n t (((d.rd n).tileOf t).erase x)).tileCount n t _ = e
  generalize tileResult o x.seg x.lane x.cap x.freewheel x.altAlign = res
  have hmap (b : Dev) (hb : KeepsTiles n (pgDecode n t) decodeCounts e b) := KeepsTiles.mapCode hb x.seg x.kind
    (qualityClass res.converged res.iters + 8 * b2n (x.freewheel || x.altAlign))
  have hadapt : KeepsTiles n (pgDecode n t) decodeCounts e
      (if res.converged then (e.snrSeen n x.lane x.samples o.bits).adapt n x.lane t x.samples o.bits else e) :=
    .ite (fun _ => KeepsTiles.adapt (KeepsTiles.snrSeen (.refl e) _ _ _ (slot_SNR_ne _)) ..) fun _ => .refl e
  have hrow := KeepsTiles.deliverRow hsh (hmap _ hadapt) x.seg x.kind (rowOf x res (tileRow o x.seg x.lane)) false
  exact .ite (fun _ => hmap _ hadapt) fun _ => .ite (fun _ => hrow) fun _ => KeepsTiles.offer hsh hrow _

theorem Dev.fget_setTile (d : Dev) (n t : Nat) (l : List TileSeg) {pg : PageId} (f : Fld) (h : pgDetect n t ≠ pg) :
    (d.setTile n t l).fget pg f = d.fget pg f := by
  simp only [Dev.setTile, Dev.fput_eq]
  split
  · rw [Dev.fget_fset_page _ _ _ _ h, Dev.fget_fset_page _ _ _ _ h, Dev.fget_modRd]
  · rw [Dev.fget_modRd]

theorem Dev.tileOf_setTile (d : Dev) (n t : Nat) (l : List TileSeg) : ((d.setTile n t l).rd n).tileOf t = l := by
  have h : ((d.modRd n (fun r => { r with tiles := mset (fun _ => []) r.tiles t l })).rd n).tileOf t = l := by
    rw [Dev.rd_modRd, Rd.tileOf, mget_mset_same]
  simp only [Dev.setTile, Dev.fput_eq]
  split <;> exact h

end Sys2Proof.Machine
end

section
/-! The statement about header tries and tiles. -/

namespace Sys2Proof.Proofs

open Sys2Proof.Machine

/-- Settles O27: the tries, the result of a tile, and the registers of the tile that finished its oldest ready segment. -/
theorem headersAndTiles : Obligations.HeadersAndTiles := by
  refine ⟨fun l thresh examined dist hdr => ⟨fun h => alignOf_header, fun k hk => ?_, length_triesOf_le _, alignOf_freewheel⟩,
    fun o seg lane cap fw alt => ⟨tileResult_converged .., tileResult_iters_le .., tileResult_iters_of_not_converged o seg lane cap fw alt⟩,
    fun s n t o => ⟨fun h => ?_, fun x hx hu hv hw r hr => .of_onDev (exec_tileDecodeDone n t o.bits o.iters o.llr s) ?_⟩⟩
  · rcases mem_triesOf hk with h | ⟨p, hp, hk⟩
    · exact .inl h
    · obtain ⟨hdist, hex, hle⟩ := mem_candsOf.mp hp
      exact .inr ⟨p, hdist, hk, hk ▸ hex, hle⟩
  · exact (exec_tileDecodeDone n t o.bits o.iters o.llr s).trans (State.onDev_of_eq (f := fun d => d.tileDone n t o) (Dev.tileDone_of_none o h))
  · have hk := Dev.tileDone_keeps (o := o) t.isLt hx hu hv hw
    rw [← hr] at hk
    have hpage := pgDetect_ne_pgDecode n t
    rw [State.modDev_dev]
    refine ⟨?_, ?_, ?_, fun hc => ?_, fun hc => ?_⟩
    · have htiles := congrArg (fun m => mget (fun _ => []) m t) hk.part
      refine htiles.trans ?_
      exact (congrArg (fun r => Rd.tileOf r t) (Dev.rd_tileCount ..)).trans (Dev.tileOf_setTile ..)
    · rw [hk.regs Reg.DECODE.LAST_ITERS (by decide), Dev.tileCount_LAST_ITERS]
    · rw [hk.regs Reg.DECODE.SEGS_DECODED (by decide), Dev.tileCount_SEGS_DECODED, Dev.fget_setTile _ _ _ _ _ hpage]
    · rw [hk.regs Reg.DECODE.CONV_CNT (by decide), Dev.tileCount_CONV_CNT _ _ _ _ hc, Dev.fget_setTile _ _ _ _ _ hpage]
    · rw [hk.regs Reg.DECODE.NONCONV (by decide), Dev.tileCount_NONCONV _ _ _ _ hc]

end Sys2Proof.Proofs
end

section
/-! Gap search, hunt and the loss of sync (R216, R217). -/

namespace Sys2Proof.Machine

theorem exec_lowTone (n : Fin 8) (x : ToneAt) (s : State) : exec (.lowTone n x) s = s.onDev (fun d => d.lowTone n x.lane x.place) := rfl
theorem exec_hunt (n : Fin 8) (l : Fin 64) (s : State) : exec (.hunt n l) s = s.onDev (fun d => d.hunt n l) := rfl
theorem exec_spokeSyncLost (n : Fin 8) (s : State) : exec (.spokeSyncLost n) s = s.onSpoke n (fun d => (d.syncLost n).recovBlank n) := rfl

section

variable {d : Dev} {n l : Nat}

theorem Dev.lowTone_of_not_gap (place : Int) (h : ((d.rd n).lane l).mode ≠ .gap) : d.lowTone n l place = d := by
  simp [Dev.lowTone, h]

theorem Dev.lowTone_of_gap (place : Int) (h : ((d.rd n).lane l).mode = .gap) : d.lowTone n l place = (d.modLane n l (fun c =>
    { c with sheet := ((d.rd n).toneSheet l).sheet, gen := ((d.rd n).toneSheet l).gen, kind := ((d.rd n).toneSheet l).kind,
             pos := 0, inArea := false, misses := 0, known := true, first := true, place := place })).laneMode n l .locked := by
  simp [Dev.lowTone, h]

theorem Dev.hunt_of_missed (h : ((d.rd n).lane l).mode = .locked) (hm : 4 ≤ ((d.rd n).lane l).misses) : d.hunt n l = d.laneMode n l .hunt := by
  simp [Dev.hunt, h, hm]

theorem Dev.hunt_of_served (h : ((d.rd n).lane l).mode ≠ .locked ∨ ((d.rd n).lane l).misses < 4) : d.hunt n l = d := by
  rw [Dev.hunt, if_neg]
  rcases h with h | h <;> simp [h]

theorem Dev.syncLost_of_headers (h : (d.rd n).noHeader < 64) : d.syncLost n = d := by
  simp [Dev.syncLost, h]

end

/-- SYNC_LOST raised for the tiles `l`. -/
def Dev.syncLostOn (n : Nat) (l : List Nat) (d : Dev) : Dev := l.foldl (fun e t => e.ev (pgDetect n t) Reg.DETECT.SYNC_LOST) d

/-- The lanes `l` taken into gap search. -/
def Dev.gapLanes (n : Nat) (l : List Nat) (d : Dev) : Dev := l.foldl (fun e k => e.laneMode n k .gap) d

theorem Dev.syncLostOn_cons (n u : Nat) (l : List Nat) (d : Dev) :
    d.syncLostOn n (u :: l) = (d.ev (pgDetect n u) Reg.DETECT.SYNC_LOST).syncLostOn n l := by
  simp only [Dev.syncLostOn, List.foldl_cons]
theorem Dev.gapLanes_cons (n k : Nat) (l : List Nat) (d : Dev) : d.gapLanes n (k :: l) = (d.laneMode n k .gap).gapLanes n l := by
  simp only [Dev.gapLanes, List.foldl_cons]

theorem Dev.syncLost_of_no_header {d : Dev} {n : Nat} (h : 64 ≤ (d.rd n).noHeader) : d.syncLost n =
    (((d.clr (pgDet0 n) Reg.DETECT.SPOKE_SYNC).syncLostOn n (List.range 9)).gapLanes n (List.range 64)).modRd n
      (fun r => { r with noHeader := 0, dry := [] }) := by
  rw [Dev.syncLost, if_neg (by omega)]
  rfl

theorem Dev.syncLostOn_SYNC_LOST (n t : Nat) (l : List Nat) : ∀ d : Dev, (d.syncLostOn n l).fget (pgDetect n t) Reg.DETECT.SYNC_LOST =
    if t ∈ l then 1 else d.fget (pgDetect n t) Reg.DETECT.SYNC_LOST := by
  induction l with
  | nil => intro d; simp [Dev.syncLostOn]
  | cons u l ih =>
    intro d
    rw [Dev.syncLostOn_cons, ih]
    by_cases hl : t ∈ l
    · simp [hl]
    · by_cases hu : t = u
      · subst hu
        simp [hl, Dev.ev_eq, show Reg.DETECT.SYNC_LOST.w = 1 from rfl]
      · simp [hl, hu, Dev.ev_eq, Dev.fget_fset, pgDetect_injective (Ne.symm hu)]

theorem Dev.syncLostOn_slot (n : Nat) (pg : PageId) {f : Fld} (hf : Reg.DETECT.SYNC_LOST.slot ≠ f.slot) (l : List Nat) (d : Dev) :
    (d.syncLostOn n l).fget pg f = d.fget pg f :=
  foldl_keeps (fun e => e.fget pg f) _ (fun e t => by rw [Dev.ev_eq, Dev.fget_fset_slot _ _ _ _ hf]) l d

theorem Dev.gapLanes_fget (n t : Nat) {f : Fld} (hh : Reg.DETECT.HUNTING.slot ≠ f.slot) (hk : Reg.DETECT.LOCKED.slot ≠ f.slot) (l : List Nat)
    (hl : ∀ k ∈ l, k < 64) : ∀ d : Dev, (d.gapLanes n l).fget (pgDetect n t) f = d.fget (pgDetect n t) f := by
  induction l with
  | nil => intro d; rfl
  | cons k l ih =>
    intro d
    rw [Dev.gapLanes_cons, ih fun j hj => hl j (List.mem_cons_of_mem _ hj)]
    exact Dev.fget_laneMode d n k .gap (.inl (lfe_ne_pgDetect (hl k List.mem_cons_self))) (.inr ⟨hh, hk⟩)

theorem Dev.mode_laneMode (d : Dev) (n l k : Nat) (m : LaneMode) :
    (((d.laneMode n l m).rd n).lane k).mode = if l = k then m else ((d.rd n).lane k).mode := by
  simp only [Dev.laneMode, Dev.syncStat, Dev.fput_eq, Dev.rd_fset, Dev.modLane, Dev.rd_modRd, Rd.lane, mget_mmod]
  split
  · split <;> rfl
  · rfl

theorem Dev.mode_gapLanes (n k : Nat) (l : List Nat) : ∀ d : Dev,
    (((d.gapLanes n l).rd n).lane k).mode = if k ∈ l then .gap else ((d.rd n).lane k).mode := by
  induction l with
  | nil => intro d; simp [Dev.gapLanes]
  | cons j l ih =>
    intro d
    rw [Dev.gapLanes_cons, ih, Dev.mode_laneMode]
    by_cases hl : k ∈ l
    · simp [hl]
    · by_cases hj : j = k
      · simp [hj]
      · simp [hl, hj, Ne.symm hj]

theorem Dev.noHeader_modRd (d : Dev) (n k : Nat) : ((d.modRd n (fun r => { r with noHeader := k, dry := [] })).rd n).noHeader = k :=
  congrArg Rd.noHeader (Dev.rd_modRd ..)

theorem Dev.lane_modRd_noHeader (d : Dev) (n k l : Nat) :
    ((d.modRd n (fun r => { r with noHeader := k, dry := [] })).rd n).lane l = (d.rd n).lane l :=
  (congrArg (Rd.lane · l) (Dev.rd_modRd d n (fun r => { r with noHeader := k, dry := [] }))).trans rfl

/-- Spoke sync is lost (R217): its event on every tile, every lane in gap search. -/
theorem Dev.syncLost_effect {d : Dev} {n : Nat} (h : 64 ≤ (d.rd n).noHeader) :
    (d.syncLost n).fget (pgDet0 n) Reg.DETECT.SPOKE_SYNC = 0 ∧
    (∀ t < 9, (d.syncLost n).fget (pgDetect n t) Reg.DETECT.SYNC_LOST = 1) ∧
    ((d.syncLost n).rd n).noHeader = 0 ∧ ∀ k < 64, (((d.syncLost n).rd n).lane k).mode = .gap := by
  rw [Dev.syncLost_of_no_header h]
  have hlanes : ∀ k ∈ List.range 64, k < 64 := fun _ => List.mem_range.mp
  refine ⟨?_, fun t ht => ?_, ?_, fun k hk => ?_⟩
  · rw [Dev.fget_modRd, pgDet0, Dev.gapLanes_fget n 0 (by decide) (by decide) _ hlanes, Dev.syncLostOn_slot _ _ (by decide), Dev.clr_eq,
      Dev.fget_fset_same]
    rfl
  · rw [Dev.fget_modRd, Dev.gapLanes_fget n t (by decide) (by decide) _ hlanes, Dev.syncLostOn_SYNC_LOST, if_pos (List.mem_range.mpr ht)]
  · exact Dev.noHeader_modRd ..
  · rw [Dev.lane_modRd_noHeader, Dev.mode_gapLanes, if_pos (List.mem_range.mpr hk)]

end Sys2Proof.Machine
end

section
/-! The statement about gap search, hunt and sync. -/

namespace Sys2Proof.Proofs

open Sys2Proof.Machine

/-- Settles O28: each of the three events on both sides of its condition. -/
theorem gapHuntAndSync : Obligations.GapHuntAndSync := by
  intro s n l place
  refine ⟨fun h => ?_, fun h => ?_, fun h hm => ?_, fun h => ?_, fun h => ?_, fun h => ?_⟩
  · exact (exec_lowTone n ⟨l, place⟩ s).trans (State.onDev_of_eq (f := fun d => d.lowTone n l place) (Dev.lowTone_of_not_gap place h))
  · rw [exec_lowTone]
    exact next_modDev_congr (Dev.lowTone_of_gap place h)
  · rw [exec_hunt]
    exact next_modDev_congr (Dev.hunt_of_missed h hm)
  · exact (exec_hunt n l s).trans (State.onDev_of_eq (f := fun d => d.hunt n l) (Dev.hunt_of_served h))
  · exact .of_onSpoke (exec_spokeSyncLost n s) ⟨s.dev.syncLost n, rfl, Dev.syncLost_effect h⟩
  · exact .of_onSpoke (exec_spokeSyncLost n s) (congrArg (Dev.recovBlank · n) (Dev.syncLost_of_headers h))

end Sys2Proof.Proofs
end

section
/-! Sheets that pass, their decodes, and replays (R97, R236, R238). -/

namespace Sys2Proof.Machine

theorem exec_sheetPassed (n : Fin 8) (num gen kind : Nat) (s : State) :
    exec (.sheetPassed n num gen kind) s = s.onSpoke n (fun d => d.sheetPassed n num gen kind) := rfl
theorem exec_secondDecode (n : Fin 8) (num : Nat) (s : State) : exec (.secondDecode n num) s = s.onSpoke n (fun d => d.secondDecode n num) := rfl
theorem exec_c2DecodeDone (n : Fin 8) (s : State) : exec (.c2DecodeDone n) s = s.onSpoke n (fun d => d.c2Done n) := rfl
theorem exec_replayStart (n : Fin 8) (t : Fin 9) (s : State) : exec (.replayStart n t) s = s.onSpoke n (fun d => d.replayStart n t) := rfl
theorem exec_replayDone (n : Fin 8) (x : TileEnd) (bits hdr : List Bool) (s : State) :
    exec (.replayDone n x bits hdr) s = s.onSpoke n (fun d => d.replayDone n ⟨bits, x.iters, x.llr⟩ hdr) := rfl

section

variable {d d1 : Dev} {n num gen kind : Nat}

theorem Dev.rd_modUsage (d : Dev) (n : Nat) (f : Usage → Usage) : (d.modUsage n f).rd n = d.rd n := by
  simp only [Dev.modUsage, Dev.modCart, Dev.rd, Dev.sp_modSp_same]

/-- To meet a sheet adds it where it is missing, and changes nothing else of the read path. -/
theorem Dev.rd_meetSheet (d : Dev) (n num kind gen : Nat) :
    ((d.meetSheet n num kind gen).rd n).stopped = (d.rd n).stopped ∧ ((d.meetSheet n num kind gen).rd n).stopAt = (d.rd n).stopAt ∧
    ((d.meetSheet n num kind gen).rd n).ladder = (d.rd n).ladder := by
  rw [Dev.meetSheet]
  split
  · exact ⟨rfl, rfl, rfl⟩
  · rw [Dev.rd_modRd]
    exact ⟨rfl, rfl, rfl⟩

theorem Dev.sheetPassed_of_not_reading (h1 : d1 = ((d.closeMap n num gen kind).healthCopy n).boostsDue n) (hc : d1.hostCal n = true)
    (hr : (d1.sp n).drv.reading = false) : d.sheetPassed n num gen kind = d1 := by
  simp only [Dev.sheetPassed, ← h1, hc, Bool.true_or, if_true, hr, Bool.not_false]

/-- The sheet counts in SHEETS_READ and is met; the sheets up to it count as seen (R97). -/
def Dev.sheetMet (d : Dev) (n num kind gen : Nat) : Dev :=
  (((d.modUsage n (fun u => { u with sheetsRead := u.sheetsRead + 1 })).meetSheet n num kind gen).modRd n (fun r =>
    { r with nextSheet := max r.nextSheet (num + 1), gaps := if r.nextSheet < num then r.gaps ++ [(r.nextSheet, num)] else r.gaps })).modRd n
      (fun r => { r with lastPassed := some num })

theorem Dev.lad_sheetMet (d : Dev) (n num kind gen : Nat) : ((d.sheetMet n num kind gen).rd n).ladder = (d.rd n).ladder := by
  simp only [Dev.sheetMet, Dev.rd_modRd]
  rw [(Dev.rd_meetSheet _ n num kind gen).2.2, Dev.rd_modUsage]

theorem Dev.sheetPassed_of_reading (h1 : d1 = ((d.closeMap n num gen kind).healthCopy n).boostsDue n) (hc : d1.hostCal n = true)
    (hr : (d1.sp n).drv.reading = true) (hp : (d1.lad n).phase = .idle) (hs : (d1.rd n).stopped = false) (ha : (d1.rd n).stopAt = none)
    {x : RSheet} (hx : ((d1.sheetMet n num kind gen).rd n).sheet? num = some x) (hd : x.decodes = 0) :
    d.sheetPassed n num gen kind =
      ((d1.sheetMet n num kind gen).modSheetR n num (fun z => { z with passed := true, kind := kind })).c2Next n := by
  obtain ⟨hstop, hat, -⟩ := Dev.rd_meetSheet (d1.modUsage n (fun u => { u with sheetsRead := u.sheetsRead + 1 })) n num kind gen
  rw [Dev.rd_modUsage] at hstop hat
  have hre : ((d1.sheetMet n num kind gen).rd n).rereading num = false := by
    have hph : (d1.rd n).ladder.phase = .idle := hp
    rw [Rd.rereading, Dev.lad_sheetMet, hph]
    rfl
  rw [Dev.sheetMet] at hx hre
  simp only [Dev.sheetPassed, ← h1, hc, Bool.true_or, if_true, hr, Bool.not_true, Bool.false_eq_true, if_false, hp, hstop, hs, hat, ha,
    Bool.false_and, Option.any_none, Bool.or_false, show (LadderPhase.idle == LadderPhase.reread) = false from rfl,
    show (LadderPhase.idle == LadderPhase.rebuild) = false from rfl, hx, hd, hre, Bool.not_false, Bool.and_true, decide_true, Dev.sheetMet]

end

section

variable {d e : Dev} {n num : Nat} {x : RSheet} {y : SheetDecode}

theorem Dev.c2Done_of_none (h : (d.rd n).sheets.find? (·.busy) = none) : d.c2Done n = d := by
  simp only [Dev.c2Done, h]

theorem Dev.decodeSheet_of_settled (h : d.unsettled (pgVerify n) = false) (rows : SMap RowRec) (era : List Nat) (limit : Nat) :
    d.decodeSheet n rows era limit = (d, c2Sheet rows era limit) := by
  simp [Dev.decodeSheet, h]

section done

variable (hx : (d.rd n).sheets.find? (·.busy) = some x) (hu : d.unsettled (pgVerify n) = false)
  (hy : y = c2Sheet x.rows (inlineErasures x.rows) x.limit)
  (he : e = (d.bump (pgVerify n) Reg.HEADER.UNITS 1).modSheetR n x.num (fun z => { z.decoded y with busy := false }))

include hx hu hy he

theorem Dev.c2Done_of_resolved (hr : y.resolved = true) :
    d.c2Done n = (((e.c2Regs n x y).sheetResolved n x.num).modSheetR n x.num RSheet.takeLate).c2Next n := by
  simp only [Dev.c2Done, hx, Dev.decodeSheet_of_settled hu, ← hy, Dev.unit, ← he, hr, Bool.true_or, if_true]

theorem Dev.c2Done_of_first (hr : y.resolved = false) (hd : x.decodes < 2) :
    d.c2Done n = (e.modSheetR n x.num RSheet.takeLate).c2Next n := by
  have hlt : decide (2 ≤ x.decodes) = false := decide_eq_false (by omega)
  simp only [Dev.c2Done, hx, Dev.decodeSheet_of_settled hu, ← hy, Dev.unit, ← he, hr, hlt, Bool.or_false, Bool.false_eq_true, if_false]

theorem Dev.c2Done_of_second (hr : y.resolved = false) (hd : 2 ≤ x.decodes) {z : RSheet}
    (hz : (((e.c2Regs n x y).modSheetR n x.num (fun t => { t with final := true })).rd n).sheet? x.num = some z) :
    d.c2Done n = ((((e.c2Regs n x y).modSheetR n x.num (fun t => { t with final := true })).learnIndex n z).modSheetR n x.num
      RSheet.takeLate).c2Next n := by
  simp only [Dev.c2Done, hx, Dev.decodeSheet_of_settled hu, ← hy, Dev.unit, ← he, hr, decide_eq_true hd, Bool.false_or, Bool.false_eq_true,
    if_false, if_true, hz]

end done

theorem Dev.secondDecode_of_unresolved (hp : (d.lad n).phase = .idle) (ha : (d.rd n).stopAt = none) (hx : (d.rd n).sheet? num = some x)
    (hd : x.decodes = 1) (hf : x.final = false) (hb : x.busy = false) :
    d.secondDecode n num = (d.modSheetR n num (fun z => { z with again := true })).c2Next n := by
  simp [Dev.secondDecode, hp, ha, hx, hd, hf, hb]

end

section replay

variable {d e : Dev} {n t slot : Nat} {c : CapRec}

theorem Dev.replayStart_of_free (hp : (d.lad n).phase = .replay) (hr : (d.lad n).replay = none) (ht : d.tileTakes n t = true)
    (hw : d.takesWork (pgSh n) = true) (hq : (d.rd n).tileOf t = []) (hl : ∀ k < 9, ((d.rd n).tileOf k).length ≤ 8)
    (hc : d.nextReplay n (d.lad n).inRung = some (slot, c)) :
    d.replayStart n t = (d.modLad n (fun l => { l with replay := some (t, slot) })).fset (pgDetect n t) Reg.DETECT.ACTIVE 1 := by
  have hfull : (List.range 9).any (fun k => decide (8 < ((d.rd n).tileOf k).length)) = false := by
    simp only [List.any_eq_false, List.mem_range, decide_eq_true_eq]
    exact fun k hk => by have := hl k hk; omega
  simp [Dev.replayStart, hp, hr, ht, hw, hq, hfull, hc, Dev.ev_eq]

theorem Dev.replayStart_of_no_tile (ht : d.tileTakes n t = false) : d.replayStart n t = d := by
  simp [Dev.replayStart, ht]

variable {o : TileOut} {hdr : List Bool}

theorem Dev.replayDone_of_none (h : (d.lad n).replay = none) : d.replayDone n o hdr = d := by
  simp only [Dev.replayDone, h]

/-- The tile is free again: its work unit counts (R236). -/
def Dev.replayEnded (d : Dev) (n t : Nat) : Dev :=
  ((d.modLad n (fun l => { l with replay := none })).fset (pgDetect n t) Reg.DETECT.ACTIVE 0).bump (pgSh n) Reg.HEADER.UNITS 1

theorem Dev.replayEnded_eq (d : Dev) (n t : Nat) :
    ((d.modLad n (fun l => { l with replay := none })).clr (pgDetect n t) Reg.DETECT.ACTIVE).unit (pgSh n) = d.replayEnded n t := by
  rw [Dev.clr_eq, Dev.unit, Dev.replayEnded]

theorem Dev.hold_replayEnded (d : Dev) (n t : Nat) : ((d.replayEnded n t).rd n).hold = (d.rd n).hold := by
  simp only [Dev.replayEnded, Dev.rd_bump, Dev.rd_fset, Dev.modLad, Dev.rd_modRd]

theorem Dev.replayDone_of_released (h : (d.lad n).replay = some (t, slot)) (hh : (d.rd n).hold.find? (fun p => p.1 == slot) = none) :
    d.replayDone n o hdr = d.replayEnded n t := by
  simp only [Dev.replayDone, h, Dev.replayEnded_eq, Dev.hold_replayEnded, hh]

/-- A record of the hold counts a replay made on it. -/
def Dev.replayTried (d : Dev) (n slot : Nat) : Dev :=
  d.modRd n (fun r => { r with hold := r.hold.map (fun p => if p.1 == slot then (p.1, { p.2 with tried := p.2.tried + 1 }) else p) })

theorem Dev.unsettled_replayTried (d : Dev) (n t slot : Nat) (pg : PageId) :
    ((d.replayEnded n t).replayTried n slot).unsettled pg = d.unsettled pg := by
  simp only [Dev.replayTried, Dev.replayEnded, Dev.modLad, Dev.modRd_eq, Dev.bump_eq, Dev.unsettled_modSp, Dev.unsettled_fset]

/-- A replay of rung 1 delivered: its result is a copy of the row (R238). -/
def Dev.replayGiven (d : Dev) (n t : Nat) (o : TileOut) (c : CapRec) (r : SegResult) : Dev :=
  (d.tileCount n t r).deliverRow n c.seg c.kind { converged := r.converged, suspect := false, llr := r.llr, data := tileRow o c.seg c.lane,
                                                   iters := r.iters, freewheel := r.freewheel, altAlign := r.altAlign, gen := c.seg.gen,
                                                   rwslot := c.seg.rwslot } true

theorem Dev.replayDone_of_held (h : (d.lad n).replay = some (t, slot)) (hh : (d.rd n).hold.find? (fun p => p.1 == slot) = some (slot, c))
    (hu : d.unsettled (pgSh n) = false) (hv : d.unsettled (pgDetect n t) = false) (hw : d.unsettled (pgDecode n t) = false)
    (hk : (d.lad n).inRung = 1)
    (he : e = ((d.replayEnded n t).replayTried n slot).replayGiven n t o c
      (tileResult o c.seg c.lane (d.lad n).lim.iters c.freewheel c.altAlign)) :
    d.replayDone n o hdr = if (e.nextReplay n 1).isSome then e
      else if (e.lad n).gained then
        (e.modSheetR n (d.lad n).work (fun s => { s with rows := e.classedRows n s, limit := e.errLimit n })).modLad n
          (fun l => { l with phase := .decode })
      else e.afterRung n := by
  rw [Dev.replayGiven] at he
  have hmod : (d.replayEnded n t).modRd n (fun r => { r with hold := r.hold.map (fun p =>
      if p.1 == slot then (p.1, { p.2 with tried := p.2.tried + 1 }) else p) }) = (d.replayEnded n t).replayTried n slot := rfl
  simp only [Dev.replayDone, h, Dev.replayEnded_eq, Dev.hold_replayEnded, hh, hmod, Dev.unsettled_replayTried, hu, hv, hw, Bool.or_false,
    Bool.false_eq_true, if_false, hk, show decide ((1 : Nat) = 3) = false from rfl, Bool.false_and, show ((1 : Nat) != 3) = true from rfl,
    show ((1 : Nat) == 3) = false from rfl, Bool.and_true, Bool.or_false, ← he]

theorem Dev.decodeDue_effect (d : Dev) (n num : Nat) (f : RSheet → RSheet) :
    (((d.modSheetR n num f).modLad n (fun l => { l with phase := .decode })).lad n).phase = .decode ∧
    (((d.modSheetR n num f).modLad n (fun l => { l with phase := .decode })).sp n).drv = (d.sp n).drv := by
  constructor
  · simp only [Dev.lad, Dev.modLad, Dev.rd_modRd]
  · simp only [Dev.modLad, Dev.modSheetR, Dev.modRd_eq, Dev.sp_modSp_same]

end replay

end Sys2Proof.Machine
end

section
/-! The statement about the decodes of sheets and replays. -/

namespace Sys2Proof.Proofs

open Sys2Proof.Machine

/-- Settles O29: sheets that pass, the ends of their decodes, and replays from start to end. -/
theorem sheetDecodesAndReplays : Obligations.SheetDecodesAndReplays := by
  refine ⟨fun s n num gen kind d1 h1 hc => ⟨fun hr => ?_, fun d2 x hr hp hs ha h2 hx hd => ?_⟩,
    fun s n => ⟨fun h => ?_, fun x y e hx hu hy he => .of_onSpoke (exec_c2DecodeDone n s) ⟨fun hr => ?_, fun hr hd => ?_, fun hr hd z hz => ?_⟩,
      fun num x hp ha hx hd hf hb => ?_⟩,
    fun s n t => ⟨fun hp hr ht hw hq hl slot c hc => ?_, fun ht => ?_, fun o hdr h => ?_, fun o hdr k slot h hh => ?_,
      fun o hdr k slot c e h hh hu hv hw hk he => ?_⟩⟩
  · exact .of_onSpoke (exec_sheetPassed n num gen kind s) (Dev.sheetPassed_of_not_reading h1 hc hr)
  · subst h2
    exact .of_onSpoke (exec_sheetPassed n num gen kind s) (Dev.sheetPassed_of_reading h1 hc hr hp hs ha hx hd)
  · exact .of_onSpoke (exec_c2DecodeDone n s) (Dev.c2Done_of_none h)
  · exact Dev.c2Done_of_resolved hx hu hy he hr
  · exact Dev.c2Done_of_first hx hu hy he hr hd
  · exact Dev.c2Done_of_second hx hu hy he hr hd hz
  · exact .of_onSpoke (exec_secondDecode n num s) (Dev.secondDecode_of_unresolved hp ha hx hd hf hb)
  · exact .of_onSpoke (exec_replayStart n t s) (Dev.replayStart_of_free hp hr ht hw hq hl hc)
  · exact .of_onSpoke (exec_replayStart n t s) (Dev.replayStart_of_no_tile ht)
  · exact .of_onSpoke (exec_replayDone n ⟨o.iters, o.llr⟩ o.bits hdr s) (Dev.replayDone_of_none h)
  · exact .of_onSpoke (exec_replayDone n ⟨o.iters, o.llr⟩ o.bits hdr s) (Dev.replayDone_of_released h hh)
  · have hdone := Dev.replayDone_of_held (o := o) (hdr := hdr) h hh hu hv hw hk (he _ rfl)
    refine .of_onSpoke (exec_replayDone n ⟨o.iters, o.llr⟩ o.bits hdr s) ⟨fun hn => ?_, fun hn hg => ?_, fun hn hg => ?_⟩
    · exact hdone.trans (if_pos hn)
    · have hdec := hdone.trans ((if_neg (Bool.eq_false_iff.mp hn)).trans (if_pos hg))
      rw [hdec]
      exact Dev.decodeDue_effect ..
    · exact hdone.trans ((if_neg (Bool.eq_false_iff.mp hn)).trans (if_neg (Bool.eq_false_iff.mp hg)))

end Sys2Proof.Proofs
end

section
/-! The ladder's own decode, the rebuild and the host's choice (R233, R99, R245). -/

namespace Sys2Proof.Machine

/-- A write through BAR0 of a page that the accessor reaches leads to its effect on a spoke. -/
theorem Leads.of_writeDev {c : Instr} {s : State} {n : Nat} {a : Accessor} {pg : PageId} {f : Dev → Dev} {P : Dev → Prop}
    (h : exec c s = s.writeDev a pg (fun d => (f d).follow n)) (ho : s.dev.access a pg = .open) (hp : P (f s.dev)) : Leads c s n P :=
  ⟨f s.dev, h.trans (State.writeDev_open s a pg _ ho), hp⟩

theorem exec_ladderDecodeDone (n : Fin 8) (s : State) : exec (.ladderDecodeDone n) s = s.onSpoke n (fun d => d.ladderDecodeDone n) := rfl
theorem exec_c3RebuildDone (n : Fin 8) (s : State) : exec (.c3RebuildDone n) s = s.onSpoke n (fun d => d.c3Done n) := rfl
theorem exec_hostWaitExpiry (n : Fin 8) (s : State) : exec (.hostWaitExpiry n) s = s.onSpoke n (fun d => d.hostWaitExpiry n) := rfl
theorem exec_ladderStepHandover (a : Accessor) (n : Fin 8) (s : State) :
    exec (.ladderStepHandover a n) s = s.writeDev a (pgSh n) (fun d => (d.ladderStep n 0).follow n) := rfl
theorem exec_ladderStepRung (a : Accessor) (n k : Fin 8) (s : State) :
    exec (.ladderStepRung a n k) s = s.writeDev a (pgSh n) (fun d => (d.ladderStep n (k + 1)).follow n) := rfl
theorem exec_ladderStepRaw (a : Accessor) (n : Fin 8) (s : State) :
    exec (.ladderStepRaw a n) s = s.writeDev a (pgSh n) (fun d => (d.ladderStep n 9).follow n) := rfl
theorem exec_ladderStepUnreadable (a : Accessor) (n : Fin 8) (s : State) :
    exec (.ladderStepUnreadable a n) s = s.writeDev a (pgSh n) (fun d => (d.ladderStep n 15).follow n) := rfl

variable {d e : Dev} {n : Nat} {x : RSheet}

section decode

theorem Dev.ladderDecodeDone_of_none (h : (d.rd n).sheet? (d.lad n).work = none) : d.ladderDecodeDone n = d := by
  simp only [Dev.ladderDecodeDone, h]

variable (hx : (d.rd n).sheet? (d.lad n).work = some x) (hp : (d.lad n).phase = .decode) (hu : d.unsettled (pgVerify n) = false)

include hx hp hu

/-- The decode before rung 1 only gives the sheet its rows. -/
theorem Dev.ladderDecodeDone_of_entry (hr : (d.lad n).rung = 0) :
    d.ladderDecodeDone n = d.modSheetR n x.num (fun t => t.decoded (c2Sheet x.rows (inlineErasures x.rows) x.limit)) := by
  simp only [Dev.ladderDecodeDone, hx, hp, Dev.decodeSheet_of_settled hu, hr, if_true]

theorem Dev.ladderDecodeDone_of_rung (h1 : 1 ≤ (d.lad n).rung) (h5 : (d.lad n).rung < 5)
    (he : e = d.modSheetR n x.num (fun t => t.decoded (c2Sheet x.rows (inlineErasures x.rows) x.limit))) :
    d.ladderDecodeDone n = e.decodeOver n := by
  have hlow : decide (5 ≤ (d.lad n).rung) = false := decide_eq_false (by omega)
  simp only [Dev.ladderDecodeDone, hx, hp, Dev.decodeSheet_of_settled hu, ← he, if_neg (Nat.ne_of_gt h1), hlow, Bool.false_and,
    Bool.false_eq_true, if_false]

end decode

section rebuild

variable (hp : (d.lad n).phase = .rebuild) (hs : (d.lad n).stage = 4) (hw : (d.lad n).wanted = [])

include hp hs hw

theorem Dev.c3Done_of_rows {rows : SMap RowRec} (hr : d.rebuild n (d.lad n).sheet = some rows) :
    d.c3Done n = (((d.fset (pgVerify n) Reg.VERIFY.C3_DONE 1).bump (pgVerify n) Reg.VERIFY.C3_RECON 1).modSheetR n (d.lad n).sheet
      (fun x => { x with fixed := rows, failed := [], allFailed := false })).ladderResolved n := by
  simp [Dev.c3Done, hp, hs, hw, hr, Dev.ev_eq]

theorem Dev.c3Done_of_no_rows (hr : d.rebuild n (d.lad n).sheet = none) :
    d.c3Done n = ((d.fset (pgVerify n) Reg.VERIFY.C3_FAIL 1).bump (pgVerify n) Reg.VERIFY.C3_FAILED 1).rungOver n := by
  simp [Dev.c3Done, hp, hs, hw, hr, Dev.ev_eq]

end rebuild

theorem Dev.ladderStep_of_busy (k : Nat) (h : (d.lad n).phase ≠ .waitHost) : d.ladderStep n k = d := by
  rw [Dev.ladderStep, if_pos (bne_iff_ne.mpr h)]

section waits

variable (h : (d.lad n).phase = .waitHost)

include h

theorem Dev.ladderStep_handover :
    d.ladderStep n 0 = (d.modLad n (fun l => { l with auto := true, phase := .decode })).climb n 9 ((d.lad n).top + 1) := by
  simp only [Dev.ladderStep, h, bne_self_eq_false, Bool.false_eq_true, if_false, if_true]

section rung

variable {k : Nat} (hk : k < 8) (he : e = d.modLad n (fun l => { l with stepped := true, auto := false, rung := k + 1, phase := .decode }))

include hk he

theorem Dev.ladderStep_without_work (hr : e.startRung n (k + 1) = none) :
    d.ladderStep n (k + 1) = (e.modLad n (fun l => { l with top := max l.top (k + 1) })).waitHost n := by
  simp only [Dev.ladderStep, h, bne_self_eq_false, Bool.false_eq_true, if_false, Nat.succ_ne_zero, if_pos (show k + 1 ≤ 8 by omega), ← he, hr]

theorem Dev.ladderStep_with_work {f : Dev} (hr : e.startRung n (k + 1) = some f) :
    d.ladderStep n (k + 1) = if f.rungRuns n then f else f.waitHost n := by
  simp only [Dev.ladderStep, h, bne_self_eq_false, Bool.false_eq_true, if_false, Nat.succ_ne_zero, if_pos (show k + 1 ≤ 8 by omega), ← he, hr]

end rung

theorem Dev.ladderStep_raw : d.ladderStep n 9 = ((d.holdRaw n).declareUnreadable n (d.lad n).sheet).ladderIdle n := by
  simp [Dev.ladderStep, h]

theorem Dev.ladderStep_unreadable : d.ladderStep n 15 = (d.declareUnreadable n (d.lad n).sheet).ladderIdle n := by
  simp [Dev.ladderStep, h]

theorem Dev.hostWaitExpiry_of_wait (hw : d.fget (pgSh n) Reg.SAMPLEHOLD.HOST_WAIT ≠ 0) :
    d.hostWaitExpiry n = (d.declareUnreadable n (d.lad n).sheet).ladderIdle n := by
  rw [Dev.hostWaitExpiry, if_neg hw, Dev.ladderStep_unreadable h]

end waits

theorem Dev.hostWaitExpiry_of_zero (hw : d.fget (pgSh n) Reg.SAMPLEHOLD.HOST_WAIT = 0) : d.hostWaitExpiry n = d := if_pos hw

end Sys2Proof.Machine
end

section
/-! The statement about the ladder's steps. -/

namespace Sys2Proof.Proofs

open Sys2Proof.Machine

/-- Settles O30: the ladder's decode, the rebuild, and each value of NEXT while the ladder waits and while it does not. -/
theorem ladderSteps : Obligations.LadderSteps := by
  intro s a n k
  refine ⟨fun x hx hp hr hu => ?_, fun h => ?_, fun x e hx hp h1 h5 hu he => ?_, fun rows hp hs hw hr => ?_, fun hp hs hw hr => ?_,
    fun ho h => ⟨?_, ?_, ?_, ?_⟩, fun ho h => ⟨?_, fun e he => ?_, ?_, ?_, fun hw => ?_⟩, fun hw => ?_⟩
  · exact .of_onSpoke (exec_ladderDecodeDone n s) (Dev.ladderDecodeDone_of_entry hx hp hu hr)
  · exact .of_onSpoke (exec_ladderDecodeDone n s) (Dev.ladderDecodeDone_of_none h)
  · exact .of_onSpoke (exec_ladderDecodeDone n s) (Dev.ladderDecodeDone_of_rung hx hp hu h1 h5 he)
  · exact .of_onSpoke (exec_c3RebuildDone n s) (Dev.c3Done_of_rows hp hs hw hr)
  · exact .of_onSpoke (exec_c3RebuildDone n s) (Dev.c3Done_of_no_rows hp hs hw hr)
  · exact .of_writeDev (exec_ladderStepHandover a n s) ho (Dev.ladderStep_of_busy _ h)
  · exact .of_writeDev (exec_ladderStepRung a n k s) ho (Dev.ladderStep_of_busy _ h)
  · exact .of_writeDev (exec_ladderStepRaw a n s) ho (Dev.ladderStep_of_busy _ h)
  · exact .of_writeDev (exec_ladderStepUnreadable a n s) ho (Dev.ladderStep_of_busy _ h)
  · exact .of_writeDev (exec_ladderStepHandover a n s) ho (Dev.ladderStep_handover h)
  · refine .of_writeDev (exec_ladderStepRung a n k s) ho ⟨fun hr => ?_, fun f hr hf => ?_, fun f hr hf => ?_⟩
    · exact Dev.ladderStep_without_work h k.isLt he hr
    · exact (Dev.ladderStep_with_work h k.isLt he hr).trans (if_pos hf)
    · exact (Dev.ladderStep_with_work h k.isLt he hr).trans (if_neg (Bool.eq_false_iff.mp hf))
  · exact .of_writeDev (exec_ladderStepRaw a n s) ho (Dev.ladderStep_raw h)
  · exact .of_writeDev (exec_ladderStepUnreadable a n s) ho (Dev.ladderStep_unreadable h)
  · exact .of_onSpoke (exec_hostWaitExpiry n s) (Dev.hostWaitExpiry_of_wait h hw)
  · exact .of_onSpoke (exec_hostWaitExpiry n s) (Dev.hostWaitExpiry_of_zero hw)

end Sys2Proof.Proofs
end

section
/-! Records and their chunks in the press (R108, R114, R121, R122). -/

namespace Sys2Proof.Machine

theorem exec_compressStart (st : Nat) (s : State) : exec (.compressStart st) s = s.onPress (fun d => d.compressStart st) := rfl
theorem exec_fingerprintStep (st : Nat) (s : State) : exec (.fingerprintStep st) s = s.onPress (fun d => d.fingerprintStep st) := rfl
theorem exec_blockDispatch (e : Fin 17) (s : State) : exec (.blockDispatch e) s = s.onPress (fun d => d.blockDispatch e) := rfl
theorem exec_blockCoded (e : Fin 17) (body : List Byte) (s : State) : exec (.blockCoded e body) s = s.onPress (fun d => d.blockCoded e body) := rfl
theorem exec_compBufferRetry (e : Fin 17) (s : State) : exec (.compBufferRetry e) s = s.onPress (fun d => d.compRetry e) := rfl

/-- A step of the press whose effect on the device is known. -/
theorem State.onPress_of_eq {s : State} {f g : Dev → Dev} (h : f s.dev = g s.dev) :
    s.onPress f = .next (s.modDev (fun d => (g d).released')) :=
  Proofs.next_modDev_congr (f := fun d => (f d).released') (g := fun d => (g d).released') (congrArg Dev.released' h)

theorem PRec.mayStart_iff (r : PRec) :
    r.mayStart = true ↔ (r.more = false ∧ r.num ≠ none) ∨ (r.startThresh ≠ 0 ∧ 1024 * r.startThresh ≤ r.len) := by
  simp [PRec.mayStart, Option.isSome_iff_ne_none]

section start

variable {d : Dev} {st i : Nat} {r : PRec}

theorem Dev.compressStart_of_none (h : findRec (fun r => r.stream == st && !r.started && !r.cut) d.recs = none) : d.compressStart st = d := by
  simp only [Dev.compressStart, h]

variable (h : findRec (fun r => r.stream == st && !r.started && !r.cut) d.recs = some i) (hr : d.recs.getD i { stream := 0, spoke := 0 } = r)

include h hr

theorem Dev.compressStart_of_early (hm : r.mayStart = false) : d.compressStart st = d := by
  simp only [Dev.compressStart, h, hr, hm, Bool.not_false, if_true]

variable (hm : r.mayStart = true)

include hm

theorem Dev.compressStart_without_lead (hl : ((d.takeLead st).stream st).lead = none) : d.compressStart st = d.takeLead st := by
  simp only [Dev.compressStart, h, hr, hm, Bool.not_true, Bool.false_eq_true, if_false, hl]

theorem Dev.compressStart_with_lead {e : Nat} (hl : ((d.takeLead st).stream st).lead = some e) :
    d.compressStart st = ((d.takeLead st).modRec i (fun r => { r with started := true })).fpShow e := by
  simp only [Dev.compressStart, h, hr, hm, Bool.not_true, Bool.false_eq_true, if_false, hl]

end start

section chunks

variable {d : Dev} {st i : Nat} {r : PRec}

theorem Dev.fingerprintStep_of_none (h : findRec (fun r => r.stream == st && r.started && !r.cut) d.recs = none) :
    d.fingerprintStep st = d := by
  simp only [Dev.fingerprintStep, h]

variable (h : findRec (fun r => r.stream == st && r.started && !r.cut) d.recs = some i) (hr : d.recs.getD i { stream := 0, spoke := 0 } = r)

include h hr

theorem Dev.fingerprintStep_of_end (hb : (d.piecesBytes r.src).drop r.pos = []) (hm : r.more = false) (hn : r.num ≠ none) :
    d.fingerprintStep st = ({ d with blkSeq := d.blkSeq + 1 }.modRec i (fun x => x.closeBlock d.blkSeq x.pos true)).recChunked i := by
  simp only [Dev.fingerprintStep, h, hr, hb, hm, Option.isSome_iff_ne_none.mpr hn, List.isEmpty_nil, Bool.not_false, Bool.and_true, if_true]

variable {l : List Byte} {k : Nat} (hb : (d.piecesBytes r.src).drop r.pos = l) (hl : l ≠ [])

include hb hl

theorem Dev.fingerprintStep_of_boundary (hc : chunkAt l 0 0 = (k, true)) :
    d.fingerprintStep st = d.takeChunk i (l.take k) true ((!r.more && r.num.isSome) && k == l.length) := by
  have hne : l.isEmpty = false := List.isEmpty_eq_false_iff.mpr hl
  simp only [Dev.fingerprintStep, h, hr, hb, hne, Bool.false_eq_true, if_false, hc]

theorem Dev.fingerprintStep_of_rest (hc : chunkAt l 0 0 = (k, false)) :
    d.fingerprintStep st = if !r.more && r.num.isSome then d.takeChunk i l false true else d := by
  have hne : l.isEmpty = false := List.isEmpty_eq_false_iff.mpr hl
  simp only [Dev.fingerprintStep, h, hr, hb, hne, Bool.false_eq_true, if_false, hc]

end chunks

end Sys2Proof.Machine
end

section
/-! Blocks in the engines (R109, R122, R124). -/

namespace Sys2Proof.Machine

/-- The oldest of the blocks that an engine may take stands before all. -/
theorem oldestBlk_le {l : List (Nat × Nat × Nat)} {p : Nat × Nat} (h : oldestBlk l = some p) : ∃ q, (q, p) ∈ l ∧ ∀ x ∈ l, q ≤ x.1 := by
  have hfold (r : List (Nat × Nat × Nat)) : ∀ a, ((r.foldl (fun a b => if b.1 < a.1 then b else a) a) = a ∨
      (r.foldl (fun a b => if b.1 < a.1 then b else a) a) ∈ r) ∧ (r.foldl (fun a b => if b.1 < a.1 then b else a) a).1 ≤ a.1 ∧
      ∀ x ∈ r, (r.foldl (fun a b => if b.1 < a.1 then b else a) a).1 ≤ x.1 := by
    induction r with
    | nil => simp
    | cons b r ih =>
      intro a
      obtain ⟨hmem, hle, hall⟩ := ih (if b.1 < a.1 then b else a)
      rw [List.foldl_cons]
      by_cases hlt : b.1 < a.1
      · rw [if_pos hlt] at hmem hle hall ⊢
        exact ⟨.inr (List.mem_cons.mpr hmem), by omega, fun x hx => (List.mem_cons.mp hx).elim (fun h => h ▸ hle) (hall x)⟩
      · rw [if_neg hlt] at hmem hle hall ⊢
        exact ⟨hmem.imp id (List.mem_cons_of_mem _), hle, fun x hx => (List.mem_cons.mp hx).elim (fun h => h ▸ by omega) (hall x)⟩
  cases l with
  | nil => cases h
  | cons a r =>
    obtain ⟨hmem, hle, hall⟩ := hfold r a
    have hp := Option.some.inj h
    refine ⟨(r.foldl (fun a b => if b.1 < a.1 then b else a) a).1, ?_, fun x hx => ?_⟩
    · rw [← hp]
      exact List.mem_cons.mpr hmem
    · exact (List.mem_cons.mp hx).elim (fun h => h ▸ hle) (hall x)

section engine

variable {d : Dev} {e i k : Nat}

theorem Dev.blockDispatch_of_busy (h : d.compFree e = false) : d.blockDispatch e = d := by
  simp only [Dev.blockDispatch, h, Bool.not_false, if_true]

theorem Dev.blockDispatch_of_free (h : d.compFree e = true) (hk : oldestBlk (d.codable e) = some (i, k)) :
    d.blockDispatch e = (d.modBlk i k (fun b => { b with st := .coding e, eng := e })).fset (pgComp e) Reg.COMP.ACTIVE 1 := by
  simp only [Dev.blockDispatch, h, Bool.not_true, Bool.false_eq_true, if_false, hk, Dev.ev_eq]

theorem Dev.compRetry_of_idle (h : d.fon (pgComp e) Reg.COMP.WAIT_BUF = false) : d.compRetry e = d := by
  simp only [Dev.compRetry, h, Bool.not_false, if_true]

/-- Is the record's first block finished, by engine `e`? -/
def PRec.firstBy (e : Nat) (r : PRec) : Bool := match r.blks with | b :: _ => b.eng == e && b.st == .finished | [] => false

theorem Dev.compRetry_of_waiting (h : d.fon (pgComp e) Reg.COMP.WAIT_BUF = true)
    (hk : findRecBlk (PRec.firstBy e) (fun _ => true) d.recs = some (i, k)) :
    d.compRetry e = (d.fset (pgComp e) Reg.COMP.WAIT_BUF 0).flush i := by
  rw [Dev.compRetry, h]
  split
  · contradiction
  · split
    · next hn => cases hn.symm.trans hk
    · next hn =>
      cases hn.symm.trans hk
      rw [Dev.clr_eq]

end engine

theorem Dev.fget_countMib_slot (d : Dev) (pg' pg : PageId) {f' f : Fld} (key k : Nat) (h : f'.slot ≠ f.slot) :
    (d.countMib pg' f' key k).fget pg f = d.fget pg f := Dev.fget_fset_slot _ pg' pg _ h

theorem Dev.fget_bump_slot (d : Dev) (pg' pg : PageId) {f' f : Fld} (k : Nat) (h : f'.slot ≠ f.slot) :
    (d.bump pg' f' k).fget pg f = d.fget pg f := Dev.fget_fset_slot _ pg' pg _ h

/-- The engine is free: its counters, RAW_BLOCKS of a block that stays raw. -/
def Dev.codedBlk (d : Dev) (e : Nat) (raw : Bool) : Dev :=
  let x := ((d.clr (pgComp e) Reg.COMP.ACTIVE).bump (pgComp e) Reg.COMP.BLOCKS 1).unit (pgComp e)
  if raw then x.bump (pgComp e) Reg.COMP.RAW_BLOCKS 1 else x

/-- The far references of a block coded count with its stream's lead engine, and its bytes with its own. -/
def Dev.codedBytes (d : Dev) (e st : Nat) (coded : Bool) (refs hostLen bytesLen : Nat) : Dev :=
  let x := match (d.stream st).lead with
    | some l => if coded then d.bump (pgComp l) Reg.COMP.FAR_REFS refs else d
    | none => d
  (x.countMib (pgComp e) Reg.COMP.IN_MIB e hostLen).countMib (pgComp e) Reg.COMP.OUT_MIB (32 + e) bytesLen

section coded

variable (d : Dev) (e st : Nat) (coded raw : Bool) (refs hostLen bytesLen : Nat)

theorem Dev.codedBytes_fget {f : Fld} (hf : ∀ g ∈ [Reg.COMP.FAR_REFS, Reg.COMP.IN_MIB, Reg.COMP.OUT_MIB], g.slot ≠ f.slot) (pg : PageId) :
    (d.codedBytes e st coded refs hostLen bytesLen).fget pg f = d.fget pg f := by
  rw [Dev.codedBytes, Dev.fget_countMib_slot _ _ _ _ _ (hf _ (by simp)), Dev.fget_countMib_slot _ _ _ _ _ (hf _ (by simp))]
  split
  · split
    · exact Dev.fget_bump_slot _ _ _ _ (hf _ (by simp))
    · rfl
  · rfl

theorem Dev.recs_bump (pg : PageId) (f : Fld) (k : Nat) : (d.bump pg f k).recs = d.recs := rfl
theorem Dev.recs_clr (pg : PageId) (f : Fld) : (d.clr pg f).recs = d.recs := rfl

theorem Dev.recs_codedBytes : (d.codedBytes e st coded refs hostLen bytesLen).recs = d.recs := by
  rw [Dev.codedBytes]
  split
  · split <;> rfl
  · rfl

theorem Dev.recs_codedBlk : (d.codedBlk e raw).recs = d.recs := by
  rw [Dev.codedBlk]
  split <;> simp only [Dev.unit, Dev.recs_bump, Dev.recs_clr]

theorem Dev.codedBlk_fget {f : Fld} (hf : ∀ g ∈ [Reg.COMP.ACTIVE, Reg.COMP.BLOCKS, Reg.HEADER.UNITS, Reg.COMP.RAW_BLOCKS], g.slot ≠ f.slot)
    (pg : PageId) : (d.codedBlk e raw).fget pg f = d.fget pg f := by
  have hx : (((d.clr (pgComp e) Reg.COMP.ACTIVE).bump (pgComp e) Reg.COMP.BLOCKS 1).unit (pgComp e)).fget pg f = d.fget pg f := by
    rw [Dev.unit, Dev.fget_bump_slot _ _ _ _ (hf _ (by simp)), Dev.fget_bump_slot _ _ _ _ (hf _ (by simp)), Dev.clr_eq,
      Dev.fget_fset_slot _ _ _ _ (hf _ (by simp))]
  rw [Dev.codedBlk]
  split
  · exact (Dev.fget_bump_slot _ _ _ _ (hf _ (by simp))).trans hx
  · exact hx

theorem Dev.codedBlk_ACTIVE : (d.codedBlk e raw).fget (pgComp e) Reg.COMP.ACTIVE = 0 := by
  have hx : (((d.clr (pgComp e) Reg.COMP.ACTIVE).bump (pgComp e) Reg.COMP.BLOCKS 1).unit (pgComp e)).fget (pgComp e) Reg.COMP.ACTIVE = 0 := by
    rw [Dev.unit, Dev.fget_bump_slot _ _ _ _ (by decide), Dev.fget_bump_slot _ _ _ _ (by decide), Dev.clr_eq, Dev.fget_fset_same]
    rfl
  rw [Dev.codedBlk]
  split
  · exact (Dev.fget_bump_slot _ _ _ _ (by decide)).trans hx
  · exact hx

theorem Dev.codedBlk_BLOCKS : (d.codedBlk e raw).fget (pgComp e) Reg.COMP.BLOCKS =
    satAdd (2 ^ Reg.COMP.BLOCKS.w - 1) (d.fget (pgComp e) Reg.COMP.BLOCKS) 1 := by
  have hx : (((d.clr (pgComp e) Reg.COMP.ACTIVE).bump (pgComp e) Reg.COMP.BLOCKS 1).unit (pgComp e)).fget (pgComp e) Reg.COMP.BLOCKS =
      satAdd (2 ^ Reg.COMP.BLOCKS.w - 1) (d.fget (pgComp e) Reg.COMP.BLOCKS) 1 := by
    rw [Dev.unit, Dev.fget_bump_slot _ _ _ _ (by decide), Dev.fget_bump_same, Dev.clr_eq, Dev.fget_fset_slot _ _ _ _ (by decide)]
  rw [Dev.codedBlk]
  split
  · exact (Dev.fget_bump_slot _ _ _ _ (by decide)).trans hx
  · exact hx

theorem Dev.codedBlk_RAW_BLOCKS : (d.codedBlk e true).fget (pgComp e) Reg.COMP.RAW_BLOCKS =
    satAdd (2 ^ Reg.COMP.RAW_BLOCKS.w - 1) (d.fget (pgComp e) Reg.COMP.RAW_BLOCKS) 1 := by
  rw [Dev.codedBlk, if_pos rfl, Dev.fget_bump_same, Dev.unit, Dev.fget_bump_slot _ _ _ _ (by decide), Dev.fget_bump_slot _ _ _ _ (by decide),
    Dev.clr_eq, Dev.fget_fset_slot _ _ _ _ (by decide)]

end coded

section finish

variable {d : Dev} {e : Nat} (body : List Byte)

theorem Dev.blockCoded_of_none (h : findRecBlk (fun _ => true) (fun b => b.st == .coding e) d.recs = none) : d.blockCoded e body = d := by
  simp only [Dev.blockCoded, h]

theorem Dev.blockCoded_of_coding {i k : Nat} {r : PRec} {b : PBlk} {host : List Byte} {x : List Byte × Bool} {d1 : Dev}
    (h : findRecBlk (fun _ => true) (fun b => b.st == .coding e) d.recs = some (i, k)) (hu : d.unsettled (pgComp e) = false)
    (hr : r = d.recs.getD i { stream := 0, spoke := 0 }) (hb : b = d.blk i k) (hh : host = ((d.piecesBytes r.src).drop b.off).take b.len)
    (hx : x = blockBytes r.coding (d.fget (pgComp e) Reg.COMP.MATCH_DEPTH != 0) b host body)
    (h1 : d1 = (d.codedBlk e (!x.2 && !host.isEmpty)).codedBytes e r.stream x.2 b.refs.length host.length x.1.length) :
    d.blockCoded e body = (d1.modBlk i k (fun b =>
      { b with st := if r.enc then .toCrypt else .finished, bytes := x.1,
               outClass := outClassEff (d.fget (pgComp e) Reg.COMP.OUT_CLASS) })).flush i := by
  have hclass : d1.fget (pgComp e) Reg.COMP.OUT_CLASS = d.fget (pgComp e) Reg.COMP.OUT_CLASS := by
    rw [h1, Dev.codedBytes_fget _ _ _ _ _ _ _ (by decide), Dev.codedBlk_fget _ _ _ (by decide)]
  have hraw : (if (x.2 || host.isEmpty) = true then ((d.clr (pgComp e) Reg.COMP.ACTIVE).bump (pgComp e) Reg.COMP.BLOCKS 1).unit (pgComp e)
      else (((d.clr (pgComp e) Reg.COMP.ACTIVE).bump (pgComp e) Reg.COMP.BLOCKS 1).unit (pgComp e)).bump (pgComp e) Reg.COMP.RAW_BLOCKS 1) =
      d.codedBlk e (!x.2 && !host.isEmpty) := by
    rw [Dev.codedBlk]
    cases x.2 <;> cases host.isEmpty <;> rfl
  rw [← hclass, h1]
  simp only [Dev.blockCoded, h, ← hr, ← hb, ← hh, ← hx, hu, Bool.false_eq_true, if_false, hraw, Dev.codedBytes] <;> rfl

end finish

end Sys2Proof.Machine
end

section
/-! The statement about records and blocks in the press. -/

namespace Sys2Proof.Proofs

open Sys2Proof.Machine

/-- Settles O31: a record's start, its chunks, and its blocks from the engine's choice to the output. -/
theorem recordsAndBlocksCoded : Obligations.RecordsAndBlocksCoded := by
  refine ⟨fun s st => ⟨fun h => ?_, fun i r h hr => ⟨PRec.mayStart_iff r, fun hm => ?_, fun hm hl => ?_, fun e hm hl => ?_⟩, fun h => ?_,
      fun i r h hr => ⟨fun hb hm hn => ?_, fun l k hb hl hc => ?_, fun l k hb hl hc => ⟨fun hm hn => ?_, fun hw => ?_⟩⟩⟩,
    fun l p h => oldestBlk_le h,
    fun s e => ⟨fun h => ?_, fun i k h hk => ?_, fun h => ?_, fun i k h hk => ?_⟩,
    fun s e body => ⟨fun h => ?_, fun i k r b host x h hu hr hb hh hx => ?_⟩⟩
  · exact (exec_compressStart st s).trans (State.onPress_of_eq (g := id) (Dev.compressStart_of_none h))
  · exact (exec_compressStart st s).trans (State.onPress_of_eq (g := id) (Dev.compressStart_of_early h hr hm))
  · exact (exec_compressStart st s).trans (State.onPress_of_eq (g := fun d => d.takeLead st) (Dev.compressStart_without_lead h hr hm hl))
  · exact (exec_compressStart st s).trans (State.onPress_of_eq
      (g := fun d => ((d.takeLead st).modRec i (fun r => { r with started := true })).fpShow e) (Dev.compressStart_with_lead h hr hm hl))
  · exact (exec_fingerprintStep st s).trans (State.onPress_of_eq (g := id) (Dev.fingerprintStep_of_none h))
  · exact (exec_fingerprintStep st s).trans (State.onPress_of_eq
      (g := fun d => ({ d with blkSeq := d.blkSeq + 1 }.modRec i (fun x => x.closeBlock d.blkSeq x.pos true)).recChunked i)
      (Dev.fingerprintStep_of_end h hr hb hm hn))
  · exact (exec_fingerprintStep st s).trans (State.onPress_of_eq
      (g := fun d => d.takeChunk i (l.take k) true ((!r.more && r.num.isSome) && k == l.length)) (Dev.fingerprintStep_of_boundary h hr hb hl hc))
  · have hwhole : (!r.more && r.num.isSome) = true := by simp [hm, Option.isSome_iff_ne_none.mpr hn]
    exact (exec_fingerprintStep st s).trans (State.onPress_of_eq (g := fun d => d.takeChunk i l false true)
      ((Dev.fingerprintStep_of_rest h hr hb hl hc).trans (if_pos hwhole)))
  · have hpart : ¬ (!r.more && r.num.isSome) = true := by rcases hw with hw | hw <;> simp [hw]
    exact (exec_fingerprintStep st s).trans (State.onPress_of_eq (g := id) ((Dev.fingerprintStep_of_rest h hr hb hl hc).trans (if_neg hpart)))
  · exact (exec_blockDispatch e s).trans (State.onPress_of_eq (g := id) (Dev.blockDispatch_of_busy h))
  · exact (exec_blockDispatch e s).trans (State.onPress_of_eq
      (g := fun d => (d.modBlk i k (fun b => { b with st := .coding e, eng := e })).fset (pgComp e) Reg.COMP.ACTIVE 1)
      (Dev.blockDispatch_of_free h hk))
  · exact (exec_compBufferRetry e s).trans (State.onPress_of_eq (g := id) (Dev.compRetry_of_idle h))
  · exact (exec_compBufferRetry e s).trans (State.onPress_of_eq (g := fun d => (d.fset (pgComp e) Reg.COMP.WAIT_BUF 0).flush i)
      (Dev.compRetry_of_waiting h hk))
  · exact (exec_blockCoded e body s).trans (State.onPress_of_eq (g := id) (Dev.blockCoded_of_none body h))
  · obtain ⟨d1, h1⟩ : ∃ d1, d1 = (s.dev.codedBlk e (!x.2 && !host.isEmpty)).codedBytes e r.stream x.2 b.refs.length host.length x.1.length :=
      ⟨_, rfl⟩
    have hdone := Dev.blockCoded_of_coding body h hu hr hb hh hx h1
    refine ⟨d1, (exec_blockCoded e body s).trans (State.onPress_of_eq hdone), ?_, ?_, fun hr hne => ?_, ?_⟩
    · rw [h1, Dev.codedBytes_fget _ _ _ _ _ _ _ (by decide), Dev.codedBlk_ACTIVE]
    · rw [h1, Dev.codedBytes_fget _ _ _ _ _ _ _ (by decide), Dev.codedBlk_BLOCKS]
    · rw [h1, Dev.codedBytes_fget _ _ _ _ _ _ _ (by decide), hr, List.isEmpty_eq_false_iff.mpr hne]
      exact Dev.codedBlk_RAW_BLOCKS ..
    · rw [h1, Dev.recs_codedBytes, Dev.recs_codedBlk]

end Sys2Proof.Proofs
end

section
/-! Blocks in the decompressors (R126, R127). -/

namespace Sys2Proof.Machine

theorem exec_decompDispatch (e : Fin 17) (s : State) : exec (.decompDispatch e) s = s.onPress (fun d => d.decompDispatch e) := rfl
theorem exec_decompBlockDone (e : Fin 17) (s : State) : exec (.decompBlockDone e) s = s.onRead (fun d => d.decompDone e) := rfl
theorem exec_farReferenceResume (e : Fin 17) (s : State) : exec (.farReferenceResume e) s = s.onRead (fun d => d.farResume e) := rfl
theorem exec_decompResume (e : Fin 17) (s : State) : exec (.decompResume e) s = s.onRead (fun d => d.decompResume e) := rfl
theorem exec_frameEncrypt (c : Fin 2) (s : State) : exec (.frameEncrypt c) s = s.onPress (fun d => d.encryptNext c) := rfl
theorem exec_frameDecrypt (c : Fin 2) (s : State) : exec (.frameDecrypt c) s = s.onRead (fun d => d.frameDecrypt c) := rfl

/-- A step of a read that names a spoke: the spoke goes on. -/
theorem State.onRead_some {s : State} {f : Dev → Dev × Option Nat} {g : Dev → Dev} {n : Nat} (h : f s.dev = (g s.dev, some n)) :
    s.onRead f = .next (s.modDev (fun d => (g d).follow n)) := by
  refine Proofs.next_modDev_congr (f := fun d => Dev.servedRead (f d)) (g := fun d => (g d).follow n) ?_
  simp only [h, Dev.servedRead]

/-- A step of a read that names none. -/
theorem State.onRead_none {s : State} {f : Dev → Dev × Option Nat} {g : Dev → Dev} (h : f s.dev = (g s.dev, none)) :
    s.onRead f = .next (s.modDev g) := by
  refine Proofs.next_modDev_congr (f := fun d => Dev.servedRead (f d)) (g := g) ?_
  simp only [h, Dev.servedRead]

variable {d : Dev} {e n i : Nat}

theorem Dev.decompDispatch_of_busy (h : d.decompFree e = false) : d.decompDispatch e = d := by
  simp only [Dev.decompDispatch, h, Bool.not_false, if_true]

theorem Dev.decompDispatch_of_free (h : d.decompFree e = true)
    (hb : d.nextRBlk (pgDecomp e) (fun b => b.st == .ncf && b.failedOn != some e) = some (n, i)) : d.decompDispatch e =
      ((d.grant (pgDecomp e) 8 n).modRBlk n i (fun b => { b with st := .coding e, eng := e })).fset (pgDecomp e) Reg.DECOMP.ACTIVE 1 := by
  simp only [Dev.decompDispatch, h, Bool.not_true, Bool.false_eq_true, if_false, hb, Dev.ev_eq]

theorem Dev.decompDone_of_none (h : d.findRBlk (fun b => b.st == .coding e) = none) : d.decompDone e = (d, none) := by
  simp only [Dev.decompDone, h]

section done

variable {r : ReadSt} {b : RBlk} (h : d.findRBlk (fun b => b.st == .coding e) = some (n, i)) (hr : d.rs n = some r) (hb : r.blks[i]? = some b)

include h hr hb

theorem Dev.decompDone_of_decodable (hf : i = 0 ∨ b.usesFar = false) :
    d.decompDone e = ((d.bump (pgDecomp e) Reg.HEADER.UNITS 1).decodeAt n i e, some n) := by
  have hgo : (i != 0 && b.usesFar) = false := by rcases hf with hf | hf <;> simp [hf]
  simp only [Dev.decompDone, h, hr, Option.bind_some, hb, Option.any_some, hgo, Bool.false_eq_true, if_false, Dev.unit]

theorem Dev.decompDone_of_far (hi : i ≠ 0) (hf : b.usesFar = true) : d.decompDone e =
    ((d.modRBlk n i (fun b => { b with st := .waitFar e })).fset (pgDecomp e) Reg.DECOMP.WAIT_FAR 1, some n) := by
  simp only [Dev.decompDone, h, hr, Option.bind_some, hb, Option.any_some, hf, bne_iff_ne.mpr hi, Bool.and_self, if_true, Dev.ev_eq]

end done

theorem Dev.farResume_of_none (h : d.findRBlk (fun b => b.st == .waitFar e) = none) :
    d.farResume e = (d.fset (pgDecomp e) Reg.DECOMP.WAIT_FAR 0, none) := by
  simp only [Dev.farResume, h, Dev.clr_eq]

theorem Dev.farResume_of_first (h : d.findRBlk (fun b => b.st == .waitFar e) = some (n, 0)) : d.farResume e =
    (((d.fset (pgDecomp e) Reg.DECOMP.WAIT_FAR 0).bump (pgDecomp e) Reg.HEADER.UNITS 1).decodeAt n 0 e, some n) := by
  simp only [Dev.farResume, h, bne_self_eq_false, Bool.false_eq_true, if_false, Dev.clr_eq, Dev.unit]

theorem Dev.farResume_of_later (h : d.findRBlk (fun b => b.st == .waitFar e) = some (n, i)) (hi : i ≠ 0) : d.farResume e = (d, some n) := by
  simp only [Dev.farResume, h, bne_iff_ne.mpr hi, if_true]

/-- Does the read on spoke `n` hold engine `e` suspended, with room for more? -/
def Dev.resumes (d : Dev) (e n : Nat) : Bool :=
  match d.rs n with
  | some r => r.susp == some e && !r.raw && decide (0 < r.left)
  | none => false

theorem Dev.resumes_of_left {r : ReadSt} (hr : d.rs n = some r) (hs : r.susp = some e) (hw : r.raw = false) (hl : 0 < r.left) :
    d.resumes e n = true := by
  simp [Dev.resumes, hr, hs, hw, hl]

theorem Dev.resumes_of_not (h : ∀ x, d.rs n = some x → x.susp ≠ some e ∨ x.raw = true ∨ x.left = 0) : d.resumes e n = false := by
  rw [Dev.resumes]
  split
  · next r hr => rcases h r hr with h | h | h <;> simp [h]
  · rfl

theorem Dev.decompResume_of_none (h : (List.range 8).find? (d.resumes e) = none) : d.decompResume e = (d, none) := by
  rw [Dev.decompResume]
  split
  · rfl
  · next hn => cases hn.symm.trans h

theorem Dev.decompResume_of_some (h : (List.range 8).find? (d.resumes e) = some n) :
    d.decompResume e = ((d.fset (pgDecomp e) Reg.DECOMP.SUSPENDED 0).modRs n (fun r => { r with susp := none, mid := none }), some n) := by
  rw [Dev.decompResume]
  split
  · next hn => cases hn.symm.trans h
  · next hn =>
    cases hn.symm.trans h
    rw [Dev.clr_eq]

theorem find?_range_eq_some {p : Nat → Bool} {k n : Nat} (hk : k < n) (hp : p k = true) (hf : ∀ m < k, p m = false) :
    (List.range n).find? p = some k :=
  List.find?_range_eq_some.mpr ⟨hp, List.mem_range.mpr hk, fun m hm => by rw [hf m hm]; rfl⟩

end Sys2Proof.Machine
end

section
/-! Frames in PRESS.CRYPT (R361, R364). -/

namespace Sys2Proof.Machine

variable {d g : Dev} {c n i : Nat}

theorem Dev.encryptNext_of_idle (h : d.serviceable (pgCrypt c) = false ∨ d.takesWork (pgCrypt c) = false) : d.encryptNext c = d := by
  have hidle : (!d.serviceable (pgCrypt c) || !d.takesWork (pgCrypt c)) = true := by rcases h with h | h <;> simp [h]
  simp only [Dev.encryptNext, Dev.frameEncrypt, hidle, if_true]

theorem Dev.frameDecrypt_of_idle (h : d.serviceable (pgCrypt c) = false ∨ d.takesWork (pgCrypt c) = false) : d.frameDecrypt c = (d, none) := by
  have hidle : (!d.serviceable (pgCrypt c) || !d.takesWork (pgCrypt c)) = true := by rcases h with h | h <;> simp [h]
  simp only [Dev.frameDecrypt, hidle, if_true]

theorem Dev.unsettled_grant (d : Dev) (pg : PageId) (n i : Nat) (p : PageId) : (d.grant pg n i).unsettled p = d.unsettled p := rfl
theorem Dev.slot_grant (d : Dev) (pg : PageId) (n i k : Nat) : (d.grant pg n i).slot k = d.slot k := rfl
theorem Dev.recs_grant (d : Dev) (pg : PageId) (n i : Nat) : (d.grant pg n i).recs = d.recs := rfl
theorem Dev.blk_grant (d : Dev) (pg : PageId) (n i j k : Nat) : (d.grant pg n i).blk j k = d.blk j k := rfl

section encrypt

variable {k : Nat} {r : PRec} (hs : d.serviceable (pgCrypt c) = true) (hw : d.takesWork (pgCrypt c) = true) (hu : d.unsettled (pgCrypt c) = false)
  (hk : d.toEncrypt c = some (n, i, k)) (hr : r = d.recs.getD i { stream := 0, spoke := 0 }) (hg : g = d.grant (pgCrypt c) 8 n)

include hs hw hu hk hr hg

/-- A block encrypted under its slot's counter, which moves on by one (R361). -/
theorem Dev.encryptNext_of_counter (hc : (d.slot r.slot).ivCount < 2 ^ 64) : d.encryptNext c =
    ((((g.modSlot r.slot (fun x => { x with ivCount := x.ivCount + 1 })).modBlk i k (fun b => { b with
      st := .finished, bytes := makeFrame (d.slot r.slot) (d.blk i k).first (d.blk i k).last (d.blk i k).bytes })).bump
        (pgCrypt c) Reg.CRYPT.FRAMES_ENC 1).bump (pgCrypt c) Reg.HEADER.UNITS 1).flush i := by
  have hlt : ¬ 2 ^ 64 ≤ (d.slot r.slot).ivCount := Nat.not_le.mpr hc
  subst hg
  simp only [Dev.encryptNext, Dev.frameEncrypt, hs, hw, Bool.not_true, Bool.or_false, Bool.false_eq_true, if_false, hk, Dev.unsettled_grant, hu,
    Dev.recs_grant, Dev.slot_grant, Dev.blk_grant, ← hr, if_neg hlt, Dev.unit]

omit hu in
theorem Dev.encryptNext_of_exhausted (hc : 2 ^ 64 ≤ (d.slot r.slot).ivCount) :
    d.encryptNext c = (g.fset (pgCrypt c) Reg.CRYPT.COUNTER_END 1).exhaustStream r.stream := by
  subst hg
  simp only [Dev.encryptNext, Dev.frameEncrypt, hs, hw, Bool.not_true, Bool.or_false, Bool.false_eq_true, if_false, hk,
    Dev.recs_grant, Dev.slot_grant, ← hr, if_pos hc, Dev.ev_eq]

end encrypt

section decrypt

variable {r : ReadSt} {b : RBlk} (hs : d.serviceable (pgCrypt c) = true) (hw : d.takesWork (pgCrypt c) = true) (hu : d.unsettled (pgCrypt c) = false)
  (hk : d.nextRBlk (pgCrypt c) (fun b => b.st == .frame) = some (n, i)) (hr : d.rs n = some r) (hb : r.blks[i]? = some b)
  (hg : g = d.grant (pgCrypt c) 8 n)

include hs hw hu hk hr hb hg

theorem Dev.frameDecrypt_of_opened {p : List Byte}
    (hf : openFrame (d.slot (parSlot r.par)) b.first (r.whole && r.buf.isEmpty && i + 1 == r.blks.length) r.lastIv b.bytes = .ok p) :
    d.frameDecrypt c = ((((g.modRs n (fun r => { r with lastIv := some (frameCounter b.bytes) })).modRBlk n i (fun b =>
      { b with st := .ncf, bytes := p, failedOn := none })).bump (pgCrypt c) Reg.CRYPT.FRAMES_DEC 1).bump (pgCrypt c) Reg.HEADER.UNITS 1,
      some n) := by
  subst hg
  simp only [Dev.frameDecrypt, hs, hw, Bool.not_true, Bool.or_false, Bool.false_eq_true, if_false, hk, hr, Option.bind_some, hb, Option.map_some,
    Dev.openStored, Dev.unsettled_grant, hu, Dev.slot_grant, hf, Dev.unit]

theorem Dev.frameDecrypt_of_failed {x : FrameFault}
    (hf : openFrame (d.slot (parSlot r.par)) b.first (r.whole && r.buf.isEmpty && i + 1 == r.blks.length) r.lastIv b.bytes = .error x) :
    d.frameDecrypt c = (if b.failedOn = none then (g.frameFails c x).modRBlk n i (fun b => { b with failedOn := some c })
      else ((g.frameFails c x).modRBlk n i (fun b => { b with st := .done, bad := true })).fset (pgCrypt c) Reg.CRYPT.FAIL_STREAM r.stream,
      some n) := by
  subst hg
  simp only [Dev.frameDecrypt, hs, hw, Bool.not_true, Bool.or_false, Bool.false_eq_true, if_false, hk, hr, Option.bind_some, hb, Option.map_some,
    Dev.openStored, Dev.unsettled_grant, hu, Dev.slot_grant, hf]
  cases b.failedOn with
  | none => simp only [Option.isSome_none, Bool.false_eq_true, if_false, if_true]
  | some j => simp only [Option.isSome_some, if_true, reduceCtorEq, if_false]

end decrypt

end Sys2Proof.Machine
end

section
/-! The statement about decompression and frames. -/

namespace Sys2Proof.Proofs

open Sys2Proof.Machine

/-- Settles O33: the decompressor's events with and without a block, and both ways through CRYPT. -/
theorem blocksDecodedAndFrames : Obligations.BlocksDecodedAndFrames := by
  refine ⟨fun s e => ⟨fun h => ?_, fun n i h hb => ?_, fun h => ?_, fun n i r b h hr hb => ⟨fun hf => ?_, fun hi hf => ?_⟩, fun h => ?_,
      fun n i h => ⟨fun hi => ?_, fun hi => ?_⟩, fun n r hn hr hs hw hl hm => ?_, fun hm => ?_⟩,
    fun s c => ⟨fun h => ⟨?_, ?_⟩, fun n i k r g hs hw hu hk hr hg => ⟨fun hc => ?_, fun hc => ?_⟩,
      fun n i r b g hs hw hu hk hr hb hg f hf => ?_⟩⟩
  · exact (exec_decompDispatch e s).trans (State.onPress_of_eq (g := id) (Dev.decompDispatch_of_busy h))
  · exact (exec_decompDispatch e s).trans (State.onPress_of_eq
      (g := fun d => ((d.grant (pgDecomp e) 8 n).modRBlk n i (fun b => { b with st := .coding e, eng := e })).fset (pgDecomp e) Reg.DECOMP.ACTIVE 1)
      (Dev.decompDispatch_of_free h hb))
  · exact (exec_decompBlockDone e s).trans (State.onRead_none (g := id) (Dev.decompDone_of_none h))
  · exact (exec_decompBlockDone e s).trans (State.onRead_some (g := fun d => (d.bump (pgDecomp e) Reg.HEADER.UNITS 1).decodeAt n i e)
      (Dev.decompDone_of_decodable h hr hb hf))
  · exact (exec_decompBlockDone e s).trans (State.onRead_some
      (g := fun d => (d.modRBlk n i (fun b => { b with st := .waitFar e })).fset (pgDecomp e) Reg.DECOMP.WAIT_FAR 1)
      (Dev.decompDone_of_far h hr hb hi hf))
  · exact (exec_farReferenceResume e s).trans (State.onRead_none (g := fun d => d.fset (pgDecomp e) Reg.DECOMP.WAIT_FAR 0)
      (Dev.farResume_of_none h))
  · subst hi
    exact (exec_farReferenceResume e s).trans (State.onRead_some
      (g := fun d => ((d.fset (pgDecomp e) Reg.DECOMP.WAIT_FAR 0).bump (pgDecomp e) Reg.HEADER.UNITS 1).decodeAt n 0 e)
      (Dev.farResume_of_first h))
  · exact (exec_farReferenceResume e s).trans (State.onRead_some (g := id) (Dev.farResume_of_later h hi))
  · have hfind : (List.range 8).find? (s.dev.resumes e) = some n :=
      find?_range_eq_some hn (Dev.resumes_of_left hr hs hw hl) fun m hlt => Dev.resumes_of_not (hm m hlt)
    exact (exec_decompResume e s).trans (State.onRead_some
      (g := fun d => (d.fset (pgDecomp e) Reg.DECOMP.SUSPENDED 0).modRs n (fun r => { r with susp := none, mid := none }))
      (Dev.decompResume_of_some hfind))
  · have hfind : (List.range 8).find? (s.dev.resumes e) = none :=
      List.find?_eq_none.mpr fun m hlt => by simp [Dev.resumes_of_not (hm m (List.mem_range.mp hlt))]
    exact (exec_decompResume e s).trans (State.onRead_none (g := id) (Dev.decompResume_of_none hfind))
  · exact (exec_frameEncrypt c s).trans (State.onPress_of_eq (g := id) (Dev.encryptNext_of_idle h))
  · exact (exec_frameDecrypt c s).trans (State.onRead_none (g := id) (Dev.frameDecrypt_of_idle h))
  · exact (exec_frameEncrypt c s).trans (State.onPress_of_eq (Dev.encryptNext_of_counter hs hw hu hk hr hg hc))
  · exact (exec_frameEncrypt c s).trans (State.onPress_of_eq (Dev.encryptNext_of_exhausted hs hw hk hr hg hc))
  · cases f with
    | ok p => exact (exec_frameDecrypt c s).trans (State.onRead_some (Dev.frameDecrypt_of_opened hs hw hu hk hr hb hg hf.symm))
    | error x => exact (exec_frameDecrypt c s).trans (State.onRead_some (Dev.frameDecrypt_of_failed hs hw hu hk hr hb hg hf.symm))

end Sys2Proof.Proofs
end

section
/-! Reads of the chest (R253, R256, R257, R259). -/

namespace Sys2Proof.Machine

theorem exec_memoryRead (x : MemReader) (word reached : Nat) (flips : List (Nat × Nat)) (s : State) :
    exec (.memoryRead x word reached flips) s = s.onAll (fun d => d.memAccess (.read x word reached flips)) := rfl

/-- An event everywhere whose effect on the device is known. -/
theorem State.onAll_of_eq {s : State} {f g : Dev → Dev} (h : f s.dev = g s.dev) : s.onAll f = .next (s.modDev (fun d => (g d).followAll)) := by
  refine Proofs.next_modDev_congr (f := fun d => (f d).followAll) (g := fun d => (g d).followAll) ?_
  simp only [h]

theorem find?_range_eq_none {p : Nat → Bool} {n : Nat} (h : ∀ i < n, p i = false) : (List.range n).find? p = none :=
  List.find?_eq_none.mpr fun i hi => by simp [h i (List.mem_range.mp hi)]

variable {d : Dev} {x : MemReader} {word reached : Nat} {flips : List (Nat × Nat)}

theorem Dev.memAccess_of_wait {a : MemAcc} (h : d.memMustWait a = true) : d.memAccess a = { d with memWaits := d.memWaits ++ [a] } := by
  rw [Dev.memAccess, if_pos h]

theorem Dev.memAccess_of_free {a : MemAcc} (h : d.memMustWait a = false) : d.memAccess a = d.memDo a := by
  rw [Dev.memAccess, if_neg (Bool.eq_false_iff.mp h)]

theorem Dev.memRead_of_invalid (h : d.pageValid (word / 512) = false) :
    d.memRead x word reached flips = d.bump pgVmap Reg.VALIDMAP.ZERO_READS 1 := by
  rw [Dev.memRead, h]
  rfl

section valid

variable {f : Nat → Nat} (hf : f = d.laneSyndrome word reached flips)

/-- The diagnosis of a lane, as `memRead` looks it up. -/
theorem getD_diagnose (f : Nat → Nat) {j : Nat} (hj : j < 8) : (((List.range 8).map f).map diagnose).getD j .good = diagnose (f j) := by
  simp [List.getD_eq_getElem?_getD, List.getElem?_range hj]

theorem getD_range_map (f : Nat → Nat) {j : Nat} (hj : j < 8) : ((List.range 8).map f).getD j 0 = f j := by
  simp [List.getD_eq_getElem?_getD, List.getElem?_range hj]

theorem Diag.corrected_of_lost {x : Diag} (h : x.lost = true) : x.corrected = false := by
  cases x <;> simp [Diag.lost, Diag.corrected] at h ⊢

/-- The lane recorded as corrected, of the lanes' syndromes. -/
def firstCorrected (f : Nat → Nat) : Option Nat := (List.range 8).find? (fun j => ((((List.range 8).map f).map diagnose).getD j .good).corrected)

/-- The lowest uncorrectable lane. -/
def firstLost (f : Nat → Nat) : Option Nat := (List.range 8).find? (fun j => ((((List.range 8).map f).map diagnose).getD j .good).lost)

theorem firstCorrected_eq_none {f : Nat → Nat} (h : ∀ j < 8, (diagnose (f j)).corrected = false) : firstCorrected f = none :=
  find?_range_eq_none fun j hj => by rw [getD_diagnose f hj, h j hj]

theorem firstLost_eq_none {f : Nat → Nat} (h : ∀ j < 8, (diagnose (f j)).lost = false) : firstLost f = none :=
  find?_range_eq_none fun j hj => by rw [getD_diagnose f hj, h j hj]

theorem firstCorrected_eq_some {f : Nat → Nat} {j : Nat} (hj : j < 8) (hc : (diagnose (f j)).corrected = true)
    (hi : ∀ i < j, (diagnose (f i)).corrected = false) : firstCorrected f = some j :=
  find?_range_eq_some hj (by rw [getD_diagnose f hj, hc]) fun i hlt => by rw [getD_diagnose f (hlt.trans hj), hi i hlt]

theorem firstLost_eq_some {f : Nat → Nat} {j : Nat} (hj : j < 8) (hc : (diagnose (f j)).lost = true)
    (hi : ∀ i < j, (diagnose (f i)).lost = false) : firstLost f = some j :=
  find?_range_eq_some hj (by rw [getD_diagnose f hj, hc]) fun i hlt => by rw [getD_diagnose f (hlt.trans hj), hi i hlt]

/-- One uncorrectable lane alone is the list of them. -/
theorem filter_lost_eq {f : Nat → Nat} {j : Nat} (hj : j < 8) (hc : (diagnose (f j)).lost = true)
    (hi : ∀ i < 8, i ≠ j → (diagnose (f i)).lost = false) :
    (List.range 8).filter (fun i => ((((List.range 8).map f).map diagnose).getD i .good).lost) = [j] := by
  have hlane (i : Nat) (hi8 : i ∈ List.range 8) : ((((List.range 8).map f).map diagnose).getD i .good).lost = decide (i = j) := by
    rw [getD_diagnose f (List.mem_range.mp hi8)]
    by_cases hij : i = j
    · rw [hij, hc, decide_eq_true rfl]
    · rw [hi i (List.mem_range.mp hi8) hij, decide_eq_false hij]
  rw [List.filter_congr hlane]
  interval_cases j <;> rfl

variable (h : d.pageValid (word / 512) = true)

include hf h

theorem Dev.memRead_of_good (hc : firstCorrected f = none) (hl : firstLost f = none) : d.memRead x word reached flips = d := by
  subst hf
  rw [firstLost] at hl
  rw [firstCorrected] at hc
  simp only [Dev.memRead, h, Bool.not_true, Bool.false_eq_true, if_false, hc, hl]

theorem Dev.memRead_of_corrected {j : Nat} (hj : j < 8) (hc : firstCorrected f = some j) (hl : firstLost f = none) :
    d.memRead x word reached flips = d.memCorrected word j (f j) := by
  subst hf
  rw [firstLost] at hl
  rw [firstCorrected] at hc
  simp only [Dev.memRead, h, Bool.not_true, Bool.false_eq_true, if_false, hc, hl, getD_range_map _ hj]

theorem Dev.memRead_of_lost {j : Nat} (hj : j < 8) (hc : firstCorrected f = none) (hb : (diagnose (f j)).lost = true)
    (hi : ∀ i < 8, i ≠ j → (diagnose (f i)).lost = false) : d.memRead x word reached flips =
      ((d.memUncorr word (2 ^ j) (f j) (decide (diagnose (f j) = .odd))).readerFault x).accWrong x word reached flips [j] := by
  have hl : firstLost f = some j := firstLost_eq_some hj hb fun i hlt => hi i (hlt.trans hj) (Nat.ne_of_lt hlt)
  have hbad := filter_lost_eq hj hb hi
  have hodd : ((((List.range 8).map f).map diagnose).getD j .good == Diag.odd) = decide (diagnose (f j) = .odd) := by
    rw [getD_diagnose f hj]
    rfl
  subst hf
  rw [firstLost] at hl
  rw [firstCorrected] at hc
  simp only [Dev.memRead, h, Bool.not_true, Bool.false_eq_true, if_false, hc, hl, hbad, hodd, getD_range_map _ hj, List.foldl_cons,
    List.foldl_nil, Nat.zero_add]

end valid

end Sys2Proof.Machine
end

section
/-! The statement about reads of the chest. -/

namespace Sys2Proof.Proofs

open Sys2Proof.Machine

/-- Settles O34: a read that waits, one of an invalid page, and the diagnoses of a valid page's lanes. -/
theorem memoryReads : Obligations.MemoryReads := by
  intro s x word reached flips
  have hexec := exec_memoryRead x word reached flips s
  refine ⟨fun h => ?_, fun h => ⟨fun hp => ?_, fun hp => ⟨fun hg => ?_, fun j hj hc hg hl => ?_, fun j hj hb hg => ?_⟩⟩⟩
  · exact hexec.trans (State.onAll_of_eq
      (g := fun d => { d with memWaits := d.memWaits ++ [.read x word reached flips] }) (Dev.memAccess_of_wait h))
  · refine hexec.trans (State.onAll_of_eq
      (g := fun d => (d.bump pgVmap Reg.VALIDMAP.ZERO_READS 1).bump (pgOfWord word) Reg.HEADER.UNITS 1) ?_)
    exact (Dev.memAccess_of_free h).trans (congrArg (Dev.unit · (pgOfWord word)) (Dev.memRead_of_invalid hp))
  · refine hexec.trans (State.onAll_of_eq (g := fun d => d.bump (pgOfWord word) Reg.HEADER.UNITS 1) ?_)
    have hc : firstCorrected (s.dev.laneSyndrome word reached flips) = none := firstCorrected_eq_none fun j hj => by rw [hg j hj]; rfl
    have hl : firstLost (s.dev.laneSyndrome word reached flips) = none := firstLost_eq_none fun j hj => by rw [hg j hj]; rfl
    exact (Dev.memAccess_of_free h).trans (congrArg (Dev.unit · (pgOfWord word)) (Dev.memRead_of_good rfl hp hc hl))
  · refine hexec.trans (State.onAll_of_eq
      (g := fun d => (d.memCorrected word j (s.dev.laneSyndrome word reached flips j)).bump (pgOfWord word) Reg.HEADER.UNITS 1) ?_)
    have hfirst := firstCorrected_eq_some hj hc fun i hi => by rw [hg i hi]; rfl
    exact (Dev.memAccess_of_free h).trans (congrArg (Dev.unit · (pgOfWord word))
      (Dev.memRead_of_corrected rfl hp hj hfirst (firstLost_eq_none hl)))
  · refine hexec.trans (State.onAll_of_eq (g := fun d =>
      (((d.memUncorr word (2 ^ j) (s.dev.laneSyndrome word reached flips j)
        (decide (diagnose (s.dev.laneSyndrome word reached flips j) = .odd))).readerFault x).accWrong x word reached flips [j]).bump
          (pgOfWord word) Reg.HEADER.UNITS 1) ?_)
    have hc : firstCorrected (s.dev.laneSyndrome word reached flips) = none := by
      refine firstCorrected_eq_none fun i hi => ?_
      by_cases hij : i = j
      · subst hij
        exact Diag.corrected_of_lost hb
      · rw [hg i hi hij]
        rfl
    have hi : ∀ i < 8, i ≠ j → (diagnose (s.dev.laneSyndrome word reached flips i)).lost = false := fun i hi hij => by rw [hg i hi hij]; rfl
    exact (Dev.memAccess_of_free h).trans (congrArg (Dev.unit · (pgOfWord word)) (Dev.memRead_of_lost rfl hp hj hc hb hi))

end Sys2Proof.Proofs
end

section
/-! The check code: its syndromes are linear in the bits (R251 to R253). -/

namespace Sys2Proof.Machine

theorem bitAt_eq_testBit (x i : Nat) : bitAt x i = x.testBit i := by
  rw [bitAt, bitsOf, Nat.shiftRight_eq_div_pow, pow_one, Nat.testBit_eq_decide_div_mod_eq]
  rfl

theorem bitAt_xor (x y i : Nat) : bitAt (x ^^^ y) i = (bitAt x i ^^ bitAt y i) := by
  simp [bitAt_eq_testBit, Nat.testBit_xor]

/-- The sum of the columns is linear. -/
theorem colSum_xor (cols : List Nat) (x y : Nat) : colSum cols (x ^^^ y) = colSum cols x ^^^ colSum cols y := by
  have hfold (l : List Nat) : ∀ a b, l.foldl (fun a i => if bitAt (x ^^^ y) i then a ^^^ cols.getD i 0 else a) (a ^^^ b) =
      l.foldl (fun a i => if bitAt x i then a ^^^ cols.getD i 0 else a) a ^^^
      l.foldl (fun a i => if bitAt y i then a ^^^ cols.getD i 0 else a) b := by
    induction l with
    | nil => intro a b; rfl
    | cons i l ih =>
      intro a b
      rw [List.foldl_cons, List.foldl_cons, List.foldl_cons, ← ih, bitAt_xor]
      congr 1
      generalize cols.getD i 0 = c
      cases bitAt x i <;> cases bitAt y i <;> simp [Nat.xor_comm, Nat.xor_left_comm]
  exact (hfold (List.range cols.length) 0 0)

theorem xor_cancel_middle (b m x y c : Nat) : (b ^^^ m ^^^ x) ^^^ (b ^^^ y ^^^ 0 ^^^ c) = (m ^^^ c) ^^^ (x ^^^ y) := by
  refine Nat.eq_of_testBit_eq fun i => ?_
  simp only [Nat.testBit_xor, Nat.zero_testBit]
  cases b.testBit i <;> cases m.testBit i <;> cases x.testBit i <;> cases y.testBit i <;> cases c.testBit i <;> rfl

/-- The syndrome of a lane whose check bits are stored as they should be: what was flipped, and the difference of the two addresses. -/
theorem Dev.laneSyndrome_eq (d : Dev) (word reached : Nat) (flips : List (Nat × Nat)) (j : Nat)
    (h : mget (fun _ => 0) d.chestBad (8 * reached + j) = 0) : d.laneSyndrome word reached flips j =
      (colSum dataCols ((flips.getD j (0, 0)).1 % 256) ^^^ (flips.getD j (0, 0)).2 % 32) ^^^
      colSum hashCols (laneHash word j ^^^ laneHash reached j) := by
  simp only [Dev.laneSyndrome, checkBits, h, colSum_xor]
  exact xor_cancel_middle ..

end Sys2Proof.Machine
end

section
/-! Errors of one and of two bits (R253). -/

namespace Sys2Proof.Machine

theorem diagnose_single : (∀ k < 8, diagnose (colSum dataCols (2 ^ k) ^^^ 0) = .data k) ∧ ∀ k < 5, diagnose (colSum dataCols 0 ^^^ 2 ^ k) = .check := by
  decide

theorem diagnose_double : (∀ i < 8, ∀ k < i, diagnose (colSum dataCols (2 ^ i + 2 ^ k) ^^^ 0) = .even) ∧
    (∀ i < 5, ∀ k < i, diagnose (colSum dataCols 0 ^^^ (2 ^ i + 2 ^ k)) = .even) ∧
    ∀ i < 8, ∀ k < 5, diagnose (colSum dataCols (2 ^ i) ^^^ 2 ^ k) = .even := by
  decide

theorem onesIn_eq_zero {n : Nat} : ∀ {x : Nat}, x < 2 ^ n → onesIn n x = 0 → x = 0 := by
  induction n with
  | zero => intro x hx _; omega
  | succ n ih =>
    intro x hx h
    rw [onesIn] at h
    have := ih (x := x / 2) (by omega) (by omega)
    omega

theorem onesIn_eq_one {n : Nat} : ∀ {x : Nat}, x < 2 ^ n → onesIn n x = 1 → ∃ k < n, x = 2 ^ k := by
  induction n with
  | zero => intro x _ h; cases h
  | succ n ih =>
    intro x hx h
    rw [onesIn] at h
    by_cases hb : x % 2 = 1
    · have := onesIn_eq_zero (n := n) (x := x / 2) (by omega) (by omega)
      exact ⟨0, by omega, by omega⟩
    · obtain ⟨k, hk, hx2⟩ := ih (x := x / 2) (by omega) (by omega)
      exact ⟨k + 1, by omega, by omega⟩

theorem onesIn_eq_two {n : Nat} : ∀ {x : Nat}, x < 2 ^ n → onesIn n x = 2 → ∃ i < n, ∃ k < i, x = 2 ^ i + 2 ^ k := by
  induction n with
  | zero => intro x _ h; cases h
  | succ n ih =>
    intro x hx h
    rw [onesIn] at h
    by_cases hb : x % 2 = 1
    · obtain ⟨i, hi, hx2⟩ := onesIn_eq_one (n := n) (x := x / 2) (by omega) (by omega)
      exact ⟨i + 1, by omega, 0, by omega, by omega⟩
    · obtain ⟨i, hi, k, hk, hx2⟩ := ih (x := x / 2) (by omega) (by omega)
      exact ⟨i + 1, by omega, k + 1, by omega, by omega⟩

section flips

variable {x y : Nat} (hx : x < 2 ^ 8) (hy : y < 2 ^ 5)

include hx hy

theorem diagnose_of_none (h : onesIn 8 x + onesIn 5 y = 0) : diagnose (colSum dataCols x ^^^ y) = .good := by
  rw [onesIn_eq_zero hx (by omega), onesIn_eq_zero hy (by omega)]
  decide

theorem diagnose_of_one (h : onesIn 8 x + onesIn 5 y = 1) : (diagnose (colSum dataCols x ^^^ y)).corrected = true ∧
    ∀ k < 8, x = 2 ^ k → diagnose (colSum dataCols x ^^^ y) = .data k := by
  by_cases h0 : onesIn 8 x = 0
  · obtain ⟨k, hk, rfl⟩ := onesIn_eq_one hy (by omega)
    obtain rfl := onesIn_eq_zero hx h0
    exact ⟨by rw [diagnose_single.2 k hk]; rfl, fun i _ hi => absurd hi (Nat.two_pow_pos i).ne⟩
  · obtain ⟨k, hk, rfl⟩ := onesIn_eq_one hx (by omega)
    obtain rfl := onesIn_eq_zero hy (by omega)
    refine ⟨by rw [diagnose_single.1 k hk]; rfl, fun i hi he => ?_⟩
    rw [he]
    exact diagnose_single.1 i hi

theorem diagnose_of_two (h : onesIn 8 x + onesIn 5 y = 2) : (diagnose (colSum dataCols x ^^^ y)).lost = true := by
  have heven : diagnose (colSum dataCols x ^^^ y) = .even := by
    obtain h0 | h1 | h2 : onesIn 8 x = 0 ∨ onesIn 8 x = 1 ∨ onesIn 8 x = 2 := by omega
    · obtain ⟨i, hi, k, hk, rfl⟩ := onesIn_eq_two hy (by omega)
      obtain rfl := onesIn_eq_zero hx h0
      exact diagnose_double.2.1 i hi k hk
    · obtain ⟨i, hi, rfl⟩ := onesIn_eq_one hx h1
      obtain ⟨k, hk, rfl⟩ := onesIn_eq_one hy (by omega)
      exact diagnose_double.2.2 i hi k hk
    · obtain ⟨i, hi, k, hk, rfl⟩ := onesIn_eq_two hx h2
      obtain rfl := onesIn_eq_zero hy (by omega)
      exact diagnose_double.1 i hi k hk
  rw [heven]
  rfl

end flips

end Sys2Proof.Machine
end

section
/-! Words of another address (R254). -/

namespace Sys2Proof.Machine

/-- Two hashes of a lane that differ give an even syndrome. -/
theorem diagnose_hash_ne : ∀ h < 16, h ≠ 0 → diagnose (colSum dataCols 0 ^^^ 0 ^^^ colSum hashCols h) = .even := by
  decide

theorem laneHash_lt (word j : Nat) : laneHash word j < 16 := by
  rw [laneHash]
  refine Nat.xor_lt_two_pow (n := 4) ?_ ?_
  · exact Nat.mod_lt _ (by decide)
  · split <;> decide

theorem bitsOf_testBit (x lo w i : Nat) : (bitsOf x lo w).testBit i = (decide (i < w) && x.testBit (lo + i)) := by
  rw [bitsOf, Nat.testBit_mod_two_pow, Nat.testBit_shiftRight]

theorem fifteen_testBit {i : Nat} (h : i < 4) : Nat.testBit 15 i = true := by
  interval_cases i <;> rfl

/-- A lane's hash is four bits of the word address, inverted with its bit 32. -/
theorem laneHash_testBit (word j : Nat) {i : Nat} (h : i < 4) : (laneHash word j).testBit i = (word.testBit (4 * j + i) ^^ word.testBit 32) := by
  rw [laneHash, Nat.testBit_xor, bitsOf_testBit, decide_eq_true h, Bool.true_and, bitAt_eq_testBit]
  congr 1
  cases word.testBit 32
  · simp
  · simpa using fifteen_testBit h

/-- Words whose lanes all hash alike are the same, or differ in all their bits. -/
theorem eq_or_inverted_of_laneHash {word reached : Nat} (hw : word < 2 ^ 33) (hr : reached < 2 ^ 33)
    (h : ∀ j < 8, laneHash word j = laneHash reached j) : word = reached ∨ word ^^^ reached = 2 ^ 33 - 1 := by
  have hbit (i : Nat) (hi : i < 32) : (word.testBit i ^^ word.testBit 32) = (reached.testBit i ^^ reached.testBit 32) := by
    have hj := congrArg (Nat.testBit · (i % 4)) (h (i / 4) (by omega))
    simp only [laneHash_testBit _ _ (Nat.mod_lt i (by decide : 0 < 4))] at hj
    rwa [Nat.div_add_mod] at hj
  by_cases htop : word.testBit 32 = reached.testBit 32
  · refine .inl (Nat.eq_of_testBit_eq fun i => ?_)
    rcases lt_trichotomy i 32 with hi | rfl | hi
    · have hb := hbit i hi
      rw [htop] at hb
      exact Bool.xor_left_inj.mp hb
    · exact htop
    · rw [Nat.testBit_lt_two_pow (hw.trans_le (Nat.pow_le_pow_right (by decide) hi)),
        Nat.testBit_lt_two_pow (hr.trans_le (Nat.pow_le_pow_right (by decide) hi))]
  · refine .inr (Nat.eq_of_testBit_eq fun i => ?_)
    rw [Nat.testBit_xor, Nat.testBit_two_pow_sub_one]
    rcases lt_trichotomy i 32 with hi | rfl | hi
    · have hb := hbit i hi
      rw [decide_eq_true (by omega : i < 33)]
      revert hb htop
      cases word.testBit i <;> cases reached.testBit i <;> cases word.testBit 32 <;> cases reached.testBit 32 <;> decide
    · revert htop
      cases word.testBit 32 <;> cases reached.testBit 32 <;> decide
    · rw [Nat.testBit_lt_two_pow (hw.trans_le (Nat.pow_le_pow_right (by decide) hi)),
        Nat.testBit_lt_two_pow (hr.trans_le (Nat.pow_le_pow_right (by decide) hi)), decide_eq_false (by omega)]
      rfl

end Sys2Proof.Machine
end

section
/-! The statement about the check code. -/

namespace Sys2Proof.Proofs

open Sys2Proof.Machine

/-- Settles O35: a word of another address fails in a lane whose hashes differ; a lane's own flips are counted by their ones. -/
theorem checkCodeCorrectsOneDetectsTwo : Obligations.CheckCodeCorrectsOneDetectsTwo := by
  refine ⟨fun d word reached hw hr hne hinv hbad => ?_, fun d word j flips hbad hx hy => ?_⟩
  · have hlane : ∃ j < 8, laneHash word j ≠ laneHash reached j := by
      by_contra hall
      push Not at hall
      exact (eq_or_inverted_of_laneHash hw hr hall).elim hne hinv
    obtain ⟨j, hj, hdiff⟩ := hlane
    refine ⟨j, hj, ?_⟩
    rw [Dev.laneSyndrome_eq _ _ _ _ _ (hbad j hj)]
    exact diagnose_hash_ne _ (Nat.xor_lt_two_pow (n := 4) (laneHash_lt word j) (laneHash_lt reached j)) (Nat.xor_ne_zero_iff.mpr hdiff)
  · have hsyn : d.laneSyndrome word word flips j = colSum dataCols (flips.getD j (0, 0)).1 ^^^ (flips.getD j (0, 0)).2 := by
      rw [Dev.laneSyndrome_eq _ _ _ _ _ hbad, Nat.xor_self, Nat.mod_eq_of_lt hx, Nat.mod_eq_of_lt hy]
      exact Nat.xor_zero _
    rw [hsyn]
    exact ⟨diagnose_of_none hx hy, diagnose_of_one hx hy, diagnose_of_two hx hy⟩

end Sys2Proof.Proofs
end

section
/-! Bytes stored in the chest (R255, R260). -/

namespace Sys2Proof.Machine

/-- From `d` to `e` the chest has the bytes that `v` gives; their pages are valid, and the pool and the spokes are as they were. -/
structure Dev.Stores (v : Nat → Option Byte) (d e : Dev) : Prop where
  bytes : ∀ a, mget (fun _ => 0) e.chest a = (v a).getD (mget (fun _ => 0) d.chest a)
  valid : ∀ p, d.pageValid p = true → e.pageValid p = true
  touched : ∀ a, (v a).isSome = true → e.pageValid (a / 4096) = true
  wf : Memory.wf d.chest = true → Memory.wf e.chest = true
  pool : e.pool = d.pool
  spokes : e.spokes = d.spokes

namespace Dev.Stores

variable {v w u : Nat → Option Byte} {d e g : Dev}

theorem refl (d : Dev) : Stores (fun _ => none) d d := ⟨fun _ => rfl, fun _ h => h, fun _ h => (by cases h), id, rfl, rfl⟩

theorem trans (h : Stores v d e) (k : Stores w e g) (hu : ∀ a, u a = (w a).or (v a)) : Stores u d g where
  bytes a := by
    rw [k.bytes, h.bytes, hu]
    cases w a <;> rfl
  valid p hp := k.valid p (h.valid p hp)
  touched a ha := by
    rw [hu] at ha
    cases hw : w a with
    | none => exact k.valid _ (h.touched a (by simpa [hw] using ha))
    | some x => exact k.touched a (by rw [hw]; rfl)
  wf hd := k.wf (h.wf hd)
  pool := k.pool.trans h.pool
  spokes := k.spokes.trans h.spokes

/-- One byte stored. -/
theorem chestPut (d : Dev) (a : Nat) (b : Byte) : Stores (fun x => if x = a then some b else none) d (d.chestPut a [b]) where
  bytes x := by
    refine (mget_putBytes [b] d.chest a x).trans ?_
    by_cases hx : x = a
    · subst hx
      simp
    · rw [if_neg hx, if_neg (by simp only [List.length_singleton]; omega)]
      rfl
  valid p hp := by rw [chestPut_valid, hp, ite_self]
  touched x hx := by
    have hxa : x = a := by by_contra hne; simp [hne] at hx
    rw [chestPut_valid, if_pos]
    simp only [pagesOf, List.length_singleton, one_ne_zero, if_false, hxa]
    omega
  wf hd := chestPut_wf d a [b] hd
  pool := rfl
  spokes := rfl

/-- What leaves the chest, the valid map, the pool and the spokes stores nothing. -/
theorem of_same (h : Stores v d e) (hc : g.chest = e.chest) (hv : g.vmValid = e.vmValid) (hp : g.pool = e.pool) (hs : g.spokes = e.spokes) :
    Stores v d g where
  bytes a := by rw [hc]; exact h.bytes a
  valid p hq := by rw [Dev.pageValid, hv]; exact h.valid p hq
  touched a ha := by rw [Dev.pageValid, hv]; exact h.touched a ha
  wf hd := by rw [hc]; exact h.wf hd
  pool := hp.trans h.pool
  spokes := hs.trans h.spokes

/-- A byte read after the store. Of an invalid page nothing but zero is stored. -/
theorem chestByte (h : Stores v d e) (hz : ∀ a, d.pageValid (a / 4096) = false → mget (fun _ => 0) d.chest a = 0) (a : Nat) :
    e.chestByte a = (v a).getD (d.chestByte a) := by
  rw [Dev.chestByte, Dev.chestByte, h.bytes]
  cases hv : v a with
  | some b => rw [h.touched a (by rw [hv]; rfl)]; rfl
  | none =>
    cases hp : d.pageValid (a / 4096) with
    | true => rw [h.valid _ hp]; rfl
    | false => rw [Option.getD_none, hz a hp, ite_self]; rfl

end Dev.Stores

/-- The byte that a beat at `word` writes to address `a`. -/
def beatByte (word : Nat) (b : Nat × Nat) (a : Nat) : Option Byte :=
  if a / 8 = word ∧ bitAt b.2 (a % 8) = true then some (BitVec.ofNat 8 (bitsOf b.1 (8 * (a % 8)) 8)) else none

theorem Dev.Stores.putBeat (d : Dev) (word : Nat) (b : Nat × Nat) : Dev.Stores (beatByte word b) d (d.putBeat word b) := by
  have hlanes (k : Nat) (hk : k ≤ 8) : Dev.Stores (fun a => if a % 8 < k then beatByte word b a else none) d ((List.range k).foldl (fun e j =>
      if bitAt b.2 j then e.chestPut (8 * word + j) [BitVec.ofNat 8 (bitsOf b.1 (8 * j) 8)] else e) d) := by
    induction k with
    | zero => simpa using Dev.Stores.refl d
    | succ k ih =>
      rw [List.range_succ, List.foldl_append, List.foldl_cons, List.foldl_nil]
      split
      · next hb =>
        refine (ih (by omega)).trans (.chestPut _ _ _) fun a => ?_
        by_cases ha : a = 8 * word + k
        · have hm : a % 8 = k := by omega
          have hd : a / 8 = word := by omega
          rw [if_pos (by omega), if_pos ha, beatByte, if_pos ⟨hd, hm ▸ hb⟩, hm, Option.some_or]
        · rw [if_neg ha, Option.none_or]
          by_cases hlt : a % 8 < k
          · rw [if_pos hlt, if_pos (by omega)]
          · rw [if_neg hlt]
            by_cases hle : a % 8 < k + 1
            · rw [if_pos hle, beatByte, if_neg (fun hc => ha (by omega))]
            · rw [if_neg hle]
      · next hb =>
        refine (ih (by omega)).trans (.refl _) fun a => ?_
        rw [Option.none_or]
        by_cases hlt : a % 8 < k
        · rw [if_pos hlt, if_pos (by omega)]
        · rw [if_neg hlt]
          by_cases hle : a % 8 < k + 1
          · have hm : a % 8 = k := by omega
            rw [if_pos hle, beatByte, if_neg (fun hc => hb (hm ▸ hc.2))]
          · rw [if_neg hle]
  refine (hlanes 8 (le_refl 8)).trans (.refl _) fun a => ?_
  rw [Option.none_or, if_pos (Nat.mod_lt a (by decide))]

theorem Dev.Stores.inject {v : Nat → Option Byte} {d e : Dev} (h : Dev.Stores v d e) (word : Nat) (b : Nat × Nat) : Dev.Stores v d (e.inject word b) := by
  rw [Dev.inject]
  split
  · exact h
  · dsimp only
    split <;> exact h.of_same rfl rfl rfl rfl

/-- The byte that beats from `word` on write to address `a`. -/
def beatsByte (word : Nat) (beats : List (Nat × Nat)) (a : Nat) : Option Byte :=
  if word ≤ a / 8 ∧ a / 8 < word + beats.length then beatByte (a / 8) (beats.getD (a / 8 - word) (0, 0)) a else none

theorem Dev.Stores.memWrite (d : Dev) (word : Nat) (beats : List (Nat × Nat)) : Dev.Stores (beatsByte word beats) d (d.memWrite word beats) := by
  have hbeats (k : Nat) : Dev.Stores (fun a => if word ≤ a / 8 ∧ a / 8 < word + k then beatByte (a / 8) (beats.getD (a / 8 - word) (0, 0)) a else none)
      d ((List.range k).foldl (fun e i => (e.putBeat (word + i) (beats.getD i (0, 0))).inject (word + i) (beats.getD i (0, 0))) d) := by
    induction k with
    | zero =>
      refine (Dev.Stores.refl d).trans (.refl _) fun a => ?_
      rw [if_neg (by omega)]
      rfl
    | succ k ih =>
      rw [List.range_succ, List.foldl_append, List.foldl_cons, List.foldl_nil]
      refine ih.trans ((Dev.Stores.putBeat _ _ _).inject _ _) fun a => ?_
      by_cases ha : a / 8 = word + k
      · have hsub : a / 8 - word = k := by omega
        rw [if_pos (by omega), if_neg (by omega), Option.or_none, hsub, ha]
      · rw [show beatByte (word + k) (beats.getD k (0, 0)) a = none from if_neg (fun hc => ha hc.1), Option.none_or]
        by_cases hin : word ≤ a / 8 ∧ a / 8 < word + k
        · rw [if_pos hin, if_pos (by omega)]
        · rw [if_neg hin, if_neg (by omega)]
  exact (hbeats beats.length).of_same rfl rfl rfl rfl

end Sys2Proof.Machine
end

section
/-! Zero-fills, clears of the valid map and injections (R260, R261, R273). -/

namespace Sys2Proof.Machine

theorem exec_memoryWrite (word : Nat) (beats : List (Nat × Nat)) (s : State) :
    exec (.memoryWrite word beats) s = s.onDev (fun d => d.memAccess (.write word beats)) := rfl
theorem exec_pageFillDone (p : Nat) (s : State) : exec (.pageFillDone p) s = s.onAll (fun d => d.pageFillDone p) := rfl
theorem exec_vmClr (a : Accessor) (s : State) : exec (.vmClr a) s = s.writeDev a pgVmap (fun d => d.vmClrGo) := rfl
theorem exec_vmClrDone (s : State) : exec .vmClrDone s = s.onDev (fun d => d.vmClrDone) := rfl
theorem exec_injArm (a : Accessor) (k : Fin 4) (pattern lane : Nat) (s : State) :
    exec (.injArm a k pattern lane) s = s.writeDev a (pgMemctl k) (fun d => d.injArm k pattern lane) := rfl

/-- A write through BAR0 whose effect on the device is known. -/
theorem State.writeDev_of_eq {s : State} {a : Accessor} {pg : PageId} {f g : Dev → Dev} (ho : s.dev.access a pg = .open) (h : f s.dev = g s.dev) :
    s.writeDev a pg f = .next (s.modDev g) :=
  (State.writeDev_open s a pg f ho).trans (Proofs.next_modDev_congr h)

/-- What a map holds once the keys that `p` refuses are taken out. -/
theorem mget_filter_key {α : Type} (z : Nat → α) (p : Nat → Bool) (m : SMap α) (k : Nat) :
    mget z (m.filter (fun e => p e.1)) k = if p k = true then mget z m k else z k := by
  induction m with
  | nil => exact (ite_self _).symm
  | cons e m ih =>
    rw [List.filter_cons]
    split
    · next he =>
      rw [mget, mget, ih]
      by_cases hk : e.1 = k
      · rw [if_pos hk, if_pos hk, if_pos (hk ▸ he)]
      · rw [if_neg hk, if_neg hk]
    · next he =>
      rw [ih, mget]
      by_cases hk : e.1 = k
      · rw [if_neg (hk ▸ he), if_neg (hk ▸ he)]
      · rw [if_neg hk]

section invalidate

variable (d : Dev) (b k : Nat)

theorem Dev.pageValid_invalidate (p : Nat) : (d.invalidate b k).pageValid p = if b ≤ p ∧ p < b + k then false else d.pageValid p := by
  refine (mget_filter_key (fun _ => false) (fun p => decide (p < b) || decide (b + k ≤ p)) d.vmValid p).trans ?_
  by_cases h : b ≤ p ∧ p < b + k
  · rw [if_pos h, if_neg]
    simp only [Bool.or_eq_true, decide_eq_true_eq]
    omega
  · rw [if_neg h, if_pos]
    · rfl
    · simp only [Bool.or_eq_true, decide_eq_true_eq]
      omega

theorem Dev.chestByte_invalidate (a : Nat) :
    (d.invalidate b k).chestByte a = if b ≤ a / 4096 ∧ a / 4096 < b + k then 0 else d.chestByte a := by
  rw [Dev.chestByte, Dev.pageValid_invalidate]
  split
  · rfl
  · next h =>
    have hkeep := mget_filter_key (fun _ => (0 : Byte)) (fun a => decide (a < 4096 * b) || decide (4096 * (b + k) ≤ a)) d.chest a
    rw [if_pos (by simp only [Bool.or_eq_true, decide_eq_true_eq]; omega)] at hkeep
    rw [Dev.chestByte, ← hkeep]
    rfl

end invalidate

variable {d : Dev}

theorem Dev.freeDying_of_none (h : d.pool.dying = []) : d.freeDying = d := by
  simp only [Dev.freeDying, h, List.filter_nil, List.foldl_nil]
  rw [← h]

theorem Dev.memDrain_of_none (h : d.memWaits = []) : d.memDrain d.memWaits = d := by
  simp only [Dev.memDrain, h, List.foldl_nil]
  rw [← h]

theorem Dev.pageFillDone_of_last {p : Nat} (hp : d.fillPending p = true) (hw : d.memWaits = []) (hq : d.pool.dying = []) :
    d.pageFillDone p = ({ d with vmFill := mset (fun _ => false) d.vmFill p false } : Dev).bump pgVmap Reg.VALIDMAP.FILLS 1 := by
  rw [Dev.pageFillDone, hp]
  dsimp only [Bool.not_true, Bool.false_eq_true, if_false]
  rw [Dev.freeDying_of_none (by exact hq)]
  exact Dev.memDrain_of_none hw

section clear

theorem Dev.vmClrGo_of_busy (h : d.fon pgVmap Reg.VALIDMAP.BUSY = true) : d.vmClrGo = d := by
  rw [Dev.vmClrGo, if_pos h]

theorem Dev.vmClrGo_of_empty (h : d.fon pgVmap Reg.VALIDMAP.BUSY = false) (hk : d.fget pgVmap Reg.VALIDMAP.COUNT = 0) :
    d.vmClrGo = d.fset pgVmap Reg.VALIDMAP.CLR_DONE 1 := by
  simp only [Dev.vmClrGo, h, Bool.false_eq_true, if_false, hk, Nat.min_zero, if_true, Dev.ev_eq]

theorem Dev.vmClrGo_of_pages (h : d.fon pgVmap Reg.VALIDMAP.BUSY = false) (hk : d.fget pgVmap Reg.VALIDMAP.COUNT ≠ 0)
    (hb : d.fget pgVmap Reg.VALIDMAP.VM_CLR_BASE_PAGE + d.fget pgVmap Reg.VALIDMAP.COUNT ≤ 16777216) :
    d.vmClrGo = ({ d with vmClr := some (d.fget pgVmap Reg.VALIDMAP.VM_CLR_BASE_PAGE, d.fget pgVmap Reg.VALIDMAP.COUNT) } : Dev).fset
      pgVmap Reg.VALIDMAP.BUSY 1 := by
  have hmin : min 16777216 (d.fget pgVmap Reg.VALIDMAP.COUNT) = d.fget pgVmap Reg.VALIDMAP.COUNT := by omega
  have hlen : min (d.fget pgVmap Reg.VALIDMAP.COUNT) (16777216 - d.fget pgVmap Reg.VALIDMAP.VM_CLR_BASE_PAGE) =
      d.fget pgVmap Reg.VALIDMAP.COUNT := by omega
  simp only [Dev.vmClrGo, h, Bool.false_eq_true, if_false, hmin, if_neg hk, hlen, Dev.ev_eq]

variable {b k : Nat} (h : d.vmClr = some (b, k))

include h

theorem Dev.vmClrDone_of_filling {e : Nat × Bool} (he : e ∈ d.vmFill) (hb : b ≤ e.1) (hk : e.1 < b + k) : d.vmClrDone = d := by
  have hany : d.vmFill.any (fun e => decide (b ≤ e.1) && decide (e.1 < b + k)) = true :=
    List.any_eq_true.mpr ⟨e, he, by simp [hb, hk]⟩
  simp only [Dev.vmClrDone, h, hany, if_true]

theorem Dev.vmClrDone_of_filled (hf : ∀ e ∈ d.vmFill, ¬ (b ≤ e.1 ∧ e.1 < b + k)) : d.vmClrDone =
    ((({ d with vmClr := none } : Dev).invalidate b k).fset pgVmap Reg.VALIDMAP.BUSY 0).fset pgVmap Reg.VALIDMAP.CLR_DONE 1 := by
  have hany : d.vmFill.any (fun e => decide (b ≤ e.1) && decide (e.1 < b + k)) = false :=
    List.any_eq_false.mpr fun e he => by simpa using hf e he
  simp only [Dev.vmClrDone, h, hany, Bool.false_eq_true, if_false, Dev.clr_eq, Dev.ev_eq]

end clear

end Sys2Proof.Machine
end

section
/-! The statement about writes of the chest, fills and clears. -/

namespace Sys2Proof.Proofs

open Sys2Proof.Machine

/-- Settles O36: what a write stores, a fill that ends, a clear from its order to its end, and an injection armed. -/
theorem memoryWritesFillsAndClears : Obligations.MemoryWritesFillsAndClears := by
  refine ⟨fun s word beats hw hz => .of_onDev (exec_memoryWrite word beats s) ?_, fun s word beats hw => ?_, fun s p hp hw hq => ?_,
    fun s a ho => ⟨fun h => ?_, fun h hk => ?_, fun h hk hb => ?_⟩,
    fun s b k h => ⟨fun hf _ hwf => .of_onDev (exec_vmClrDone s) ?_, fun e he hb hk => ?_⟩, fun s a k pattern lane ho => ?_⟩
  · have hst : Dev.Stores (beatsByte word beats) s.dev (s.modDev (fun d => d.memAccess (.write word beats))).dev := by
      rw [State.modDev_dev, Dev.memAccess_of_free hw]
      exact (Dev.Stores.memWrite s.dev word beats).of_same rfl rfl rfl rfl
    refine ⟨fun a => ?_, hst.valid, hst.wf, hst.pool, hst.spokes⟩
    rw [hst.chestByte hz, beatsByte]
    by_cases hin : word ≤ a / 8 ∧ a / 8 < word + beats.length
    · rw [if_pos hin, beatByte]
      by_cases hbit : bitAt (beats.getD (a / 8 - word) (0, 0)).2 (a % 8) = true
      · rw [if_pos ⟨rfl, hbit⟩, if_pos ⟨hin.1, hin.2, hbit⟩]
        rfl
      · rw [if_neg (fun hc => hbit hc.2), if_neg (fun hc => hbit hc.2.2)]
        rfl
    · rw [if_neg hin, if_neg (fun hc => hin ⟨hc.1, hc.2.1⟩)]
      rfl
  · rw [exec_memoryWrite]
    exact next_modDev_congr (Dev.memAccess_of_wait hw)
  · exact (exec_pageFillDone p s).trans (State.onAll_of_eq
      (g := fun d => ({ d with vmFill := mset (fun _ => false) d.vmFill p false } : Dev).bump pgVmap Reg.VALIDMAP.FILLS 1)
      (Dev.pageFillDone_of_last hp hw hq))
  · exact (exec_vmClr a s).trans (State.writeDev_of_eq (g := id) ho (Dev.vmClrGo_of_busy h))
  · exact (exec_vmClr a s).trans (State.writeDev_of_eq (g := fun d => d.fset pgVmap Reg.VALIDMAP.CLR_DONE 1) ho (Dev.vmClrGo_of_empty h hk))
  · exact (exec_vmClr a s).trans (State.writeDev_of_eq (g := fun d => ({ d with vmClr := some (d.fget pgVmap Reg.VALIDMAP.VM_CLR_BASE_PAGE,
      d.fget pgVmap Reg.VALIDMAP.COUNT) } : Dev).fset pgVmap Reg.VALIDMAP.BUSY 1) ho (Dev.vmClrGo_of_pages h hk hb))
  · rw [State.modDev_dev, Dev.vmClrDone_of_filled h hf]
    refine ⟨Dev.pageValid_invalidate _ b k, Dev.chestByte_invalidate _ b k, invalidate_wf _ b k hwf, rfl, ?_, ?_⟩
    · rw [Dev.fget_fset_slot _ _ _ _ (by decide), Dev.fget_fset_same]
      rfl
    · rw [Dev.fget_fset_same]
      rfl
  · exact (exec_vmClrDone s).trans (State.onDev_of_eq (f := fun d => d.vmClrDone) (Dev.vmClrDone_of_filling h he hb hk))
  · refine .of_writeDev (exec_injArm a k pattern lane s) ho ?_
    simp only [State.modDev_dev, Dev.injArm, Dev.ev_eq]
    refine ⟨?_, ?_, ?_, rfl⟩
    · rw [Dev.fget_fset_same]
      rfl
    · rw [Dev.fget_fset_slot _ _ _ _ (by decide), Dev.fget_fset_slot _ _ _ _ (by decide), Dev.fget_fset_same]
    · rw [Dev.fget_fset_slot _ _ _ _ (by decide), Dev.fget_fset_same]

end Sys2Proof.Proofs
end

section
/-! The pool: requests, references, frees and layouts (R265 to R272). -/

namespace Sys2Proof.Machine

theorem exec_allocation (o size : Nat) (s : State) : exec (.allocation o size) s = s.onDev (fun d => d.poolRequest o size) := rfl
theorem exec_increment (h : Nat) (s : State) : exec (.increment h) s = s.onDev (fun d => d.refUp h) := rfl
theorem exec_decrement (h : Nat) (s : State) : exec (.decrement h) s = s.onDev (fun d => d.refDown h) := rfl
theorem exec_apply (a : Accessor) (s : State) : exec (.apply a) s = s.writeDev a pgPool (fun d => d.poolApply) := rfl
theorem exec_poolConfigDone (s : State) : exec .poolConfigDone s = s.onAll (fun d => d.poolConfigDone) := rfl
theorem exec_nobufWaitExpiry (n : Fin 8) (s : State) : exec (.nobufWaitExpiry n) s = s.onSpoke n (fun d => d.nobufExpiry n) := rfl

variable {d : Dev}

section request

variable {o size c : Nat}

theorem Dev.poolRequest_of_stranger (h : owners.contains o = false) : d.poolRequest o size = d := by
  simp only [Dev.poolRequest, h, Bool.not_false, if_true]

theorem Dev.poolRequest_of_waiting (ho : owners.contains o = true) (h : d.pool.configured = false ∨ d.pool.applying ≠ none) :
    d.poolRequest o size = { d with pool := { d.pool with waits := d.pool.waits ++ [(o, size)] } } := by
  have hno : ¬ (d.pool.configured && d.pool.applying.isNone) = true := by
    rcases h with h | h
    · simp [h]
    · simp [Option.isNone_iff_eq_none, h]
  simp only [Dev.poolRequest, ho, Bool.not_true, Bool.false_eq_true, if_false, if_neg hno]

variable (ho : owners.contains o = true) (hc : d.pool.configured = true) (ha : d.pool.applying = none)

include ho hc ha

theorem Dev.poolRequest_of_configured : d.poolRequest o size = (d.alloc o size).1 := by
  simp only [Dev.poolRequest, ho, Bool.not_true, Bool.false_eq_true, if_false, hc, ha, Option.isNone_none, Bool.and_self, if_true]

theorem Dev.poolRequest_of_large (hs : 8388608 < size) : d.poolRequest o size = d.bump pgPool Reg.POOL.NOBUFS 1 := by
  rw [Dev.poolRequest_of_configured ho hc ha]
  simp only [Dev.alloc, hc, ha, Option.isSome_none, Bool.not_true, Bool.or_self, Bool.false_eq_true, if_false, if_pos hs]

variable (hs : size ≤ 8388608)

include hs

theorem Dev.poolRequest_of_none (hp : d.pool.pickClass o (classFor size) = none) : d.poolRequest o size = d.bump pgPool Reg.POOL.NOBUFS 1 := by
  rw [Dev.poolRequest_of_configured ho hc ha]
  simp only [Dev.alloc, hc, ha, Option.isSome_none, Bool.not_true, Bool.or_self, Bool.false_eq_true, if_false, if_neg (Nat.not_lt.mpr hs), hp]

/-- A buffer of class `c` given to an owner: counted, and as a fallback where it is not of the class asked for (R267). -/
def Dev.granted (d : Dev) (o c : Nat) (fallback : Bool) : Dev :=
  let e := (({ d with pool := (d.pool.popFree c).give o c (d.pool.nextHandle c) } : Dev).bump pgPool Reg.POOL.ALLOCS 1).unit pgPool
  if fallback then e.bump pgPool Reg.POOL.FALLBACKS 1 else e

theorem Dev.poolRequest_of_some (hp : d.pool.pickClass o (classFor size) = some c) :
    d.poolRequest o size = d.granted o c (decide (c ≠ classFor size)) := by
  rw [Dev.poolRequest_of_configured ho hc ha]
  simp only [Dev.alloc, hc, ha, Option.isSome_none, Bool.not_true, Bool.or_self, Bool.false_eq_true, if_false, if_neg (Nat.not_lt.mpr hs), hp,
    Dev.granted]
  by_cases hcl : c = classFor size
  · simp only [hcl, if_true, ne_eq, not_true, decide_false, Bool.false_eq_true, if_false]
  · simp only [hcl, if_false, ne_eq, not_false_eq_true, decide_true, if_true]

end request

theorem Dev.regsOnly_bump (d : Dev) (pg : PageId) (f : Fld) (k : Nat) : d.regsOnly (d.bump pg f k) := Dev.regsOnly_fset ..

theorem Dev.regsOnly.pool {d e : Dev} (h : d.regsOnly e) : e.pool = d.pool := by
  unfold Dev.regsOnly at h
  rw [← h]

theorem Dev.regsOnly.vmValid {d e : Dev} (h : d.regsOnly e) : e.vmValid = d.vmValid := by
  unfold Dev.regsOnly at h
  rw [← h]

theorem Dev.regsOnly.chest {d e : Dev} (h : d.regsOnly e) : e.chest = d.chest := by
  unfold Dev.regsOnly at h
  rw [← h]

theorem Dev.regsOnly.spokes {d e : Dev} (h : d.regsOnly e) : e.spokes = d.spokes := by
  unfold Dev.regsOnly at h
  rw [← h]

section granted

variable (d : Dev) (o c : Nat) (fallback : Bool)

theorem Dev.regsOnly_granted : ({ d with pool := (d.pool.popFree c).give o c (d.pool.nextHandle c) } : Dev).regsOnly (d.granted o c fallback) := by
  have hbase := (Dev.regsOnly_bump ({ d with pool := (d.pool.popFree c).give o c (d.pool.nextHandle c) } : Dev) pgPool Reg.POOL.ALLOCS 1).trans
    (Dev.regsOnly_bump _ pgPool Reg.HEADER.UNITS 1)
  cases fallback
  · exact hbase
  · exact hbase.trans (Dev.regsOnly_bump ..)

theorem Dev.granted_keeps : (d.granted o c fallback).pool = (d.pool.popFree c).give o c (d.pool.nextHandle c) ∧
    (d.granted o c fallback).chest = d.chest ∧ (d.granted o c fallback).spokes = d.spokes :=
  have h := Dev.regsOnly_granted d o c fallback
  ⟨h.pool, h.chest, h.spokes⟩

theorem Pool.descOf_give (p : Pool) (o c h : Nat) : (p.give o c h).descOf h = ⟨1, o⟩ := by
  rw [Pool.descOf, Pool.give, mget_mset_same]

theorem Pool.occOf_give (p : Pool) (o c h : Nat) : (p.give o c h).occOf o c = p.occOf o c + 1 := by
  rw [Pool.give, Pool.occOf, mget_mset_same]

theorem Pool.occOf_popFree (p : Pool) (c o k : Nat) : (p.popFree c).occOf o k = p.occOf o k := by
  rw [Pool.popFree]
  split <;> rfl

theorem Dev.granted_ALLOCS : (d.granted o c fallback).fget pgPool Reg.POOL.ALLOCS =
    satAdd (2 ^ 32 - 1) (d.fget pgPool Reg.POOL.ALLOCS) 1 := by
  have hb : ((({ d with pool := (d.pool.popFree c).give o c (d.pool.nextHandle c) } : Dev).bump pgPool Reg.POOL.ALLOCS 1).unit pgPool).fget pgPool
      Reg.POOL.ALLOCS = satAdd (2 ^ 32 - 1) (d.fget pgPool Reg.POOL.ALLOCS) 1 := by
    rw [Dev.unit, Dev.fget_bump_slot _ _ _ _ (by decide), Dev.fget_bump_same]
    rfl
  rw [Dev.granted]
  cases fallback
  · exact hb
  · exact (Dev.fget_bump_slot _ _ _ _ (by decide)).trans hb

theorem Dev.granted_FALLBACKS : (d.granted o c fallback).fget pgPool Reg.POOL.FALLBACKS =
    if fallback then satAdd (2 ^ 32 - 1) (d.fget pgPool Reg.POOL.FALLBACKS) 1 else d.fget pgPool Reg.POOL.FALLBACKS := by
  have hb : ((({ d with pool := (d.pool.popFree c).give o c (d.pool.nextHandle c) } : Dev).bump pgPool Reg.POOL.ALLOCS 1).unit pgPool).fget pgPool
      Reg.POOL.FALLBACKS = d.fget pgPool Reg.POOL.FALLBACKS := by
    rw [Dev.unit, Dev.fget_bump_slot _ _ _ _ (by decide), Dev.fget_bump_slot _ _ _ _ (by decide)]
    rfl
  rw [Dev.granted]
  cases fallback
  · exact hb
  · rw [if_pos rfl, if_pos rfl, Dev.fget_bump_same, hb]
    rfl

end granted

section refs

variable {h : Nat}

theorem Pool.isFree_of_held {p : Pool} (hc : (p.descOf h).count ≠ 0) : p.isFree h = false := by
  rw [Pool.isFree, beq_false_of_ne hc, Bool.false_and]

theorem Pool.isFree_of_lost {p : Pool} (hl : p.lost.contains h = true) : p.isFree h = false := by
  rw [Pool.isFree, hl, Bool.not_true, Bool.and_false]

theorem Dev.wildFree_keeps (d : Dev) (h : Nat) :
    (d.wildFree h).pool.desc = d.pool.desc ∧ (d.wildFree h).chest = d.chest ∧ (d.wildFree h).regs = d.regs := by
  rw [Dev.wildFree]
  split <;> exact ⟨rfl, rfl, rfl⟩

theorem Dev.pool_fset (d : Dev) (pg : PageId) (f : Fld) (v : Nat) : (d.fset pg f v).pool = d.pool := rfl
theorem Dev.pool_bump (d : Dev) (pg : PageId) (f : Fld) (k : Nat) : (d.bump pg f k).pool = d.pool := rfl

theorem Dev.refUp_of_free (hf : d.pool.isFree h = true) : d.refUp h = d.wildFree h := if_pos hf
theorem Dev.refDown_of_free (hf : d.pool.isFree h = true) : d.refDown h = d.wildFree h := if_pos hf

theorem Dev.refUp_of_fixed (hf : d.pool.isFree h = false) (hc : (d.pool.descOf h).count = 0 ∨ (d.pool.descOf h).count = 255) : d.refUp h = d := by
  rw [Dev.refUp, if_neg (Bool.eq_false_iff.mp hf)]
  exact if_pos hc

theorem Dev.refUp_of_held (h0 : 0 < (d.pool.descOf h).count) (hc : (d.pool.descOf h).count < 254) : d.refUp h =
    { d.bump pgPool Reg.HEADER.UNITS 1 with
      pool := { d.pool with desc := mset (fun _ => {}) d.pool.desc h (Desc.mk ((d.pool.descOf h).count + 1) (d.pool.descOf h).owner) } } := by
  rw [Dev.refUp, if_neg (Bool.eq_false_iff.mp (Pool.isFree_of_held (by omega))), Dev.incRef]
  dsimp only
  rw [if_neg (by omega), if_neg (by omega)]
  rfl

theorem Dev.refUp_of_last (hc : (d.pool.descOf h).count = 254) : ((d.refUp h).pool.descOf h).count = 255 ∧
    (d.refUp h).fget pgPool Reg.POOL.SAT_PIN = 1 ∧
    (d.refUp h).fget pgPool Reg.POOL.SAT_PINNED = satAdd (2 ^ Reg.POOL.SAT_PINNED.w - 1) (d.fget pgPool Reg.POOL.SAT_PINNED) 1 := by
  rw [Dev.refUp, if_neg (Bool.eq_false_iff.mp (Pool.isFree_of_held (by omega))), Dev.incRef]
  dsimp only
  rw [if_neg (by omega), if_pos hc, Dev.ev_eq]
  refine ⟨?_, ?_, ?_⟩
  · rw [Dev.pool_fset, Dev.pool_bump, Pool.descOf, mget_mset_same]
    exact congrArg (· + 1) hc
  · rw [Dev.fget_fset_same]
    rfl
  · rw [Dev.fget_fset_slot _ _ _ _ (by decide), Dev.fget_bump_same]
    exact congrArg (satAdd _ · 1) (Dev.fget_bump_slot d pgPool pgPool 1 (by decide))

theorem Dev.refDown_of_fixed (hf : d.pool.isFree h = false) (hc : (d.pool.descOf h).count = 0 ∨ (d.pool.descOf h).count = 255) :
    d.refDown h = d := by
  rw [Dev.refDown, if_neg (Bool.eq_false_iff.mp hf), if_neg (by omega)]
  exact if_pos hc

theorem Dev.refDown_of_held (h1 : 1 < (d.pool.descOf h).count) (hc : (d.pool.descOf h).count < 255) : d.refDown h =
    { d.bump pgPool Reg.HEADER.UNITS 1 with
      pool := { d.pool with desc := mset (fun _ => {}) d.pool.desc h (Desc.mk ((d.pool.descOf h).count - 1) (d.pool.descOf h).owner) } } := by
  rw [Dev.refDown, if_neg (Bool.eq_false_iff.mp (Pool.isFree_of_held (by omega))), if_neg (by omega), Dev.decRef]
  dsimp only
  rw [if_neg (by omega), if_neg (by omega)]
  rfl

theorem Dev.refDown_of_last (hc : (d.pool.descOf h).count = 1) (hb : d.bufFilling h = false) :
    d.refDown h = ((d.bump pgPool Reg.HEADER.UNITS 1).freeBuf h).afterFree := by
  rw [Dev.refDown, if_neg (Bool.eq_false_iff.mp (Pool.isFree_of_held (by omega))), if_pos hc, Dev.decRef]
  dsimp only
  have hb' : ¬ (d.bump pgPool Reg.HEADER.UNITS 1).bufFilling h = true := Bool.eq_false_iff.mp hb
  rw [if_neg (by omega), if_pos hc, Dev.unit, Dev.lastRef, if_neg hb']

end refs

section free

variable {h c : Nat} (hc : d.pool.classOf h = some c)

include hc

theorem Dev.pool_freeBuf : (d.freeBuf h).pool.freed = mset (fun _ => []) d.pool.freed c (h :: d.pool.freedOf c) ∧
    (d.freeBuf h).pool.desc = mdel h d.pool.desc := by
  simp only [Dev.freeBuf, hc, Dev.pool_bump]
  split
  · rw [(Dev.regsOnly_errEvent ..).pool]
    exact ⟨rfl, rfl⟩
  · exact ⟨rfl, rfl⟩

theorem Dev.freeBuf_head : (d.freeBuf h).pool.nextHandle c = h ∧ ((d.freeBuf h).pool.descOf h).count = 0 := by
  obtain ⟨hfreed, hdesc⟩ := Dev.pool_freeBuf hc
  constructor
  · rw [Pool.nextHandle, Pool.freedOf, hfreed, mget_mset_same]
  · rw [Pool.descOf, hdesc, mget_mdel, if_pos rfl]

theorem Dev.pageValid_freeBuf (p : Nat) :
    (d.freeBuf h).pageValid p = (d.invalidate (d.pool.bufAddr h / 4096) (classSize c / 4096)).pageValid p := by
  rw [Dev.pageValid, Dev.pageValid]
  refine congrArg (mget _ · p) ?_
  simp only [Dev.freeBuf, hc]
  split
  · exact (Dev.regsOnly_errEvent ..).vmValid
  · rfl

end free

theorem Dev.poolApply_of_applying (h : d.pool.applying ≠ none) : d.poolApply = d := if_pos (Option.isSome_iff_ne_none.mpr h)

theorem Dev.poolApply_of_held (h : d.pool.applying = none) (hd : d.pool.desc ≠ []) : d.poolApply = d.fset pgPool Reg.POOL.CFG_REFUSED 1 := by
  have hbad : d.cfgBad d.stagedCounts = true := by
    rw [Dev.cfgBad, List.isEmpty_eq_false_iff.mpr hd, Bool.not_false, Bool.or_true, Bool.true_or]
  simp only [Dev.poolApply, h, Option.isSome_none, Bool.false_eq_true, if_false, hbad, if_true, Dev.ev_eq]

theorem Dev.poolApply_of_good (h : d.pool.applying = none) (hb : d.cfgBad d.stagedCounts = false) :
    d.poolApply = { d with pool := { d.pool with applying := some d.stagedCounts } } := by
  simp only [Dev.poolApply, h, Option.isSome_none, Bool.false_eq_true, if_false, hb]

theorem Dev.poolConfigDone_of_applying {cs : List Nat} (ht : d.trained = true) (hc : d.pool.configured = true) (ha : d.pool.applying = some cs)
    (hw : d.pool.waits = []) : d.poolConfigDone =
      (((({ d with pool := d.pool.laidOut cs } : Dev).describe cs).fset pgPool Reg.POOL.CFG_DONE 1).fset pgPool Reg.POOL.CONFIGURED 1).goOnAll := by
  simp only [Dev.poolConfigDone, ht, hc, ha, hw, Bool.not_true, Bool.false_eq_true, if_false, if_true, List.foldl_nil, Dev.ev_eq]

theorem Dev.nobufExpiry_of_waiting {n : Nat} (h : (d.sp n).noBuf = true) (hw : d.fget pgPool Reg.POOL.NOBUF_WAIT ≠ 0) (hc : d.pool.configured = true) :
    d.nobufExpiry n = d.landFails n stOutOfBuffer := by
  rw [Dev.nobufExpiry, h, bne_iff_ne.mpr hw, hc]
  rfl

theorem Dev.nobufExpiry_of_none {n : Nat} (h : (d.sp n).noBuf = false ∨ d.fget pgPool Reg.POOL.NOBUF_WAIT = 0) : d.nobufExpiry n = d := by
  rw [Dev.nobufExpiry, if_neg]
  rcases h with h | h <;> simp [h]

end Sys2Proof.Machine
end

section
/-! The statement about the pool. -/

namespace Sys2Proof.Proofs

open Sys2Proof.Machine

/-- Settles O37: requests, references up and down, frees, and the layout from its order to its end. -/
theorem bufferPool : Obligations.BufferPool := by
  refine ⟨fun s o size => ⟨fun h => ?_, fun ho hc ha hs => ⟨fun c hp => .of_onDev (exec_allocation o size s) ?_, fun hp => ?_⟩,
      fun ho hc ha hs => ?_, fun ho h => ?_⟩,
    fun s h => ⟨fun hf => ⟨?_, ?_⟩, Dev.wildFree_keeps s.dev h, fun hc => ?_, fun h0 hc => ?_, fun hc => .of_onDev (exec_increment h s) ?_,
      fun hl hc => ⟨?_, ?_⟩, fun _ => ⟨fun hc => ?_, fun h1 hc => ?_, fun hc hb => ?_⟩⟩,
    fun d h c hc => ⟨(Dev.freeBuf_head hc).1, (Dev.freeBuf_head hc).2, fun p hlo hhi _ => ?_⟩,
    fun s a ho => ⟨fun h => ?_, fun h hd => ?_, fun h hb => ?_⟩, fun s cs ht hc ha hw => ?_,
    fun s n => ⟨fun h hw hc => ?_, fun h => ?_⟩⟩
  · exact (exec_allocation o size s).trans (State.onDev_of_eq (f := fun d => d.poolRequest o size) (Dev.poolRequest_of_stranger h))
  · rw [State.modDev_dev, Dev.poolRequest_of_some ho hc ha hs hp]
    obtain ⟨hpool, hchest, hspokes⟩ := Dev.granted_keeps s.dev o c (decide (c ≠ classFor size))
    refine ⟨hpool, ?_, ?_, Dev.granted_ALLOCS .., ?_, hchest, hspokes⟩
    · rw [hpool, Pool.descOf_give]
    · rw [hpool, Pool.occOf_give, Pool.occOf_popFree]
    · rw [Dev.granted_FALLBACKS]
      by_cases hcl : c = classFor size
      · simp only [hcl, ne_eq, not_true, decide_false, Bool.false_eq_true, if_false, if_true]
      · simp only [hcl, ne_eq, not_false_eq_true, decide_true, if_true, if_false]
  · rw [exec_allocation]
    exact next_modDev_congr (Dev.poolRequest_of_none ho hc ha hs hp)
  · rw [exec_allocation]
    exact next_modDev_congr (Dev.poolRequest_of_large ho hc ha hs)
  · rw [exec_allocation]
    exact next_modDev_congr (Dev.poolRequest_of_waiting ho h)
  · rw [exec_increment]
    exact next_modDev_congr (Dev.refUp_of_free hf)
  · rw [exec_decrement]
    exact next_modDev_congr (Dev.refDown_of_free hf)
  · exact (exec_increment h s).trans (State.onDev_of_eq (f := fun d => d.refUp h)
      (Dev.refUp_of_fixed (Pool.isFree_of_held (by omega)) (.inr hc)))
  · rw [exec_increment]
    exact next_modDev_congr (Dev.refUp_of_held h0 hc)
  · exact Dev.refUp_of_last hc
  · exact (exec_decrement h s).trans (State.onDev_of_eq (f := fun d => d.refDown h) (Dev.refDown_of_fixed (Pool.isFree_of_lost hl) (.inl hc)))
  · exact (exec_increment h s).trans (State.onDev_of_eq (f := fun d => d.refUp h) (Dev.refUp_of_fixed (Pool.isFree_of_lost hl) (.inl hc)))
  · exact (exec_decrement h s).trans (State.onDev_of_eq (f := fun d => d.refDown h)
      (Dev.refDown_of_fixed (Pool.isFree_of_held (by omega)) (.inr hc)))
  · rw [exec_decrement]
    exact next_modDev_congr (Dev.refDown_of_held h1 hc)
  · rw [exec_decrement]
    exact next_modDev_congr (Dev.refDown_of_last hc hb)
  · rw [Dev.pageValid_freeBuf hc, Dev.pageValid_invalidate, if_pos ⟨hlo, hhi⟩]
  · exact (exec_apply a s).trans (State.writeDev_of_eq (g := id) ho (Dev.poolApply_of_applying h))
  · refine .of_writeDev (exec_apply a s) ho ?_
    rw [State.modDev_dev, Dev.poolApply_of_held h hd, Dev.fget_fset_same]
    exact ⟨rfl, rfl⟩
  · exact (exec_apply a s).trans (State.writeDev_of_eq (g := fun d => { d with pool := { d.pool with applying := some d.stagedCounts } }) ho
      (Dev.poolApply_of_good h hb))
  · exact (exec_poolConfigDone s).trans (State.onAll_of_eq (g := fun d =>
      (((({ d with pool := d.pool.laidOut cs } : Dev).describe cs).fset pgPool Reg.POOL.CFG_DONE 1).fset pgPool Reg.POOL.CONFIGURED 1).goOnAll)
      (Dev.poolConfigDone_of_applying ht hc ha hw))
  · rw [exec_nobufWaitExpiry]
    exact next_modDev_congr (congrArg (Dev.follow · n) (Dev.nobufExpiry_of_waiting h hw hc))
  · rw [exec_nobufWaitExpiry]
    exact next_modDev_congr (congrArg (Dev.follow · n) (Dev.nobufExpiry_of_none h))

end Sys2Proof.Proofs
end

section
/-! Endpoints and their functions (R276, R278, R279, R287, R294). -/

namespace Sys2Proof.Machine

theorem exec_linkUp (e : Fin 2) (width speed : Nat) (s : State) : exec (.linkUp e width speed) s = s.onDev (fun d => d.linkActive e width speed) := rfl
theorem exec_linkDown (e : Fin 2) (s : State) : exec (.linkDown e) s = s.onAll (fun d => d.linkLost e) := rfl
theorem exec_perstAssert (e : Fin 2) (s : State) : exec (.perstAssert e) s = s.onAll (fun d => d.perstAssert e) := rfl
theorem exec_perstRelease (e : Fin 2) (s : State) : exec (.perstRelease e) s = s.onDev (fun d => d.perstRelease e) := rfl
theorem exec_configurationRequest (e : Fin 2) (x : CfgReq) (s : State) :
    exec (.configurationRequest e x) s = s.onDev (fun d => d.cfgRequest e x.fn x.ctl) := rfl
theorem exec_functionLevelReset (e : Fin 2) (f : Fin 64) (s : State) :
    exec (.functionLevelReset e f) s = s.onDev (fun d => d.flr (funcOf e f)) := rfl
theorem exec_busMasterEnable (e : Fin 2) (f : Fin 64) (s : State) :
    exec (.busMasterEnable e f) s = s.onAll (fun d => d.busMaster (funcOf e f)) := rfl
theorem exec_vfEnable (e : Fin 2) (s : State) : exec (.vfEnable e) s = s.onDev (fun d => d.vfEnable e) := rfl
theorem exec_vectorUnmask (e : Fin 2) (f : Fin 64) (v : Fin 2048) (s : State) :
    exec (.vectorUnmask e f v) s = s.onDev (fun d => d.unmask (funcOf e f) v) := rfl

section link

variable {d : Dev} {e width speed : Nat}

theorem Dev.linkActive_of_present (hp : d.epPresent e = true) (hr : (d.ep e).perst = false) (hm : d.therm.mains = true) :
    d.linkActive e width speed = d.linkUp e width speed := by
  simp only [Dev.linkActive, hp, hr, hm, Bool.not_true, Bool.or_self, Bool.false_eq_true, if_false]

theorem Dev.linkActive_of_not (h : d.epPresent e = false ∨ (d.ep e).perst = true) : d.linkActive e width speed = d := by
  rw [Dev.linkActive, if_pos]
  rcases h with h | h <;> simp [h]

theorem Dev.linkUp_fields (d : Dev) (e width speed : Nat) : (d.linkUp e width speed).fget (pgPcie e) Reg.PCIE.LINK_UP = 1 ∧
    (d.linkUp e width speed).fget (pgPcie e) Reg.PCIE.WIDTH = width % 2 ^ Reg.PCIE.WIDTH.w ∧
    (d.linkUp e width speed).fget (pgPcie e) Reg.PCIE.SPEED = speed % 2 ^ Reg.PCIE.SPEED.w ∧
    (d.linkUp e width speed).ep e = { d.ep e with wasUp := true } := by
  refine ⟨?_, ?_, ?_, Dev.ep_modEp_same ..⟩
  · refine (Dev.fget_fset_slot _ _ _ _ (by decide)).trans ((Dev.fget_fset_slot _ _ _ _ (by decide)).trans ?_)
    exact Dev.fget_fset_same ..
  · exact (Dev.fget_fset_slot _ _ _ _ (by decide)).trans (Dev.fget_fset_same ..)
  · exact Dev.fget_fset_same ..

theorem Dev.linkUp_frame (d : Dev) (e width speed : Nat) : { d.linkUp e width speed with regs := d.regs, endpts := d.endpts } = d := by
  have h := ((Dev.regsOnly_fset d (pgPcie e) Reg.PCIE.LINK_UP 1).trans (Dev.regsOnly_fset _ (pgPcie e) Reg.PCIE.WIDTH width)).trans
    (Dev.regsOnly_fset _ (pgPcie e) Reg.PCIE.SPEED speed)
  unfold Dev.regsOnly at h
  exact congrArg (fun x : Dev => { x with endpts := d.endpts }) h

theorem Dev.linkLost_of_up (h : d.fon (pgPcie e) Reg.PCIE.LINK_UP = true) : d.linkLost e =
    (((d.fset (pgPcie e) Reg.PCIE.LINK_UP 0).fset (pgPcie e) Reg.PCIE.WIDTH 0).fset (pgPcie e) Reg.PCIE.SPEED 0).hostLoss e 1 := by
  simp only [Dev.linkLost, h, Bool.not_true, Bool.false_eq_true, if_false, Dev.clr_eq]

theorem Dev.linkLost_of_down (h : d.fon (pgPcie e) Reg.PCIE.LINK_UP = false) : d.linkLost e = d := by
  simp only [Dev.linkLost, h, Bool.not_false, if_true]

theorem Dev.perstAssert_of_up (hp : d.epPresent e = true) (hw : (d.ep e).wasUp = true) (hr : (d.ep e).perst = false) :
    d.perstAssert e = ((d.hostLoss e 1).epReset e).modEp e (fun x => { x with perst := true, wasUp := false }) := by
  simp only [Dev.perstAssert, hp, hw, hr, Bool.not_true, Bool.not_false, Bool.and_self, Bool.false_eq_true, if_false, if_true]

theorem Dev.perstAssert_of_never_up (hp : d.epPresent e = true) (hw : (d.ep e).wasUp = false) :
    d.perstAssert e = (d.epReset e).modEp e (fun x => { x with perst := true, wasUp := false }) := by
  simp only [Dev.perstAssert, hp, hw, Bool.not_true, Bool.false_and, Bool.false_eq_true, if_false]

theorem Dev.perstAssert_of_absent (hp : d.epPresent e = false) : d.perstAssert e = d := by
  simp only [Dev.perstAssert, hp, Bool.not_false, if_true]

theorem Dev.perstRelease_of_absent (hp : d.epPresent e = false) : d.perstRelease e = d := by
  simp only [Dev.perstRelease, hp, Bool.not_false, if_true]

theorem Dev.perstRelease_of_present (hp : d.epPresent e = true) :
    d.perstRelease e = d.modEp e (fun x => { x with perst := false, wasUp := false }) := by
  simp only [Dev.perstRelease, hp, Bool.not_true, Bool.false_eq_true, if_false]

end link

section config

variable {d : Dev} {e f : Nat} {ctl : Option PciCtl}

theorem Dev.cfgRequest_of_down (h : d.fon (pgPcie e) Reg.PCIE.LINK_UP = false) : d.cfgRequest e f ctl = d := by
  simp only [Dev.cfgRequest, h, Bool.not_false, if_true]

/-- All but the endpoints' state and what is sent. -/
def Dev.offEndpoints (d e : Dev) : Prop := { e with endpts := d.endpts, out := d.out } = d

theorem Dev.offEndpoints.modEp {d x : Dev} (h : d.offEndpoints x) (e : Nat) (g : Endpt → Endpt) : d.offEndpoints (x.modEp e g) := h

theorem Dev.offEndpoints.emit {d x : Dev} (h : d.offEndpoints x) (o : Out) : d.offEndpoints (x.emit o) := h

theorem Dev.offEndpoints_refl (d : Dev) : d.offEndpoints d := rfl

theorem Dev.cfgReady_modEp (d : Dev) (e : Nat) (g : Endpt → Endpt) : (d.modEp e g).cfgReady = d.cfgReady := rfl

section up

variable (h : d.fon (pgPcie e) Reg.PCIE.LINK_UP = true)

include h

theorem Dev.cfgRequest_of_early (hr : d.cfgReady = false) : d.cfgRequest e f ctl = d.emit (.cfgReply (64 * e + f) true) := by
  cases ctl <;> simp [Dev.cfgRequest, h, hr]

variable (hr : d.cfgReady = true)

include hr

theorem Dev.cfgRequest_of_read (hf : f ≠ 0 ∨ ctl = none) :
    d.cfgRequest e f ctl = (d.modEp e (fun x => { x with ready := true })).emit (.cfgReply (64 * e + f) false) := by
  cases ctl with
  | none => simp [Dev.cfgRequest, h, hr, Dev.cfgReady_modEp]
  | some c => simp [Dev.cfgRequest, h, hr, Dev.cfgReady_modEp, hf.resolve_right (Option.some_ne_none c)]

theorem Dev.cfgRequest_of_control {c : PciCtl} : d.cfgRequest e 0 (some c) =
    ((d.modEp e (fun x => { x with ready := true })).modEp e (fun x => { x with ctl := c })).emit (.cfgReply (64 * e) false) := by
  simp [Dev.cfgRequest, h, hr, Dev.cfgReady_modEp]

end up

/-- A configuration request answered (R278): its reply, what becomes of the endpoint, and all else as it was. -/
theorem Dev.cfgRequest_effect (h : d.fon (pgPcie e) Reg.PCIE.LINK_UP = true) :
    (d.cfgRequest e f ctl).out = .cfgReply (64 * e + f) (!d.cfgReady) :: d.out ∧
    (d.cfgReady = true → ((d.cfgRequest e f ctl).ep e).ready = true) ∧
    (d.cfgReady = false → (d.cfgRequest e f ctl).ep e = d.ep e) ∧
    (∀ c, d.cfgReady = true → f = 0 → ctl = some c → ((d.cfgRequest e f ctl).ep e).ctl = c) ∧
    (f ≠ 0 ∨ ctl = none → ((d.cfgRequest e f ctl).ep e).ctl = (d.ep e).ctl) ∧
    d.offEndpoints (d.cfgRequest e f ctl) := by
  cases hr : d.cfgReady with
  | false =>
    rw [Dev.cfgRequest_of_early h hr, Dev.ep_emit]
    exact ⟨rfl, (by rintro ⟨⟩), fun _ => rfl, (by rintro _ ⟨⟩), fun _ => rfl, (Dev.offEndpoints_refl d).emit _⟩
  | true =>
    have hsame := Dev.ep_modEp_same d e (fun x => { x with ready := true })
    by_cases hf : f ≠ 0 ∨ ctl = none
    · rw [Dev.cfgRequest_of_read h hr hf, Dev.ep_emit, hsame]
      refine ⟨rfl, fun _ => rfl, (by rintro ⟨⟩), fun c _ hf0 hc => ?_, fun _ => rfl, ((Dev.offEndpoints_refl d).modEp e _).emit _⟩
      rcases hf with hf | hf
      · exact absurd hf0 hf
      · rw [hf] at hc
        cases hc
    · obtain ⟨hf0, hctl⟩ := not_or.mp hf
      obtain ⟨c, rfl⟩ := Option.ne_none_iff_exists'.mp hctl
      obtain rfl := Classical.not_not.mp hf0
      rw [Dev.cfgRequest_of_control h hr, Dev.ep_emit, Dev.ep_modEp_same, hsame]
      refine ⟨rfl, fun _ => rfl, (by rintro ⟨⟩), fun c' _ _ hc => Option.some.inj hc, fun hc => ?_,
        (((Dev.offEndpoints_refl d).modEp e _).modEp e _).emit _⟩
      exact absurd hc (by simp)

end config

section function

/-- Requests sent in order. -/
theorem foldl_emit (l : List Out) : ∀ d : Dev, l.foldl Dev.emit d = { d with out := l.reverse ++ d.out } := by
  induction l with
  | nil => intro d; rfl
  | cons o l ih =>
    intro d
    rw [List.foldl_cons, ih, List.reverse_cons, List.append_assoc]
    rfl

theorem Dev.busMaster_eq (d : Dev) (f : Nat) : d.busMaster f =
    { d.modFunc f (fun x => { x with bme := true, held := [] }) with out := (d.func f).held.reverse ++ d.out } :=
  foldl_emit ..

/-- What the disabling of rings leaves (R284, R287): all but rings and registers. -/
def Dev.ringsOnly (d e : Dev) : Prop := { e with regs := d.regs, sqs := d.sqs, cqs := d.cqs } = d

theorem Dev.ringsOnly.trans {d e f : Dev} (h : d.ringsOnly e) (k : e.ringsOnly f) : d.ringsOnly f := by
  unfold Dev.ringsOnly at *
  have hf := congrArg (fun x : Dev => { x with regs := d.regs, sqs := d.sqs, cqs := d.cqs }) k
  exact hf.trans h

theorem Dev.ringsOnly_foldl {β : Type} {g : Dev → β → Dev} (hg : ∀ x b, Dev.ringsOnly x (g x b)) (l : List β) :
    ∀ {d e : Dev}, d.ringsOnly e → d.ringsOnly (l.foldl g e) := by
  induction l with
  | nil => exact fun h => h
  | cons b l ih => exact fun h => ih (h.trans (hg _ b))

theorem Dev.ringsOnly_refl (d : Dev) : d.ringsOnly d := rfl
theorem Dev.ringsOnly_modSq (d : Dev) (q : Nat) (g : Sq → Sq) : d.ringsOnly (d.modSq q g) := rfl
theorem Dev.ringsOnly_modCq (d : Dev) (q : Nat) (g : Cq → Cq) : d.ringsOnly (d.modCq q g) := rfl
theorem Dev.ringsOnly_fset (d : Dev) (pg : PageId) (f : Fld) (v : Nat) : d.ringsOnly (d.fset pg f v) := rfl

theorem Dev.ringsOnly_dropCpl (d : Dev) (q : Nat) (c : Cpl) : d.ringsOnly (d.dropCpl q c) := by
  simp only [Dev.dropCpl, Dev.ringEvt, Dev.ev_eq, Dev.bump_eq]
  exact (((Dev.ringsOnly_modSq ..).trans (Dev.ringsOnly_fset ..)).trans (Dev.ringsOnly_fset ..)).trans (Dev.ringsOnly_fset ..)

theorem Dev.ringsOnly_cqDisable (d : Dev) (q : Nat) : d.ringsOnly (d.cqDisable q) :=
  Dev.ringsOnly_foldl (fun x c => Dev.ringsOnly_dropCpl x q c) _ (Dev.ringsOnly_modCq ..)

theorem Dev.ringsOnly_disableRings (d : Dev) (fs fc : Nat → Nat → Bool) : d.ringsOnly (d.disableRings fs fc) :=
  Dev.ringsOnly_foldl Dev.ringsOnly_cqDisable _ (Dev.ringsOnly_foldl (fun x q => Dev.ringsOnly_modSq x q _) _ (Dev.ringsOnly_refl d))

theorem Dev.func_modFunc_vectors (d : Dev) (f : Nat) (g : Func → Func) (m p : SMap Bool) :
    ({ d.modFunc f g with vecMasked := m, vecPending := p } : Dev).func f = g (d.func f) := Dev.func_modFunc_same d f g

/-- A Function Level Reset behind the disabling of its rings (R287). -/
theorem Dev.flr_effect (d : Dev) (f : Nat) : (d.flr f).func f = {} ∧
    { d.flr f with regs := d.regs, funcs := d.funcs, sqs := d.sqs, cqs := d.cqs, vecMasked := d.vecMasked, vecPending := d.vecPending,
                   endpts := d.endpts } = d ∧
    (f % 64 ≠ 0 → (d.flr f).endpts = d.endpts) ∧
    ∀ v < 2048, mget (fun _ => true) (d.flr f).vecMasked (2048 * f + v) = true := by
  have hr := Dev.ringsOnly_disableRings d (fun _ g => g == f) (fun _ g => g == f)
  rw [Dev.flr]
  generalize d.disableRings (fun _ g => g == f) (fun _ g => g == f) = e at hr
  have hrest : { e with regs := d.regs, sqs := d.sqs, cqs := d.cqs } = d := hr
  have hframe := congrArg (fun x : Dev => { x with funcs := d.funcs, vecMasked := d.vecMasked, vecPending := d.vecPending,
                                                    endpts := d.endpts }) hrest
  have hends := congrArg Dev.endpts hrest
  have hmask (v : Nat) (hv : v < 2048) : mget (fun _ => true) (e.vecMasked.filter (fun p => p.1 / 2048 != f)) (2048 * f + v) = true := by
    rw [mget_filter_key (fun _ => true) (fun k => k / 2048 != f), if_neg]
    have hdiv : (2048 * f + v) / 2048 = f := by omega
    rw [hdiv, bne_self_eq_false]
    exact Bool.false_ne_true
  by_cases h : f % 64 = 0
  · rw [if_pos h]
    exact ⟨Dev.func_modFunc_vectors .., hframe, fun hc => absurd h hc, hmask⟩
  · rw [if_neg h]
    exact ⟨Dev.func_modFunc_vectors .., hframe, fun _ => hends, hmask⟩

theorem Dev.vfEnable_effect (d : Dev) (e : Nat) : ((d.vfEnable e).ep e).vfOn = true ∧
    ((d.vfEnable e).fget (pgMsix e) Reg.MSIX.VF_VECTORS = 2 ^ min 5 (d.fget (pgMsix e) Reg.MSIX.K) ∧
      (d.vfEnable e).fget (pgMsix e) Reg.MSIX.PF_VECTORS = 2048 - 63 * 2 ^ min 5 (d.fget (pgMsix e) Reg.MSIX.K)) ∧
    { d.vfEnable e with regs := d.regs, endpts := d.endpts } = d := by
  have hk : min 5 (d.fget (pgMsix e) Reg.MSIX.K) < 6 := by omega
  have hregs := (Dev.regsOnly_fset (d.modEp e (fun x => { x with vfOn := true })) (pgMsix e) Reg.MSIX.VF_VECTORS
    (2 ^ min 5 (d.fget (pgMsix e) Reg.MSIX.K))).trans (Dev.regsOnly_fset _ (pgMsix e) Reg.MSIX.PF_VECTORS
    (2048 - 63 * 2 ^ min 5 (d.fget (pgMsix e) Reg.MSIX.K)))
  unfold Dev.regsOnly at hregs
  refine ⟨?_, ⟨?_, ?_⟩, congrArg (fun x : Dev => { x with endpts := d.endpts }) hregs⟩
  · exact congrArg Endpt.vfOn (Dev.ep_modEp_same d e (fun x => { x with vfOn := true }))
  · refine (Dev.fget_fset_slot _ _ _ _ (by decide)).trans ((Dev.fget_fset_same ..).trans ?_)
    generalize min 5 (d.fget (pgMsix e) Reg.MSIX.K) = k at hk
    interval_cases k <;> rfl
  · refine (Dev.fget_fset_same ..).trans ?_
    generalize min 5 (d.fget (pgMsix e) Reg.MSIX.K) = k at hk
    interval_cases k <;> rfl

section unmask

variable {d : Dev} {f v : Nat}

theorem Dev.unmask_of_beyond (h : d.vectorsOf f ≤ v) : d.unmask f v = d := by
  simp only [Dev.unmask, if_pos h]

/-- The vector unmasked, its pending bit clear. -/
def Dev.unmasked (d : Dev) (k : Nat) : Dev :=
  { d with vecMasked := mset (fun _ => true) d.vecMasked k false, vecPending := mset (fun _ => false) d.vecPending k false }

theorem Dev.unmasked_bits (d : Dev) (k : Nat) : mget (fun _ => true) (d.unmasked k).vecMasked k = false ∧
    mget (fun _ => false) (d.unmasked k).vecPending k = false := by
  rw [Dev.unmasked]
  exact ⟨mget_mset_same (fun _ => true) d.vecMasked k false, mget_mset_same (fun _ => false) d.vecPending k false⟩

theorem Dev.unmask_of_idle (h : v < d.vectorsOf f) (hp : mget (fun _ => false) d.vecPending (2048 * f + v) = false) :
    d.unmask f v = d.unmasked (2048 * f + v) := by
  simp only [Dev.unmask, if_neg (Nat.not_le.mpr h), hp, Bool.false_eq_true, if_false, Dev.unmasked]

theorem Dev.unmask_of_pending (h : v < d.vectorsOf f) (hp : mget (fun _ => false) d.vecPending (2048 * f + v) = true) :
    d.unmask f v = ((d.unmasked (2048 * f + v)).issue f (.msix f v)).bump (pgMsix (funcEp f)) Reg.MSIX.MSGS 1 := by
  simp only [Dev.unmask, if_neg (Nat.not_le.mpr h), hp, if_true, Dev.unmasked]

theorem Dev.moved_keeps (d : Dev) (f k : Nat) (w : Bool) : (d.moved f k w).vecMasked = d.vecMasked ∧ (d.moved f k w).vecPending = d.vecPending ∧
    (d.moved f k w).out = d.out ∧ (d.moved f k w).funcs = d.funcs := by
  simp only [Dev.moved]
  split <;> exact ⟨rfl, rfl, rfl, rfl⟩

/-- A message issued leaves the vectors' bits; with Bus Master Enable it goes out (R279). -/
theorem Dev.issue_msix (d : Dev) (f v : Nat) : (d.issue f (.msix f v)).vecMasked = d.vecMasked ∧
    (d.issue f (.msix f v)).vecPending = d.vecPending ∧
    ((d.func f).bme = true → (d.issue f (.msix f v)).out = .msix f v :: d.out) := by
  obtain ⟨hmask, hpend, hout, hfuncs⟩ := Dev.moved_keeps d f 4 true
  have hfunc : (d.moved f 4 true).func f = d.func f := by rw [Dev.func, hfuncs, Dev.func]
  simp only [Dev.issue, Out.dma, Out.pieces, hfunc]
  cases hb : (d.func f).bme with
  | true => exact ⟨hmask, hpend, fun _ => congrArg (Out.msix f v :: ·) hout⟩
  | false => exact ⟨hmask, hpend, fun h => by cases h⟩

end unmask

end function

end Sys2Proof.Machine
end

section
/-! The statement about endpoints and functions. -/

namespace Sys2Proof.Proofs

open Sys2Proof.Machine

/-- Settles O38: the link and PERST, configuration requests, and each function's reset, enables and unmasking. -/
theorem endpointsAndFunctions : Obligations.EndpointsAndFunctions := by
  refine ⟨fun s e => ⟨fun w v hp hr hm => .of_onDev (exec_linkUp e w v s) ?_, fun w v h => ?_, fun h => ?_, fun h => ?_, fun hp hw hr => ?_,
      fun hp hw => ?_, fun hp => ⟨?_, ?_⟩, fun hp => .of_onDev (exec_perstRelease e s) ?_,
      fun f ctl h => .of_onDev (exec_configurationRequest e ⟨f, ctl⟩ s) ?_, fun f ctl h => ?_⟩,
    fun s e f => ⟨.of_onDev (exec_functionLevelReset e f s) ?_, ?_, .of_onDev (exec_vfEnable e s) ?_, fun v h => ?_,
      fun v h => .of_onDev (exec_vectorUnmask e f v s) ?_⟩⟩
  · rw [State.modDev_dev, Dev.linkActive_of_present hp hr hm]
    obtain ⟨h1, h2, h3, h4⟩ := Dev.linkUp_fields s.dev e w v
    refine ⟨h1, h2, h3, h4, ?_⟩
    rw [State.modDev, Dev.linkActive_of_present hp hr hm]
    exact congrArg (fun d => { s with dev := d }) (Dev.linkUp_frame s.dev e w v)
  · exact (exec_linkUp e w v s).trans (State.onDev_of_eq (f := fun d => d.linkActive e w v) (Dev.linkActive_of_not h))
  · exact (exec_linkDown e s).trans (State.onAll_of_eq (g := fun d =>
      (((d.fset (pgPcie e) Reg.PCIE.LINK_UP 0).fset (pgPcie e) Reg.PCIE.WIDTH 0).fset (pgPcie e) Reg.PCIE.SPEED 0).hostLoss e 1)
      (Dev.linkLost_of_up h))
  · exact (exec_linkDown e s).trans (State.onAll_of_eq (g := id) (Dev.linkLost_of_down h))
  · exact (exec_perstAssert e s).trans (State.onAll_of_eq
      (g := fun d => ((d.hostLoss e 1).epReset e).modEp e (fun x => { x with perst := true, wasUp := false })) (Dev.perstAssert_of_up hp hw hr))
  · exact (exec_perstAssert e s).trans (State.onAll_of_eq
      (g := fun d => (d.epReset e).modEp e (fun x => { x with perst := true, wasUp := false })) (Dev.perstAssert_of_never_up hp hw))
  · exact (exec_perstAssert e s).trans (State.onAll_of_eq (g := id) (Dev.perstAssert_of_absent hp))
  · exact (exec_perstRelease e s).trans (State.onDev_of_eq (f := fun d => d.perstRelease e) (Dev.perstRelease_of_absent hp))
  · rw [State.modDev, Dev.perstRelease_of_present hp]
    exact ⟨Dev.ep_modEp_same .., rfl⟩
  · obtain ⟨hout, hready, hlate, hctl, hkeep, hframe⟩ := Dev.cfgRequest_effect (f := f.val) (ctl := ctl) h
    exact ⟨hout, hready, hlate, hctl, hkeep, congrArg (fun d => { s with dev := d }) hframe⟩
  · exact (exec_configurationRequest e ⟨f, ctl⟩ s).trans (State.onDev_of_eq (f := fun d => d.cfgRequest e f ctl) (Dev.cfgRequest_of_down h))
  · obtain ⟨hfunc, hframe, hep, hmask⟩ := Dev.flr_effect s.dev (funcOf e f)
    refine ⟨hfunc, hframe, fun hf => hep ?_, fun _ => hmask⟩
    rw [funcOf]
    omega
  · exact (exec_busMasterEnable e f s).trans (State.onAll_of_eq (Dev.busMaster_eq s.dev (funcOf e f)))
  · obtain ⟨hon, hvec, hframe⟩ := Dev.vfEnable_effect s.dev e
    refine ⟨hon, fun k hk => ?_, congrArg (fun d => { s with dev := d }) hframe⟩
    rw [hk]
    exact hvec
  · exact (exec_vectorUnmask e f v s).trans (State.onDev_of_eq (f := fun d => d.unmask (funcOf e f) v) (Dev.unmask_of_beyond h))
  · rw [State.modDev]
    cases hp : mget (fun _ => false) s.dev.vecPending (2048 * funcOf e f + v) with
    | false =>
      rw [Dev.unmask_of_idle h hp]
      obtain ⟨hmask, hpend⟩ := Dev.unmasked_bits s.dev (2048 * funcOf e f + v)
      exact ⟨hmask, hpend, (by rintro ⟨⟩), fun _ => rfl⟩
    | true =>
      rw [Dev.unmask_of_pending h hp]
      obtain ⟨hmask, hpend, hout⟩ := Dev.issue_msix (s.dev.unmasked (2048 * funcOf e f + v)) (funcOf e f) v
      obtain ⟨hclear, hidle⟩ := Dev.unmasked_bits s.dev (2048 * funcOf e f + v)
      exact ⟨(congrArg (mget _ · _) hmask).trans hclear, (congrArg (mget _ · _) hpend).trans hidle, fun _ hb => hout hb, (by rintro ⟨⟩)⟩

end Sys2Proof.Proofs
end

section
/-! Fetch turns and their ends (R289), the messages' timer (R295), and transfers that fail (R280). -/

namespace Sys2Proof.Machine

theorem exec_fetchTurn (q : Fin 4096) (s : State) : exec (.fetchTurn q) s = s.onDev (fun d => d.fetchTurn q) := rfl

theorem exec_fetchComplete (q : Fin 4096) (bad : Nat) (s : State) :
    exec (.fetchComplete q bad) s = s.onDev (fun d => d.fetchComplete q bad) := rfl

theorem exec_aggTimerExpiry (q : Fin 4096) (s : State) : exec (.aggTimerExpiry q) s = s.onDev (fun d => d.aggExpiry q) := rfl

theorem exec_completionTimeout (i : Fin 4) (x : XferOwner) (s : State) :
    exec (.completionTimeout i x) s = s.onAll (fun d => (d.dmaFails i Reg.DMA.CPL_TIMEOUT).ownerFails x) := rfl

theorem exec_errorCompletion (i : Fin 4) (x : XferOwner) (c : CplError) (s : State) :
    exec (.errorCompletion i x c) s = s.onAll (fun d => (d.errorCompletion i c).ownerFails x) := rfl

theorem burstEff_le (b : Nat) : burstEff b ≤ 8 := by
  rw [burstEff]
  split <;> omega

theorem Sq.turnSize_le (x : Sq) : x.turnSize ≤ 8 ∧ x.turnSize ≤ x.credits ∧ x.turnSize ≤ x.pending - x.inTurns ∧
    x.turnSize ≤ ringEntries x.size - (x.head + x.inTurns) % ringEntries x.size := by
  have hb := burstEff_le x.burst
  simp only [Sq.turnSize]
  split
  · exact ⟨Nat.zero_le _, Nat.zero_le _, Nat.zero_le _, Nat.zero_le _⟩
  · omega

/-- The ring whose turn it is may have one (R289). -/
theorem Dev.fetchable_of_nextRing {d : Dev} {e q : Nat} (h : d.nextRing e = some q) : d.fetchable q = true := by
  have hmem : q ∈ ((d.sqs.filter (fun p => funcEp p.2.func == e)).map (·.1)).filter d.fetchable := by
    simp only [Dev.nextRing] at h
    rcases Option.or_eq_some_iff.mp h with h | ⟨-, h⟩
    · split at h
      · cases h
      · exact List.mem_of_find?_eq_some h
    · exact List.mem_of_mem_head? h
  exact (List.mem_filter.mp hmem).2

theorem Dev.bme_of_fetchable {d : Dev} {q : Nat} (h : d.fetchable q = true) : (d.func (d.sq q).func).bme = true := by
  simp only [Dev.fetchable, Bool.and_eq_true] at h
  obtain ⟨⟨-, hbme⟩, -⟩ := h
  exact hbme

/-- Whatever waits for DMA, a move leaves the rings and the endpoints (R303). -/
theorem Dev.moved_rings (d : Dev) (f k : Nat) (w : Bool) : (d.moved f k w).sqs = d.sqs ∧ (d.moved f k w).cqs = d.cqs ∧
    (d.moved f k w).endpts = d.endpts := by
  simp only [Dev.moved]
  split <;> exact ⟨rfl, rfl, rfl⟩

/-- With Bus Master Enable a transfer goes out at once (R279). -/
theorem Dev.issue_of_master {d : Dev} {f : Nat} (o : Out) (h : (d.func f).bme = true) :
    (d.issue f o).out = (o.pieces (d.ep (funcEp f)).ctl).reverse ++ d.out ∧ (d.issue f o).sqs = d.sqs ∧ (d.issue f o).cqs = d.cqs ∧
    (d.issue f o).endpts = d.endpts := by
  obtain ⟨-, -, hout, hfuncs⟩ := Dev.moved_keeps d f o.dma.1 o.dma.2
  obtain ⟨hsqs, hcqs, hends⟩ := Dev.moved_rings d f o.dma.1 o.dma.2
  have hfunc : (d.moved f o.dma.1 o.dma.2).func f = d.func f := by rw [Dev.func, hfuncs, Dev.func]
  simp only [Dev.issue, hfunc, h, if_true, foldl_emit]
  exact ⟨congrArg (_ ++ ·) hout, hsqs, hcqs, hends⟩

section turn

variable {d : Dev} {q : Nat}

theorem Dev.fetchTurn_of_off (h : (d.sq q).size = 0 ∨ (d.sq q).heldNobuf = true) : d.fetchTurn q = d := by
  rcases h with h | h <;> simp [Dev.fetchTurn, h]

section on

variable (hs : (d.sq q).size ≠ 0) (hb : (d.sq q).heldNobuf = false)

include hs hb

theorem Dev.fetchTurn_of_unserved (h : d.sqServed q = false) : d.fetchTurn q = d.ringEvt q Reg.RINGS.RINGS_EVT_MISMATCH := by
  simp [Dev.fetchTurn, hs, hb, h]

variable (h : d.sqServed q = true)

include h

theorem Dev.fetchTurn_of_other (hn : d.nextRing (funcEp (d.sq q).func) ≠ some q) : d.fetchTurn q = d := by
  simp [Dev.fetchTurn, hs, hb, h, hn]

/-- The ring takes its turn: its endpoint notes it, the entries' credits are spent, and their read is issued (R289). -/
theorem Dev.fetchTurn_of_turn (hn : d.nextRing (funcEp (d.sq q).func) = some q) (ht : d.turnsOf (funcEp (d.sq q).func) < 16)
    (hr : d.readsOut (funcEp (d.sq q).func) + (readPieces 64 (d.ep (funcEp (d.sq q).func)).ctl.readReq
      ((d.sq q).entryAddr (((d.sq q).head + (d.sq q).inTurns) % ringEntries (d.sq q).size)) (64 * (d.sq q).turnSize)).length ≤
      d.readLimit (funcEp (d.sq q).func)) : d.fetchTurn q =
    ((d.modEp (funcEp (d.sq q).func) (fun x => { x with served := some q })).modSq q
      (fun s => { s with credits := s.credits - (d.sq q).turnSize, turns := s.turns ++ [(d.sq q).turnSize] })).issue (d.sq q).func
      (.fetchRead (d.sq q).func ((d.sq q).entryAddr (((d.sq q).head + (d.sq q).inTurns) % ringEntries (d.sq q).size)) (64 * (d.sq q).turnSize)) := by
  simp only [Dev.fetchTurn, hs, hb, h, hn, Nat.not_le.mpr ht, Nat.not_lt.mpr hr, Bool.or_self, decide_false, Bool.false_eq_true, if_false,
    bne_self_eq_false, Bool.not_true, Dev.modEp]

end on

theorem Dev.fetchComplete_of_none (bad : Nat) (h : (d.sq q).turns = []) : d.fetchComplete q bad = d := by
  rw [Dev.fetchComplete]
  dsimp only
  split
  · rfl
  · next k r hk => cases h.symm.trans hk

/-- The ring after a turn's end with every entry read (R289). -/
def Sq.fetched (s : Sq) (k : Nat) (r : List Nat) : Sq :=
  { s with turns := r, head := if s.size = 0 then s.head else (s.head + k) % ringEntries s.size, outstanding := s.outstanding + k }

theorem Dev.ringsRegs_of_regsOnly {d x e : Dev} (hx : { x with sqs := d.sqs } = d) (he : x.regsOnly e) :
    { e with sqs := d.sqs, regs := d.regs } = d := by
  unfold Dev.regsOnly at he
  have he' := congrArg (fun y : Dev => { y with sqs := d.sqs, regs := d.regs }) he
  have hx' := congrArg (fun y : Dev => { y with regs := d.regs }) hx
  exact he'.trans hx'

theorem Dev.fetchComplete_of_turn {k : Nat} {r : List Nat} (h : (d.sq q).turns = k :: r) :
    ((d.fetchComplete q 0).sq q = (d.sq q).fetched k r) ∧ (∀ x, x ≠ q → (d.fetchComplete q 0).sq x = d.sq x) ∧
    (d.fetchComplete q 0).fget (pgRings q) Reg.RINGS.FETCHED = satAdd (2 ^ Reg.RINGS.FETCHED.w - 1) (d.fget (pgRings q) Reg.RINGS.FETCHED) k ∧
    { d.fetchComplete q 0 with sqs := d.sqs, regs := d.regs } = d := by
  rw [Dev.fetchComplete]
  dsimp only
  split
  · next hk => cases h.symm.trans hk
  next k' r' hk =>
    obtain ⟨rfl, rfl⟩ := List.cons.inj (h.symm.trans hk)
    refine ⟨?_, fun x hx => ?_, ?_, ?_⟩
    · simp only [Dev.bump_eq, Dev.sq_fset, Dev.sq_modSq_same, Sq.fetched, Nat.zero_min, Nat.sub_zero, Nat.add_zero,
        Nat.min_eq_left (Nat.le_max_left _ _)]
    · simp only [Dev.bump_eq, Dev.sq_fset, Dev.sq_modSq, if_neg hx.symm]
    · rw [Nat.zero_min, Nat.sub_zero]
      exact (Dev.fget_bump_slot _ _ _ _ (by decide)).trans (Dev.fget_bump_same ..)
    · generalize hx : (d.modSq q _).modSq q _ = x
      have hq : { x with sqs := d.sqs } = d := by rw [← hx]; rfl
      have hregs := (Dev.regsOnly_bump x (pgRings q) Reg.RINGS.FETCHED (k - min 0 k)).trans (Dev.regsOnly_bump _ (pgRings q) Reg.HEADER.UNITS (k - min 0 k))
      exact Dev.ringsRegs_of_regsOnly hq hregs

/-- The aggregated message of a ring is due: its count is 0, and it is sent (R294, R295). -/
theorem Dev.aggExpiry_of_none (h : (d.cq q).pendingMsg = 0 ∨ (d.cq q).irqEn = false) : d.aggExpiry q = d := by
  rcases h with h | h <;> simp [Dev.aggExpiry, h]

theorem Dev.aggExpiry_of_pending (hp : (d.cq q).pendingMsg ≠ 0) (hi : (d.cq q).irqEn = true) :
    d.aggExpiry q = (d.modCq q (fun x => { x with pendingMsg := 0 })).sendMsg q := by
  simp [Dev.aggExpiry, hp, hi]

/-- A message of a vector unmasked goes out (R294). -/
theorem Dev.sendMsg_of_open (hv : (d.cq q).vector < d.vectorsOf (d.cq q).func)
    (hm : mget (fun _ => true) d.vecMasked (2048 * (d.cq q).func + (d.cq q).vector) = false) :
    d.sendMsg q = (d.issue (d.cq q).func (.msix (d.cq q).func (d.cq q).vector)).bump (pgMsix (funcEp (d.cq q).func)) Reg.MSIX.MSGS 1 := by
  simp only [Dev.sendMsg, if_neg (Nat.not_le.mpr hv), hm, Bool.false_eq_true, if_false]

end turn

section fails

variable {d : Dev} {i : Nat} {f : Fld}

theorem Dev.dmaFails_eq (d : Dev) (i : Nat) (f : Fld) : d.dmaFails i f =
    (((d.bump (pgDma i) Reg.DMA.FAILED 1).fset (pgDma i) f 1).fset (pgPcie (i / 2)) Reg.PCIE.UNCORR 1).bump (pgPcie (i / 2)) Reg.PCIE.UNCORR_ERRS 1 := rfl

theorem Dev.sq_dmaFails (d : Dev) (i : Nat) (f : Fld) (q : Nat) : (d.dmaFails i f).sq q = d.sq q := rfl

theorem Dev.sp_dmaFails (d : Dev) (i : Nat) (f : Fld) (n : Nat) : (d.dmaFails i f).sp n = d.sp n := rfl

/-- A failed read of a ring without a turn in flight ends nothing more (R280). -/
theorem Dev.ownerFails_entry_of_none {q : Fin 4096} (h : (d.sq q).turns = []) : d.ownerFails (.entry q) = d :=
  Dev.fetchComplete_of_none 1 h

section command

variable {n : Nat} {j : Job} (hj : (d.sp n).cur = some j)

theorem Dev.transferFails_of_none (h : (d.sp n).cur = none) : d.transferFails n = d := by
  simp only [Dev.transferFails, h]

include hj

theorem Dev.transferFails_of_write {m w r} (h : j.op = .write m w r) : d.transferFails n = d.landFails n stHostMemory := by
  simp only [Dev.transferFails, hj, h]

theorem Dev.transferFails_of_read {m} (h : j.op = .read m) : d.transferFails n = d.readStops n stHostMemory := by
  simp only [Dev.transferFails, hj, h]

theorem Dev.transferFails_of_sheetRead {x y z} (h : j.op = .sheetRead x y z) : d.transferFails n = d.finish n stHostMemory 0 (hdrLen j.hdr) 0 := by
  simp only [Dev.transferFails, hj, h]

end command

end fails

end Sys2Proof.Machine
end

section
/-! The statement about fetches and failed transfers. -/

namespace Sys2Proof.Proofs

open Sys2Proof.Machine

/-- Settles O39: fetch turns and their ends, the messages' timer, and transfers that fail. -/
theorem fetchesAndFailedTransfers : Obligations.FetchesAndFailedTransfers := by
  refine ⟨Sq.turnSize_le, fun d e q => Dev.fetchable_of_nextRing, fun s q => ⟨fun h => ?_, fun hs hb h => .of_onDev (exec_fetchTurn q s) ?_,
      fun hs hb h hn => ?_, fun x k a e l hx hk ha he hl hs hb h hn ht hr => .of_onDev (exec_fetchTurn q s) ?_, fun bad h => ?_,
      fun k r h hs => .of_onDev (exec_fetchComplete q 0 s) ?_, fun h => ?_, fun hp hi hv hm hb => .of_onDev (exec_aggTimerExpiry q s) ?_⟩,
    fun s i => ⟨fun q k r _ => ⟨rfl, rfl⟩, fun q h => ⟨?_, ?_, ?_⟩,
      fun n e he => .of_onAll (exec_completionTimeout i (.spoke n) s) ?_, fun q h => ?_⟩⟩
  · exact (exec_fetchTurn q s).trans (State.onDev_of_eq (f := fun d => d.fetchTurn q) (Dev.fetchTurn_of_off h))
  · rw [State.modDev, Dev.fetchTurn_of_unserved hs hb h]
    refine ⟨(Dev.fget_fset_slot _ _ _ _ (by decide)).trans (Dev.fget_fset_same ..), rfl⟩
  · exact (exec_fetchTurn q s).trans (State.onDev_of_eq (f := fun d => d.fetchTurn q) (Dev.fetchTurn_of_other hs hb h hn))
  · subst hx hk ha he hl
    have hf := Dev.fetchable_of_nextRing hn
    rw [State.modDev_dev, Dev.fetchTurn_of_turn hs hb h hn ht hr]
    generalize hx : ((s.dev.modEp _ _).modSq _ _) = x
    have hbme : (x.func (s.dev.sq q).func).bme = true := by
      rw [← hx, Dev.func_modSq, Dev.func_modEp]
      exact Dev.bme_of_fetchable hf
    obtain ⟨hout, hsqs, -, hends⟩ := Dev.issue_of_master (.fetchRead (s.dev.sq q).func ((s.dev.sq q).entryAddr
      (((s.dev.sq q).head + (s.dev.sq q).inTurns) % ringEntries (s.dev.sq q).size)) (64 * (s.dev.sq q).turnSize)) hbme
    have hxe : x.ep (funcEp (s.dev.sq q).func) = { s.dev.ep (funcEp (s.dev.sq q).func) with served := some q.val } := by
      rw [← hx, Dev.ep_modSq, Dev.ep_modEp_same]
    have hring (r : Nat) : (x.issue (s.dev.sq q).func _).sq r = x.sq r := congrArg (mget _ · r) hsqs
    have hend := congrArg (mget (fun _ => ({} : Endpt)) · (funcEp (s.dev.sq q).func)) hends
    refine ⟨(hring _).trans ?_, fun r hne => (hring r).trans ?_, (congrArg Endpt.served hend).trans ?_, hout.trans ?_⟩
    · rw [← hx, Dev.sq_modSq_same, Dev.sq_modEp]
    · rw [← hx, Dev.sq_modSq, if_neg hne.symm, Dev.sq_modEp]
    · exact congrArg Endpt.served hxe
    · rw [hxe, ← hx]
      rfl
  · exact (exec_fetchComplete q bad s).trans (State.onDev_of_eq (f := fun d => d.fetchComplete q bad) (Dev.fetchComplete_of_none bad h))
  · obtain ⟨hq, hother, hcount, hframe⟩ := Dev.fetchComplete_of_turn h
    rw [Sq.fetched, if_neg hs] at hq
    rw [State.modDev, hq]
    exact ⟨rfl, rfl, rfl, hcount, hother, congrArg (fun d => { s with dev := d }) hframe⟩
  · exact (exec_aggTimerExpiry q s).trans (State.onDev_of_eq (f := fun d => d.aggExpiry q) (Dev.aggExpiry_of_none h))
  · rw [State.modDev_dev, Dev.aggExpiry_of_pending hp hi]
    generalize hx : s.dev.modCq q _ = x
    have hxq : x.cq q = { s.dev.cq q with pendingMsg := 0 } := by rw [← hx, Dev.cq_modCq_same]
    have hopen := Dev.sendMsg_of_open (d := x) (q := q) (by rw [hxq, ← hx]; exact hv) (by rw [hxq, ← hx]; exact hm)
    obtain ⟨hout, -, hcqs, -⟩ := Dev.issue_of_master (d := x) (f := (x.cq q).func) (.msix (x.cq q).func (x.cq q).vector) (by rw [hxq, ← hx]; exact hb)
    rw [hopen]
    refine ⟨(congrArg (mget _ · _) hcqs).trans hxq, hout.trans ?_⟩
    rw [hxq, ← hx]
    rfl
  · exact (exec_completionTimeout i (.entry q) s).trans (State.onAll_of_eq (Dev.ownerFails_entry_of_none h))
  · exact (exec_errorCompletion i (.entry q) .urCa s).trans (State.onAll_of_eq (Dev.ownerFails_entry_of_none h))
  · exact (exec_errorCompletion i (.entry q) .poisoned s).trans (State.onAll_of_eq (Dev.ownerFails_entry_of_none h))
  · subst he
    rw [← Dev.sp_dmaFails s.dev i Reg.DMA.CPL_TIMEOUT n]
    exact ⟨Dev.transferFails_of_none, fun j hj => ⟨fun m w r => Dev.transferFails_of_write hj, fun m => Dev.transferFails_of_read hj,
      fun x y z => Dev.transferFails_of_sheetRead hj⟩⟩
  · exact (exec_errorCompletion i (.entry q) .ecrc s).trans (State.onAll_of_eq (Dev.ownerFails_entry_of_none h))

end Sys2Proof.Proofs
end

section
/-! Rings enabled and disabled (R284), their credits (R288), and their doorbells (R285 to R287). -/

namespace Sys2Proof.Machine

theorem exec_ringEnable (a : Accessor) (i : Fin 8) (cq : Bool) (size : Fin 16) (s : State) :
    exec (.ringEnable a i cq size) s = s.writeDev a (pgRings (512 * i)) (fun d => d.ringSize i cq size) := rfl

theorem exec_ringDisable (a : Accessor) (i : Fin 8) (cq : Bool) (s : State) :
    exec (.ringDisable a i cq) s = s.writeDev a (pgRings (512 * i)) (fun d => d.ringSize i cq 0) := rfl

theorem exec_sqCreditWrite (a : Accessor) (i : Fin 8) (v : Nat) (s : State) :
    exec (.sqCreditWrite a i v) s = s.writeDev a (pgRings (512 * i)) (fun d => d.creditWrite (d.ringSel i) v) := rfl

theorem exec_sqTailDoorbell (e : Fin 2) (f : Fin 64) (q : Fin 4096) (v : Nat) (s : State) :
    exec (.sqTailDoorbell e f q v) s = s.doorbell e f q (fun d => d.sqBell q (funcOf e f) v) := rfl

theorem exec_cqHeadDoorbell (e : Fin 2) (f : Fin 64) (q : Fin 4096) (v : Nat) (s : State) :
    exec (.cqHeadDoorbell e f q v) s = s.doorbell e f q (fun d => d.cqBell q (funcOf e f) v) := rfl

section size

variable {d : Dev} {i q size : Nat} (hq : d.ringSel i = q)

include hq

theorem Dev.ringSize_sqEnable (h : size ≠ 0) (hs : (d.sq q).size = 0) : d.ringSize i false size =
    if (d.sqEnable q size).sqServed q then d.sqEnable q size else (d.sqEnable q size).ringEvt q Reg.RINGS.RINGS_EVT_MISMATCH := by
  simp only [Dev.ringSize, hq, Bool.false_eq_true, if_false, h, hs, if_true]

theorem Dev.ringSize_sq_of_on (h : size ≠ 0) (hs : (d.sq q).size ≠ 0) : d.ringSize i false size = d := by
  simp only [Dev.ringSize, hq, Bool.false_eq_true, if_false, h, hs]

theorem Dev.ringSize_sqDisable : d.ringSize i false 0 = d.modSq q (fun s => { s with size := 0 }) := by
  simp only [Dev.ringSize, hq, Bool.false_eq_true, if_false, if_true, Dev.sqDisable]

theorem Dev.ringSize_cqEnable (h : size ≠ 0) (hs : (d.cq q).size = 0) : d.ringSize i true size = d.cqEnable q size := by
  simp only [Dev.ringSize, hq, if_true, h, if_false, hs]

theorem Dev.ringSize_cq_of_on (h : size ≠ 0) (hs : (d.cq q).size ≠ 0) : d.ringSize i true size = d := by
  simp only [Dev.ringSize, hq, if_true, h, if_false, hs]

theorem Dev.ringSize_cqDisable (hh : (d.cq q).held = []) :
    d.ringSize i true 0 = d.modCq q (fun c => { c with size := 0, held := [], pendingMsg := 0 }) := by
  simp only [Dev.ringSize, hq, if_true, Dev.cqDisable, hh, List.foldl_nil]

end size

theorem Dev.sqServed_ringEvt (d : Dev) (q r : Nat) (f : Fld) : (d.ringEvt q f).sqServed r = d.sqServed r := rfl

/-- A ring's enable: what it latches, the flag of a ring that is not served, and what it leaves (R284, R288). -/
theorem Dev.ringSize_sqEnable_effect {d : Dev} {i q size : Nat} (hq : d.ringSel i = q) (h : size ≠ 0) (hs : (d.sq q).size = 0) :
    (d.ringSize i false size).sqs = (d.sqEnable q size).sqs ∧
    ((d.ringSize i false size).sqServed q = false → (d.ringSize i false size).fget (pgRings q) Reg.RINGS.RINGS_EVT_MISMATCH = 1) ∧
    ((d.ringSize i false size).sqServed q = true → (d.ringSize i false size).regs = d.regs) ∧
    { d.ringSize i false size with sqs := d.sqs, regs := d.regs } = d := by
  rw [Dev.ringSize_sqEnable hq h hs]
  cases hserved : (d.sqEnable q size).sqServed q with
  | true =>
    rw [if_pos rfl]
    exact ⟨rfl, fun hc => absurd (hserved.symm.trans hc) (by decide), fun _ => rfl, rfl⟩
  | false =>
    rw [if_neg Bool.false_ne_true, Dev.sqServed_ringEvt, hserved]
    exact ⟨rfl, fun _ => (Dev.fget_fset_slot _ _ _ _ (by decide)).trans (Dev.fget_fset_same ..), (by rintro ⟨⟩), rfl⟩

/-- The credits of a ring whose SQ_CREDIT is written (R288). -/
theorem Dev.sq_creditWrite (d : Dev) (q v : Nat) :
    ((d.sq q).size = 0 → (d.creditWrite q v).sq q = { d.sq q with creditReg := v % 4096 }) ∧
    ((d.sq q).size ≠ 0 → (d.sq q).creditReg ≤ v % 4096 → (d.creditWrite q v).sq q = { d.sq q with
      creditReg := v % 4096, credits := (d.sq q).credits + (min (v % 4096) (ringEntries (d.sq q).size - 1) -
        min (d.sq q).creditReg (ringEntries (d.sq q).size - 1)) }) ∧
    ((d.sq q).size ≠ 0 → v % 4096 < (d.sq q).creditReg → (d.creditWrite q v).sq q = { d.sq q with
      creditReg := v % 4096, credits := min (d.sq q).credits
        (min (v % 4096) (ringEntries (d.sq q).size - 1) - (d.sq q).outstanding - (d.sq q).inTurns) }) := by
  rw [Dev.creditWrite, Dev.sq_modSq_same]
  refine ⟨fun h => ?_, fun h hle => ?_, fun h hlt => ?_⟩
  · simp only [if_pos h]
  · simp only [if_neg h, if_neg (Nat.not_lt.mpr hle)]
  · have hless : min (v % 4096) (ringEntries (d.sq q).size - 1) - min (d.sq q).creditReg (ringEntries (d.sq q).size - 1) = 0 := by omega
    simp only [if_neg h, if_pos hlt, hless, Nat.add_zero]

section bells

variable {d : Dev} {q f v : Nat}

/-- A submission ring after a write of its doorbell (R285). -/
def Dev.sqRung (d : Dev) (q v : Nat) : Dev := d.modSq q (fun s => { s with bell := v % 2 ^ 32 })

/-- A completion ring after a write of its doorbell (R285). -/
def Dev.cqRung (d : Dev) (q v : Nat) : Dev := d.modCq q (fun c => { c with bell := v % 2 ^ 32 })

theorem Dev.sqBell_of_off (h : (d.sq q).size = 0) : d.sqBell q f v = .done (d.sqRung q v) := by
  simp only [Dev.sqBell, h, if_true, Dev.sqRung]

theorem Dev.cqBell_of_off (h : (d.cq q).size = 0) : d.cqBell q f v = .done (d.cqRung q v) := by
  simp only [Dev.cqBell, h, if_true, Dev.cqRung]

theorem Dev.sqBell_of_other (h : (d.sq q).size ≠ 0) (hf : (d.sq q).func ≠ f) : d.sqBell q f v = .badFunc := by
  simp only [Dev.sqBell, h, if_false, ne_eq, hf, not_false_eq_true, if_true]

theorem Dev.cqBell_of_other (h : (d.cq q).size ≠ 0) (hf : (d.cq q).func ≠ f) : d.cqBell q f v = .badFunc := by
  simp only [Dev.cqBell, h, if_false, ne_eq, hf, not_false_eq_true, if_true]

section own

variable {n : Nat}

theorem Dev.sqBell_of_within (h : (d.sq q).size ≠ 0) (hf : (d.sq q).func = f) (hn : n = ringEntries (d.sq q).size)
    (hle : (v % n + n - (d.sq q).tail) % n ≤ (n - 1) - (d.sq q).pending) :
    d.sqBell q f v = .done ((d.sqRung q v).modSq q (fun s => { s with tail := v % n })) := by
  subst hn
  simp only [Dev.sqBell, h, if_false, ne_eq, hf, not_true, if_neg (Nat.not_lt.mpr hle), Dev.sqRung]

theorem Dev.sqBell_of_beyond (h : (d.sq q).size ≠ 0) (hf : (d.sq q).func = f) (hn : n = ringEntries (d.sq q).size)
    (hlt : (n - 1) - (d.sq q).pending < (v % n + n - (d.sq q).tail) % n) : d.sqBell q f v = .broken := by
  subst hn
  simp only [Dev.sqBell, h, if_false, ne_eq, hf, not_true, if_pos hlt]

theorem Dev.cqBell_of_within (h : (d.cq q).size ≠ 0) (hf : (d.cq q).func = f) (hn : n = ringEntries (d.cq q).size)
    (hh : (d.cq q).held = []) (hle : (v % n + n - (d.cq q).head) % n ≤ (d.cq q).used) :
    d.cqBell q f v = .done ((d.cqRung q v).modCq q (fun c => { c with head := v % n })) := by
  subst hn
  simp only [Dev.cqBell, h, if_false, ne_eq, hf, not_true, if_neg (Nat.not_lt.mpr hle), hh, List.length_nil, Dev.drainCq, Dev.cqRung]

theorem Dev.cqBell_of_beyond (h : (d.cq q).size ≠ 0) (hf : (d.cq q).func = f) (hn : n = ringEntries (d.cq q).size)
    (hlt : (d.cq q).used < (v % n + n - (d.cq q).head) % n) : d.cqBell q f v = .broken := by
  subst hn
  simp only [Dev.cqBell, h, if_false, ne_eq, hf, not_true, if_pos hlt]

end own

end bells

section doorbell

variable {s : State} {e : Fin 2} {f : Fin 64} {q : Fin 4096} {b : Dev → Bell} (hboot : s.dev.fget pgBoot Reg.BOOT.STATE ≠ 2)
  (hdom : s.dev.domainOf (.fn e f) < 2)

include hboot hdom

theorem State.doorbell_of_done {d : Dev} (h : b s.dev = .done d) : s.doorbell e f q b = .next { s with dev := d } := by
  simp only [State.doorbell, if_neg hboot, decide_eq_false (Nat.not_le.mpr hdom), Bool.false_and, Bool.false_eq_true, if_false, h]

theorem State.doorbell_of_broken (h : b s.dev = .broken) : s.doorbell e f q b = .fault .doorbellOutOfRange := by
  simp only [State.doorbell, if_neg hboot, decide_eq_false (Nat.not_le.mpr hdom), Bool.false_and, Bool.false_eq_true, if_false, h]

theorem State.doorbell_of_badFunc (h : b s.dev = .badFunc) :
    s.doorbell e f q b = .next (s.modDev (fun d => (d.errEvent (pgRings q) errProt).followAll)) := by
  simp only [State.doorbell, if_neg hboot, decide_eq_false (Nat.not_le.mpr hdom), Bool.false_and, Bool.false_eq_true, if_false, h,
    if_neg (Nat.not_le.mpr hdom)]

end doorbell

end Sys2Proof.Machine
end

section
/-! The statement about rings and doorbells. -/

namespace Sys2Proof.Proofs

open Sys2Proof.Machine

/-- Settles O40: the rings' enables and disables, their credits, and their doorbells. -/
theorem ringsAndDoorbells : Obligations.RingsAndDoorbells := by
  refine ⟨fun s a i q ho hq => ⟨fun size h hs => .of_writeDev (exec_ringEnable a i false size s) ho ?_,
      fun size h hs => .of_writeDev (exec_ringEnable a i true size s) ho ?_, fun size h hs => ?_, fun size h hs => ?_,
      .of_writeDev (exec_ringDisable a i false s) ho ?_, fun hh => .of_writeDev (exec_ringDisable a i true s) ho ?_,
      fun v => .of_writeDev (exec_sqCreditWrite a i v s) ho ?_⟩,
    fun s e f q v hboot hdom => ⟨fun h => ?_, fun h hf n hn => ⟨fun hle => ?_, fun hlt => ?_⟩, fun h hf => ?_, fun h => ?_,
      fun h hf n hn => ⟨fun hh hle => ?_, fun hlt => ?_⟩, fun h hf => ?_⟩⟩
  · obtain ⟨hsqs, hflag, hregs, hframe⟩ := Dev.ringSize_sqEnable_effect hq h hs
    rw [State.modDev]
    refine ⟨(congrArg (mget _ · q) hsqs).trans (Dev.sq_modSq_same ..), fun r hr => (congrArg (mget _ · r) hsqs).trans ?_, hflag, hregs,
      congrArg (fun d => { s with dev := d }) hframe⟩
    exact (Dev.sq_modSq ..).trans (if_neg hr.symm)
  · rw [State.modDev, Dev.ringSize_cqEnable hq h hs]
    exact ⟨Dev.cq_modCq_same .., fun r hr => (Dev.cq_modCq ..).trans (if_neg hr.symm), rfl⟩
  · exact (exec_ringEnable a i false size s).trans (State.writeDev_of_eq (g := id) ho (Dev.ringSize_sq_of_on hq h hs))
  · exact (exec_ringEnable a i true size s).trans (State.writeDev_of_eq (g := id) ho (Dev.ringSize_cq_of_on hq h hs))
  · rw [State.modDev, Dev.ringSize_sqDisable hq]
    exact ⟨Dev.sq_modSq_same .., fun r hr => (Dev.sq_modSq ..).trans (if_neg hr.symm), rfl⟩
  · rw [State.modDev, Dev.ringSize_cqDisable hq hh]
    refine ⟨(Dev.cq_modCq_same ..).trans ?_, fun r hr => (Dev.cq_modCq ..).trans (if_neg hr.symm), rfl⟩
    exact congrArg (fun l => { s.dev.cq q with size := 0, pendingMsg := 0, held := l }) hh.symm
  · subst hq
    obtain ⟨hoff, hraise, hlower⟩ := Dev.sq_creditWrite s.dev (s.dev.ringSel i) v
    exact ⟨hoff, hraise, hlower, fun r hr => (Dev.sq_modSq ..).trans (if_neg hr.symm), rfl⟩
  · exact ⟨_, (exec_sqTailDoorbell e f q v s).trans (State.doorbell_of_done hboot hdom (Dev.sqBell_of_off h)), Dev.sq_modSq_same .., rfl⟩
  · refine ⟨_, (exec_sqTailDoorbell e f q v s).trans (State.doorbell_of_done hboot hdom (Dev.sqBell_of_within h hf hn hle)), ?_, fun r hr => ?_, rfl⟩
    · exact (Dev.sq_modSq_same ..).trans (congrArg (fun x : Sq => { x with tail := v % n }) (Dev.sq_modSq_same ..))
    · exact (Dev.sq_modSq ..).trans ((if_neg hr.symm).trans ((Dev.sq_modSq ..).trans (if_neg hr.symm)))
  · exact (exec_sqTailDoorbell e f q v s).trans (State.doorbell_of_broken hboot hdom (Dev.sqBell_of_beyond h hf hn hlt))
  · exact (exec_sqTailDoorbell e f q v s).trans (State.doorbell_of_badFunc hboot hdom (Dev.sqBell_of_other h hf))
  · exact ⟨_, (exec_cqHeadDoorbell e f q v s).trans (State.doorbell_of_done hboot hdom (Dev.cqBell_of_off h)), Dev.cq_modCq_same .., rfl⟩
  · refine ⟨_, (exec_cqHeadDoorbell e f q v s).trans (State.doorbell_of_done hboot hdom (Dev.cqBell_of_within h hf hn hh hle)), ?_, fun r hr => ?_, rfl⟩
    · exact (Dev.cq_modCq_same ..).trans (congrArg (fun x : Cq => { x with head := v % n }) (Dev.cq_modCq_same ..))
    · exact (Dev.cq_modCq ..).trans ((if_neg hr.symm).trans ((Dev.cq_modCq ..).trans (if_neg hr.symm)))
  · exact (exec_cqHeadDoorbell e f q v s).trans (State.doorbell_of_broken hboot hdom (Dev.cqBell_of_beyond h hf hn hlt))
  · exact (exec_cqHeadDoorbell e f q v s).trans (State.doorbell_of_badFunc hboot hdom (Dev.cqBell_of_other h hf))

end Sys2Proof.Proofs
end

section
/-! Heartbeats and their misses (R296, R297), and the end of a hold (R412). -/

namespace Sys2Proof.Machine

theorem exec_heartbeat (a : Accessor) (e : Fin 2) (v : Nat) (s : State) :
    exec (.heartbeat a e v) s = s.writeDev a (pgPcie e) (fun d => d.hbWrite a e v) := rfl

theorem exec_hbWindowWrite (a : Accessor) (e : Fin 2) (v : Nat) (s : State) :
    exec (.hbWindowWrite a e v) s = s.writeDev a (pgPcie e) (fun d => d.hbWindow e v) := rfl

theorem exec_heartbeatMiss (e : Fin 2) (s : State) : exec (.heartbeatMiss e) s = s.onAll (fun d => d.heartbeatMiss e) := rfl

theorem exec_holdUnloadTimeout (n : Fin 8) (s : State) : exec (.holdUnloadTimeout n) s = s.onDev (fun d => d.holdUnload n) := rfl

section beat

variable {d : Dev} {e v : Nat}

/-- A beat stored, with the window that runs from it (R296). -/
def Dev.beaten (d : Dev) (e v : Nat) : Dev := (d.fset (pgPcie e) Reg.PCIE.VALUE v).modEp e (fun x => { x with
  beat := (if d.fget (pgPcie e) Reg.PCIE.WINDOW = 0 then none else some (d.now, d.fget (pgPcie e) Reg.PCIE.WINDOW)) })

theorem Dev.fget_beaten (f : Fld) (h : Reg.PCIE.VALUE.slot ≠ f.slot) : (d.beaten e v).fget (pgPcie e) f = d.fget (pgPcie e) f :=
  Dev.fget_fset_slot _ _ _ _ h

theorem Dev.fon_beaten (f : Fld) (h : Reg.PCIE.VALUE.slot ≠ f.slot) : (d.beaten e v).fon (pgPcie e) f = d.fon (pgPcie e) f := by
  rw [Dev.fon, Dev.fget_beaten f h, Dev.fon]

theorem Dev.beat_of_value (d : Dev) (e v : Nat) : (d.fset (pgPcie e) Reg.PCIE.VALUE v).beat e =
    if (d.beaten e v).fon (pgPcie e) Reg.PCIE.HOST_LOST && (d.beaten e v).fon (pgPcie e) Reg.PCIE.LINK_UP then
      (((d.beaten e v).fset (pgPcie e) Reg.PCIE.HOST_LOST 0).fset (pgPcie e) Reg.PCIE.TAKEN_OVER 0).fset (pgPcie e) Reg.PCIE.CAUSE 0
    else d.beaten e v := by
  have hw : (d.fset (pgPcie e) Reg.PCIE.VALUE v).fget (pgPcie e) Reg.PCIE.WINDOW = d.fget (pgPcie e) Reg.PCIE.WINDOW :=
    Dev.fget_fset_slot _ _ _ _ (by decide)
  simp only [Dev.beat, Dev.clr_eq, hw]
  rfl

theorem Dev.heartbeat_of_present (h : d.fon (pgPcie e) Reg.PCIE.HOST_LOST = false) : d.heartbeat e v = d.beaten e v := by
  simp only [Dev.heartbeat, h, Bool.false_and, Bool.false_eq_true, if_false, Dev.beat_of_value, Dev.fon_beaten Reg.PCIE.HOST_LOST (by decide)]

theorem Dev.heartbeat_of_lost (h : d.fon (pgPcie e) Reg.PCIE.HOST_LOST = true) (hl : d.fon (pgPcie e) Reg.PCIE.LINK_UP = true) :
    d.heartbeat e v = ((((d.beaten e v).fset (pgPcie e) Reg.PCIE.HOST_LOST 0).fset (pgPcie e) Reg.PCIE.TAKEN_OVER 0).fset
      (pgPcie e) Reg.PCIE.CAUSE 0).hostReturns e := by
  have hfon (x : Dev) : (((x.fset (pgPcie e) Reg.PCIE.HOST_LOST 0).fset (pgPcie e) Reg.PCIE.TAKEN_OVER 0).fset (pgPcie e)
      Reg.PCIE.CAUSE 0).fon (pgPcie e) Reg.PCIE.HOST_LOST = false := by
    rw [Dev.fon, Dev.fget_fset_slot _ _ _ _ (by decide), Dev.fget_fset_slot _ _ _ _ (by decide), Dev.fget_fset_same]
    rfl
  simp only [Dev.heartbeat, Dev.beat_of_value, Dev.fon_beaten Reg.PCIE.HOST_LOST (by decide), Dev.fon_beaten Reg.PCIE.LINK_UP (by decide), h, hl,
    Bool.and_self, if_true, hfon, Bool.not_false]

theorem Dev.hbWrite_of_physical {a : Accessor} (h : a.num = 64 * e) : d.hbWrite a e v = (d.heartbeat e v).followAll := if_pos h

theorem Dev.hbWrite_of_other {a : Accessor} (h : a.num ≠ 64 * e) : d.hbWrite a e v = d.fset (pgPcie e) Reg.PCIE.VALUE v := if_neg h

theorem Dev.hbWindow_of_zero (h : v % 65536 = 0) :
    d.hbWindow e v = (d.fset (pgPcie e) Reg.PCIE.WINDOW v).modEp e (fun x => { x with beat := none }) := if_pos h

theorem Dev.hbWindow_of_window (h : v % 65536 ≠ 0) : d.hbWindow e v = d.fset (pgPcie e) Reg.PCIE.WINDOW v := if_neg h

theorem Dev.hbWindow_regs (d : Dev) (e v : Nat) : (d.hbWindow e v).regs = (d.fset (pgPcie e) Reg.PCIE.WINDOW v).regs ∧
    { d.hbWindow e v with regs := d.regs, endpts := d.endpts } = d := by
  rw [Dev.hbWindow]
  dsimp only
  split <;> exact ⟨rfl, rfl⟩

theorem Dev.heartbeatMiss_of_running (h : (d.ep e).beat ≠ none) :
    d.heartbeatMiss e = (d.modEp e (fun x => { x with beat := none })).hostLoss e 2 := if_pos (Option.isSome_iff_ne_none.mpr h)

theorem Dev.heartbeatMiss_of_idle (h : (d.ep e).beat = none) : d.heartbeatMiss e = d := by
  simp only [Dev.heartbeatMiss, h, Option.isSome_none, Bool.false_eq_true, if_false]

end beat

section hold

variable {d : Dev} {n : Nat}

theorem Dev.holdUnload_of_none (h : bitAt (d.fget pgMgmt Reg.MGMT.HOLDING) n = false ∨ d.fget pgMgmt Reg.MGMT.UNLOAD_MIN = 0) :
    d.holdUnload n = d := by
  rcases h with h | h <;> simp [Dev.holdUnload, h]

theorem Dev.holdUnload_of_hold (h : bitAt (d.fget pgMgmt Reg.MGMT.HOLDING) n = true) (hm : d.fget pgMgmt Reg.MGMT.UNLOAD_MIN ≠ 0) :
    d.holdUnload n = (((d.bitPut pgMgmt Reg.MGMT.HOLDING n false).modSp n (fun s => { s with hostLost := false })).beginUnload n).goOn n := by
  simp [Dev.holdUnload, h, hm]

end hold

end Sys2Proof.Machine
end

section
/-! The statement about heartbeats and holds. -/

namespace Sys2Proof.Proofs

open Sys2Proof.Machine

/-- Settles O41: beats, their windows and misses, and a hold's end. -/
theorem heartbeatsAndHolds : Obligations.HeartbeatsAndHolds := by
  refine fun s a e => ⟨fun ho => ⟨fun v ha hl => ?_, fun v ha hl hup => ?_, fun v ha => .of_writeDev (exec_heartbeat a e v s) ho ?_,
      fun v => .of_writeDev (exec_hbWindowWrite a e v s) ho ?_⟩, fun h => ?_, fun h => ?_, fun n => ⟨fun h => ?_, fun h hm => ?_⟩⟩
  · exact (exec_heartbeat a e v s).trans (State.writeDev_of_eq (g := fun d => (d.beaten e v).followAll) ho
      ((Dev.hbWrite_of_physical ha).trans (congrArg Dev.followAll (Dev.heartbeat_of_present hl))))
  · exact (exec_heartbeat a e v s).trans (State.writeDev_of_eq (g := fun d => (((((d.beaten e v).fset (pgPcie e) Reg.PCIE.HOST_LOST 0).fset
      (pgPcie e) Reg.PCIE.TAKEN_OVER 0).fset (pgPcie e) Reg.PCIE.CAUSE 0).hostReturns e).followAll) ho
      ((Dev.hbWrite_of_physical ha).trans (congrArg Dev.followAll (Dev.heartbeat_of_lost hl hup))))
  · rw [State.modDev, Dev.hbWrite_of_other ha]
    exact ⟨Dev.fget_fset_same .., rfl⟩
  · obtain ⟨hregs, hframe⟩ := Dev.hbWindow_regs s.dev e v
    refine ⟨?_, fun h => ?_, fun h => ?_, congrArg (fun d => { s with dev := d }) hframe⟩
    · have hfield := congrArg (fun r => mget (fldReset (pgPcie e)) (mget (fun _ => []) r (pgPcie e)) Reg.PCIE.WINDOW.slot) hregs
      exact hfield.trans (Dev.fget_fset_same s.dev (pgPcie e) Reg.PCIE.WINDOW v)
    · rw [State.modDev_dev, Dev.hbWindow_of_zero h, Dev.ep_modEp_same]
    · rw [State.modDev_dev, Dev.hbWindow_of_window h, Dev.ep_fset]
  · exact (exec_heartbeatMiss e s).trans (State.onAll_of_eq (g := fun d => (d.modEp e (fun x => { x with beat := none })).hostLoss e 2)
      (Dev.heartbeatMiss_of_running h))
  · exact (exec_heartbeatMiss e s).trans (State.onAll_of_eq (g := id) (Dev.heartbeatMiss_of_idle h))
  · exact (exec_holdUnloadTimeout n s).trans (State.onDev_of_eq (f := fun d => d.holdUnload n) (Dev.holdUnload_of_none h))
  · rw [exec_holdUnloadTimeout]
    exact next_modDev_congr (Dev.holdUnload_of_hold h hm)

end Sys2Proof.Proofs
end

section
/-! A command fetched (R308, R309), and the checks before its effect (R310, R311). -/

namespace Sys2Proof.Machine

section submit

variable {d : Dev} {h : CmdHdr} {op : Op} {data : List Byte}

theorem Dev.submit_of_now (hn : (d.fetched h.sq).startsNow (d.jobOf h op data) = true) :
    d.submit h op data = ((d.fetched h.sq).begin (d.jobOf h op data)).went h.target := if_pos hn

theorem Dev.submit_of_spoke (hn : (d.fetched h.sq).startsNow (d.jobOf h op data) = false) (ht : h.target < 8)
    (hok : (d.jobOf h op data).targetOk = true) :
    d.submit h op data = (d.fetched h.sq).modSp h.target (fun x => { x with waiting := x.waiting ++ [d.jobOf h op data] }) := by
  refine (if_neg (Bool.eq_false_iff.mp hn)).trans (if_pos ?_)
  rw [hok, decide_eq_true ht, Bool.and_self]

theorem Dev.submit_of_module (hn : (d.fetched h.sq).startsNow (d.jobOf h op data) = false)
    (ht : ¬ (h.target < 8 ∧ (d.jobOf h op data).targetOk = true)) :
    d.submit h op data = { d.fetched h.sq with modWaiting := (d.fetched h.sq).modWaiting ++ [d.jobOf h op data] } := by
  refine (if_neg (Bool.eq_false_iff.mp hn)).trans (if_neg ?_)
  rw [Bool.and_eq_true, decide_eq_true_eq]
  exact ht

end submit

section exec

variable {c : Instr} {h : CmdHdr} {op : Op} {data : List Byte} {s : State} (hc : ringCommand c = some (h, op, data))

include hc

theorem exec_of_submit {x : Dev} (hx : s.dev.submit h op data = x) : exec c s = .next (s.modDev (fun _ => x)) :=
  (exec_of_ringCommand hc s).trans (Proofs.next_modDev_congr (f := fun d => d.submit h op data) (g := fun _ => x) hx)

/-- A command that begins as soon as it is fetched leaves what its beginning leaves, and what follows of that (R308). -/
theorem exec_of_begin {x : Dev} (hn : (s.dev.fetched h.sq).startsNow (s.dev.jobOf h op data) = true)
    (hx : (s.dev.fetched h.sq).begin (s.dev.jobOf h op data) = x) : exec c s = .next (s.modDev (fun _ => x.went h.target)) :=
  exec_of_submit hc ((Dev.submit_of_now hn).trans (congrArg (fun y => Dev.went y h.target) hx))

end exec

/-! ### A command begins (R310, R463) -/

section begins

variable {d : Dev} {j : Job}

theorem Dev.ready_of_plain (hc : j.op.carries = false) (hh : j.handles = []) : d.ready j = d := by
  rw [Dev.ready, hc, if_neg Bool.false_ne_true, Dev.strayUse, hh, List.foldl_nil, ite_self]

theorem Dev.ready_of_stray {x : Nat} (hc : j.op.carries = false) (hh : j.handles = [x]) (hok : j.targetOk = true)
    (hx : d.pool.isFree x = true) : d.ready j = d.wildFree x := by
  rw [Dev.ready, hc, if_neg Bool.false_ne_true, Dev.strayUse, hok, if_pos rfl, hh, List.foldl_cons, hx, if_pos rfl, List.foldl_nil]

theorem Dev.begin_of_status {code : Nat} (h : d.check j = .status code) : d.begin j = (d.ready j).complete j code 0 0 := by
  simp only [Dev.begin, h, Dev.ready]

theorem Dev.begin_of_prot {k i : Nat} (h : d.check j = .prot k i) :
    d.begin j = ((d.ready j).cmdViolation j k i).complete j stProtection 0 0 := by
  simp only [Dev.begin, h, Dev.ready]

section ok

variable (h : d.check j = .ok)

include h

theorem Dev.begin_of_check7 {code : Nat} (h7 : (d.ready j).check7 j.hdr.target j = some code) : d.begin j = (d.ready j).complete j code 0 0 := by
  rw [Dev.ready] at h7
  simp only [Dev.begin, h, h7, Dev.ready]

theorem Dev.begin_of_ok (h7 : (d.ready j).check7 j.hdr.target j = none) : d.begin j =
    if j.hdr.target = 8 then (d.ready j).runModule j
    else if j.op.isQuery then (d.ready j).runQuery j.hdr.target j else (d.ready j).takeTurn j.hdr.target j := by
  rw [Dev.ready] at h7
  simp only [Dev.begin, h, h7, Dev.ready]

end ok

end begins

/-! ### The checks (R310, R311, R314, R315) -/

section checks

variable {d : Dev} {j : Job}

theorem Dev.check_of_target (h : j.targetOk = false) : d.check j = .status stInvalidField := by
  simp [Dev.check, h]

section target

variable (h : j.targetOk = true)

include h

theorem Dev.check_of_resource {k i : Nat} (hr : d.resourceFault j = some (k, i)) : d.check j = .prot k i := by
  simp [Dev.check, h, hr]

variable (hr : d.resourceFault j = none) (ht : j.hdr.target < 8)

include hr ht

theorem Dev.check_of_fenced (hf : d.fenced j.hdr.target = true) : d.check j = .status stFenced := by
  simp [Dev.check, h, hr, ht.ne, hf]

variable (hf : d.fenced j.hdr.target = false)

include hf

theorem Dev.check_of_notReady (hop : j.op.isTape = true) (hc : d.cartState j.hdr.target ≠ 3) : d.check j = .status stNotReady := by
  simp [Dev.check, h, hr, ht.ne, hf, hop, hc]

variable (hc : d.cartState j.hdr.target = 3)

include hc

theorem Dev.check_of_blank (hop : j.op.needsFormat = true) (hi : (d.sp j.hdr.target).cart.initialised = false) :
    d.check j = .status stBlank := by
  simp [Dev.check, h, hr, ht.ne, hf, hc, hop, hi]

theorem Dev.check_of_initialised (hi : (d.sp j.hdr.target).cart.initialised = true) : d.check j = .ok := by
  simp [Dev.check, h, hr, ht.ne, hf, hc, hi]

end target

theorem Dev.check7_of_unbound {n code : Nat} (h : d.bindFault j = some code) : d.check7 n j = some code := by
  rw [Dev.check7, h, Option.some_or]

theorem Dev.bindFault_of_write {more wait req : Bool} (h : j.op = .write more wait req) : d.bindFault j =
    if !(d.stream j.hdr.stream).isOpen then some stSequence
    else if (d.stream j.hdr.stream).spoke ≠ j.hdr.target then some stInvalidField else none := by
  simp only [Dev.bindFault, h]

theorem Dev.check7_of_sync {n st : Nat} (h : j.op = .sync) (hr : (d.sp n).recStream = some st) : d.check7 n j = some stSequence := by
  have hb : d.bindFault j = none := by simp only [Dev.bindFault, h]
  have hf : d.recordFault n j = some stSequence := by simp only [Dev.recordFault, hr, h, Bool.true_or, if_true]
  simp [Dev.check7, hb, h, Op.isQuery, Op.isModule, hf]

/-- A buffer list without an end is refused after the binding and the open record (R315). -/
theorem Dev.check7_of_endless {n : Nat} (hb : d.bindFault j = none) (hr : d.recordFault n j = none) (hc : j.op.carries = true)
    (hm : j.hdr.dmode = 2) (hl : j.hdr.dlen ≠ 0) (hn : hdrList j.hdr = none) : d.check7 n j = some stInvalidField := by
  have hf : d.fieldFault n j = some stInvalidField := by
    have hlist : (j.op.carries && j.hdr.dmode == 2 && j.hdr.dlen != 0 && (hdrList j.hdr).isNone) = true := by simp [hc, hm, hl, hn]
    simp only [Dev.fieldFault, hlist, Bool.true_or, if_true]
  rw [Dev.check7, hb, hr, hf, ite_self, Option.none_or, Option.none_or]

end checks

end Sys2Proof.Machine
end

section
/-! The statements about fetched commands and the order of their checks. -/

namespace Sys2Proof.Proofs

open Sys2Proof.Machine

/-- Settles O43: a fetched command begins at once or waits, and its checks come before its effect. -/
theorem fetchedCommandsBeginOrWait : Obligations.FetchedCommandsBeginOrWait := by
  rintro c h op data s j d0 e hc rfl rfl rfl
  exact ⟨Dev.ready_of_plain (j := s.dev.jobOf h op data), fun x hcar => Dev.ready_of_stray (j := s.dev.jobOf h op data) hcar,
    fun hn => ⟨fun ht hok => exec_of_submit hc (Dev.submit_of_spoke hn ht hok), fun ht => exec_of_submit hc (Dev.submit_of_module hn ht)⟩,
    fun hn => ⟨fun code h' => exec_of_begin hc hn (Dev.begin_of_status h'), fun k i h' => exec_of_begin hc hn (Dev.begin_of_prot h'),
      fun code hok h7 => exec_of_begin hc hn (Dev.begin_of_check7 hok h7)⟩⟩

/-- Settles O44: each check comes before those after it. -/
theorem checksAreInOrder : Obligations.ChecksAreInOrder := by
  refine fun d j => ⟨Dev.check_of_target, fun k i h => Dev.check_of_resource h, fun h hr ht => ⟨Dev.check_of_fenced h hr ht,
    Dev.check_of_notReady h hr ht, fun hf hop hc => Dev.check_of_blank h hr ht hf hc hop, Dev.check_of_initialised h hr ht⟩,
    fun more wait req hop ho => ?_, fun more wait req hop ho hs => ?_, fun st => Dev.check7_of_sync, Dev.check7_of_endless⟩
  · exact Dev.check7_of_unbound ((Dev.bindFault_of_write hop).trans (by rw [ho]; rfl))
  · refine Dev.check7_of_unbound ((Dev.bindFault_of_write hop).trans ?_)
    rw [ho, if_neg (by decide), if_pos hs]

end Sys2Proof.Proofs
end

section
/-! The commands that run at once: queries of a spoke and module commands (R308, R330, R334, R338 to R341). -/

namespace Sys2Proof.Machine

section passes

variable {c : Instr} {h : CmdHdr} {op : Op} {data : List Byte} {s : State} {d0 x : Dev} {j : Job} {n : Nat}
  (hc : ringCommand c = some (h, op, data)) (hd : d0 = s.dev.fetched h.sq) (hj : j = s.dev.jobOf h op data) (hp : d0.passes j)

include hc hd hj hp

/-- A module command that passes its checks runs, and then turns are taken (R308). -/
theorem exec_of_module (ht : h.target = 8) (hx : (d0.ready j).runModule j = x) : exec c s = .next (s.modDev (fun _ => x.serve)) := by
  subst hd hj
  obtain ⟨hn, hok, h7⟩ := hp
  refine (exec_of_begin hc hn ((Dev.begin_of_ok hok h7).trans ((if_pos ht).trans hx))).trans ?_
  rw [Dev.went, ht, if_neg (Nat.lt_irrefl 8)]

/-- A query that passes its checks runs at once (R308). -/
theorem exec_of_query (ht : h.target = n) (hn : n < 8) (hq : op.isQuery = true) (hx : (d0.ready j).runQuery n j = x) :
    exec c s = .next (s.modDev (fun _ => x.went n)) := by
  subst hd hj ht
  obtain ⟨hnow, hok, h7⟩ := hp
  exact exec_of_begin hc hnow ((Dev.begin_of_ok hok h7).trans ((if_neg hn.ne).trans ((if_pos hq).trans hx)))

/-- Another command of a spoke that passes its checks takes its turn (R308). -/
theorem exec_of_turn (ht : h.target = n) (hn : n < 8) (hq : op.isQuery = false) (hx : (d0.ready j).takeTurn n j = x) :
    exec c s = .next (s.modDev (fun _ => x.went n)) := by
  subst hd hj ht
  obtain ⟨hnow, hok, h7⟩ := hp
  exact exec_of_begin hc hnow ((Dev.begin_of_ok hok h7).trans ((if_neg hn.ne).trans ((if_neg (Bool.eq_false_iff.mp hq)).trans hx)))

section plain

variable (hcar : op.carries = false) (hh : j.handles = [])

include hcar hh

/-! Of a command without data and without a handle the device is as it was. -/

theorem exec_of_plain_module (ht : h.target = 8) (hx : d0.runModule j = x) : exec c s = .next (s.modDev (fun _ => x.serve)) := by
  refine exec_of_module hc hd hj hp ht ?_
  rwa [Dev.ready_of_plain (by rw [hj]; exact hcar) hh]

theorem exec_of_plain_query (ht : h.target = n) (hn : n < 8) (hq : op.isQuery = true) (hx : d0.runQuery n j = x) :
    exec c s = .next (s.modDev (fun _ => x.went n)) := by
  refine exec_of_query hc hd hj hp ht hn hq ?_
  rwa [Dev.ready_of_plain (by rw [hj]; exact hcar) hh]

theorem exec_of_plain_turn (ht : h.target = n) (hn : n < 8) (hq : op.isQuery = false) (hx : d0.takeTurn n j = x) :
    exec c s = .next (s.modDev (fun _ => x.went n)) := by
  refine exec_of_turn hc hd hj hp ht hn hq ?_
  rwa [Dev.ready_of_plain (by rw [hj]; exact hcar) hh]

end plain

end passes

theorem Dev.targetOk_of_check {d : Dev} {j : Job} (h : d.check j = .ok) : j.targetOk = true := by
  by_contra hno
  rw [Dev.check_of_target (Bool.eq_false_iff.mpr hno)] at h
  cases h

theorem Job.target_le_of_targetOk {j : Job} (h : j.targetOk = true) : j.hdr.target ≤ 8 := by
  simp only [Job.targetOk, Bool.and_eq_true, decide_eq_true_eq] at h
  obtain ⟨⟨hle, -⟩, -⟩ := h
  exact hle

section queries

variable {d : Dev} {j : Job} {n : Nat}

theorem Dev.beginCm_of_empty {isWrite : Bool} {off : Nat} {data : List Byte} (h : d.xferLen j.hdr = 0) :
    d.beginCm n j isWrite off data = d.complete j stSuccess 0 0 := if_pos h

theorem Dev.beginCm_read {off : Nat} (h : d.xferLen j.hdr ≠ 0) :
    d.beginCm n j false off [] = d.cmStart n (.hostRead j) false off (d.xferLen j.hdr) [] := if_neg h

theorem Dev.beginCm_write_host {off : Nat} {data : List Byte} (hm : j.hdr.dmode ≠ 3) (h : d.xferLen j.hdr ≠ 0) :
    d.beginCm n j true off data = (d.fromHost j (d.xferLen j.hdr)).cmStart n (.hostWrite j) true off (d.xferLen j.hdr)
      (takePad 0 (d.xferLen j.hdr) data) := by
  simp only [Dev.beginCm, if_neg h, if_neg hm, if_true]

theorem Dev.beginCm_write_chest {off : Nat} {data : List Byte} (hm : j.hdr.dmode = 3) (h : d.xferLen j.hdr ≠ 0) :
    d.beginCm n j true off data = (d.fromHost j (d.xferLen j.hdr)).cmStart n (.hostWrite j) true off (d.xferLen j.hdr)
      (d.chestGet (d.pool.bufAddr (hdrHandle j.hdr) + hdrOff j.hdr) (d.xferLen j.hdr)) := by
  simp only [Dev.beginCm, if_neg h, if_pos hm, if_true]

end queries

section module

variable {d : Dev} {j : Job} {x off : Nat}

/-- A close of the lost host that has not built its record takes REASON 0x05, and no other (R298). -/
def Dev.closesTakenOver (d : Dev) (e : Nat) : Dev :=
  (List.range 8).foldl (fun (x : Dev) k => if (x.sp k).owner = 1 - e then
    x.modSess k (fun y => { y with closing := if y.closing = some 2 && !y.closeBuilt then some 5 else y.closing }) else x) (d.takeover e)

theorem Dev.runModule_takeover_refused (hop : j.op = .takeover) (h : d.takeoverRefused (funcEp j.fn) = true) :
    d.runModule j = d.complete j stTakeoverRefused 0 0 := by
  simp only [Dev.runModule, hop, Dev.runTakeover, h, if_true]

theorem Dev.runModule_takeover (hop : j.op = .takeover) (h : d.takeoverRefused (funcEp j.fn) = false) :
    d.runModule j = (d.closesTakenOver (funcEp j.fn)).complete j stSuccess 0 0 := by
  simp only [Dev.runModule, hop, Dev.runTakeover, h, Bool.false_eq_true, if_false, Dev.closesTakenOver]

theorem Dev.runModule_bufAlloc_unmanaged (hop : j.op = .bufAlloc x) (hm : d.hostManaged j.dom = false) :
    d.runModule j = d.complete j stSequence 0 0 := by
  simp only [Dev.runModule, hop, hm, Bool.not_false, if_true]

section managed

variable (hm : d.hostManaged j.dom = true)

include hm

theorem Dev.runModule_bufAlloc_none (hop : j.op = .bufAlloc x) (ha : (d.alloc (16 + j.dom) x).2 = none) :
    d.runModule j = (d.alloc (16 + j.dom) x).1.complete j stOutOfBuffer 0 0 := by
  simp only [Dev.runModule, hop, hm, Bool.not_true, Bool.false_eq_true, if_false]
  split
  · next e he => rw [he]
  · next e b he => cases (congrArg Prod.snd he).symm.trans ha

theorem Dev.runModule_bufAlloc_some {b : Nat} (hop : j.op = .bufAlloc x) (ha : (d.alloc (16 + j.dom) x).2 = some b) :
    d.runModule j = ((d.alloc (16 + j.dom) x).1.addRef j.dom b).complete j stSuccess b 0 := by
  simp only [Dev.runModule, hop, hm, Bool.not_true, Bool.false_eq_true, if_false]
  split
  · next e he => cases (congrArg Prod.snd he).symm.trans ha
  · next e b' he =>
    obtain rfl : b' = b := Option.some.inj ((congrArg Prod.snd he).symm.trans ha)
    rw [he]

theorem Dev.runModule_bufRef (hop : j.op = .bufRef x) : d.runModule j =
    ((d.incRef x).addRef j.dom x).complete j stSuccess (((d.incRef x).addRef j.dom x).pool.descOf x).count 0 := by
  simp only [Dev.runModule, hop, hm, Bool.not_true, Bool.false_eq_true, if_false]

theorem Dev.runModule_bufRelease (hop : j.op = .bufRelease x) : d.runModule j =
    (d.releaseBy j.dom x).complete j stSuccess ((d.releaseBy j.dom x).pool.descOf x).count 0 := by
  simp only [Dev.runModule, hop, hm, Bool.not_true, Bool.false_eq_true, if_false]

theorem Dev.runModule_bufLoad {data : List Byte} (hop : j.op = .bufLoad x off data) : d.runModule j =
    ((d.chestPut (d.pool.bufAddr (d.aim x) + off) (takePad 0 (d.bufMoved j x off) data)).fromHost j (d.bufMoved j x off)).complete j stSuccess
      (d.bufMoved j x off) (hdrLen j.hdr - d.bufMoved j x off) := by
  simp only [Dev.runModule, hop, hm, Bool.not_true, Bool.false_eq_true, if_false]

theorem Dev.runModule_bufStore (hop : j.op = .bufStore x off) : d.runModule j =
    (d.toHost j 0 (d.chestGet (d.pool.bufAddr (d.aim x) + off) (d.bufMoved j x off))).complete j stSuccess
      (d.bufMoved j x off) (hdrLen j.hdr - d.bufMoved j x off) := by
  simp only [Dev.runModule, hop, hm, Bool.not_true, Bool.false_eq_true, if_false]

end managed

theorem Dev.aim_of_held (h : d.pool.isFree x = false) : d.aim x = x := by
  rw [Dev.aim, h, if_neg Bool.false_ne_true]

theorem Dev.releaseBy_of_own {dom : Nat} (h : d.domRef dom x ≠ 0) : d.releaseBy dom x =
    ({ d with pool := { d.pool with domRefs := mmod (fun _ => 0) d.pool.domRefs (2 ^ 24 * dom + x) (· - 1) } } : Dev).decRef x :=
  if_pos (bne_iff_ne.mpr h)

theorem Dev.releaseBy_of_none {dom : Nat} (h : d.domRef dom x = 0) :
    d.releaseBy dom x = if d.freeVal % 2 = 0 then d.nextFree.decRef x else d.nextFree := by
  rw [Dev.releaseBy, h]
  exact if_neg (by decide)

end module

end Sys2Proof.Machine
end

section
/-! The statement about queries and module commands. -/

namespace Sys2Proof.Proofs

open Sys2Proof.Machine

section

variable {s : State} {h : CmdHdr} {d0 : Dev} (hd : d0 = s.dev.fetched h.sq)

include hd

/-- A NOP completes, whatever its target (R340). -/
theorem exec_nop_of_passes {j : Job} (hj : j = s.dev.jobOf h .nop []) (hp : d0.passes j) :
    exec (.nop h) s = .next (s.modDev (fun _ => (d0.complete j stSuccess 0 0).went h.target)) := by
  have hle : h.target ≤ 8 := by
    obtain ⟨-, hok, -⟩ := hp
    have hle := Job.target_le_of_targetOk (Dev.targetOk_of_check hok)
    rwa [hj] at hle
  rcases hle.eq_or_lt with ht | ht
  · rw [ht]
    exact exec_of_plain_module rfl hd hj hp rfl (by rw [hj]; rfl) ht (by rw [hj]; rfl)
  · exact exec_of_plain_query rfl hd hj hp rfl (by rw [hj]; rfl) rfl ht rfl (by rw [hj]; rfl)

end

/-- Settles O45: the commands that run at once, each with its status, its result and its effect. -/
theorem queriesAndModuleCommands : Obligations.QueriesAndModuleCommands := by
  refine ⟨fun s h n x d0 hd => ⟨fun j hj hp => exec_nop_of_passes hd hj hp, fun ht => ⟨fun j hj hp => ?_, fun j hj hp => ?_, fun j hj hp => ?_,
      fun j e off hj he hp => ⟨fun hl => ?_, fun hl => ?_⟩, fun j e off data len hj he hp hlen => ⟨fun hl => ?_, fun hm hl => ?_, fun hm hl => ?_⟩⟩,
      fun ht => ⟨fun j hj hp => ?_, fun j hj hp hr => ?_, fun j e hj hp hr he => ?_, fun j hj hp => ⟨fun hm => ?_, fun hm ha => ?_, fun b hm ha => ?_⟩,
        fun j e r hj he hp hm hr => ?_, fun j e r hj he hp hm hr => ?_, fun j e off data k hj he hp hm hk => ?_, fun j e off k hj he hp hm hk => ?_⟩⟩,
    fun d dom x => ⟨Dev.aim_of_held, Dev.releaseBy_of_own, Dev.releaseBy_of_none⟩⟩
  · exact exec_of_plain_query rfl hd hj hp rfl (by rw [hj]; rfl) ht n.isLt rfl (by rw [hj]; rfl)
  · exact exec_of_plain_query rfl hd hj hp rfl (by rw [hj]; rfl) ht n.isLt rfl (by rw [hj]; rfl)
  · exact exec_of_plain_query rfl hd hj hp rfl (by rw [hj]; rfl) ht n.isLt rfl (by rw [hj]; rfl)
  · subst he hj
    exact exec_of_query rfl hd rfl hp ht n.isLt rfl (Dev.beginCm_of_empty hl)
  · subst he hj
    exact exec_of_query rfl hd rfl hp ht n.isLt rfl (Dev.beginCm_read hl)
  · subst he hj hlen
    exact exec_of_query rfl hd rfl hp ht n.isLt rfl (Dev.beginCm_of_empty hl)
  · subst he hj hlen
    exact exec_of_query rfl hd rfl hp ht n.isLt rfl (Dev.beginCm_write_host hm hl)
  · subst he hj hlen
    exact exec_of_query rfl hd rfl hp ht n.isLt rfl (Dev.beginCm_write_chest hm hl)
  · exact exec_of_plain_module rfl hd hj hp rfl (by rw [hj]; rfl) ht (by rw [hj]; rfl)
  · exact exec_of_plain_module rfl hd hj hp rfl (by rw [hj]; rfl) ht (Dev.runModule_takeover_refused (by rw [hj]; rfl) hr)
  · rw [he]
    exact exec_of_plain_module rfl hd hj hp rfl (by rw [hj]; rfl) ht (Dev.runModule_takeover (by rw [hj]; rfl) hr)
  · exact exec_of_plain_module rfl hd hj hp rfl (by rw [hj]; rfl) ht (Dev.runModule_bufAlloc_unmanaged (by rw [hj]; rfl) hm)
  · exact exec_of_plain_module rfl hd hj hp rfl (by rw [hj]; rfl) ht (Dev.runModule_bufAlloc_none hm (by rw [hj]; rfl) ha)
  · exact exec_of_plain_module rfl hd hj hp rfl (by rw [hj]; rfl) ht (Dev.runModule_bufAlloc_some hm (by rw [hj]; rfl) ha)
  · subst he hr
    exact exec_of_module rfl hd hj hp ht (Dev.runModule_bufRef hm (by rw [hj]; rfl))
  · subst he hr
    exact exec_of_module rfl hd hj hp ht (Dev.runModule_bufRelease hm (by rw [hj]; rfl))
  · subst he hk hj
    exact exec_of_module rfl hd rfl hp ht (Dev.runModule_bufLoad hm rfl)
  · subst he hk hj
    exact exec_of_module rfl hd rfl hp ht (Dev.runModule_bufStore hm rfl)

end Sys2Proof.Proofs
end

section
/-! Writes, marks, synchronisation and streams at their turn (R316 to R321, R330), and a record accepted (R132, R316). -/

namespace Sys2Proof.Machine

theorem exec_writeAccepted (n : Fin 8) (s : State) : exec (.writeAccepted n) s = s.onSpoke n (fun d => d.writeAccepted n) := rfl

/-! ### Stream parameters (R329, R360) -/

section params

variable {d : Dev} {st p k : Nat} (hk : k = parKeep p)

include hk

theorem Dev.paramsFault_of_reserved (h : parEnc k = 3) : d.paramsFault st p = (some stInvalidField, d) := by
  subst hk
  exact if_pos h

theorem Dev.paramsFault_of_plain (h1 : parEnc k ≠ 1) (h3 : parEnc k ≠ 3) : d.paramsFault st p = (none, d) := by
  subst hk
  simp only [Dev.paramsFault, if_neg h3, if_pos h1]

section slot

variable (h1 : parEnc k = 1)

include h1

theorem Dev.paramsFault_of_foreign (ho : d.owns (d.prot kStream st) kKeyslot (parSlot k) = false) : d.paramsFault st p =
    (some stKeyUnavailable, (d.violation vKeyslot (parSlot k) (d.prot kStream st)).errEvent pgKeystore errProt) := by
  subst hk
  simp [Dev.paramsFault, h1, ho]

variable (ho : d.owns (d.prot kStream st) kKeyslot (parSlot k) = true)

include ho

theorem Dev.paramsFault_of_empty (hl : (d.slot (parSlot k)).loaded = false) : d.paramsFault st p = (some stKeyUnavailable, d) := by
  subst hk
  simp [Dev.paramsFault, h1, ho, hl]

theorem Dev.paramsFault_of_loaded (hl : (d.slot (parSlot k)).loaded = true) : d.paramsFault st p = (none, d) := by
  subst hk
  simp [Dev.paramsFault, h1, ho, hl]

end slot

end params

/-! ### A command at its turn -/

theorem Dev.sp_inTurn (d : Dev) (n : Nat) (j : Job) : (d.inTurn n j).sp n = { d.sp n with cur := some j, curStep := 0 } := Dev.sp_modSp_same ..

theorem Dev.hostPacked_inTurn (d : Dev) (n m : Nat) (j : Job) : (d.inTurn n j).hostPacked m = d.hostPacked m := rfl

theorem Dev.fon_inTurn (d : Dev) (n : Nat) (j : Job) (pg : PageId) (f : Fld) : (d.inTurn n j).fon pg f = d.fon pg f := rfl

theorem Dev.stream_inTurn (d : Dev) (n : Nat) (j : Job) (st : Nat) : (d.inTurn n j).stream st = d.stream st := rfl

/-- A new anchor span begins for every stream of the spoke (R306, R116). -/
def Dev.anchorsDue (d : Dev) (n : Nat) : Dev :=
  { d with streams := d.streams.map (fun (x : Nat × Stream) => (x.1, if x.2.spoke = n then { x.2 with anchorDue := true } else x.2)) }

section turn

variable {d : Dev} {n : Nat} {j : Job}

section write

/-- WRITE and WRITE_MARK are refused alike, in the order of R316 to R319. -/
theorem Dev.beginWrite_of_packed (h : d.hostPacked n = true) : (d.inTurn n j).beginWrite n j = (d.inTurn n j).finish n stSequence 0 0 0 := by
  simp only [Dev.beginWrite, Dev.hostPacked_inTurn, h, if_true]

theorem Dev.beginMark_of_packed {w : Bool} {c : Nat} (h : d.hostPacked n = true) :
    (d.inTurn n j).beginMark n j w c = (d.inTurn n j).finish n stSequence 0 0 0 := by
  simp only [Dev.beginMark, Dev.hostPacked_inTurn, h, if_true]

variable (hp : d.hostPacked n = false)

include hp

theorem Dev.beginWrite_of_halted (h : d.fon (pgWriter n) Reg.WRITER.HALTED = true) :
    (d.inTurn n j).beginWrite n j = (d.inTurn n j).finish n stWriteError 0 0 0 := by
  simp only [Dev.beginWrite, Dev.hostPacked_inTurn, hp, Dev.fon_inTurn, h, if_true, Bool.false_eq_true, if_false]

theorem Dev.beginMark_of_halted {w : Bool} {c : Nat} (h : d.fon (pgWriter n) Reg.WRITER.HALTED = true) :
    (d.inTurn n j).beginMark n j w c = (d.inTurn n j).finish n stWriteError 0 0 0 := by
  simp only [Dev.beginMark, Dev.hostPacked_inTurn, hp, Dev.fon_inTurn, h, if_true, Bool.false_eq_true, if_false]

variable (hh : d.fon (pgWriter n) Reg.WRITER.HALTED = false)

include hh

theorem Dev.beginWrite_of_place : (d.inTurn n j).beginWrite n j =
    if (d.sp n).posObj ≠ (d.sp n).eodOf (d.sp n).sess.part then (d.inTurn n j).finish n stNotAtEnd 0 0 0
    else if (d.sp n).bytesLeft < chargeOf j.hdr.dlen + (d.sp n).wr.charges then (d.inTurn n j).finish n stPartitionFull 0 0 0
    else ((d.inTurn n j).modSp n (fun s => { s with curStep := 2 })).land n := by
  simp only [Dev.beginWrite, Dev.hostPacked_inTurn, hp, Dev.fon_inTurn, hh, Bool.false_eq_true, if_false, Dev.sp_inTurn]
  rfl

theorem Dev.beginMark_of_end {w : Bool} {c : Nat} (he : (d.sp n).posObj = (d.sp n).eodOf (d.sp n).sess.part) : (d.inTurn n j).beginMark n j w c =
    if (d.sp n).bytesLeft < 16 * c + (d.sp n).wr.charges then (d.inTurn n j).finish n stPartitionFull 0 0 0
    else if c = 0 then (d.inTurn n j).finish n stSuccess ((d.sp n).eodOf (d.sp n).sess.part) 0 0
    else (((d.inTurn n j).addMarks n j c).anchorsDue n).accepted n j w ((d.sp n).eodOf (d.sp n).sess.part) ((d.sp n).eodOf (d.sp n).sess.part + c - 1) := by
  simp only [Dev.beginMark, Dev.hostPacked_inTurn, hp, Dev.fon_inTurn, hh, Bool.false_eq_true, if_false, Dev.sp_inTurn]
  exact if_neg (not_not_intro he)

end write

/-- The device of a SYNC with nothing uncommitted, at its turn (R321). -/
def Dev.syncBegun (d : Dev) (n : Nat) (j : Job) : Dev := (d.inTurn n j).modSp n (fun x => { x with syncCover := [] })

theorem Dev.sp_syncBegun (d : Dev) (n : Nat) (j : Job) : (d.syncBegun n j).sp n = { d.sp n with cur := some j, curStep := 0, syncCover := [] } :=
  (Dev.sp_modSp_same ..).trans (congrArg (fun x : Spoke => { x with syncCover := [] }) (Dev.sp_inTurn d n j))

theorem Dev.syncOn_of_failed (hp : d.hostPacked n = false) (hf : (d.sp n).wr.failed ≠ []) : (d.syncBegun n j).syncOn n =
    ((d.syncBegun n j).modWr n (fun w => { w with failed := [] })).finish n (failCode (d.sp n).wr.failed) (d.sp n).lowestUncommitted 0 0 := by
  have hpacked : (d.syncBegun n j).hostPacked n = false := hp
  have hsome : (d.sp n).wr.failed.isEmpty = false := List.isEmpty_eq_false_iff.mpr hf
  simp only [Dev.syncOn, hpacked, Bool.false_eq_true, if_false, Dev.sp_syncBegun, hsome, Bool.not_false, if_true]
  rfl

section sync

variable (hp : d.hostPacked n = false) (ho : (d.sp n).wr.objs = []) (hl : (d.sp n).wr.placed = [])

include ho hl

theorem Dev.beginSync_of_none : (d.inTurn n j).beginSync n = d.syncBegun n j := by
  have hsp := Dev.sp_syncBegun d n j
  rw [Dev.syncBegun] at hsp
  simp only [Dev.beginSync, hsp, ho, hl, List.getLast?_nil, Dev.syncBegun]

include hp

theorem Dev.syncOn_of_clear (hf : (d.sp n).wr.failed = []) :
    (d.syncBegun n j).syncOn n = (d.syncBegun n j).finish n stSuccess (d.sp n).sess.nextObj 0 0 := by
  have hpacked : (d.syncBegun n j).hostPacked n = false := hp
  simp [Dev.syncOn, hpacked, Dev.sp_syncBegun, hf, Wr.uncommitted, ho, hl, Wr.reduced]

end sync

section streams

variable {p : Nat} {q : Option Nat × Dev}

theorem Dev.beginStreamCmd_of_open (h : (d.stream j.hdr.stream).isOpen = true) :
    (d.inTurn n j).beginStreamCmd n j true p = (d.inTurn n j).finish n stSequence 0 0 0 := by
  simp only [Dev.beginStreamCmd, Dev.stream_inTurn, h, Bool.and_self, if_true]

section fault

variable (hq : q = (d.inTurn n j).paramsFault j.hdr.stream p) {opening : Bool} (h : (opening && (d.stream j.hdr.stream).isOpen) = false)

include hq h

theorem Dev.beginStreamCmd_of_fault {code : Nat} (hf : q.1 = some code) :
    (d.inTurn n j).beginStreamCmd n j opening p = q.2.finish n code 0 0 0 := by
  obtain ⟨f, e⟩ := q
  obtain rfl : f = some code := hf
  simp only [Dev.beginStreamCmd, Dev.stream_inTurn, h, Bool.false_eq_true, if_false, ← hq]

theorem Dev.beginStreamCmd_of_sound (hf : q.1 = none) : (d.inTurn n j).beginStreamCmd n j opening p =
    if opening then (q.2.modStream j.hdr.stream (fun _ => { isOpen := true, spoke := n, params := parKeep p })).finish n stSuccess 0 0 0
    else (q.2.modStream j.hdr.stream (fun s => { s with next := some (parKeep p) })).finish n stSuccess 0 0 0 := by
  obtain ⟨f, e⟩ := q
  obtain rfl : f = none := hf
  simp only [Dev.beginStreamCmd, Dev.stream_inTurn, h, Bool.false_eq_true, if_false, ← hq]

end fault

theorem Dev.streamCloseOn_of_free (h : (d.sp n).wr.ofStream j.hdr.stream = false ∨ d.fon (pgWriter n) Reg.WRITER.HALTED = true) :
    (d.inTurn n j).streamCloseOn n j = ((d.inTurn n j).unbind j.hdr.stream).finish n stSuccess 0 0 0 := by
  rcases h with h | h <;> simp [Dev.streamCloseOn, Dev.sp_inTurn, Dev.fon_inTurn, h]

theorem Dev.streamCloseOn_of_busy (h : (d.sp n).wr.ofStream j.hdr.stream = true) (hh : d.fon (pgWriter n) Reg.WRITER.HALTED = false) :
    (d.inTurn n j).streamCloseOn n j = d.inTurn n j := by
  simp [Dev.streamCloseOn, Dev.sp_inTurn, Dev.fon_inTurn, h, hh]

end streams

end turn

/-! ### A record accepted (R132, R316) -/

section accepted

variable {d : Dev} {n : Nat} {j : Job}

theorem Dev.writeAccepted_of_none (h : (d.sp n).cur = none) : d.writeAccepted n = d := by
  simp only [Dev.writeAccepted, h]

variable {more wait req : Bool} (hj : (d.sp n).cur = some j) (hop : j.op = .write more wait req) (hs : (d.sp n).curStep = 2)
  (hl : d.landed n j = true)

include hj hop hs hl

theorem Dev.writeAccepted_of_halted (hh : d.fon (pgWriter n) Reg.WRITER.HALTED = true) : d.writeAccepted n = d.landFails n stWriteError := by
  simp [Dev.writeAccepted, hj, hop, hs, hl, hh]

variable (hh : d.fon (pgWriter n) Reg.WRITER.HALTED = false) {x : Stream} (hx : x = d.stream j.hdr.stream)
  {p : Nat} (hp : p = if x.recOpen then x.params else x.next.getD x.params) {src : List Piece}
  (hsrc : src = (d.sp n).landBufs.filter (fun q => decide (0 < q.len)))

include hh hx hp hsrc

theorem Dev.writeAccepted_of_badNcf (hn : parNcf p = true) (he : parEnc p ≠ 2)
    (hw : walkPart true more (d.piecesBytes (d.supplied n j.hdr.stream ++ src)) = none) :
    d.writeAccepted n = if x.recOpen then d.partRefused n stNcfRefused else d.landFails n stNcfRefused := by
  subst hx hsrc
  have henc : (parEnc p != 2) = true := bne_iff_ne.mpr he
  simp [Dev.writeAccepted, hj, hop, hs, hl, hh, ← hp, hn, henc, hw]

theorem Dev.writeAccepted_of_sound (hn : parNcf p = false) {d1 d2 : Dev}
    (h1 : d1 = d.decRefs (((d.sp n).landBufs.filter (fun q => q.len == 0)).map (·.handle)))
    (h2 : d2 = if x.recOpen then d1.laterPart n j more src [] [] else d1.firstPart n j more req src [] []) :
    d.writeAccepted n = d2.accepted n j wait ((d2.sp n).sess.nextObj - 1) ((d2.sp n).sess.nextObj - 1) := by
  subst hx hsrc h2 h1
  simp [Dev.writeAccepted, hj, hop, hs, hl, hh, ← hp, hn, walkPart]

end accepted

end Sys2Proof.Machine
end

section
/-! The statement about writes, marks, synchronisation and streams. -/

namespace Sys2Proof.Proofs

open Sys2Proof.Machine

/-- Settles O46: WRITE, its acceptance, marks, SYNC and the streams' commands. -/
theorem writesMarksAndStreams : Obligations.WritesMarksAndStreams := by
  refine ⟨fun d st p k hk => ⟨Dev.paramsFault_of_reserved hk, Dev.paramsFault_of_plain hk, Dev.paramsFault_of_foreign hk,
      Dev.paramsFault_of_empty hk, Dev.paramsFault_of_loaded hk⟩,
    fun s h n ht d0 hd => ⟨fun j e more wait req data hj he hp => ?write, fun j more wait req hj hop hs hl => ?accepted, fun hj => ?none,
      fun j wait c hj hp => ?mark, fun j hj hp hpk ho hl => ?sync, fun j p q hj hp hq => ?opens, fun j p q hj hp hq => ?set,
      fun j hj hp => ?close⟩⟩
  case write =>
    subst he hj
    refine ⟨fun hpk => ?_, fun hpk hh => ?_, fun hpk hh hpos => ?_, fun hpk hh hpos => ⟨fun hlt => ?_, fun hle => ?_⟩⟩
    · exact exec_of_turn rfl hd rfl hp ht n.isLt rfl (Dev.beginWrite_of_packed hpk)
    · exact exec_of_turn rfl hd rfl hp ht n.isLt rfl (Dev.beginWrite_of_halted hpk hh)
    · exact exec_of_turn rfl hd rfl hp ht n.isLt rfl ((Dev.beginWrite_of_place hpk hh).trans (if_pos hpos))
    · exact exec_of_turn rfl hd rfl hp ht n.isLt rfl ((Dev.beginWrite_of_place hpk hh).trans ((if_neg (not_not_intro hpos)).trans (if_pos hlt)))
    · exact exec_of_turn rfl hd rfl hp ht n.isLt rfl ((Dev.beginWrite_of_place hpk hh).trans ((if_neg (not_not_intro hpos)).trans
        (if_neg (Nat.not_lt.mpr hle))))
  case accepted =>
    rw [exec_writeAccepted, State.onSpoke_eq]
    refine ⟨fun hh => next_modDev_congr (congrArg (fun d => Dev.follow d n) (Dev.writeAccepted_of_halted hj hop hs hl hh)),
      fun x p src d1 hh hx hpar hsrc h1 => ⟨fun hn he hw => ?_, fun d2 hn h2 => next_modDev_congr (congrArg (fun d => Dev.follow d n)
        (Dev.writeAccepted_of_sound hj hop hs hl hh hx hpar hsrc hn h1 h2))⟩⟩
    have hbad := Dev.writeAccepted_of_badNcf hj hop hs hl hh hx hpar hsrc hn he hw
    exact ⟨fun ho => next_modDev_congr (congrArg (fun d => Dev.follow d n) (hbad.trans (if_neg (Bool.eq_false_iff.mp ho)))),
      fun ho => next_modDev_congr (congrArg (fun d => Dev.follow d n) (hbad.trans (if_pos ho)))⟩
  case none =>
    rw [exec_writeAccepted, State.onSpoke_eq]
    exact next_modDev_congr (congrArg (fun d => Dev.follow d n) (Dev.writeAccepted_of_none hj))
  case mark =>
    subst hj
    refine ⟨fun hpk => ?_, fun hpk hh => ?_, fun hpk hh hpos => ⟨fun hlt => ?_, fun hle => ⟨fun hc => ?_, fun d1 hc h1 => ?_⟩⟩⟩
    · exact exec_of_plain_turn rfl hd rfl hp rfl rfl ht n.isLt rfl (Dev.beginMark_of_packed hpk)
    · exact exec_of_plain_turn rfl hd rfl hp rfl rfl ht n.isLt rfl (Dev.beginMark_of_halted hpk hh)
    · exact exec_of_plain_turn rfl hd rfl hp rfl rfl ht n.isLt rfl ((Dev.beginMark_of_end hpk hh hpos).trans (if_pos hlt))
    · exact exec_of_plain_turn rfl hd rfl hp rfl rfl ht n.isLt rfl ((Dev.beginMark_of_end hpk hh hpos).trans
        ((if_neg (Nat.not_lt.mpr hle)).trans (if_pos hc)))
    · subst h1
      exact exec_of_plain_turn rfl hd rfl hp rfl rfl ht n.isLt rfl ((Dev.beginMark_of_end hpk hh hpos).trans
        ((if_neg (Nat.not_lt.mpr hle)).trans (if_neg hc)))
  case sync =>
    subst hj
    have hbegun := congrArg (fun d => Dev.syncOn d n) (Dev.beginSync_of_none (j := s.dev.jobOf h .sync []) ho hl)
    exact ⟨fun hf => exec_of_plain_turn rfl hd rfl hp rfl rfl ht n.isLt rfl (hbegun.trans (Dev.syncOn_of_clear hpk ho hl hf)),
      fun hf => exec_of_plain_turn rfl hd rfl hp rfl rfl ht n.isLt rfl (hbegun.trans (Dev.syncOn_of_failed hpk hf))⟩
  case opens =>
    subst hj
    refine ⟨fun ho => ?_, fun code ho hf => ?_, fun ho hf => ?_⟩
    · exact exec_of_plain_turn rfl hd rfl hp rfl rfl ht n.isLt rfl (Dev.beginStreamCmd_of_open ho)
    · exact exec_of_plain_turn rfl hd rfl hp rfl rfl ht n.isLt rfl (Dev.beginStreamCmd_of_fault hq ((Bool.true_and _).trans ho) hf)
    · exact exec_of_plain_turn rfl hd rfl hp rfl rfl ht n.isLt rfl (Dev.beginStreamCmd_of_sound hq ((Bool.true_and _).trans ho) hf)
  case set =>
    subst hj
    exact ⟨fun code hf => exec_of_plain_turn rfl hd rfl hp rfl rfl ht n.isLt rfl (Dev.beginStreamCmd_of_fault hq (Bool.false_and _) hf),
      fun hf => exec_of_plain_turn rfl hd rfl hp rfl rfl ht n.isLt rfl (Dev.beginStreamCmd_of_sound hq (Bool.false_and _) hf)⟩
  case close =>
    subst hj
    exact ⟨fun hw => exec_of_plain_turn rfl hd rfl hp rfl rfl ht n.isLt rfl (Dev.streamCloseOn_of_free hw),
      fun hw hh => exec_of_plain_turn rfl hd rfl hp rfl rfl ht n.isLt rfl (Dev.streamCloseOn_of_busy hw hh)⟩

end Sys2Proof.Proofs
end

section
/-! Commands that read, move or exchange sheets at their turn (R309, R322 to R337). -/

namespace Sys2Proof.Machine

section waits

variable {d : Dev} {n : Nat} {j : Job}

/-- The device while a command of R309 waits for commitment. -/
def Dev.waiting (d : Dev) (n : Nat) (j : Job) : Dev := (d.inTurn n j).modSp n (fun s => { s with curStep := 1 })

theorem Dev.sp_waiting (d : Dev) (n : Nat) (j : Job) : (d.waiting n j).sp n = { d.sp n with cur := some j, curStep := 1 } :=
  (Dev.sp_modSp_same ..).trans (congrArg (fun x : Spoke => { x with curStep := 1 }) (Dev.sp_inTurn d n j))

theorem Dev.sp_committed (d : Dev) (n : Nat) (j : Job) : (d.committed n j).sp n = { d.sp n with cur := some j, curStep := 0 } :=
  (Dev.sp_modSp_same ..).trans (congrArg (fun x : Spoke => { x with curStep := 0 }) (Dev.sp_waiting d n j))

theorem Dev.hostPacked_waiting (d : Dev) (n m : Nat) (j : Job) : (d.waiting n j).hostPacked m = d.hostPacked m := rfl

theorem Dev.fon_waiting (d : Dev) (n : Nat) (j : Job) (pg : PageId) (f : Fld) : (d.waiting n j).fon pg f = d.fon pg f := rfl

/-- At its turn a command of R309 waits for commitment. -/
theorem Dev.takeTurn_of_waits (h : j.op.waitsCommit = true) : d.takeTurn n j = (d.waiting n j).startCur n := by
  rw [Dev.takeTurn]
  split
  case h_10 => rfl
  all_goals
    next heq =>
    rw [heq] at h
    cases h

/-- A command of R309 with nothing before it begins (R309). -/
theorem Dev.startCur_of_clear (h : d.nothingBefore n j) : (d.waiting n j).startCur n = (d.committed n j).beginTape n j := by
  obtain ⟨hc, hr, hu, hp, hf⟩ := h
  simp only [Dev.startCur, Dev.sp_waiting, Dev.hostPacked_waiting, hc, hr, hu, hp, Nat.not_le.mpr hf, decide_false, Bool.false_and, Bool.false_eq_true,
    if_false, ne_eq, not_true, Option.isSome_none, List.isEmpty_nil, Bool.true_or, Bool.not_true, Bool.or_self]
  rfl

theorem Dev.takeTurn_of_clear (hw : j.op.waitsCommit = true) (h : d.nothingBefore n j) : d.takeTurn n j = (d.committed n j).beginTape n j :=
  (Dev.takeTurn_of_waits hw).trans (Dev.startCur_of_clear h)

/-- One with an object uncommitted waits (R309). -/
theorem Dev.startCur_of_uncommitted (hu : (d.sp n).wr.uncommitted ≠ []) (hh : d.fon (pgWriter n) Reg.WRITER.HALTED = false)
    (hf : (d.sp n).failSeq = 0) : (d.waiting n j).startCur n = d.waiting n j := by
  have hsome : (d.sp n).wr.uncommitted.isEmpty = false := List.isEmpty_eq_false_iff.mpr hu
  simp [Dev.startCur, Dev.sp_waiting, Dev.fon_waiting, hh, hf, hsome]

end waits

/-! ### What begins (R326, R331, R336) -/

section begins

variable {d : Dev} {n : Nat} {j : Job}

section locate

variable {o p hint : Nat} {eod : Bool} (hop : j.op = .locate o p eod hint)

include hop

theorem Dev.beginTape_locate_here (hp : p = (d.sp n).posPart) : (d.committed n j).beginTape n j = (d.committed n j).beginLocate n o hint eod := by
  simp only [Dev.beginTape, hop, Dev.sp_committed, if_pos hp]

variable (hp : p ≠ (d.sp n).posPart)

include hp

theorem Dev.beginTape_locate_closed (ho : (d.sp n).sess.isOpen = false) :
    (d.committed n j).beginTape n j = ((d.committed n j).enterPart n p).beginLocate n o hint eod := by
  simp only [Dev.beginTape, hop, Dev.sp_committed, if_neg hp, ho, Bool.false_eq_true, if_false]

theorem Dev.beginTape_locate_open (ho : (d.sp n).sess.isOpen = true) :
    (d.committed n j).beginTape n j = ((d.committed n j).modSp n (fun x => { x with curStep := 3 })).closeSession n 1 := by
  simp only [Dev.beginTape, hop, Dev.sp_committed, if_neg hp, ho, if_true]

end locate

section close

variable (hop : j.op = .closeSession)

include hop

theorem Dev.beginTape_close_none (ho : (d.sp n).sess.isOpen = false) : (d.committed n j).beginTape n j =
    (d.committed n j).finish n stSuccess ((d.sp n).eodOf (d.sp n).sess.part) 0 0 := by
  simp only [Dev.beginTape, hop, Dev.sp_committed, ho, Bool.false_eq_true, if_false]
  rfl

theorem Dev.beginTape_close_open {e : Dev} (ho : (d.sp n).sess.isOpen = true)
    (he : e = ((d.committed n j).modSp n (fun x => { x with curStep := 3 })).closeSession n 1) : (d.committed n j).beginTape n j =
    if (e.sp n).sess.isOpen then e else e.closeAnswer n stSuccess := by
  subst he
  simp only [Dev.beginTape, hop, Dev.sp_committed, ho, if_true]

end close

theorem Dev.lad_inTurn (d : Dev) (n : Nat) (j : Job) : (d.inTurn n j).lad n = d.lad n := by
  rw [Dev.lad, Dev.rd, Dev.sp_inTurn]
  rfl

theorem Dev.sheetReadHeld_of_none {m : Nat} (h : (d.lad n).raw = none) :
    (d.inTurn n j).sheetReadHeld n j m = (d.inTurn n j).finish n stSequence 0 0 0 := by
  simp only [Dev.sheetReadHeld, Dev.lad_inTurn, h]

theorem Dev.sheetReadHeld_of_held {m x p} (h : (d.lad n).raw = some (x, p)) : (d.inTurn n j).sheetReadHeld n j m =
    (((d.inTurn n j).sendSheet n j x p m false).rawRelease n).bump (pgSh n) Reg.SAMPLEHOLD.RAW_DELIVERED 1 := by
  simp only [Dev.sheetReadHeld, Dev.lad_inTurn, h]

theorem Dev.beginSheetWrite_of_refused {code : Nat} (h : d.sheetWriteRefused n j = some code) : d.beginSheetWrite n j = d.finish n code 0 0 0 := by
  simp only [Dev.beginSheetWrite, h]

theorem Dev.beginSheetWrite_of_sound (h : d.sheetWriteRefused n j = none) :
    d.beginSheetWrite n j = ((d.modSp n (fun x => { x with curStep := 2 })).land n).sheetAccepted n := by
  simp only [Dev.beginSheetWrite, h]

end begins

end Sys2Proof.Machine
end

section
/-! The statement about reads, moves and sheets. -/

namespace Sys2Proof.Proofs

open Sys2Proof.Machine

/-- Settles O47: reads, moves, sessions and raw sheets at their turn. -/
theorem readsMovesAndSheets : Obligations.ReadsMovesAndSheets := by
  refine fun s h n ht d0 hd => ⟨fun j e more hj he hp => ?read, fun j o p eod hint hj hp hb => ?locate, fun j k u hj hp hb => ?space,
    fun j hj hp hb => ?close, fun j k w hj hp hb => ?format, fun j hj hp hb => ?unload, fun j e k m hj he hp hr => ?sheetNone,
    fun j e k m x p hj he hp hr => ?sheetHeld, fun j e k m hj he hp hb => ?sheet, fun j hj hp => ?release, fun j e content hj he hp => ?write⟩
  case read =>
    subst he hj
    exact ⟨fun hb => exec_of_turn rfl hd rfl hp ht n.isLt rfl (Dev.takeTurn_of_clear rfl hb),
      fun hu hh hf => exec_of_turn rfl hd rfl hp ht n.isLt rfl ((Dev.takeTurn_of_waits rfl).trans (Dev.startCur_of_uncommitted hu hh hf))⟩
  case locate =>
    subst hj
    have hclear := Dev.takeTurn_of_clear rfl hb
    exact ⟨fun hpos => exec_of_plain_turn rfl hd rfl hp rfl rfl ht n.isLt rfl (hclear.trans (Dev.beginTape_locate_here rfl hpos)),
      fun hpos ho => exec_of_plain_turn rfl hd rfl hp rfl rfl ht n.isLt rfl (hclear.trans (Dev.beginTape_locate_closed rfl hpos ho)),
      fun hpos ho => exec_of_plain_turn rfl hd rfl hp rfl rfl ht n.isLt rfl (hclear.trans (Dev.beginTape_locate_open rfl hpos ho))⟩
  case space =>
    subst hj
    exact exec_of_plain_turn rfl hd rfl hp rfl rfl ht n.isLt rfl (Dev.takeTurn_of_clear rfl hb)
  case close =>
    subst hj
    have hclear := Dev.takeTurn_of_clear rfl hb
    exact ⟨fun ho => exec_of_plain_turn rfl hd rfl hp rfl rfl ht n.isLt rfl (hclear.trans (Dev.beginTape_close_none rfl ho)),
      fun e ho he => exec_of_plain_turn rfl hd rfl hp rfl rfl ht n.isLt rfl (hclear.trans (Dev.beginTape_close_open rfl ho he))⟩
  case format =>
    subst hj
    exact exec_of_plain_turn rfl hd rfl hp rfl rfl ht n.isLt rfl (Dev.takeTurn_of_clear rfl hb)
  case unload =>
    subst hj
    exact exec_of_plain_turn rfl hd rfl hp rfl rfl ht n.isLt rfl (Dev.takeTurn_of_clear rfl hb)
  case sheetNone =>
    subst he hj
    exact exec_of_turn rfl hd rfl hp ht n.isLt rfl (Dev.sheetReadHeld_of_none hr)
  case sheetHeld =>
    subst he hj
    exact exec_of_turn rfl hd rfl hp ht n.isLt rfl (Dev.sheetReadHeld_of_held hr)
  case sheet =>
    subst he hj
    exact exec_of_turn rfl hd rfl hp ht n.isLt rfl (Dev.takeTurn_of_clear rfl hb)
  case release =>
    subst hj
    exact exec_of_plain_turn rfl hd rfl hp rfl rfl ht n.isLt rfl rfl
  case write =>
    subst he hj
    exact ⟨fun code hc => exec_of_turn rfl hd rfl hp ht n.isLt rfl (Dev.beginSheetWrite_of_refused hc),
      fun hc => exec_of_turn rfl hd rfl hp ht n.isLt rfl (Dev.beginSheetWrite_of_sound hc)⟩

end Sys2Proof.Proofs
end

section
/-! The protection table (R345 to R349). -/

namespace Sys2Proof.Machine

theorem exec_stageSet (a : Accessor) (dom k : Nat) (s : State) : exec (.stageSet a dom k) s = s.writeDev a pgProtect (fun d => d.stageSet dom k) := rfl

theorem exec_discard (a : Accessor) (s : State) : exec (.discard a) s = s.writeDev a pgProtect (fun d => d.discardStaged) := rfl

theorem exec_commit (a : Accessor) (s : State) : exec (.commit a) s = s.writeDev a pgProtect (fun d => d.protCommit) := rfl

/-- What the entries of a table are after a run of them has been set (R346). -/
theorem mget_setEntries (x : Nat) : ∀ (k a : Nat) (t : SMap Nat) (p : Nat),
    mget (fun _ => 0) (setEntries t a k x) p = if a ≤ p ∧ p < a + k then x else mget (fun _ => 0) t p
  | 0, a, t, p => by
    rw [setEntries, if_neg (by omega)]
  | k + 1, a, t, p => by
    rw [setEntries, mget_setEntries x k (a + 1), mget_mset]
    by_cases hp : p = a
    · rw [if_neg (by omega), if_pos hp.symm, if_pos (by omega)]
    · rw [if_neg (Ne.symm hp)]
      exact if_congr (by omega) rfl rfl

/-- The kinds lie one after another in the table (R345). -/
theorem kindBase_le_of_lt : ∀ k < 7, ∀ l < 7, k < l → kindBase k + kindCount k ≤ kindBase l := by decide

/-- An entry lies in a run of another kind's entries nowhere, in one of its own kind where its index does. -/
theorem kindBase_run {kind kind' i i' c : Nat} (hk : kind < 7) (hk' : kind' < 7) (hi' : i' < kindCount kind') (hc : c ≤ kindCount kind - i) :
    (kindBase kind + i ≤ kindBase kind' + i' ∧ kindBase kind' + i' < kindBase kind + i + c) ↔ kind' = kind ∧ i ≤ i' ∧ i' < i + c := by
  rcases lt_trichotomy kind kind' with h | rfl | h
  · have hbase := kindBase_le_of_lt kind hk kind' hk' h
    omega
  · omega
  · have hbase := kindBase_le_of_lt kind' hk' kind hk h
    omega

section stage

variable {d : Dev} {dom k : Nat}

theorem Dev.stageSet_of_beyond (h : 7 ≤ d.fget pgProtect Reg.PROTECT.KIND) : d.stageSet dom k = d := if_pos h

/-- The entries staged within their kind (R346). -/
def Dev.stageCount (d : Dev) (k : Nat) : Nat :=
  min (min k 4096) (kindCount (d.fget pgProtect Reg.PROTECT.KIND) - d.fget pgProtect Reg.PROTECT.INDEX)

theorem Dev.stageSet_of_kind (h : d.fget pgProtect Reg.PROTECT.KIND < 7) : d.stageSet dom k = d.modKeep (fun x => { x with
    staged := setEntries x.staged (kindBase (d.fget pgProtect Reg.PROTECT.KIND) + d.fget pgProtect Reg.PROTECT.INDEX) (d.stageCount k) (dom % 64) }) :=
  if_neg (Nat.not_le.mpr h)

theorem Dev.protOf_stageSet (h : d.fget pgProtect Reg.PROTECT.KIND < 7) {kind i : Nat} (hk : kind < 7) (hi : i < kindCount kind) :
    protOf (d.stageSet dom k).keep.staged kind i =
      if kind = d.fget pgProtect Reg.PROTECT.KIND ∧ d.fget pgProtect Reg.PROTECT.INDEX ≤ i ∧ i < d.fget pgProtect Reg.PROTECT.INDEX + min k 4096
      then dom % 64 else protOf d.keep.staged kind i := by
  have hrun := kindBase_run (c := d.stageCount k) h hk hi (Nat.min_le_right ..)
  rw [Dev.stageSet_of_kind h, protOf, if_pos hi, protOf, if_pos hi]
  refine (mget_setEntries ..).trans (if_congr (hrun.trans ?_) rfl rfl)
  rw [Dev.stageCount]
  refine and_congr_right fun hkind => ?_
  subst hkind
  omega

end stage

section commit

variable {d : Dev}

theorem Dev.protCommit_of_refused (h : d.commitRefusal ≠ 0) :
    d.protCommit = (d.fset pgProtect Reg.PROTECT.REFUSE d.commitRefusal).fset pgProtect Reg.PROTECT.COMMIT_REFUSED 1 := if_pos h

theorem Dev.protCommit_of_sound (h : d.commitRefusal = 0) : d.protCommit = (d.modKeep (fun k => { k with
    prot := k.staged, seq := k.seq + 1, ledger := ledgerStep k.ledger (k.seq + 1) k.staged })).fset pgProtect Reg.PROTECT.COMMITTED 1 :=
  if_neg (not_not_intro h)

theorem Dev.commitRefusal_of_reserved {f : Nat} (hf : f < 128) (h : protOf d.keep.staged kFunc f = 1) : d.commitRefusal = 1 := by
  have hmem : ((List.range 128).map (protOf d.keep.staged kFunc)).contains 1 = true :=
    List.contains_iff_mem.mpr (List.mem_map.mpr ⟨f, List.mem_range.mpr hf, h⟩)
  simp only [Dev.commitRefusal, hmem, if_true]

theorem Dev.commitRefusal_of_noRoot (h : ∀ f < 128, 2 ≤ protOf d.keep.staged kFunc f) : d.commitRefusal = 2 := by
  have hnot {x : Nat} (hx : x < 2) : ((List.range 128).map (protOf d.keep.staged kFunc)).contains x = false := by
    refine Bool.eq_false_iff.mpr fun hmem => ?_
    obtain ⟨f, hf, rfl⟩ := List.mem_map.mp (List.contains_iff_mem.mp hmem)
    exact absurd hx (Nat.not_lt.mpr (h f (List.mem_range.mp hf)))
  simp only [Dev.commitRefusal, hnot (x := 1) (by decide), hnot (x := 0) (by decide), Bool.false_eq_true, if_false, Bool.not_false, if_true]

theorem Dev.commitRefusal_le (d : Dev) : d.commitRefusal ≤ 4 := by
  simp only [Dev.commitRefusal]
  repeat' split
  all_goals omega

end commit

end Sys2Proof.Machine
end

section
/-! The statement about the protection table. -/

namespace Sys2Proof.Proofs

open Sys2Proof.Machine

/-- Settles O48: staging, discarding and committing the table. -/
theorem protectionTable : Obligations.ProtectionTable := by
  refine fun s a ho => ⟨fun dom k h => .of_writeDev (exec_stageSet a dom k s) ho ?_, fun dom k h => ?_,
    .of_writeDev (exec_discard a s) ho ⟨rfl, rfl⟩, fun h => .of_writeDev (exec_commit a s) ho ?_,
    fun h => .of_writeDev (exec_commit a s) ho ?_, fun f hf => Dev.commitRefusal_of_reserved hf, Dev.commitRefusal_of_noRoot⟩
  · refine ⟨fun kind i hk hi => Dev.protOf_stageSet h hk hi, ?_⟩
    rw [State.modDev, Dev.stageSet_of_kind h]
    rfl
  · exact (exec_stageSet a dom k s).trans (State.writeDev_of_eq (g := id) ho (Dev.stageSet_of_beyond h))
  · have hle := s.dev.commitRefusal_le
    rw [State.modDev, Dev.protCommit_of_refused h]
    refine ⟨(Dev.fget_fset_slot _ _ _ _ (by decide)).trans ((Dev.fget_fset_same ..).trans ?_), Dev.fget_fset_same .., rfl⟩
    exact Nat.mod_eq_of_lt (Nat.lt_of_le_of_lt hle (by decide))
  · rw [State.modDev, Dev.protCommit_of_sound h]
    exact ⟨rfl, Dev.fget_fset_same .., rfl⟩

end Sys2Proof.Proofs
end

section
/-! Firmware's answers to the management controller (R351, R352, R383), and an update's image through PLDM (R356). -/

namespace Sys2Proof.Machine

theorem exec_getVersion (s : State) : exec .getVersion s = s.onDev (fun d => d.getVersion) := rfl
theorem exec_getCapabilities (s : State) : exec .getCapabilities s = s.onDev (fun d => d.getCapabilities) := rfl
theorem exec_negotiateAlgorithms (s : State) : exec .negotiateAlgorithms s = s.onDev (fun d => d.negotiateAlgorithms) := rfl
theorem exec_getDigests (s : State) : exec .getDigests s = s.onDev (fun d => d.getDigests) := rfl
theorem exec_getCertificate (slot off len : Nat) (s : State) :
    exec (.getCertificate slot off len) s = s.onDev (fun d => d.getCertificate slot off len) := rfl
theorem exec_challenge (slot : Nat) (nonce : List Byte) (s : State) : exec (.challenge slot nonce) s = s.onDev (fun d => d.challenge slot nonce) := rfl
theorem exec_getMeasurements (k : Nat) (signed : Bool) (nonce : List Byte) (s : State) :
    exec (.getMeasurements k signed nonce) s = s.onDev (fun d => d.getMeasurements k signed nonce) := rfl
theorem exec_spdmUnsupportedRequest (code : Nat) (s : State) :
    exec (.spdmUnsupportedRequest code) s = s.onDev (fun d => d.spdmUnsupported code) := rfl
theorem exec_numericSensorRead (k : Nat) (s : State) : exec (.numericSensorRead k) s = s.onDev (fun d => d.sensorRead k) := rfl
theorem exec_powerCapEffecter (v : Nat) (s : State) : exec (.powerCapEffecter v) s = s.onDev (fun d => d.capEffecter v) := rfl
theorem exec_pldmFirmwareUpdate (im : List Byte) (s : State) : exec (.pldmFirmwareUpdate im) s = s.onDev (fun d => d.pldmUpdate im) := rfl

/-- An effect on the device alone that comes to another, in the state at hand. -/
theorem State.onDev_congr {s : State} {f g : Dev → Dev} (h : f s.dev = g s.dev) : s.onDev f = .next (s.modDev g) := Proofs.next_modDev_congr h

section silent

variable {d : Dev} (h : d.chipStewards = false)

include h

theorem Dev.spdm_of_silent (code : Nat) (body : List Byte) : d.spdm code body = d := if_neg (Bool.eq_false_iff.mp h)

theorem Dev.sensorRead_of_silent (k : Nat) : d.sensorRead k = d := by
  simp only [Dev.sensorRead, h, Bool.not_false, if_true]

theorem Dev.capEffecter_of_silent (v : Nat) : d.capEffecter v = d := if_neg (Bool.eq_false_iff.mp h)

theorem Dev.pldmUpdate_of_silent (im : List Byte) : d.pldmUpdate im = d := by
  simp only [Dev.pldmUpdate, h, Bool.not_false, Bool.true_or, if_true]

end silent

section running

variable {d : Dev} (h : d.chipStewards = true)

include h

theorem Dev.spdm_of_running (code : Nat) (body : List Byte) : d.spdm code body = d.emit (.spdm code body) := if_pos h

theorem Dev.spdm_nextFree_of_running (code : Nat) (body : List Byte) :
    d.nextFree.spdm code body = ({ d with free := d.free + 1 } : Dev).emit (.spdm code body) := if_pos h

theorem Dev.getCertificate_of_slot {slot : Nat} (hs : slot ≤ 1) (off len : Nat) :
    d.getCertificate slot off len = d.emit (.spdm 0x02 (((Config.certChain slot).drop off).take len)) :=
  (if_pos hs).trans (Dev.spdm_of_running h ..)

theorem Dev.getCertificate_of_none {slot : Nat} (hs : 2 ≤ slot) (off len : Nat) : d.getCertificate slot off len = d.emit (.spdm 0x7F []) :=
  (if_neg (Nat.not_le.mpr hs)).trans (Dev.spdm_of_running h ..)

theorem Dev.challenge_of_anonymous (slot : Nat) (nonce : List Byte) (hi : d.fon pgBoot Reg.BOOT.IDENTITY = false) :
    d.challenge slot nonce = d.emit (.spdm 0x7F []) := by
  simp only [Dev.challenge, hi, Bool.not_false, Bool.or_true, if_true, Dev.spdmError, Dev.spdm_of_running h]

theorem Dev.challenge_of_slot {slot : Nat} (hs : slot ≤ 1) (nonce : List Byte) (hi : d.fon pgBoot Reg.BOOT.IDENTITY = true) :
    d.challenge slot nonce = ({ d with free := d.free + 1 } : Dev).emit (.spdm 0x03 (Config.sha512 (Config.certChain slot) ++
      Config.identitySign (nonce ++ Config.sha512 (Config.certChain slot)) (Config.freeValue d.free))) := by
  simp only [Dev.challenge, hi, decide_eq_false (Nat.not_lt.mpr hs), Bool.not_true, Bool.or_self, Bool.false_eq_true, if_false,
    Dev.spdm_nextFree_of_running h, Dev.freeVal]

/-- The body of GET_MEASUREMENTS's answer (R352). -/
def Dev.measured (d : Dev) (k : Nat) : List Byte :=
  if k = 0 then [6] else if k = 255 then ((List.range 6).map (fun k => d.measurement (k + 1))).flatten else d.measurement k

theorem Dev.getMeasurements_of_anonymous (k : Nat) (nonce : List Byte) (hi : d.fon pgBoot Reg.BOOT.IDENTITY = false) :
    d.getMeasurements k true nonce = d.emit (.spdm 0x7F []) := by
  simp only [Dev.getMeasurements, hi, Bool.not_false, Bool.and_self, Bool.true_or, if_true, Dev.spdmError, Dev.spdm_of_running h]

theorem Dev.getMeasurements_of_none {k : Nat} (nonce : List Byte) (hk : 6 < k) (hk' : k ≠ 255) :
    d.getMeasurements k false nonce = d.emit (.spdm 0x7F []) := by
  simp [Dev.getMeasurements, hk, hk', Dev.spdmError, Dev.spdm_of_running h]

theorem Dev.getMeasurements_plain {k : Nat} (nonce : List Byte) (hk : k ≤ 6 ∨ k = 255) :
    d.getMeasurements k false nonce = d.emit (.spdm 0x60 (d.measured k)) := by
  have hnone : (decide (6 < k) && k != 255) = false := by
    rcases hk with hk | hk
    · rw [decide_eq_false (Nat.not_lt.mpr hk), Bool.false_and]
    · rw [hk, bne_self_eq_false, Bool.and_false]
  simp only [Dev.getMeasurements, Bool.false_and, hnone, Bool.or_self, Bool.false_eq_true, if_false, Dev.spdm_of_running h, Dev.measured]
  rfl

theorem Dev.getMeasurements_signed {k : Nat} (nonce : List Byte) (hk : 1 ≤ k) (hk6 : k ≤ 6) (hi : d.fon pgBoot Reg.BOOT.IDENTITY = true) :
    d.getMeasurements k true nonce = ({ d with free := d.free + 1 } : Dev).emit (.spdm 0x60 (d.measurement k ++
      Config.identitySign (nonce ++ d.measurement k) (Config.freeValue d.free))) := by
  have h0 : k ≠ 0 := by omega
  have h255 : k ≠ 255 := by omega
  simp only [Dev.getMeasurements, hi, decide_eq_false (Nat.not_lt.mpr hk6), Bool.false_and, Bool.not_true, Bool.and_false, Bool.or_self,
    Bool.false_eq_true, if_false, if_true, h0, h255, Dev.spdm_nextFree_of_running h, Dev.freeVal]

theorem Dev.spdmUnsupported_of_other {code : Nat} (hc : [0x81, 0x82, 0x83, 0x84, 0xE0, 0xE1, 0xE3].contains code = false) :
    d.spdmUnsupported code = d.emit (.spdm 0x7F []) :=
  (if_neg (Bool.eq_false_iff.mp hc)).trans (Dev.spdm_of_running h ..)

theorem Dev.sensorRead_of_running (k : Nat) : d.sensorRead k = d.emit (.pldm (
    if k < 26 then (d.sens k).last.getD 0
    else if k = 26 then ofField 16 (d.fget pgThermal Reg.THERMAL.T_MAX)
    else if k = 27 then (d.fget pgPower Reg.POWER.STEP : Int) else (d.fget pgPower Reg.POWER.P12V_POWER : Int))) :=
  if_neg (by rw [h]; decide)

theorem Dev.capEffecter_of_running (v : Nat) : d.capEffecter v = (d.fset pgPower Reg.POWER.POWER_CAP v).requestStep := if_pos h

end running

theorem Dev.measured_of_block {d : Dev} {k : Nat} (hk : 1 ≤ k) (hk6 : k ≤ 6) : d.measured k = d.measurement k := by
  rw [Dev.measured, if_neg (by omega), if_neg (by omega)]

/-! ### An image received (R356) -/

/-- The registers of the words received leave the rest: below 2^25 bytes they count them, beyond it they are free. -/
theorem Dev.showWords_effect (d : Dev) : d.showWords.boot = d.boot ∧
    (∀ f : Fld, Reg.BOOT.WORDS.slot ≠ f.slot → d.showWords.fget pgBoot f = d.fget pgBoot f) ∧
    (d.boot.recv.length < 2 ^ 25 → d.showWords.fget pgBoot Reg.BOOT.WORDS = d.boot.recv.length / 4) ∧
    { d.showWords with regs := d.regs, free := d.free } = d := by
  simp only [Dev.showWords]
  split
  · next hw =>
    exact ⟨rfl, fun f hf => Dev.fget_fset_slot _ _ _ _ hf, fun _ => (Dev.fget_fset_same ..).trans (Nat.mod_eq_of_lt hw), rfl⟩
  · next hw =>
    exact ⟨rfl, fun f hf => Dev.fget_fset_slot _ _ _ _ hf, fun h => absurd (by omega) hw, rfl⟩

/-- An update begun: the other slot open, no byte received (R356). -/
def Dev.opened (d : Dev) : Dev :=
  ((d.modBoot (fun b => { b with recv := [], openSlot := 1 - b.activeSlot })).fset pgBoot Reg.BOOT.STATUS 1).fset pgBoot Reg.BOOT.WORDS 0

theorem Dev.opened_frame (d : Dev) : { d.opened with boot := d.boot, regs := d.regs } = d := by
  have h := (Dev.regsOnly_fset (d.modBoot (fun b => { b with recv := [], openSlot := 1 - b.activeSlot })) pgBoot Reg.BOOT.STATUS 1).trans
    (Dev.regsOnly_fset _ pgBoot Reg.BOOT.WORDS 0)
  unfold Dev.regsOnly at h
  exact congrArg (fun x : Dev => { x with boot := d.boot }) h

theorem Dev.status_opened (d : Dev) : d.opened.fget pgBoot Reg.BOOT.STATUS = 1 :=
  (Dev.fget_fset_slot _ _ _ _ (by decide)).trans (Dev.fget_fset_same ..)

theorem Dev.updStart_of_idle {d : Dev} (h1 : d.fget pgBoot Reg.BOOT.STATUS ≠ 1) (h2 : d.fget pgBoot Reg.BOOT.STATUS ≠ 2) : d.updStart = d.opened := by
  simp only [Dev.updStart, h1, h2, or_self, if_false, Dev.clr_eq, Dev.opened]

theorem Dev.updStart_of_busy {d : Dev} (h : d.fget pgBoot Reg.BOOT.STATUS = 1 ∨ d.fget pgBoot Reg.BOOT.STATUS = 2) : d.updStart = d := if_pos h

theorem Dev.updEnd_of_open {d : Dev} (h : d.fget pgBoot Reg.BOOT.STATUS = 1) : d.updEnd = d.fset pgBoot Reg.BOOT.STATUS 2 := if_pos h

/-- The device with a whole image received in an update begun (R356). -/
def Dev.imaged (d : Dev) (im : List Byte) : Dev := d.opened.modBoot (fun b => { b with recv := im })

theorem Dev.imaged_frame (d : Dev) (im : List Byte) : { d.imaged im with boot := d.boot, regs := d.regs } = d := d.opened_frame

theorem Dev.pldmUpdate_eq {d : Dev} {im : List Byte} (h : d.chipStewards = true) (h1 : d.fget pgBoot Reg.BOOT.STATUS ≠ 1)
    (h2 : d.fget pgBoot Reg.BOOT.STATUS ≠ 2) : d.pldmUpdate im = (d.imaged im).showWords.fset pgBoot Reg.BOOT.STATUS 2 := by
  obtain ⟨-, hkeep, -, -⟩ := Dev.showWords_effect (d.imaged im)
  have hopen : (d.imaged im).showWords.fget pgBoot Reg.BOOT.STATUS = 1 :=
    (hkeep Reg.BOOT.STATUS (by decide)).trans d.status_opened
  simp only [Dev.pldmUpdate, h, beq_eq_false_iff_ne.mpr h1, beq_eq_false_iff_ne.mpr h2, Bool.not_true, Bool.or_self, Bool.false_eq_true, if_false,
    Dev.updStart_of_idle h1 h2]
  exact Dev.updEnd_of_open hopen

end Sys2Proof.Machine
end

section
/-! The statement about firmware's answers. -/

namespace Sys2Proof.Proofs

open Sys2Proof.Machine

/-- Settles O49: what firmware answers, and an image through PLDM. -/
theorem measurementsAreAnswered : Obligations.MeasurementsAreAnswered := by
  refine ⟨fun s h => ⟨?_, ?_, ?_, ?_, fun slot off len => ⟨fun hs => ?_, fun hs => ?_⟩, fun slot nonce hs hi => ?_, fun slot nonce hi => ?_,
      fun nonce => ⟨?_, ?_⟩, fun k nonce hk hk6 hi => ?_, fun k nonce hi => ?_, fun k nonce hk hk6 => ?_, fun k nonce hk hk' => ?_, fun code hc => ?_⟩,
    fun s h => ⟨?_, ?_, fun k v => ⟨?_, ?_, ?_⟩⟩, fun d => ⟨rfl, rfl, fun h => ?_⟩, fun s k h hk => ?_, fun s h => ⟨?_, ?_, ?_⟩, fun s v h => ?_,
    fun s im h h1 h2 => .of_onDev (exec_pldmFirmwareUpdate im s) ?_⟩
  · exact (exec_getVersion s).trans (State.onDev_congr (Dev.spdm_of_running h ..))
  · exact (exec_getCapabilities s).trans (State.onDev_congr (Dev.spdm_of_running h ..))
  · exact (exec_negotiateAlgorithms s).trans (State.onDev_congr (Dev.spdm_of_running h ..))
  · exact (exec_getDigests s).trans (State.onDev_congr (Dev.spdm_of_running h ..))
  · exact (exec_getCertificate slot off len s).trans (State.onDev_congr (Dev.getCertificate_of_slot h hs off len))
  · exact (exec_getCertificate slot off len s).trans (State.onDev_congr (Dev.getCertificate_of_none h hs off len))
  · exact (exec_challenge slot nonce s).trans (State.onDev_congr (Dev.challenge_of_slot h hs nonce hi))
  · exact (exec_challenge slot nonce s).trans (State.onDev_congr (Dev.challenge_of_anonymous h slot nonce hi))
  · exact (exec_getMeasurements 0 false nonce s).trans (State.onDev_congr (Dev.getMeasurements_plain h nonce (.inl (by decide))))
  · exact (exec_getMeasurements 255 false nonce s).trans (State.onDev_congr (Dev.getMeasurements_plain h nonce (.inr rfl)))
  · exact (exec_getMeasurements k true nonce s).trans (State.onDev_congr (Dev.getMeasurements_signed h nonce hk hk6 hi))
  · exact (exec_getMeasurements k true nonce s).trans (State.onDev_congr (Dev.getMeasurements_of_anonymous h k nonce hi))
  · exact (exec_getMeasurements k false nonce s).trans (State.onDev_congr ((Dev.getMeasurements_plain h nonce (.inl hk6)).trans
      (congrArg (fun l => s.dev.emit (.spdm 0x60 l)) (Dev.measured_of_block hk hk6))))
  · exact (exec_getMeasurements k false nonce s).trans (State.onDev_congr (Dev.getMeasurements_of_none h nonce hk hk'))
  · exact (exec_spdmUnsupportedRequest code s).trans (State.onDev_congr (Dev.spdmUnsupported_of_other h hc))
  · exact (exec_getVersion s).trans (State.onDev_of_eq (f := fun d => d.getVersion) (Dev.spdm_of_silent h ..))
  · exact (exec_getDigests s).trans (State.onDev_of_eq (f := fun d => d.getDigests) (Dev.spdm_of_silent h ..))
  · exact (exec_numericSensorRead k s).trans (State.onDev_of_eq (f := fun d => d.sensorRead k) (Dev.sensorRead_of_silent h k))
  · exact (exec_powerCapEffecter v s).trans (State.onDev_of_eq (f := fun d => d.capEffecter v) (Dev.capEffecter_of_silent h v))
  · exact (exec_pldmFirmwareUpdate [] s).trans (State.onDev_of_eq (f := fun d => d.pldmUpdate []) (Dev.pldmUpdate_of_silent h []))
  · simp only [Dev.measurement, h]
    rfl
  · exact (exec_numericSensorRead k s).trans (State.onDev_congr ((Dev.sensorRead_of_running h k).trans (congrArg (fun v => s.dev.emit (.pldm v)) (if_pos hk))))
  · exact (exec_numericSensorRead 26 s).trans (State.onDev_congr (Dev.sensorRead_of_running h 26))
  · exact (exec_numericSensorRead 27 s).trans (State.onDev_congr (Dev.sensorRead_of_running h 27))
  · exact (exec_numericSensorRead 28 s).trans (State.onDev_congr (Dev.sensorRead_of_running h 28))
  · exact (exec_powerCapEffecter v s).trans (State.onDev_congr (Dev.capEffecter_of_running h v))
  · obtain ⟨hboot, -, hwords, hframe⟩ := Dev.showWords_effect (s.dev.imaged im)
    rw [State.modDev, Dev.pldmUpdate_eq h h1 h2]
    refine ⟨hboot, Dev.fget_fset_same .., fun hlt => (Dev.fget_fset_slot _ _ _ _ (by decide)).trans (hwords hlt), ?_⟩
    have hrest := congrArg (fun d : Dev => { d with boot := s.dev.boot, regs := s.dev.regs }) hframe
    exact congrArg (fun d => { s with dev := d }) (hrest.trans (Dev.imaged_frame s.dev im))

end Sys2Proof.Proofs
end

section
/-! Firmware updates (R354 to R356) and the security version counter (R357). -/

namespace Sys2Proof.Machine

theorem exec_updateStart (a : Accessor) (s : State) : exec (.updateStart a) s = s.writeDev a pgBoot (fun d => d.updStart) := rfl
theorem exec_updData (a : Accessor) (v : BitVec 32) (s : State) : exec (.updData a v) s = s.writeDev a pgBoot (fun d => d.updData v.toNat) := rfl
theorem exec_updateEnd (a : Accessor) (s : State) : exec (.updateEnd a) s = s.writeDev a pgBoot (fun d => d.updEnd) := rfl
theorem exec_updateRelease (a : Accessor) (s : State) : exec (.updateRelease a) s = s.writeDev a pgBoot (fun d => d.updRelease) := rfl
theorem exec_svnCommit (a : Accessor) (s : State) : exec (.svnCommit a) s = s.writeDev a pgBoot (fun d => d.svnCommit) := rfl
theorem exec_updateVerifyDone (ok : Bool) (s : State) : exec (.updateVerifyDone ok) s = s.onDev (fun d => d.updDone ok) := rfl
theorem exec_svnCommitDone (s : State) : exec .svnCommitDone s = s.onDev (fun d => d.svnDone) := rfl

section update

variable {d : Dev} {v : Nat}

theorem Dev.updData_of_closed (h : d.fget pgBoot Reg.BOOT.STATUS ≠ 1) : d.updData v = d := if_pos h

theorem Dev.updData_of_open (h : d.fget pgBoot Reg.BOOT.STATUS = 1) :
    d.updData v = (d.modBoot (fun b => { b with recv := b.recv ++ bytesLE 4 v })).showWords := if_neg (not_not_intro h)

theorem Dev.updEnd_of_closed (h : d.fget pgBoot Reg.BOOT.STATUS ≠ 1) : d.updEnd = d := if_neg h

/-- Data received (R356): 4 bytes more, counted in WORDS. -/
theorem Dev.updData_effect (h : d.fget pgBoot Reg.BOOT.STATUS = 1) :
    (d.updData v).boot = { d.boot with recv := d.boot.recv ++ bytesLE 4 v } ∧
    (d.boot.recv.length + 4 < 2 ^ 25 → (d.updData v).fget pgBoot Reg.BOOT.WORDS = (d.boot.recv.length + 4) / 4) ∧
    { d.updData v with boot := d.boot, regs := d.regs, free := d.free } = d := by
  have hlen : (d.boot.recv ++ bytesLE 4 v).length = d.boot.recv.length + 4 := by rw [List.length_append, length_bytesLE]
  obtain ⟨hboot, -, hwords, hframe⟩ := Dev.showWords_effect (d.modBoot (fun b => { b with recv := b.recv ++ bytesLE 4 v }))
  rw [Dev.updData_of_open h]
  refine ⟨hboot, fun hlt => (hwords ?_).trans ?_, ?_⟩
  · exact hlen.trans_lt hlt
  · exact congrArg (· / 4) hlen
  · exact congrArg (fun x : Dev => { x with boot := d.boot }) hframe

theorem Dev.updRelease_of_running (h : d.fget pgBoot Reg.BOOT.STATE ≠ 2) : d.updRelease = d := if_pos (.inl h)

/-- The device with the staged image in the active banks (R355). -/
def Dev.activated (d : Dev) : Dev := d.modBoot (fun b => { b with active := b.staged, activeSlot := b.stagedSlot })

theorem Dev.updRelease_of_recovery (h : d.fget pgBoot Reg.BOOT.STATE = 2) (hs : d.fget pgBoot Reg.BOOT.STATUS = 3) : d.updRelease =
    (d.activated.releaseStewards.fset pgMgmt Reg.MGMT.PHASE 5).modTherm (fun t => { t with steps := 5 :: t.steps }) :=
  if_neg (by rw [h, hs]; decide)

theorem Dev.releaseStewards_effect (d : Dev) : d.releaseStewards.boot = d.boot ∧ d.releaseStewards.fget pgBoot Reg.BOOT.STATE = 1 ∧
    d.releaseStewards.fget pgBoot Reg.BOOT.IMAGE_VERSION = imgVersion (d.boot.active.getD []) % 2 ^ Reg.BOOT.IMAGE_VERSION.w :=
  ⟨rfl, Dev.fget_fset_same .., (Dev.fget_fset_slot _ _ _ _ (by decide)).trans (Dev.fget_fset_same ..)⟩

/-- A release from recovery (R355, R356). -/
theorem Dev.updRelease_effect (h : d.fget pgBoot Reg.BOOT.STATE = 2) (hs : d.fget pgBoot Reg.BOOT.STATUS = 3) :
    d.updRelease.boot = { d.boot with active := d.boot.staged, activeSlot := d.boot.stagedSlot } ∧
    d.updRelease.fget pgBoot Reg.BOOT.STATE = 1 ∧ d.updRelease.fget pgMgmt Reg.MGMT.PHASE = 5 ∧
    d.updRelease.fget pgBoot Reg.BOOT.IMAGE_VERSION = imgVersion (d.boot.staged.getD []) % 2 ^ Reg.BOOT.IMAGE_VERSION.w := by
  obtain ⟨hboot, hstate, hversion⟩ := Dev.releaseStewards_effect d.activated
  rw [Dev.updRelease_of_recovery h hs, Dev.fget_modTherm, Dev.fget_modTherm, Dev.fget_modTherm]
  exact ⟨hboot, (Dev.fget_fset_page _ _ _ _ (by decide)).trans hstate, Dev.fget_fset_same .., (Dev.fget_fset_page _ _ _ _ (by decide)).trans hversion⟩

/-! ### The verification's end -/

theorem Dev.updDone_of_idle (ok : Bool) (h : d.fget pgBoot Reg.BOOT.STATUS ≠ 2) : d.updDone ok = d := if_pos h

theorem imgCode_cases (counter : Nat) (im : List Byte) : imgCode counter im = 0 ∨ (4 ≤ imgCode counter im ∧ imgCode counter im ≤ 7) := by
  rw [imgCode]
  repeat' split
  all_goals omega

section verified

variable (h : d.fget pgBoot Reg.BOOT.STATUS = 2)

include h

theorem Dev.updDone_of_failed (ok : Bool) (hc : imgCode d.svnFuses d.boot.recv ≠ 0) : d.updDone ok =
    if imgCode d.svnFuses d.boot.recv = 6 then (d.updFails 6).fset pgBoot Reg.BOOT.SVN_EXHAUSTED 1
    else d.updFails (imgCode d.svnFuses d.boot.recv) := by
  rw [Dev.updDone, if_neg (not_not_intro h)]
  dsimp only
  split
  · next h0 => exact absurd h0 hc
  · next h6 => rw [h6, if_pos rfl, Dev.ev_eq]
  · next h6 => rw [if_neg h6]

/-- The device with the image in flash and in the inactive banks (R356). -/
def Dev.imageStaged (d : Dev) : Dev :=
  (d.setSlot d.boot.openSlot (.image d.boot.recv)).modBoot (fun b => { b with staged := some d.boot.recv, stagedSlot := d.boot.openSlot })

theorem Dev.updDone_of_staged (hc : imgCode d.svnFuses d.boot.recv = 0) :
    d.updDone true = (d.imageStaged.fset pgBoot Reg.BOOT.STATUS 3).fset pgBoot Reg.BOOT.STAGED 1 := by
  simp only [Dev.updDone, h, ne_eq, not_true, if_false, hc, if_true, Dev.imageStaged, Dev.ev_eq]

theorem Dev.updDone_of_badFlash (hc : imgCode d.svnFuses d.boot.recv = 0) :
    d.updDone false = (d.nextFree.setSlot d.boot.openSlot (.unknown (2 + d.free))).updFails 8 := by
  simp only [Dev.updDone, h, ne_eq, not_true, if_false, hc, Bool.false_eq_true]

end verified

theorem Dev.setSlot_boot (d : Dev) (k : Nat) (x : Slot) : (d.setSlot k x).boot.active = d.boot.active ∧ (d.setSlot k x).boot.staged = d.boot.staged ∧
    { d.setSlot k x with boot := d.boot } = d := by
  refine ⟨?_, ?_, rfl⟩
  all_goals
    rw [Dev.setSlot, Dev.modBoot]
    dsimp only
    split <;> rfl

theorem Dev.updFails_effect (d : Dev) {c : Nat} (hc : c < 16) : (d.updFails c).fget pgBoot Reg.BOOT.STATUS = c ∧
    (d.updFails c).fget pgBoot Reg.BOOT.STAGE_FAIL = 1 ∧ (d.updFails c).boot = d.boot ∧ d.regsOnly (d.updFails c) :=
  ⟨(Dev.fget_fset_slot _ _ _ _ (by decide)).trans ((Dev.fget_fset_same ..).trans (Nat.mod_eq_of_lt hc)), Dev.fget_fset_same .., rfl,
    (Dev.regsOnly_fset ..).trans (Dev.regsOnly_fset ..)⟩

/-- A verification that fails (R356): the first failing check's code, and no more. -/
theorem Dev.updDone_failed_effect (ok : Bool) (h : d.fget pgBoot Reg.BOOT.STATUS = 2) (hc : imgCode d.svnFuses d.boot.recv ≠ 0) :
    (d.updDone ok).fget pgBoot Reg.BOOT.STATUS = imgCode d.svnFuses d.boot.recv ∧ (d.updDone ok).fget pgBoot Reg.BOOT.STAGE_FAIL = 1 ∧
    (imgCode d.svnFuses d.boot.recv = 6 → (d.updDone ok).fget pgBoot Reg.BOOT.SVN_EXHAUSTED = 1) ∧ d.regsOnly (d.updDone ok) := by
  rw [Dev.updDone_of_failed h ok hc]
  have hcode := imgCode_cases d.svnFuses d.boot.recv
  by_cases h6 : imgCode d.svnFuses d.boot.recv = 6
  · obtain ⟨hstatus, hfail, -, hregs⟩ := Dev.updFails_effect d (c := 6) (by decide)
    rw [if_pos h6, h6]
    exact ⟨(Dev.fget_fset_slot _ _ _ _ (by decide)).trans hstatus, (Dev.fget_fset_slot _ _ _ _ (by decide)).trans hfail,
      fun _ => Dev.fget_fset_same .., hregs.trans (Dev.regsOnly_fset ..)⟩
  · obtain ⟨hstatus, hfail, -, hregs⟩ := Dev.updFails_effect d (c := imgCode d.svnFuses d.boot.recv) (by omega)
    rw [if_neg h6]
    exact ⟨hstatus, hfail, fun hc6 => absurd hc6 h6, hregs⟩

theorem Dev.imageStaged_frame (d : Dev) : d.imageStaged.boot.active = d.boot.active ∧ { d.imageStaged with boot := d.boot } = d := by
  obtain ⟨hactive, -, hframe⟩ := d.setSlot_boot d.boot.openSlot (.image d.boot.recv)
  exact ⟨hactive, hframe⟩

/-- The image staged (R356). -/
theorem Dev.updDone_staged_effect (h : d.fget pgBoot Reg.BOOT.STATUS = 2) (hc : imgCode d.svnFuses d.boot.recv = 0) :
    (d.updDone true).boot.staged = some d.boot.recv ∧ (d.updDone true).boot.stagedSlot = d.boot.openSlot ∧
    (d.updDone true).boot.active = d.boot.active ∧ (d.updDone true).fget pgBoot Reg.BOOT.STATUS = 3 ∧
    (d.updDone true).fget pgBoot Reg.BOOT.STAGED = 1 ∧ { d.updDone true with boot := d.boot, regs := d.regs } = d := by
  obtain ⟨hactive, hframe⟩ := d.imageStaged_frame
  rw [Dev.updDone_of_staged h hc]
  have hregs := (Dev.regsOnly_fset d.imageStaged pgBoot Reg.BOOT.STATUS 3).trans (Dev.regsOnly_fset _ pgBoot Reg.BOOT.STAGED 1)
  unfold Dev.regsOnly at hregs
  have hboot := congrArg (fun x : Dev => { x with boot := d.boot }) hregs
  exact ⟨rfl, rfl, hactive, (Dev.fget_fset_slot _ _ _ _ (by decide)).trans (Dev.fget_fset_same ..), Dev.fget_fset_same .., hboot.trans hframe⟩

theorem Dev.updDone_badFlash_effect (h : d.fget pgBoot Reg.BOOT.STATUS = 2) (hc : imgCode d.svnFuses d.boot.recv = 0) :
    (d.updDone false).fget pgBoot Reg.BOOT.STATUS = 8 ∧ (d.updDone false).fget pgBoot Reg.BOOT.STAGE_FAIL = 1 ∧
    (d.updDone false).boot.staged = d.boot.staged := by
  rw [Dev.updDone_of_badFlash h hc]
  obtain ⟨-, hstaged, -⟩ := d.nextFree.setSlot_boot d.boot.openSlot (.unknown (2 + d.free))
  obtain ⟨hstatus, hfail, hboot, -⟩ := Dev.updFails_effect (d.nextFree.setSlot d.boot.openSlot (.unknown (2 + d.free))) (c := 8) (by decide)
  exact ⟨hstatus, hfail, (congrArg Boot.staged hboot).trans hstaged⟩

end update

/-! ### The security version counter (R357) -/

section svn

variable {d : Dev}

theorem Dev.svnCommit_of_below (h : d.svnFuses < d.svnAim) : d.svnCommit = d.fset pgBoot Reg.BOOT.BUSY 1 := if_pos h

theorem Dev.svnCommit_of_reached (h : d.svnAim ≤ d.svnFuses) : d.svnCommit = d := if_neg (Nat.not_lt.mpr h)

theorem Dev.svnDone_of_idle (h : d.fon pgBoot Reg.BOOT.BUSY = false) : d.svnDone = d := by
  simp only [Dev.svnDone, h, Bool.not_false, if_true]

theorem Dev.svnDone_of_busy (h : d.fon pgBoot Reg.BOOT.BUSY = true) : d.svnDone =
    (({ d with svnFuses := max d.svnFuses d.svnAim } : Dev).fset pgBoot Reg.BOOT.BUSY 0).fset pgBoot Reg.BOOT.SVN_RAISED 1 := by
  simp only [Dev.svnDone, h, Bool.not_true, Bool.false_eq_true, if_false, Dev.clr_eq, Dev.ev_eq]

end svn

end Sys2Proof.Machine
end

section
/-! The statement about firmware updates. -/

namespace Sys2Proof.Proofs

open Sys2Proof.Machine

/-- Settles O50: START, data, END, the verification's end, RELEASE, and the counter. -/
theorem firmwareUpdates : Obligations.FirmwareUpdates := by
  refine fun s a => ⟨fun ho => ⟨fun h1 h2 => .of_writeDev (exec_updateStart a s) ho ?start, fun h => ?busy,
      fun v h => .of_writeDev (exec_updData a v s) ho ?data, fun v h => ⟨?_, ?_⟩, fun h => ?_, fun h => ?_,
      fun h hs => .of_writeDev (exec_updateRelease a s) ho ?release, fun h => ?_, fun h => ?_⟩,
    fun ok h => ?_, fun ok c h hc => .of_onDev (exec_updateVerifyDone ok s) ?verify, fun h => .of_onDev (exec_svnCommitDone s) ?svn, fun h => ?_⟩
  case start =>
    rw [State.modDev, Dev.updStart_of_idle h1 h2]
    exact ⟨rfl, s.dev.status_opened, Dev.fget_fset_same .., congrArg (fun d => { s with dev := d }) s.dev.opened_frame⟩
  case busy => exact (exec_updateStart a s).trans (State.writeDev_of_eq (g := id) ho (Dev.updStart_of_busy h))
  case data =>
    obtain ⟨hboot, hwords, hframe⟩ := Dev.updData_effect (v := v.toNat) h
    exact ⟨hboot, hwords, congrArg (fun d => { s with dev := d }) hframe⟩
  case release => exact Dev.updRelease_effect h hs
  case verify =>
    subst hc
    refine ⟨fun hc => ?_, fun hc hok => ?_, fun hc hok => ?_⟩
    · obtain ⟨hstatus, hfail, hsix, hregs⟩ := Dev.updDone_failed_effect ok h hc
      exact ⟨hstatus, hfail, hsix, congrArg (fun d => { s with dev := d }) hregs⟩
    · subst hok
      obtain ⟨hstaged, hslot, hactive, hstatus, hevent, hframe⟩ := Dev.updDone_staged_effect h hc
      exact ⟨hstaged, hslot, hactive, hstatus, hevent, congrArg (fun d => { s with dev := d }) hframe⟩
    · subst hok
      exact Dev.updDone_badFlash_effect h hc
  case svn =>
    rw [State.modDev, Dev.svnDone_of_busy h]
    exact ⟨rfl, (Dev.fget_fset_slot _ _ _ _ (by decide)).trans (Dev.fget_fset_same ..), Dev.fget_fset_same .., rfl⟩
  · exact (exec_updData a v s).trans (State.writeDev_of_eq (g := id) ho (Dev.updData_of_closed h))
  · exact (exec_updateEnd a s).trans (State.writeDev_of_eq (g := id) ho (Dev.updEnd_of_closed h))
  · exact (exec_updateEnd a s).trans (State.writeDev_of_eq ho (Dev.updEnd_of_open h))
  · exact (exec_updateRelease a s).trans (State.writeDev_of_eq (g := id) ho (Dev.updRelease_of_running h))
  · exact (exec_svnCommit a s).trans (State.writeDev_of_eq ho (Dev.svnCommit_of_below h))
  · exact (exec_svnCommit a s).trans (State.writeDev_of_eq (g := id) ho (Dev.svnCommit_of_reached h))
  · exact (exec_updateVerifyDone ok s).trans (State.onDev_of_eq (f := fun d => d.updDone ok) (Dev.updDone_of_idle ok h))
  · exact (exec_svnCommitDone s).trans (State.onDev_of_eq (f := fun d => d.svnDone) (Dev.svnDone_of_idle h))

end Sys2Proof.Proofs
end

section
/-! Key loads and clears (R358, R373), and tamper conditions (R369, R370, R372). -/

namespace Sys2Proof.Machine

theorem exec_kekGo (a : Accessor) (s : State) : exec (.kekGo a) s = s.writeDev a pgKeystore (fun d => d.kekGo) := rfl
theorem exec_keyGo (a : Accessor) (s : State) : exec (.keyGo a) s = s.writeDev a pgKeystore (fun d => d.keyGo) := rfl
theorem exec_kekClear (a : Accessor) (s : State) : exec (.kekClear a) s = s.writeDev a pgKeystore (fun d => d.kekClear) := rfl
theorem exec_keyClear (a : Accessor) (s : State) :
    exec (.keyClear a) s = s.write a pgKeystore (fun s => .next (s.modDev (fun d => d.keyClear.followAll))) := rfl
theorem exec_kekLoadDone (s : State) : exec .kekLoadDone s = s.onDev (fun d => d.kekDone) := rfl
theorem exec_keyLoadDone (s : State) : exec .keyLoadDone s = s.onDev (fun d => d.keyDone) := rfl
theorem exec_zeroiseAll (a : Accessor) (s : State) :
    exec (.zeroiseAll a) s = s.write a pgAlarm (fun s => .next (s.modDev (fun d => d.zeroiseAll.followAll))) := rfl

theorem bitAt_clrBit (x i : Nat) : bitAt (clrBit x i) i = false := by
  rw [clrBit]
  by_cases h : bitAt x i
  · rw [if_pos h]
    rw [bitAt_eq_testBit, Nat.testBit_eq_decide_div_mod_eq, decide_eq_true_iff] at h
    rw [bitAt_eq_testBit, Nat.testBit_eq_decide_div_mod_eq, decide_eq_false_iff_not]
    have hdiv : (x - 2 ^ i) / 2 ^ i = x / 2 ^ i - 1 := by
      have hsub := Nat.sub_mul_div x (2 ^ i) 1
      rwa [Nat.mul_one] at hsub
    omega
  · rw [if_neg h]
    exact Bool.eq_false_iff.mpr h

theorem bitAt_mod_two_pow_of_clear {x i w : Nat} (h : bitAt x i = false) : bitAt (x % 2 ^ w) i = false := by
  rw [bitAt_eq_testBit] at h ⊢
  rw [Nat.testBit_mod_two_pow, h, Bool.and_false]

/-- A bit of a field cleared reads 0. -/
theorem Dev.bitAt_bitPut_clear (d : Dev) (pg : PageId) (f : Fld) (i : Nat) : bitAt ((d.bitPut pg f i false).fget pg f) i = false := by
  rw [Dev.bitPut, Dev.fget_fset_same]
  exact bitAt_mod_two_pow_of_clear (bitAt_clrBit ..)

section loads

variable {d : Dev}

/-- A load or clear ended (R358): its RESULT, DONE, and BUSY clear; no key changes. -/
theorem Dev.ksEnds_effect (d : Dev) {r : Nat} (hr : r < 16) : (d.ksEnds r).fget pgKeystore Reg.KEYSTORE.RESULT = r ∧ (d.ksEnds r).fget pgKeystore Reg.KEYSTORE.DONE = 1 ∧
    (d.ksEnds r).fget pgKeystore Reg.KEYSTORE.BUSY = 0 ∧
    (d.ksEnds r).fget pgKeystore Reg.KEYSTORE.UNWRAP_FAIL = d.fget pgKeystore Reg.KEYSTORE.UNWRAP_FAIL := by
  refine ⟨?_, Dev.fget_fset_same .., ?_, ?_⟩
  · exact (Dev.fget_fset_slot _ _ _ _ (by decide)).trans ((Dev.fget_fset_same ..).trans (Nat.mod_eq_of_lt hr))
  · exact (Dev.fget_fset_slot _ _ _ _ (by decide)).trans ((Dev.fget_fset_slot _ _ _ _ (by decide)).trans (Dev.fget_fset_same ..))
  · exact (Dev.fget_fset_slot _ _ _ _ (by decide)).trans ((Dev.fget_fset_slot _ _ _ _ (by decide)).trans (Dev.fget_fset_slot _ _ _ _ (by decide)))

theorem Dev.ksLoad_ksEnds (d : Dev) (r : Nat) : (d.ksEnds r).keep.ksLoad = none := rfl
theorem Dev.keks_ksEnds (d : Dev) (r : Nat) : (d.ksEnds r).keep.keks = d.keep.keks := rfl
theorem Dev.slots_ksEnds (d : Dev) (r : Nat) : (d.ksEnds r).keep.slots = d.keep.slots := rfl
theorem Dev.kek_ksEnds (d : Dev) (r k : Nat) : (d.ksEnds r).kek k = d.kek k := rfl
theorem Dev.slot_ksEnds (d : Dev) (r k : Nat) : (d.ksEnds r).slot k = d.slot k := rfl
theorem Dev.kek_bitPut (d : Dev) (pg : PageId) (f : Fld) (i : Nat) (b : Bool) (k : Nat) : (d.bitPut pg f i b).kek k = d.kek k := rfl

theorem Dev.kek_loaded (d : Dev) (k : Nat) (key : List Byte) : (d.modKeep (fun x => { x with keks := mset (fun _ => []) x.keks k key })).kek k = key :=
  mget_mset_same (fun _ => []) d.keep.keks k key

theorem Dev.result_ksEnds (d : Dev) {r : Nat} (hr : r < 16) : (d.ksEnds r).fget pgKeystore Reg.KEYSTORE.RESULT = r := by
  obtain ⟨hresult, -⟩ := d.ksEnds_effect hr
  exact hresult

/-! #### Their beginning -/

theorem Dev.kekGo_of_busy (h : d.fon pgKeystore Reg.KEYSTORE.BUSY = true) : d.kekGo = d := if_pos h

theorem Dev.keyGo_of_busy (h : d.fon pgKeystore Reg.KEYSTORE.BUSY = true) : d.keyGo = d := if_pos h

section idle

variable (h : d.fon pgKeystore Reg.KEYSTORE.BUSY = false)

include h

theorem Dev.kekGo_of_tamper (ht : d.tamperLatched = true) : d.kekGo = d.ksEnds 4 := by
  simp only [Dev.kekGo, h, Bool.false_eq_true, if_false, ht, if_true]

theorem Dev.kekGo_of_anonymous (ht : d.tamperLatched = false) (hi : d.fon pgBoot Reg.BOOT.IDENTITY = false) : d.kekGo = d.ksEnds 5 := by
  simp only [Dev.kekGo, h, Bool.false_eq_true, if_false, ht, hi, Bool.not_false, if_true]

theorem Dev.kekGo_of_sound (ht : d.tamperLatched = false) (hi : d.fon pgBoot Reg.BOOT.IDENTITY = true) : d.kekGo =
    (d.modKeep (fun k => { k with ksLoad := some (.kek (d.fget pgKeystore Reg.KEYSTORE.KEK) (d.keyIn 512)) })).fset pgKeystore Reg.KEYSTORE.BUSY 1 := by
  simp only [Dev.kekGo, h, Bool.false_eq_true, if_false, ht, hi, Bool.not_true, Dev.ev_eq]

theorem Dev.keyGo_of_bound (hb : d.slotBound (d.fget pgKeystore Reg.KEYSTORE.SLOT) = true) : d.keyGo = d.ksEnds 1 := by
  simp only [Dev.keyGo, h, Bool.false_eq_true, if_false, hb, if_true]

variable (hb : d.slotBound (d.fget pgKeystore Reg.KEYSTORE.SLOT) = false)

include hb

theorem Dev.keyGo_of_noKek (hk : d.kek (d.fget pgKeystore Reg.KEYSTORE.KEK) = []) : d.keyGo = d.ksEnds 2 := by
  simp only [Dev.keyGo, h, Bool.false_eq_true, if_false, hb, hk, List.isEmpty_nil, if_true]

variable (hk : d.kek (d.fget pgKeystore Reg.KEYSTORE.KEK) ≠ [])

include hk

theorem Dev.keyGo_of_tamper (ht : d.tamperLatched = true) : d.keyGo = d.ksEnds 4 := by
  simp only [Dev.keyGo, h, Bool.false_eq_true, if_false, hb, List.isEmpty_eq_false_iff.mpr hk, ht, if_true]

theorem Dev.keyGo_of_sound (ht : d.tamperLatched = false) : d.keyGo = (d.modKeep (fun x => { x with
    ksLoad := some (.key (d.fget pgKeystore Reg.KEYSTORE.SLOT) (d.fget pgKeystore Reg.KEYSTORE.KEK)
      (d.kek (d.fget pgKeystore Reg.KEYSTORE.KEK)) (d.keyIn 40)
      (2 ^ 32 * d.fget pgKeystore Reg.KEYSTORE.KEY_ID_HI + d.fget pgKeystore Reg.KEYSTORE.KEY_ID_LO)
      (d.fget pgKeystore Reg.KEYSTORE.IV_FIXED)) })).fset pgKeystore Reg.KEYSTORE.BUSY 1 := by
  simp only [Dev.keyGo, h, Bool.false_eq_true, if_false, hb, List.isEmpty_eq_false_iff.mpr hk, ht, Dev.ev_eq]

end idle

/-! #### Their end -/

theorem Dev.kekDone_of_none (h : d.keep.ksLoad = none) : d.kekDone = d := by
  simp only [Dev.kekDone, h]

theorem Dev.keyDone_of_none (h : d.keep.ksLoad = none) : d.keyDone = d := by
  simp only [Dev.keyDone, h]

section kek

variable {k : Nat} {ct : List Byte} (h : d.keep.ksLoad = some (.kek k ct))

include h

theorem Dev.kekDone_of_garbled (hd : ∀ key, Config.oaepDecrypt ct = some key → key.length ≠ 32) : d.kekDone = d.ksEnds 6 := by
  simp only [Dev.kekDone, h]
  split
  · next key hkey => rw [if_pos (hd key hkey)]
  · rfl

variable {key : List Byte} (hd : Config.oaepDecrypt ct = some key) (hl : key.length = 32)

include hd hl

theorem Dev.kekDone_of_cancelled (hc : d.keep.ksCancelled = true) : d.kekDone = d.ksEnds 0 := by
  simp only [Dev.kekDone, h, hd, hl, ne_eq, not_true, if_false, hc, if_true]

theorem Dev.kekDone_of_sound (hc : d.keep.ksCancelled = false) : d.kekDone =
    ((d.modKeep (fun x => { x with keks := mset (fun _ => []) x.keks k key })).bitPut pgKeystore Reg.KEYSTORE.KEK_VALID k true).ksEnds 0 := by
  simp only [Dev.kekDone, h, hd, hl, ne_eq, not_true, if_false, hc, Bool.false_eq_true]

end kek

section key

variable {x k keyId ivFixed : Nat} {kek ct : List Byte} (h : d.keep.ksLoad = some (.key x k kek ct keyId ivFixed))

include h

theorem Dev.keyDone_of_garbled (hd : Config.keyUnwrap kek ct = none) :
    d.keyDone = ((d.bump pgKeystore Reg.KEYSTORE.UNWRAP_FAILS 1).fset pgKeystore Reg.KEYSTORE.UNWRAP_FAIL 1).ksEnds 3 := by
  simp only [Dev.keyDone, h, hd, Dev.ev_eq]

theorem Dev.keyDone_of_short {key : List Byte} (hd : Config.keyUnwrap kek ct = some key) (hl : key.length ≠ 32) :
    d.keyDone = ((d.bump pgKeystore Reg.KEYSTORE.UNWRAP_FAILS 1).fset pgKeystore Reg.KEYSTORE.UNWRAP_FAIL 1).ksEnds 3 := by
  simp only [Dev.keyDone, h, hd, ne_eq, hl, not_false_eq_true, if_true, Dev.ev_eq]

variable {key : List Byte} (hd : Config.keyUnwrap kek ct = some key) (hl : key.length = 32)

include hd hl

theorem Dev.keyDone_of_cancelled (hc : d.keep.ksCancelled = true) : d.keyDone = d.ksEnds 0 := by
  simp only [Dev.keyDone, h, hd, hl, ne_eq, not_true, if_false, hc, if_true]

theorem Dev.keyDone_of_sound (hc : d.keep.ksCancelled = false) : d.keyDone =
    (d.modSlot x (fun y => { y with loaded := true, key := key, keyId := keyId, ivFixed := ivFixed, ivCount := 0, kekUsed := k })).ksEnds 0 := by
  simp only [Dev.keyDone, h, hd, hl, ne_eq, not_true, if_false, hc, Bool.false_eq_true]

end key

/-! #### Clears -/

theorem Dev.keyClear_of_free (h : d.slotBound (d.fget pgKeystore Reg.KEYSTORE.SLOT) = false) : d.keyClear =
    (d.modSlot (d.fget pgKeystore Reg.KEYSTORE.SLOT) (fun x => { x with loaded := false, key := List.replicate 32 0 })).fset pgKeystore
      Reg.KEYSTORE.DONE 1 := by
  simp only [Dev.keyClear, h, Bool.false_eq_true, if_false, Dev.ev_eq]
  rfl

theorem Dev.keyClear_of_bound (h : d.slotBound (d.fget pgKeystore Reg.KEYSTORE.SLOT) = true) : d.keyClear =
    (d.zeroise [d.fget pgKeystore Reg.KEYSTORE.SLOT] false).fset pgKeystore Reg.KEYSTORE.DONE 1 := by
  simp only [Dev.keyClear, h, if_true, Dev.ev_eq]

theorem Dev.kekClear_effect (d : Dev) : d.kekClear.kek (d.fget pgKeystore Reg.KEYSTORE.KEK) = [] ∧
    (∀ k, k ≠ d.fget pgKeystore Reg.KEYSTORE.KEK → d.kekClear.kek k = d.kek k) ∧
    bitAt (d.kekClear.fget pgKeystore Reg.KEYSTORE.KEK_VALID) (d.fget pgKeystore Reg.KEYSTORE.KEK) = false ∧
    d.kekClear.fget pgKeystore Reg.KEYSTORE.DONE = 1 := by
  refine ⟨(mget_mdel ..).trans (if_pos rfl), fun k hk => (mget_mdel ..).trans (if_neg hk.symm), ?_, Dev.fget_fset_same ..⟩
  rw [Dev.kekClear, Dev.ev_eq, Dev.fget_fset_slot _ _ _ _ (by decide)]
  exact Dev.bitAt_bitPut_clear ..

end loads

end Sys2Proof.Machine
end

section
/-! The statement about key loads and zeroisation. -/

namespace Sys2Proof.Proofs

open Sys2Proof.Machine

/-- The end of a KEK's load (R358, R372). -/
theorem kekDone_effect {d : Dev} {k : Nat} {ct : List Byte} (h : d.keep.ksLoad = some (.kek k ct)) :
    d.kekDone.keep.ksLoad = none ∧ d.kekDone.fget pgKeystore Reg.KEYSTORE.DONE = 1 ∧ d.kekDone.fget pgKeystore Reg.KEYSTORE.BUSY = 0 ∧
    (∀ key, Config.oaepDecrypt ct = some key → key.length = 32 → d.kekDone.fget pgKeystore Reg.KEYSTORE.RESULT = 0 ∧
      (d.keep.ksCancelled = false → d.kekDone.kek k = key)) ∧
    (d.keep.ksCancelled = true → d.kekDone.keep.keks = d.keep.keks) ∧
    (Config.oaepDecrypt ct = none → d.kekDone.fget pgKeystore Reg.KEYSTORE.RESULT = 6 ∧ d.kekDone.keep.keks = d.keep.keks) := by
  by_cases hg : ∀ key, Config.oaepDecrypt ct = some key → key.length ≠ 32
  · obtain ⟨hresult, hdone, hbusy, -⟩ := d.ksEnds_effect (r := 6) (by decide)
    rw [Dev.kekDone_of_garbled h hg, Dev.ksLoad_ksEnds, Dev.keks_ksEnds]
    exact ⟨rfl, hdone, hbusy, fun key hd hl => absurd hl (hg key hd), fun _ => rfl, fun _ => ⟨hresult, rfl⟩⟩
  · push Not at hg
    obtain ⟨key, hd, hl⟩ := hg
    have hsome (hn : Config.oaepDecrypt ct = none) : False := by cases hd.symm.trans hn
    cases hc : d.keep.ksCancelled with
    | true =>
      obtain ⟨hresult, hdone, hbusy, -⟩ := d.ksEnds_effect (r := 0) (by decide)
      rw [Dev.kekDone_of_cancelled h hd hl hc, Dev.ksLoad_ksEnds, Dev.keks_ksEnds]
      exact ⟨rfl, hdone, hbusy, fun _ _ _ => ⟨hresult, (by rintro ⟨⟩)⟩, fun _ => rfl, fun hn => (hsome hn).elim⟩
    | false =>
      rw [Dev.kekDone_of_sound h hd hl hc]
      obtain ⟨hresult, hdone, hbusy, -⟩ := Dev.ksEnds_effect ((d.modKeep (fun x => { x with
        keks := mset (fun _ => []) x.keks k key })).bitPut pgKeystore Reg.KEYSTORE.KEK_VALID k true) (r := 0) (by decide)
      refine ⟨Dev.ksLoad_ksEnds .., hdone, hbusy, fun key' hd' _ => ⟨hresult, fun _ => ?_⟩, (by rintro ⟨⟩), fun hn => (hsome hn).elim⟩
      rw [Dev.kek_ksEnds, Dev.kek_bitPut, Dev.kek_loaded]
      exact Option.some.inj (hd.symm.trans hd')

/-- The end of a slot's load (R358, R372). -/
theorem keyDone_effect {d : Dev} {x k keyId ivFixed : Nat} {kek ct : List Byte} (h : d.keep.ksLoad = some (.key x k kek ct keyId ivFixed)) :
    d.keyDone.keep.ksLoad = none ∧
    (∀ key, Config.keyUnwrap kek ct = some key → key.length = 32 → d.keyDone.fget pgKeystore Reg.KEYSTORE.RESULT = 0 ∧
      (∀ y, y ≠ x → d.keyDone.slot y = d.slot y) ∧ (d.keep.ksCancelled = true → d.keyDone.keep.slots = d.keep.slots) ∧
      (d.keep.ksCancelled = false → d.keyDone.slot x =
        { d.slot x with loaded := true, key := key, keyId := keyId, ivFixed := ivFixed, ivCount := 0, kekUsed := k })) ∧
    (Config.keyUnwrap kek ct = none → d.keyDone.fget pgKeystore Reg.KEYSTORE.RESULT = 3 ∧
      d.keyDone.fget pgKeystore Reg.KEYSTORE.UNWRAP_FAIL = 1 ∧ d.keyDone.keep.slots = d.keep.slots) := by
  cases hd : Config.keyUnwrap kek ct with
  | none =>
    rw [Dev.keyDone_of_garbled h hd, Dev.ksLoad_ksEnds, Dev.slots_ksEnds]
    obtain ⟨hresult, -, -, hfail⟩ := Dev.ksEnds_effect ((d.bump pgKeystore Reg.KEYSTORE.UNWRAP_FAILS 1).fset pgKeystore
      Reg.KEYSTORE.UNWRAP_FAIL 1) (r := 3) (by decide)
    exact ⟨rfl, (by rintro _ ⟨⟩), fun _ => ⟨hresult, hfail.trans (Dev.fget_fset_same ..), rfl⟩⟩
  | some key =>
    refine ⟨?_, fun key' hk hl => ?_, (by rintro ⟨⟩)⟩
    · by_cases hl : key.length = 32
      · cases hc : d.keep.ksCancelled with
        | true => rw [Dev.keyDone_of_cancelled h hd hl hc, Dev.ksLoad_ksEnds]
        | false => rw [Dev.keyDone_of_sound h hd hl hc, Dev.ksLoad_ksEnds]
      · rw [Dev.keyDone_of_short h hd hl, Dev.ksLoad_ksEnds]
    · obtain rfl := Option.some.inj hk
      cases hc : d.keep.ksCancelled with
      | true =>
        rw [Dev.keyDone_of_cancelled h hd hl hc]
        exact ⟨Dev.result_ksEnds _ (by decide), fun y _ => Dev.slot_ksEnds .., fun _ => Dev.slots_ksEnds .., (by rintro ⟨⟩)⟩
      | false =>
        rw [Dev.keyDone_of_sound h hd hl hc]
        refine ⟨Dev.result_ksEnds _ (by decide), fun y hy => ?_, (by rintro ⟨⟩), fun _ => ?_⟩
        · rw [Dev.slot_ksEnds, Dev.slot_modSlot, if_neg hy.symm]
        · rw [Dev.slot_ksEnds, Dev.slot_modSlot_same]

/-- Settles O51: the loads, their refusals and ends, the clears, and tampering. -/
theorem keyLoadsAndZeroisation : Obligations.KeyLoadsAndZeroisation := by
  refine ⟨fun s a => ⟨fun ho => ⟨fun h => ⟨?_, ?_⟩, fun h => ⟨fun ht => .of_writeDev (exec_kekGo a s) ho ?_,
        fun ht hi => .of_writeDev (exec_kekGo a s) ho ?_, fun ht hi => .of_writeDev (exec_kekGo a s) ho ?_,
        fun hb => .of_writeDev (exec_keyGo a s) ho ?_, fun hb hk => .of_writeDev (exec_keyGo a s) ho ?_,
        fun hb hk ht => .of_writeDev (exec_keyGo a s) ho ?_, fun hb hk ht => .of_writeDev (exec_keyGo a s) ho ?_⟩,
      .of_writeDev (exec_kekClear a s) ho ?_, fun hb => ?_, fun hb => ?_⟩, fun h => ⟨?_, ?_⟩,
      fun k ct h => .of_onDev (exec_kekLoadDone s) (kekDone_effect h),
      fun x k kek ct keyId ivFixed h => .of_onDev (exec_keyLoadDone s) (keyDone_effect h)⟩,
    fun s k => ⟨rfl, rfl⟩, fun s a ho => ?_⟩
  · exact (exec_kekGo a s).trans (State.writeDev_of_eq (g := id) ho (Dev.kekGo_of_busy h))
  · exact (exec_keyGo a s).trans (State.writeDev_of_eq (g := id) ho (Dev.keyGo_of_busy h))
  · rw [State.modDev_dev, Dev.kekGo_of_tamper h ht]
    obtain ⟨hresult, hdone, -⟩ := s.dev.ksEnds_effect (r := 4) (by decide)
    exact ⟨hresult, hdone⟩
  · rw [State.modDev_dev, Dev.kekGo_of_anonymous h ht hi]
    exact s.dev.result_ksEnds (by decide)
  · rw [State.modDev, Dev.kekGo_of_sound h ht hi]
    exact ⟨rfl, Dev.fget_fset_same .., rfl⟩
  · rw [State.modDev_dev, Dev.keyGo_of_bound h hb]
    exact s.dev.result_ksEnds (by decide)
  · rw [State.modDev_dev, Dev.keyGo_of_noKek h hb hk]
    exact s.dev.result_ksEnds (by decide)
  · rw [State.modDev_dev, Dev.keyGo_of_tamper h hb hk ht]
    exact s.dev.result_ksEnds (by decide)
  · rw [State.modDev_dev, Dev.keyGo_of_sound h hb hk ht]
    exact ⟨rfl, Dev.fget_fset_same ..⟩
  · obtain ⟨hgone, hother, hvalid, hdone⟩ := s.dev.kekClear_effect
    exact ⟨hgone, fun k hk _ => hother k hk, hvalid, hdone⟩
  · exact (exec_keyClear a s).trans ((State.write_open s a pgKeystore _ ho).trans
      (next_modDev_congr (congrArg Dev.followAll (Dev.keyClear_of_free hb))))
  · exact (exec_keyClear a s).trans ((State.write_open s a pgKeystore _ ho).trans
      (next_modDev_congr (congrArg Dev.followAll (Dev.keyClear_of_bound hb))))
  · exact (exec_kekLoadDone s).trans (State.onDev_of_eq (f := fun d => d.kekDone) (Dev.kekDone_of_none h))
  · exact (exec_keyLoadDone s).trans (State.onDev_of_eq (f := fun d => d.keyDone) (Dev.keyDone_of_none h))
  · exact (exec_zeroiseAll a s).trans (State.write_open s a pgAlarm _ ho)

end Sys2Proof.Proofs
end

section
/-! The step rule (R380), and a sample of the sensors (R379 to R386). -/

namespace Sys2Proof.Machine

/-! ### The step rule -/

/-- The last index below `n` and from 1 on that satisfies `p`, as a fold keeps it; 0 where none does. -/
def lastIndex (p : Nat → Prop) [DecidablePred p] (n : Nat) : Nat := (List.range n).foldl (fun a k => if 1 ≤ k ∧ p k then k else a) 0

theorem lastIndex_succ (p : Nat → Prop) [DecidablePred p] (n : Nat) : lastIndex p (n + 1) = if 1 ≤ n ∧ p n then n else lastIndex p n := by
  rw [lastIndex, List.range_succ, List.foldl_append, List.foldl_cons, List.foldl_nil, lastIndex]

theorem lastIndex_spec (p : Nat → Prop) [DecidablePred p] (n : Nat) :
    (lastIndex p n = 0 ∨ (1 ≤ lastIndex p n ∧ lastIndex p n < n ∧ p (lastIndex p n))) ∧ ∀ k < n, 1 ≤ k → p k → k ≤ lastIndex p n := by
  induction n with
  | zero => exact ⟨.inl rfl, fun k hk => absurd hk (Nat.not_lt_zero k)⟩
  | succ n ih =>
    rw [lastIndex_succ]
    obtain ⟨hr, hmax⟩ := ih
    by_cases h : 1 ≤ n ∧ p n
    · rw [if_pos h]
      exact ⟨.inr ⟨h.1, Nat.lt_succ_self n, h.2⟩, fun k hk _ _ => Nat.le_of_lt_succ hk⟩
    · rw [if_neg h]
      refine ⟨hr.imp_right fun ⟨h1, hlt, hp⟩ => ⟨h1, Nat.lt_succ_of_lt hlt, hp⟩, fun k hk h1 hp => ?_⟩
      rcases Nat.lt_succ_iff_lt_or_eq.mp hk with hk | rfl
      · exact hmax k hk h1 hp
      · exact absurd ⟨h1, hp⟩ h

section step

variable {ts : List Int} (h4 : ts.length = 4)

include h4

theorem stepUp_spec : (stepUp ts = 0 ∨ (1 ≤ stepUp ts ∧ stepUp ts < 8 ∧ ∀ t ∈ ts, thrOf (stepUp ts) ≤ t)) ∧
    ∀ k < 8, 1 ≤ k → (∀ t ∈ ts, thrOf k ≤ t) → k ≤ stepUp ts := by
  have hup : stepUp ts = lastIndex (fun k => ts.all (fun t => decide (thrOf k ≤ t)) = true) 8 := if_neg (by omega)
  have hall (k : Nat) : ts.all (fun t => decide (thrOf k ≤ t)) = true ↔ ∀ t ∈ ts, thrOf k ≤ t := by
    simp only [List.all_eq_true, decide_eq_true_eq]
  obtain ⟨hr, hmax⟩ := lastIndex_spec (fun k => ts.all (fun t => decide (thrOf k ≤ t)) = true) 8
  rw [← hup] at hr hmax
  exact ⟨hr.imp_right fun ⟨h1, hlt, hp⟩ => ⟨h1, hlt, (hall _).mp hp⟩, fun k hk h1 hp => hmax k hk h1 ((hall k).mpr hp)⟩

/-- A step whose threshold some value lies below is not asked for, nor one above it. -/
theorem stepUp_lt {k : Nat} (hk : 0 < k) (h : ∃ t ∈ ts, t < thrOf k) : stepUp ts < k := by
  obtain ⟨t, ht, hlt⟩ := h
  obtain ⟨hr, -⟩ := stepUp_spec h4
  rcases hr with h0 | ⟨-, -, hall⟩
  · omega
  · have hle := hall t ht
    rw [thrOf] at hle hlt
    omega

theorem tempStep_eq (s : Nat) : tempStep ts s = if s < stepUp ts then stepUp ts else stepDown ts 7 s := by
  rw [tempStep, if_neg (show ¬ ts.length < 4 by omega)]

end step

theorem stepDown_le (ts : List Int) : ∀ f s : Nat, stepDown ts f s ≤ s
  | 0, s => Nat.le_refl s
  | f + 1, s => by
    rw [stepDown]
    split
    · exact (stepDown_le ts f (s - 1)).trans (Nat.sub_le s 1)
    · exact Nat.le_refl s

theorem tempStep_of_few {ts : List Int} (h : ts.length < 4) (s : Nat) : tempStep ts s = s := by
  have hup : stepUp ts = 0 := if_pos h
  rw [tempStep, hup, if_neg (Nat.not_lt_zero s), if_pos h]

/-- The step rule (R380). -/
theorem tempStep_rule (ts : List Int) (s : Nat) (hs : s ≤ 7) :
    (ts.length < 4 → tempStep ts s = s) ∧
    (ts.length = 4 → tempStep ts s ≤ 7) ∧
    (ts.length = 4 → ∀ k, s < k → k ≤ 7 → (∀ t ∈ ts, thrOf k ≤ t) → k ≤ tempStep ts s) ∧
    (ts.length = 4 → ∀ k, s < k → k ≤ 7 → (∃ t ∈ ts, t < thrOf k) → tempStep ts s < k) ∧
    (ts.length = 4 → 0 < s → (∃ t ∈ ts, thrOf s - 48 ≤ t) → s ≤ tempStep ts s) ∧
    (ts.length = 4 → 0 < s → (∀ t ∈ ts, t < thrOf s - 48) → (∃ t ∈ ts, t < thrOf s) → tempStep ts s < s) := by
  have hdown := stepDown_le ts 7 s
  refine ⟨fun h => tempStep_of_few h s, fun h4 => ?_, fun h4 k hk hk7 hall => ?_, fun h4 k hk hk7 hex => ?_, fun h4 hpos hex => ?_,
    fun h4 hpos hall hex => ?_⟩
  · obtain ⟨hr, -⟩ := stepUp_spec h4
    rw [tempStep_eq h4]
    split <;> omega
  · obtain ⟨-, hmax⟩ := stepUp_spec h4
    have hle := hmax k (by omega) (by omega) hall
    rw [tempStep_eq h4, if_pos (by omega)]
    exact hle
  · have hlt := stepUp_lt h4 (by omega) hex
    rw [tempStep_eq h4]
    split <;> omega
  · rw [tempStep_eq h4]
    split
    · omega
    · obtain ⟨t, ht, hle⟩ := hex
      have hstay : ¬ (0 < s ∧ ts.all (fun t => decide (t < thrOf s - 48)) = true) := by
        rintro ⟨-, hall⟩
        have hlt := of_decide_eq_true (List.all_eq_true.mp hall t ht)
        omega
      rw [stepDown, if_neg hstay]
  · have hlt := stepUp_lt h4 hpos hex
    have hall' : ts.all (fun t => decide (t < thrOf s - 48)) = true := List.all_eq_true.mpr fun t ht => decide_eq_true (hall t ht)
    have hnext := stepDown_le ts 6 (s - 1)
    rw [tempStep_eq h4, if_neg (by omega), stepDown, if_pos ⟨hpos, hall'⟩]
    omega

/-! ### What the rails' fall leaves (R386, R393, R400) -/

theorem State.powered_dev (s : State) (f : Dev → Dev) : (s.powered f).dev = f s.dev := by
  rw [State.powered]
  dsimp only
  split <;> rfl

theorem State.powered_of_kept {s : State} {f : Dev → Dev} (h : s.dev.therm.mains = false ∨ (f s.dev).therm.mains = true) :
    s.powered f = s.modDev f := by
  refine if_neg ?_
  rcases h with h | h <;> simp [h]

theorem State.powered_of_fallen {s : State} {f : Dev → Dev} (h : s.dev.therm.mains = true) (hf : (f s.dev).therm.mains = false) :
    s.powered f = { s.resetHops with dev := f s.dev } := by
  refine if_pos ?_
  simp [h, hf]

theorem State.powered_same {s : State} {f : Dev → Dev} (h : f s.dev = s.dev) : s.powered f = s := by
  have hkept : s.dev.therm.mains = false ∨ (f s.dev).therm.mains = true := by
    rw [h]
    cases s.dev.therm.mains <;> simp
  rw [State.powered_of_kept hkept, State.modDev, h]

theorem Dev.regsOnly_carry (src d : Dev) (x : PageId × Fld) : d.regsOnly (Dev.carry src d x) := Dev.regsOnly_fset ..

theorem Dev.regsOnly_foldl_carry (src : Dev) (l : List (PageId × Fld)) : ∀ d : Dev, d.regsOnly (l.foldl (fun x f => Dev.carry src x f) d) := by
  induction l with
  | nil => exact Dev.regsOnly_refl
  | cons x l ih => exact fun d => (Dev.regsOnly_carry src d x).trans (ih _)

/-- Where a field lies. -/
def place (x : PageId × Fld) : PageId × Nat := (x.1, x.2.slot)

theorem Dev.fget_foldl_carry_other (src : Dev) {pg : PageId} {f : Fld} (l : List (PageId × Fld)) (h : place (pg, f) ∉ l.map place) :
    ∀ d : Dev, (l.foldl (fun x f => Dev.carry src x f) d).fget pg f = d.fget pg f := by
  induction l with
  | nil => exact fun d => rfl
  | cons x l ih =>
    intro d
    obtain ⟨hx, hl⟩ := not_or.mp ((not_congr List.mem_cons).mp h)
    rw [List.foldl_cons, ih hl, Dev.carry, Dev.fget_fset, if_neg]
    rintro ⟨hp, hs⟩
    exact hx (Prod.ext hp.symm hs.symm)

/-- A field carried over holds what it held, cut to its width. -/
theorem Dev.fget_foldl_carry (src : Dev) {pg : PageId} {f : Fld} (l : List (PageId × Fld)) (hn : (l.map place).Nodup) (h : (pg, f) ∈ l) :
    ∀ d : Dev, (l.foldl (fun x f => Dev.carry src x f) d).fget pg f = src.fget pg f % 2 ^ f.w := by
  induction l with
  | nil => cases h
  | cons x l ih =>
    intro d
    obtain ⟨hx, hn⟩ := List.nodup_cons.mp hn
    rw [List.foldl_cons]
    rcases List.mem_cons.mp h with rfl | h
    · rw [Dev.fget_foldl_carry_other src l hx]
      exact Dev.fget_fset_same ..
    · exact ih hn h _

theorem standbyFields_nodup : (standbyFields.map place).Nodup := by decide

/-- The device that a reset of the main domain begins with, before the standby domain's registers are carried over. -/
def Dev.resetBase (d : Dev) : Dev :=
  { free := d.free + 1, out := d.out, svnFuses := d.fusesCut, boot := d.flashCut, retireLog := d.retireLog, therm := d.therm.afresh,
    endpts := (d.endpts.map (fun p => (p.1, { perst := p.2.perst }))).filter (fun p => !p.2.perst), tap := d.tap, split := d.split,
    mgmtAddr := d.mgmtAddr, keep := { tamperNow := d.keep.tamperNow } }

theorem Dev.mainReset_eq (d : Dev) : d.mainReset =
    (standbyFields.foldl (fun x f => Dev.carry d x f) d.resetBase).fset pgPower Reg.POWER.GOOD (b2n d.therm.stby) := rfl

theorem Dev.fget_mainReset (d : Dev) {pg : PageId} {f : Fld} (h : (pg, f) ∈ standbyFields) (hg : place (pg, f) ≠ place (pgPower, Reg.POWER.GOOD)) :
    d.mainReset.fget pg f = d.fget pg f % 2 ^ f.w := by
  have hother : ¬ (pgPower = pg ∧ Reg.POWER.GOOD.slot = f.slot) := by
    rintro ⟨hp, hs⟩
    exact hg (Prod.ext hp.symm hs.symm)
  rw [Dev.mainReset_eq, Dev.fget_fset, if_neg hother]
  exact Dev.fget_foldl_carry d standbyFields standbyFields_nodup h _

theorem Dev.fget_withTap (d : Dev) (t : Tap) (pg : PageId) (f : Fld) : ({ d with tap := t } : Dev).fget pg f = d.fget pg f := rfl

theorem Dev.fget_powerDown (d : Dev) {pg : PageId} {f : Fld} (h : (pg, f) ∈ standbyFields) (hg : place (pg, f) ≠ place (pgPower, Reg.POWER.GOOD)) :
    d.powerDown.fget pg f = d.fget pg f % 2 ^ f.w := by
  rw [Dev.powerDown, Dev.fget_withTap]
  exact Dev.fget_mainReset d h hg

theorem Dev.regsOnly.therm {d e : Dev} (h : d.regsOnly e) : e.therm = d.therm := by
  unfold Dev.regsOnly at h
  rw [← h]

theorem Dev.regsOnly_mainReset (d : Dev) : d.resetBase.regsOnly d.mainReset := by
  rw [Dev.mainReset_eq]
  exact (Dev.regsOnly_foldl_carry d standbyFields d.resetBase).trans (Dev.regsOnly_fset ..)

/-- The main rails fallen (R386): spokes and chest are gone, and the samplers run on. -/
theorem Dev.powerDown_effect (d : Dev) : d.powerDown.therm = d.therm.afresh ∧ d.powerDown.spokes = [] ∧ d.powerDown.chest = [] := by
  have h := Dev.regsOnly_mainReset d
  simp only [Dev.powerDown, h.therm, h.spokes, h.chest]
  exact ⟨rfl, rfl, rfl⟩

/-! ### A trip, and a sample (R379, R386) -/

theorem Dev.modTherm_therm (d : Dev) (f : Therm → Therm) : (d.modTherm f).therm = f d.therm := rfl

/-- What a trip records before the rails fall. -/
def Dev.tripNoted (d : Dev) (cause sensor : Nat) (reading : Int) : Dev :=
  (((d.bump pgThermal Reg.THERMAL.TRIP_CNT 1).fset pgThermal Reg.THERMAL.TRIP_INFO_CAUSE cause).fset pgThermal
    Reg.THERMAL.TRIP_INFO_SENSOR sensor).fset pgThermal Reg.THERMAL.TRIP_INFO_READING (toField 16 reading)

section trip

variable {d : Dev} (h : d.therm.tripped = false) (cause sensor : Nat) (reading : Int)

include h

theorem Dev.trip_eq : d.trip cause sensor reading = (d.tripNoted cause sensor reading).powerDown.modTherm (fun t => { t with tripped := true }) := by
  rw [Dev.trip, if_neg (by simp [h])]
  rfl

/-- A trip leaves its cause and its sensor, and neither spokes nor chest. -/
theorem Dev.trip_effect : (d.trip cause sensor reading).therm = { d.therm.afresh with tripped := true } ∧
    (d.trip cause sensor reading).fget pgThermal Reg.THERMAL.TRIP_INFO_CAUSE = cause % 4 ∧
    (d.trip cause sensor reading).fget pgThermal Reg.THERMAL.TRIP_INFO_SENSOR = sensor % 32 ∧
    (d.trip cause sensor reading).fget pgThermal Reg.THERMAL.TRIP_CNT = satAdd (2 ^ 32 - 1) (d.fget pgThermal Reg.THERMAL.TRIP_CNT) 1 ∧
    (d.trip cause sensor reading).spokes = [] ∧ (d.trip cause sensor reading).chest = [] := by
  have hn : (d.tripNoted cause sensor reading).fget pgThermal Reg.THERMAL.TRIP_INFO_CAUSE = cause % 4 ∧
      (d.tripNoted cause sensor reading).fget pgThermal Reg.THERMAL.TRIP_INFO_SENSOR = sensor % 32 ∧
      (d.tripNoted cause sensor reading).fget pgThermal Reg.THERMAL.TRIP_CNT = satAdd (2 ^ 32 - 1) (d.fget pgThermal Reg.THERMAL.TRIP_CNT) 1 % 2 ^ 32 := by
    refine ⟨?_, ?_, ?_⟩
    · rw [Dev.tripNoted, Dev.fget_fset_slot _ _ _ _ (by decide), Dev.fget_fset_slot _ _ _ _ (by decide), Dev.fget_fset_same]
      rfl
    · rw [Dev.tripNoted, Dev.fget_fset_slot _ _ _ _ (by decide), Dev.fget_fset_same]
      rfl
    · rw [Dev.tripNoted, Dev.fget_fset_slot _ _ _ _ (by decide), Dev.fget_fset_slot _ _ _ _ (by decide), Dev.fget_fset_slot _ _ _ _ (by decide),
        Dev.bump_eq, Dev.fget_fset_same]
      rfl
  obtain ⟨hcause, hsensor, hcnt⟩ := hn
  obtain ⟨htherm, hspokes, hchest⟩ := Dev.powerDown_effect (d.tripNoted cause sensor reading)
  rw [Dev.trip_eq h]
  refine ⟨?_, ?_, ?_, ?_, (Dev.modTherm_spokes ..).trans hspokes, (Dev.modTherm_chest ..).trans hchest⟩
  · rw [Dev.modTherm_therm, htherm]
    rfl
  · rw [Dev.fget_modTherm, Dev.fget_powerDown _ (by decide) (by decide), hcause]
    exact Nat.mod_mod _ _
  · rw [Dev.fget_modTherm, Dev.fget_powerDown _ (by decide) (by decide), hsensor]
    exact Nat.mod_mod _ _
  · rw [Dev.fget_modTherm, Dev.fget_powerDown _ (by decide) (by decide), hcnt]
    exact (Nat.mod_mod _ _).trans (Nat.mod_eq_of_lt (satAdd_lt ..))

end trip

/-- The twenty-six sensors and their twins as a sample leaves them. -/
def Dev.sensed (d : Dev) (rs : List Int) : Dev := (List.range 13).foldl (Dev.samplePair rs) ((List.range 26).foldl (Dev.sampleOne rs) d)

/-- The highest reading in effect. -/
def Dev.topReading (d : Dev) : Int := ((List.range 26).map d.effReading).foldl max (((List.range 26).map d.effReading).headD 0)

theorem Dev.topReading_eq (d : Dev) : d.topReading = ((List.range 26).map d.effReading).foldl max (d.effReading 0) := rfl

/-- What shows of a sample: T, the hottest sensor, FAST, and the time from which it has been cool. -/
def Dev.sampleShown (d : Dev) (rs : List Int) (top : Int) : Dev :=
  (((d.modTherm (fun x => { x with lastT := (top :: x.lastT).take 4, coolSince := if d.coolEnough then some (x.coolSince.getD d.now) else none })).fset
    pgThermal Reg.THERMAL.T_MAX (toField 16 top)).fset pgThermal Reg.THERMAL.HOTTEST (((List.range 26).find? (fun i => d.effReading i == top)).getD 0)).fset
    pgThermal Reg.THERMAL.FAST (b2n (rs.any (fun r => decide (1520 ≤ r))))

/-- What follows of a sample: a trip, or a step asked for. -/
def Dev.sampleActs (d : Dev) : Dev :=
  if d.therm.tripped || !d.therm.mains then d
  else match d.tripCond with
    | some (c, i, r) => d.trip c i r
    | none =>
      if d.unsettled pgThermal then (d.nextFree.fset pgThermal Reg.THERMAL.TEMP_STEP (d.freeVal % 8)).requestStep
      else (d.fset pgThermal Reg.THERMAL.TEMP_STEP (tempStep d.therm.lastT (d.fget pgThermal Reg.THERMAL.TEMP_STEP))).requestStep

/-- The first sensor that reads `top`, looked for in the list of readings or in the sensors. -/
theorem find_reading (d : Dev) (top : Int) :
    (List.range 26).find? (fun i => ((List.range 26).map d.effReading).getD i 0 == top) = (List.range 26).find? (fun i => d.effReading i == top) := by
  refine List.find?_congr fun i hi => ?_
  have hlt : i < 26 := List.mem_range.mp hi
  simp [List.getD_eq_getElem?_getD, List.getElem?_map, List.getElem?_range hlt]

theorem Dev.takeSample_eq (d : Dev) (rs : List Int) : d.takeSample rs = ((d.sensed rs).sampleShown rs (d.sensed rs).topReading).sampleActs := by
  delta Dev.takeSample
  extract_lets d0 d1 eff t hot d2 d3
  have hshown : d3 = (d.sensed rs).sampleShown rs (d.sensed rs).topReading := by
    rw [Dev.sampleShown, ← find_reading]
    rfl
  clear_value d3
  rw [← hshown]
  unfold Dev.sampleActs
  cases d3.tripCond <;> rfl

section shown

variable (d : Dev) (rs : List Int) (top : Int)

theorem Dev.sampleShown_sens (i : Nat) : (d.sampleShown rs top).sens i = d.sens i := rfl

theorem Dev.sampleShown_now : (d.sampleShown rs top).now = d.now := rfl

theorem Dev.sampleShown_tripped : (d.sampleShown rs top).therm.tripped = d.therm.tripped := rfl

theorem Dev.sampleShown_mains : (d.sampleShown rs top).therm.mains = d.therm.mains := rfl

/-- What shows of a sample takes no part in the conditions that trip. -/
theorem Dev.sampleShown_tripCond : (d.sampleShown rs top).tripCond = d.tripCond := by
  simp only [Dev.tripCond, Dev.sampleShown_sens, Dev.sampleShown_now] <;> rfl

end shown

section acts

variable {d : Dev}

theorem Dev.sampleActs_of_down (h : d.therm.tripped = true ∨ d.therm.mains = false) : d.sampleActs = d := by
  refine if_pos ?_
  rcases h with h | h <;> simp [h]

variable (htrip : d.therm.tripped = false) (hmains : d.therm.mains = true)

include htrip hmains

theorem Dev.sampleActs_of_trip {cause i : Nat} {r : Int} (h : d.tripCond = some (cause, i, r)) : d.sampleActs = d.trip cause i r := by
  rw [Dev.sampleActs, if_neg (by simp [htrip, hmains]), h]

theorem Dev.sampleActs_of_calm (h : d.tripCond = none) (hs : d.unsettled pgThermal = false) : d.sampleActs =
    (d.fset pgThermal Reg.THERMAL.TEMP_STEP (tempStep d.therm.lastT (d.fget pgThermal Reg.THERMAL.TEMP_STEP))).requestStep := by
  rw [Dev.sampleActs, if_neg (by simp [htrip, hmains]), h]
  exact if_neg (by simp [hs])

end acts

theorem exec_thermalSample (s : State) (rs : List Int) : exec (.thermalSample rs) s = .next (s.powered (fun d => d.thermalSample rs)) := rfl

end Sys2Proof.Machine
end

section
namespace Sys2Proof.Proofs
open Sys2Proof.Machine

/-- Settles O52: the step rule by the bounds of the rise and of the fall; a sample by what shows of it, what trips, and what else follows. -/
theorem thermalSamplesAndSteps : Obligations.ThermalSamplesAndSteps := by
  refine ⟨tempStep_rule, fun s rs d1 d2 top => ⟨fun hstby => ?_, fun hstby hd1 htop hd2 => ?_⟩⟩
  · have hidle : s.dev.thermalSample rs = s.dev := if_neg (by simp [hstby])
    exact congrArg _ (State.powered_same (f := fun d => d.thermalSample rs) hidle)
  · have hd1 : d1 = s.dev.sensed rs := hd1
    have htop : top = d1.topReading := htop
    have hd2 : d2 = d1.sampleShown rs top := hd2
    have hacts : s.dev.thermalSample rs = d2.sampleActs := by
      rw [Dev.thermalSample, if_pos hstby, Dev.takeSample_eq, hd2, htop, hd1]
    have htripped : d2.therm.tripped = d1.therm.tripped := by rw [hd2, Dev.sampleShown_tripped]
    have hmains : d2.therm.mains = d1.therm.mains := by rw [hd2, Dev.sampleShown_mains]
    have hcond : d2.tripCond = d1.tripCond := by rw [hd2, Dev.sampleShown_tripCond]
    refine ⟨fun hdown => ⟨_, exec_thermalSample s rs, ?_⟩, fun ht hm hc hs hu hup => ?_, fun cause i r ht hm hc hs => ⟨_, exec_thermalSample s rs, ?_⟩⟩
    · rw [← htripped, ← hmains] at hdown
      exact (State.powered_dev ..).trans (hacts.trans (Dev.sampleActs_of_down hdown))
    · have hcalm := hacts.trans (Dev.sampleActs_of_calm (htripped.trans ht) (hmains.trans hm) (hcond.trans hc) hu)
      have hkept : (s.dev.thermalSample rs).therm.mains = true := by rw [hcalm, hup]
      rw [exec_thermalSample, State.powered_of_kept (f := fun d => d.thermalSample rs) (.inr hkept), State.modDev, hcalm]
      rfl
    · have htrip := hacts.trans (Dev.sampleActs_of_trip (htripped.trans ht) (hmains.trans hm) (hcond.trans hc))
      obtain ⟨htherm, hcause, hsensor, -, hspokes, hchest⟩ := Dev.trip_effect (htripped.trans ht) cause i r
      have hfall : (s.dev.thermalSample rs).therm.mains = false := by rw [htrip, htherm]; rfl
      rw [State.powered_of_fallen (f := fun d => d.thermalSample rs) hs hfall, htrip]
      exact ⟨by rw [htherm], by rw [htherm]; rfl, rfl, rfl, hcause, hsensor, hspokes, hchest⟩

end Sys2Proof.Proofs
end

section
/-! DRAM refresh (R389): the band in force falls from the band that REFRESH holds. -/

namespace Sys2Proof.Machine

/-- A device whose map lists 3 in REFRESH of channel 0: no evaluation leaves that, yet it is a device. -/
def oddRefresh : Dev := { regs := [(pgMemctl 0, [(Reg.MEMCTL.REFRESH.slot, 3)])] }

/-- A band of 3 falls to none: a reading of 95 °C leaves it, and not 2. -/
theorem oddRefresh_refresh : (oddRefresh.dramRead 0 (some 1520)).fget (pgMemctl 0) Reg.MEMCTL.REFRESH = 3 := by decide

theorem exec_dramTempRead (i : Fin 52) (r : Option Int) (s : State) : exec (.dramTempRead i r) s = s.onDev (fun d => d.dramRead i r) := rfl

end Sys2Proof.Machine
end

section
namespace Sys2Proof.Proofs
open Sys2Proof.Machine

/-- Refutes O53: REFRESH of channel 0 listed as 3, which its two bits can hold though no evaluation writes it; a device of the channel then read
at 95.0 °C leaves 3, and not the 2 that the clause on hot devices asks for. -/
theorem not_thermalAndPowerEvents : ¬ Obligations.ThermalAndPowerEvents := by
  intro h
  obtain ⟨-, -, -, -, hread, -⟩ := h { dev := oddRefresh }
  obtain ⟨t, ht, -, -, -, hband⟩ := hread 0 1520
  rw [exec_dramTempRead, State.onDev_eq] at ht
  cases ht
  have htwo : (oddRefresh.dramRead 0 (some 1520)).fget (pgMemctl 0) Reg.MEMCTL.REFRESH = 2 := hband (Int.le_refl _)
  rw [oddRefresh_refresh] at htwo
  exact absurd htwo (by decide)

end Sys2Proof.Proofs
end

section
/-! Supplies as they come and go (R391 to R393, R400). -/

namespace Sys2Proof.Machine

/-! ### The fuses when a raise of the counter is cut (R357) -/

theorem Dev.fusesCut_of_idle {d : Dev} (h : d.fon pgBoot Reg.BOOT.BUSY = false) : d.fusesCut = d.svnFuses := if_neg (by simp [h])

/-- A raise that is cut stops between the counter and its aim. -/
theorem Dev.fusesCut_bounds (d : Dev) : d.svnFuses ≤ d.fusesCut ∧ d.fusesCut ≤ max d.svnFuses (min 64 (d.fget pgBoot Reg.BOOT.SVN_RUN)) := by
  rw [Dev.fusesCut]
  split
  · have hlt : d.freeVal % (min 64 (d.fget pgBoot Reg.BOOT.SVN_RUN) - d.svnFuses + 1) < min 64 (d.fget pgBoot Reg.BOOT.SVN_RUN) - d.svnFuses + 1 :=
      Nat.mod_lt _ (Nat.succ_pos _)
    constructor <;> omega
  · exact ⟨Nat.le_refl _, Nat.le_max_left ..⟩

/-! ### The standby rail -/

/-- The device that the standby rail begins, before its millivolts are shown. -/
def Dev.standbyBase (d : Dev) (addr : Nat) : Dev :=
  { free := d.free + 1, out := d.out, svnFuses := d.fusesCut, boot := d.flashCut, retireLog := d.retireLog,
    endpts := (d.endpts.map (fun p => (p.1, { perst := p.2.perst }))).filter (fun p => !p.2.perst), mgmtAddr := addr, therm := { stby := true } }

theorem Dev.standbyUp_eq (d : Dev) (mv addr : Nat) :
    d.standbyUp mv addr = ((d.standbyBase addr).fset pgPower Reg.POWER.STBY_MV mv).fset pgPower Reg.POWER.GOOD 1 := rfl

/-- Only what is not volatile is kept (R400). -/
theorem Dev.standbyUp_effect (d : Dev) (mv addr : Nat) :
    (d.standbyUp mv addr).spokes = [] ∧ (d.standbyUp mv addr).chest = [] ∧ (d.standbyUp mv addr).keep = {} ∧
    (d.standbyUp mv addr).therm = { stby := true } ∧ (d.standbyUp mv addr).svnFuses = d.fusesCut ∧ (d.standbyUp mv addr).mgmtAddr = addr ∧
    (d.standbyUp mv addr).retireLog = d.retireLog ∧ (d.standbyUp mv addr).fget pgPower Reg.POWER.STBY_MV = mv % 2 ^ Reg.POWER.STBY_MV.w := by
  rw [Dev.standbyUp_eq]
  refine ⟨rfl, rfl, rfl, rfl, rfl, rfl, rfl, ?_⟩
  rw [Dev.fget_fset_slot _ _ _ _ (by decide), Dev.fget_fset_same]

/-! ### P12V -/

section p12

variable (d : Dev) (mv : Nat)

theorem Dev.p12Up_of_idle (h : d.therm.stby = false ∨ d.therm.p12 = true) : d.p12Up mv = d.fset pgPower Reg.POWER.P12V_MV mv := by
  refine if_pos ?_
  rcases h with h | h <;> simp [h]

/-- What the rails last fell to is told (R393). -/
def Dev.tellFall (d : Dev) (brown railFault : Bool) : Dev :=
  let e := if brown then d.fset pgPower Reg.POWER.BROWNOUT 1 else d
  if railFault then e.fset pgPower Reg.POWER.RAIL_FAULT 1 else e

theorem Dev.regsOnly_tellFall (brown railFault : Bool) : d.regsOnly (d.tellFall brown railFault) := by
  cases brown <;> cases railFault
  · exact Dev.regsOnly_refl d
  · exact Dev.regsOnly_fset ..
  · exact Dev.regsOnly_fset ..
  · exact (Dev.regsOnly_fset ..).trans (Dev.regsOnly_fset ..)

theorem Dev.fget_tellFall_brown (railFault : Bool) : (d.tellFall true railFault).fget pgPower Reg.POWER.BROWNOUT = 1 := by
  cases railFault
  · exact Dev.fget_fset_same ..
  · exact (Dev.fget_fset_slot _ _ _ _ (by decide)).trans (Dev.fget_fset_same ..)

theorem Dev.fget_tellFall_rail (brown : Bool) : (d.tellFall brown true).fget pgPower Reg.POWER.RAIL_FAULT = 1 := Dev.fget_fset_same ..

theorem Dev.fget_tellFall_mv (brown railFault : Bool) :
    (d.tellFall brown railFault).fget pgPower Reg.POWER.P12V_MV = d.fget pgPower Reg.POWER.P12V_MV := by
  cases brown <;> cases railFault
  · rfl
  · exact Dev.fget_fset_slot _ _ _ _ (by decide)
  · exact Dev.fget_fset_slot _ _ _ _ (by decide)
  · exact (Dev.fget_fset_slot _ _ _ _ (by decide)).trans (Dev.fget_fset_slot _ _ _ _ (by decide))

variable (hs : d.therm.stby = true) (hp : d.therm.p12 = false)

include hs hp

theorem Dev.p12Up_eq : d.p12Up mv = ((d.fset pgPower Reg.POWER.P12V_MV mv).tellFall d.therm.brown d.therm.railFault).modTherm
    (fun t => { t with p12 := true, brown := false, railFault := false }) := by
  cases hb : d.therm.brown <;>
    simp only [Dev.p12Up, Dev.fset_therm, hs, hp, hb, Bool.not_true, Bool.or_false, Bool.false_eq_true, if_false, if_true, Dev.ev_eq, Dev.tellFall]

/-- P12V good: its millivolts are shown and what took the rails down is told; only registers and the supplies change. -/
theorem Dev.p12Up_effect : (d.p12Up mv).therm = { d.therm with p12 := true, brown := false, railFault := false } ∧
    (d.p12Up mv).fget pgPower Reg.POWER.P12V_MV = mv % 2 ^ Reg.POWER.P12V_MV.w ∧
    (d.therm.brown = true → (d.p12Up mv).fget pgPower Reg.POWER.BROWNOUT = 1) ∧
    (d.therm.railFault = true → (d.p12Up mv).fget pgPower Reg.POWER.RAIL_FAULT = 1) ∧
    ({ d.p12Up mv with therm := d.therm, regs := d.regs } : Dev) = d := by
  have hregs := (Dev.regsOnly_fset d pgPower Reg.POWER.P12V_MV mv).trans (Dev.regsOnly_tellFall _ d.therm.brown d.therm.railFault)
  rw [Dev.p12Up_eq d mv hs hp]
  refine ⟨?_, ?_, fun hb => ?_, fun hr => ?_, ?_⟩
  · rw [Dev.modTherm_therm, hregs.therm]
  · rw [Dev.fget_modTherm, Dev.fget_tellFall_mv, Dev.fget_fset_same]
  · rw [Dev.fget_modTherm, hb, Dev.fget_tellFall_brown]
  · rw [Dev.fget_modTherm, hr, Dev.fget_tellFall_rail]
  · unfold Dev.regsOnly at hregs
    exact congrArg (fun x : Dev => { x with therm := d.therm }) hregs

end p12

/-! ### The rails' fall (R393) -/

theorem Dev.brownOut_of_down {d : Dev} (h : d.therm.p12 = false) : d.brownOut = d := if_pos (by simp [h])

theorem Dev.brownOut_eq {d : Dev} (h : d.therm.p12 = true) : d.brownOut = d.powerDown.modTherm (fun t => { t with p12 := false, brown := true }) :=
  if_neg (by simp [h])

theorem Dev.railFault_of_down {d : Dev} {r : Nat} (h : r = 0 ∨ d.therm.mains = false) : d.railFault r = d := by
  refine if_pos ?_
  rcases h with h | h <;> simp [h]

theorem Dev.railFault_eq {d : Dev} {r : Nat} (hr : r ≠ 0) (h : d.therm.mains = true) :
    d.railFault r = ((d.fset pgPower Reg.POWER.FAULTED (2 ^ r)).powerDown).modTherm (fun t => { t with railFault := true }) :=
  if_neg (by simp [h, hr])

theorem Dev.railFault_effect {d : Dev} {r : Fin 6} (hr : r.val ≠ 0) (h : d.therm.mains = true) :
    (d.railFault r).therm = { d.therm.afresh with railFault := true } ∧ (d.railFault r).fget pgPower Reg.POWER.FAULTED = 2 ^ r.val := by
  obtain ⟨htherm, -⟩ := Dev.powerDown_effect (d.fset pgPower Reg.POWER.FAULTED (2 ^ r.val))
  have hlt : 2 ^ r.val < 2 ^ 6 := Nat.pow_lt_pow_right (by decide) r.isLt
  rw [Dev.railFault_eq hr h]
  refine ⟨?_, ?_⟩
  · rw [Dev.modTherm_therm, htherm, Dev.fset_therm]
  · rw [Dev.fget_modTherm, Dev.fget_powerDown _ (by decide) (by decide), Dev.fget_fset_same]
    exact (Nat.mod_mod _ _).trans (Nat.mod_eq_of_lt hlt)

theorem exec_p3v3StbyGood (mv addr : Nat) (s : State) : exec (.p3v3StbyGood mv addr) s = .next (s.resetHops.modDev (fun d => d.standbyUp mv addr)) := rfl

theorem exec_p12vGood (mv : Nat) (s : State) : exec (.p12vGood mv) s = s.onDev (fun d => d.p12Up mv) := rfl

theorem exec_brownOut (s : State) : exec .brownOut s = .next (s.powered Dev.brownOut) := rfl

theorem exec_railFault (r : Fin 6) (s : State) : exec (.railFault r) s = .next (s.powered (fun d => d.railFault r)) := rfl

end Sys2Proof.Machine
end

section
namespace Sys2Proof.Proofs
open Sys2Proof.Machine

/-- Settles O54: the standby rail and P12V by their effects; brown-out and rail fault by what the rails' fall leaves. -/
theorem supplies : Obligations.Supplies := by
  intro s
  refine ⟨fun mv addr hb => ⟨_, exec_p3v3StbyGood mv addr s, ?_⟩, fun mv addr => ⟨_, exec_p3v3StbyGood mv addr s, ?_⟩, fun mv h => ?_,
    fun mv hs hp => .of_onDev (exec_p12vGood mv s) ?_, fun h => ?_, fun hp hm => ⟨_, exec_brownOut s, ?_⟩, fun r h => ?_,
    fun r hr hm => ⟨_, exec_railFault r s, ?_⟩⟩
  · obtain ⟨hspokes, hchest, hkeep, htherm, hsvn, haddr, hlog, hmv⟩ := Dev.standbyUp_effect s.dev mv addr
    exact ⟨rfl, rfl, hspokes, hchest, hkeep, htherm, hsvn.trans (Dev.fusesCut_of_idle hb), haddr, hlog, hmv, rfl⟩
  · obtain ⟨-, -, -, -, hsvn, -⟩ := Dev.standbyUp_effect s.dev mv addr
    have hbounds := Dev.fusesCut_bounds s.dev
    rw [← hsvn] at hbounds
    exact hbounds
  · exact State.onDev_congr (g := fun d => d.fset pgPower Reg.POWER.P12V_MV mv) (Dev.p12Up_of_idle s.dev mv h)
  · obtain ⟨htherm, hmv, hbrown, hrail, hframe⟩ := Dev.p12Up_effect s.dev mv hs hp
    exact ⟨htherm, hmv, hbrown, hrail, congrArg (fun d => { s with dev := d }) hframe⟩
  · exact congrArg _ (State.powered_same (Dev.brownOut_of_down h))
  · obtain ⟨htherm, hspokes, hchest⟩ := Dev.powerDown_effect s.dev
    have heq := Dev.brownOut_eq hp
    have hfall : s.dev.brownOut.therm.mains = false := by rw [heq, Dev.modTherm_therm, htherm]; rfl
    rw [State.powered_of_fallen hm hfall, heq]
    exact ⟨rfl, by rw [Dev.modTherm_therm, htherm]; rfl, rfl, rfl, rfl, (Dev.modTherm_spokes ..).trans hspokes, (Dev.modTherm_chest ..).trans hchest⟩
  · exact congrArg _ (State.powered_same (f := fun d => d.railFault r) (Dev.railFault_of_down h))
  · obtain ⟨htherm, hfaulted⟩ := Dev.railFault_effect hr hm
    have hfall : (s.dev.railFault r).therm.mains = false := by rw [htherm]; rfl
    rw [State.powered_of_fallen (f := fun d => d.railFault r) hm hfall]
    exact ⟨by rw [htherm], by rw [htherm]; rfl, hfaulted, rfl, rfl⟩

end Sys2Proof.Proofs
end

section
/-! Stewards and the bank switch (R407, R410, R411, R416). -/

namespace Sys2Proof.Machine

/-! ### Stewards changed, one or all -/

theorem Dev.stw_modStw_other (d : Dev) {i k : Nat} (f : Stw → Stw) (h : k ≠ i) : (d.modStw i f).stw k = d.stw k :=
  (Dev.stw_modStw ..).trans (if_neg (Ne.symm h))

theorem Dev.stw_foldl_modStw (f : Stw → Stw) (d : Dev) (k : Nat) : ∀ n : Nat,
    ((List.range n).foldl (fun (e : Dev) i => e.modStw i f) d).stw k = if k < n then f (d.stw k) else d.stw k
  | 0 => rfl
  | n + 1 => by
    rw [List.range_succ, List.foldl_append, List.foldl_cons, List.foldl_nil]
    rcases Nat.lt_trichotomy k n with h | rfl | h
    · rw [Dev.stw_modStw_other _ _ (by omega), Dev.stw_foldl_modStw f d k n, if_pos h, if_pos (by omega)]
    · rw [Dev.stw_modStw_same, Dev.stw_foldl_modStw f d k k, if_neg (by omega), if_pos (by omega)]
    · rw [Dev.stw_modStw_other _ _ (by omega), Dev.stw_foldl_modStw f d k n, if_neg (by omega), if_neg (by omega)]

/-- Every steward starts again on its other bank. -/
def Stw.swap (x : Stw) : Stw := { x with state := 2, bank := 1 - x.bank }

/-- What `Dev.exchange` does before it reports the image. -/
def Dev.exchanged (d : Dev) : Dev :=
  ((List.range 12).foldl (fun (e : Dev) i => e.modStw i Stw.swap) d).modBoot
    (fun b => { b with active := b.staged, staged := b.active, activeSlot := b.stagedSlot, stagedSlot := b.activeSlot })

theorem Dev.exchange_eq (d : Dev) : d.exchange = d.exchanged.reportImage := rfl

theorem Dev.regsOnly_reportImage (d : Dev) : d.regsOnly d.reportImage :=
  ((Dev.regsOnly_fset ..).trans (Dev.regsOnly_fset ..)).trans (Dev.regsOnly_fset ..)

theorem Dev.fget_reportImage (d : Dev) {pg : PageId} (h : pgBoot ≠ pg) (f : Fld) : d.reportImage.fget pg f = d.fget pg f := by
  rw [Dev.reportImage]
  rw [Dev.fget_fset_page _ _ _ _ h, Dev.fget_fset_page _ _ _ _ h, Dev.fget_fset_page _ _ _ _ h]

theorem Dev.regsOnly.stw {d e : Dev} (h : d.regsOnly e) (k : Nat) : e.stw k = d.stw k := by
  unfold Dev.regsOnly at h
  rw [← h]
  rfl

theorem Dev.regsOnly.boot {d e : Dev} (h : d.regsOnly e) : e.boot = d.boot := by
  unfold Dev.regsOnly at h
  rw [← h]

theorem Dev.modBoot_boot (d : Dev) (g : Boot → Boot) : (d.modBoot g).boot = g d.boot := rfl

theorem Dev.boot_foldl_modStw (f : Stw → Stw) (l : List Nat) (d : Dev) : (l.foldl (fun (e : Dev) i => e.modStw i f) d).boot = d.boot :=
  foldl_keeps Dev.boot (fun (e : Dev) i => e.modStw i f) (fun _ _ => rfl) l d

theorem Dev.fget_foldl_modStw (f : Stw → Stw) (l : List Nat) (d : Dev) (pg : PageId) (g : Fld) :
    (l.foldl (fun (e : Dev) i => e.modStw i f) d).fget pg g = d.fget pg g :=
  foldl_keeps (fun e : Dev => e.fget pg g) (fun (e : Dev) i => e.modStw i f) (fun _ _ => rfl) l d

section exchange

variable (d : Dev)

/-- The bank switch (R411) sets each steward on its other bank, -/
theorem Dev.stw_exchange {k : Nat} (hk : k < 12) : d.exchange.stw k = (d.stw k).swap := by
  rw [Dev.exchange_eq, (Dev.regsOnly_reportImage d.exchanged).stw, Dev.exchanged, Dev.stw_modBoot, Dev.stw_foldl_modStw, if_pos hk]

/-- exchanges the images, -/
theorem Dev.boot_exchange : d.exchange.boot = { d.boot with
    active := d.boot.staged, staged := d.boot.active, activeSlot := d.boot.stagedSlot, stagedSlot := d.boot.activeSlot } := by
  rw [Dev.exchange_eq, (Dev.regsOnly_reportImage d.exchanged).boot, Dev.exchanged, Dev.modBoot_boot, Dev.boot_foldl_modStw]

/-- and writes no register of MGMT. -/
theorem Dev.fget_exchange (f : Fld) : d.exchange.fget pgMgmt f = d.fget pgMgmt f := by
  rw [Dev.exchange_eq, Dev.fget_reportImage _ (by decide), Dev.exchanged, Dev.fget_modBoot, Dev.fget_foldl_modStw]

end exchange

/-! ### Watchdogs and restarts (R407) -/

/-- A steward restarted by its watchdog, counted. -/
def Dev.restarted (d : Dev) (i : Nat) : Dev :=
  ((d.modStw i (fun x => { x with state := 2, expiries := d.now :: (d.stw i).recent d.now })).bump pgMgmt Reg.MGMT.RESTARTS 1).fset
    pgMgmt Reg.MGMT.STEWARD_RESTART 1

theorem Dev.restarted_switchStat (d : Dev) (i : Nat) : (d.restarted i).switchStat = d.switchStat := by
  rw [Dev.switchStat, Dev.restarted, Dev.fget_fset_slot _ _ _ _ (by decide), Dev.bump_eq, Dev.fget_fset_slot _ _ _ _ (by decide), Dev.fget_modStw,
    Dev.switchStat]

theorem Dev.watchdog_of_idle {d : Dev} {i : Nat} (h : d.released = false ∨ (d.stw i).state = 1 ∨ (d.stw i).state = 3) : d.watchdog i = d := by
  refine if_pos ?_
  rcases h with h | h | h <;> simp [h]

theorem Dev.watchdog_eq {d : Dev} {i : Nat} (hr : d.released = true) (h1 : (d.stw i).state ≠ 1) (h3 : (d.stw i).state ≠ 3) : d.watchdog i =
    if 2 ≤ ((d.stw i).recent d.now).length then (d.restarted i).stewardFails i
    else if d.switchStat = 1 then (d.restarted i).switchRefused else d.restarted i := by
  have hcount : 3 ≤ (d.now :: (d.stw i).recent d.now).length ↔ 2 ≤ ((d.stw i).recent d.now).length := by
    rw [List.length_cons]
    omega
  simp only [Dev.watchdog, hr, beq_eq_false_iff_ne.mpr h1, beq_eq_false_iff_ne.mpr h3, Bool.not_true, Bool.or_false, Bool.false_eq_true, if_false, hcount,
    Dev.ev_eq, ← Dev.restarted_switchStat d i]
  rfl

/-- A resent request changes no register of MGMT. -/
theorem Dev.fget_cmResend (d : Dev) (n : Nat) (q : CmReq) (hn : n < 8) (f : Fld) : (d.cmResend n q).fget pgMgmt f = d.fget pgMgmt f := by
  have hpages : ∀ m : Fin 8, pgLink m ≠ pgMgmt := by decide
  have hpage : pgLink n ≠ pgMgmt := hpages ⟨n, hn⟩
  rw [Dev.cmResend]
  split
  · rfl
  · exact Dev.fget_ctl _ _ _ _ _ hpage

theorem Dev.stewardRuns_of_other {d : Dev} {i : Nat} (h : (d.stw i).state ≠ 2) : d.stewardRuns i = d := if_pos h

/-- A steward that reports running while no bank switch waits for it: its requests go out again, and its work goes on. -/
theorem Dev.stewardRuns_eq {d : Dev} {i : Nat} (h : (d.stw i).state = 2) (hi : i < 12) (hs : d.switchStat ≠ 2) : d.stewardRuns i =
    (if i < 4 then d.modStw i (fun x => { x with state := 0 })
      else (d.sp (i - 4)).drv.cmOut.foldl (fun e q => e.cmResend (i - 4) q) (d.modStw i (fun x => { x with state := 0 }))).stewardWork i := by
  have hstat (e : Dev) (l : List CmReq) (h4 : ¬ i < 4) : (l.foldl (fun (e : Dev) q => e.cmResend (i - 4) q) e).switchStat = e.switchStat :=
    foldl_keeps Dev.switchStat _ (fun e q => Dev.fget_cmResend e (i - 4) q (by omega) _) l e
  have hmod : (d.modStw i (fun x => { x with state := 0 })).switchStat = d.switchStat := rfl
  rw [Dev.stewardRuns, if_neg (not_not.mpr h)]
  by_cases h4 : i < 4
  · simp [h4, hmod, hs]
  · simp [h4, hstat _ _ h4, hmod, hs]

theorem Dev.stewardWork_of_chip (d : Dev) {i : Nat} (h : i < 4) : d.stewardWork i = d := if_pos h

theorem Dev.revive_of_other {d : Dev} {i : Nat} (h : (d.stw i).state ≠ 3) : d.revive i = d := if_neg h

theorem Dev.revive_eq {d : Dev} {i : Nat} (h : (d.stw i).state = 3) : d.revive i = d.modStw i (fun x => { x with state := 2, expiries := [] }) :=
  if_pos h

/-! ### The bank switch (R410, R411) -/

/-- A steward pauses and shows it. -/
def Dev.paused (d : Dev) (i : Nat) : Dev := (d.modStw i (fun x => { x with state := 1 })).bitPut pgMgmt Reg.MGMT.PAUSED i true

theorem Dev.stw_paused (d : Dev) (i k : Nat) : (d.paused i).stw k = if i = k then { d.stw i with state := 1 } else d.stw k :=
  (Dev.regsOnly.stw (Dev.regsOnly_fset ..) k).trans (Dev.stw_modStw ..)

theorem Dev.boot_paused (d : Dev) (i : Nat) : (d.paused i).boot = d.boot := rfl

section pause

variable {d : Dev} {i : Nat}

theorem Dev.stewardPause_of_idle (h : d.switchStat ≠ 1) : d.stewardPause i = d := if_pos (by simp [h])

variable (hs : d.switchStat = 1) (hr : d.released = true) (h0 : (d.stw i).state = 0)

include hs hr h0

theorem Dev.stewardPause_eq : d.stewardPause i = if (List.range 12).all (fun k => ((d.paused i).stw k).state == 1) then
    (((d.paused i).fset pgMgmt Reg.MGMT.PAUSED 0).fset pgMgmt Reg.MGMT.STATUS 2).exchange else d.paused i :=
  if_neg (by simp [hs, hr, h0])

theorem Dev.stewardPause_of_running (h : ∃ k < 12, k ≠ i ∧ (d.stw k).state ≠ 1) : d.stewardPause i = d.paused i := by
  obtain ⟨k, hk, hne, hrun⟩ := h
  rw [Dev.stewardPause_eq hs hr h0, if_neg]
  intro hall
  have hstate := List.all_eq_true.mp hall k (List.mem_range.mpr hk)
  rw [Dev.stw_paused, if_neg (Ne.symm hne)] at hstate
  exact hrun (beq_iff_eq.mp hstate)

theorem Dev.stewardPause_of_last (h : ∀ k < 12, k ≠ i → (d.stw k).state = 1) :
    d.stewardPause i = (((d.paused i).fset pgMgmt Reg.MGMT.PAUSED 0).fset pgMgmt Reg.MGMT.STATUS 2).exchange := by
  rw [Dev.stewardPause_eq hs hr h0, if_pos]
  refine List.all_eq_true.mpr fun k hk => beq_iff_eq.mpr ?_
  rw [Dev.stw_paused]
  split
  · rfl
  · next hne => exact h k (List.mem_range.mp hk) (Ne.symm hne)

end pause

/-- The last pause changes the banks and shows that the switch waits for the stewards to run. -/
theorem Dev.lastPause_effect (d : Dev) (i : Nat) (e : Dev)
    (he : e = (((d.paused i).fset pgMgmt Reg.MGMT.PAUSED 0).fset pgMgmt Reg.MGMT.STATUS 2).exchange) :
    e.switchStat = 2 ∧ e.fget pgMgmt Reg.MGMT.PAUSED = 0 ∧
    (∀ k < 12, (e.stw k).bank = 1 - (d.stw k).bank ∧ (e.stw k).state = 2) ∧
    e.boot = { d.boot with
      active := d.boot.staged, staged := d.boot.active, activeSlot := d.boot.stagedSlot, stagedSlot := d.boot.activeSlot } := by
  have hregs := (Dev.regsOnly_fset (d.paused i) pgMgmt Reg.MGMT.PAUSED 0).trans (Dev.regsOnly_fset _ pgMgmt Reg.MGMT.STATUS 2)
  subst he
  refine ⟨?_, ?_, fun k hk => ?_, ?_⟩
  · rw [Dev.switchStat, Dev.fget_exchange, Dev.fget_fset_same]
    rfl
  · rw [Dev.fget_exchange, Dev.fget_fset_slot _ _ _ _ (by decide), Dev.fget_fset_same]
    rfl
  · rw [Dev.stw_exchange _ hk, hregs.stw, Dev.stw_paused]
    split
    · next hik => exact ⟨by rw [hik]; rfl, rfl⟩
    · exact ⟨rfl, rfl⟩
  · rw [Dev.boot_exchange, hregs.boot, Dev.boot_paused]

theorem Dev.pauseTimeout_of_idle {d : Dev} (h : d.switchStat ≠ 1) : d.pauseTimeout = d := if_neg h

theorem Dev.pauseTimeout_eq {d : Dev} (h : d.switchStat = 1) : d.pauseTimeout = (d.fset pgMgmt Reg.MGMT.STATUS 5).resumePaused := if_pos h

theorem Dev.switchRevert_of_idle {d : Dev} (h : d.switchStat ≠ 2) : d.switchRevert = d := if_neg h

/-- A steward that does not report running: the banks are the previous ones (R411). -/
theorem Dev.switchRevert_effect {d : Dev} (h : d.switchStat = 2) : d.switchRevert.switchStat = 6 ∧
    d.switchRevert.fget pgMgmt Reg.MGMT.REVERTED = 1 ∧
    ∀ k < 12, (d.switchRevert.stw k).bank = 1 - (d.stw k).bank ∧ (d.switchRevert.stw k).state = 2 := by
  have heq : d.switchRevert = (d.exchange.fset pgMgmt Reg.MGMT.STATUS 6).fset pgMgmt Reg.MGMT.REVERTED 1 := if_pos h
  have hregs := (Dev.regsOnly_fset d.exchange pgMgmt Reg.MGMT.STATUS 6).trans (Dev.regsOnly_fset _ pgMgmt Reg.MGMT.REVERTED 1)
  rw [heq]
  refine ⟨?_, ?_, fun k hk => ?_⟩
  · rw [Dev.switchStat, Dev.fget_fset_slot _ _ _ _ (by decide), Dev.fget_fset_same]
    rfl
  · rw [Dev.fget_fset_same]
    rfl
  · rw [hregs.stw, Dev.stw_exchange _ hk]
    exact ⟨rfl, rfl⟩

/-! ### GO (R410) -/

section go

variable {d : Dev} (h1 : d.switchStat ≠ 1) (h2 : d.switchStat ≠ 2)

include h1 h2

theorem Dev.switchGo_of_unstaged (hst : d.fget pgBoot Reg.BOOT.STATUS ≠ 3) : d.switchGo = d.fset pgMgmt Reg.MGMT.STATUS 4 := by
  rw [Dev.switchGo, if_neg (not_or.mpr ⟨h1, h2⟩), if_pos hst]

variable (hst : d.fget pgBoot Reg.BOOT.STATUS = 3)

include hst

theorem Dev.switchGo_of_old (hv : imgSvn (d.boot.staged.getD []) < d.svnFuses) : d.switchGo = d.fset pgMgmt Reg.MGMT.STATUS 7 := by
  rw [Dev.switchGo, if_neg (not_or.mpr ⟨h1, h2⟩), if_neg (not_not.mpr hst), if_pos hv]

variable (hv : d.svnFuses ≤ imgSvn (d.boot.staged.getD []))

include hv

theorem Dev.switchGo_of_failed (hf : ∃ k < 12, (d.stw k).state = 3) : d.switchGo = d.fset pgMgmt Reg.MGMT.STATUS 5 := by
  obtain ⟨k, hk, hf⟩ := hf
  have hany : (List.range 12).any (fun k => (d.stw k).state == 3) = true := List.any_eq_true.mpr ⟨k, List.mem_range.mpr hk, beq_iff_eq.mpr hf⟩
  rw [Dev.switchGo, if_neg (not_or.mpr ⟨h1, h2⟩), if_neg (not_not.mpr hst), if_neg (Nat.not_lt.mpr hv),
    if_pos hany]

theorem Dev.switchGo_of_ready (hf : ∀ k < 12, (d.stw k).state ≠ 3) :
    d.switchGo = (d.fset pgMgmt Reg.MGMT.STATUS 1).fset pgMgmt Reg.MGMT.PAUSED 0 := by
  have hnone : ¬ (List.range 12).any (fun k => (d.stw k).state == 3) = true := by
    intro hany
    obtain ⟨k, hk, hs⟩ := List.any_eq_true.mp hany
    exact hf k (List.mem_range.mp hk) (beq_iff_eq.mp hs)
  rw [Dev.switchGo, if_neg (not_or.mpr ⟨h1, h2⟩), if_neg (not_not.mpr hst), if_neg (Nat.not_lt.mpr hv), if_neg hnone, Dev.clr_eq]

end go

/-! ### The commands -/

theorem State.writeRoot_of_eq {s : State} {a : Accessor} {f g : Dev → Dev} (ho : s.dev.access a pgMgmt = .open) (h0 : s.dev.domainOf a = 0)
    (h : f s.dev = g s.dev) : s.writeRoot a (fun s => s.modDev f) = .next (s.modDev g) := by
  rw [State.writeRoot, State.write_open s a pgMgmt _ ho, if_pos h0]
  exact Proofs.next_modDev_congr h

theorem exec_watchdogExpiry (i : Fin 12) (s : State) : exec (.watchdogExpiry i) s = s.onAll (fun d => d.watchdog i) := rfl

theorem exec_revive (a : Accessor) (i : Fin 12) (s : State) : exec (.revive a i) s = s.writeDev a (pgMgmtI (i / 3)) (fun d => d.revive i) := rfl

theorem exec_stewardRunning (i : Fin 12) (s : State) : exec (.stewardRunning i) s = s.onDev (fun d => d.stewardRuns i) := rfl

theorem exec_stewardPause (i : Fin 12) (s : State) : exec (.stewardPause i) s = s.onDev (fun d => d.stewardPause i) := rfl

theorem exec_switchPauseTimeout (s : State) : exec .switchPauseTimeout s = s.onDev (fun d => d.pauseTimeout) := rfl

theorem exec_switchRevert (s : State) : exec .switchRevert s = s.onDev (fun d => d.switchRevert) := rfl

theorem exec_switchGo (a : Accessor) (s : State) : exec (.switchGo a) s = s.writeRoot a (fun s => s.modDev Dev.switchGo) := rfl

end Sys2Proof.Machine
end

section
namespace Sys2Proof.Proofs
open Sys2Proof.Machine

/-- The expiry of a watchdog. -/
theorem watchdogExpiry_outcome (s : State) (i : Fin 12) (e : Dev) (hr : s.dev.released = true) (h1 : (s.dev.stw i).state ≠ 1)
    (h3 : (s.dev.stw i).state ≠ 3) (he : e = s.dev.restarted i) :
    (((s.dev.stw i).recent s.dev.now).length < 2 → s.dev.switchStat ≠ 1 → exec (.watchdogExpiry i) s = .next (s.modDev (fun _ => e.followAll))) ∧
    (((s.dev.stw i).recent s.dev.now).length < 2 → s.dev.switchStat = 1 →
      exec (.watchdogExpiry i) s = .next (s.modDev (fun _ => ((e.fset pgMgmt Reg.MGMT.STATUS 5).resumePaused).followAll))) ∧
    (2 ≤ ((s.dev.stw i).recent s.dev.now).length → exec (.watchdogExpiry i) s = .next (s.modDev (fun _ => (e.stewardFails i).followAll))) := by
  have heq := Dev.watchdog_eq hr h1 h3
  subst he
  refine ⟨fun hfew hs => ?_, fun hfew hs => ?_, fun hmany => ?_⟩
  · rw [if_neg (Nat.not_le.mpr hfew), if_neg hs] at heq
    exact State.onAll_of_eq (g := fun _ => s.dev.restarted i) heq
  · rw [if_neg (Nat.not_le.mpr hfew), if_pos hs] at heq
    exact State.onAll_of_eq (g := fun _ => (s.dev.restarted i).switchRefused) heq
  · rw [if_pos hmany] at heq
    exact State.onAll_of_eq (g := fun _ => (s.dev.restarted i).stewardFails i) heq

/-- Settles O57: restarts, running reports, pauses, the exchange of the banks and GO, each by its cases. -/
theorem stewardsAndBanks : Obligations.StewardsAndBanks := by
  intro s i
  refine ⟨fun h => State.onAll_of_eq (g := id) (Dev.watchdog_of_idle h), fun e hr h1 h3 he => watchdogExpiry_outcome s i e hr h1 h3 he,
    fun a ho => ⟨fun h => .of_writeDev (exec_revive a i s) ho ?_, fun h => (exec_revive a i s).trans (State.writeDev_of_eq (g := id) ho (Dev.revive_of_other h))⟩,
    fun h => (exec_stewardRunning i s).trans (State.onDev_of_eq (f := fun d => d.stewardRuns i) (Dev.stewardRuns_of_other h)),
    fun h hi hs => (exec_stewardRunning i s).trans (State.onDev_congr ?_), fun h hi hs => (exec_stewardRunning i s).trans (State.onDev_congr ?_),
    fun hs hr h0 hrun => (exec_stewardPause i s).trans (State.onDev_congr (Dev.stewardPause_of_running hs hr h0 hrun)),
    fun hs hr h0 hall => .of_onDev (exec_stewardPause i s) (Dev.lastPause_effect s.dev i _ (Dev.stewardPause_of_last hs hr h0 hall)),
    fun h => ⟨(exec_stewardPause i s).trans (State.onDev_of_eq (f := fun d => d.stewardPause i) (Dev.stewardPause_of_idle h)),
      (exec_switchPauseTimeout s).trans (State.onDev_of_eq (f := fun d => d.pauseTimeout) (Dev.pauseTimeout_of_idle h))⟩,
    fun h => (exec_switchPauseTimeout s).trans (State.onDev_congr (Dev.pauseTimeout_eq h)),
    fun h => (exec_switchRevert s).trans (State.onDev_of_eq (f := fun d => d.switchRevert) (Dev.switchRevert_of_idle h)),
    fun h => .of_onDev (exec_switchRevert s) (Dev.switchRevert_effect h),
    fun a ho h0 h1 h2 => ⟨fun hst => ?_, fun hst hv => ?_, fun hst hv hf => ?_, fun hst hv hf => ?_⟩⟩
  · rw [State.modDev, Dev.revive_eq h]
    exact ⟨Dev.stw_modStw_same .., fun k hk => Dev.stw_modStw_other _ _ hk, rfl⟩
  · rw [Dev.stewardRuns_eq h i.isLt hs, if_pos hi, Dev.stewardWork_of_chip _ hi]
  · rw [Dev.stewardRuns_eq h i.isLt hs, if_neg (Nat.not_lt.mpr hi)]
  · exact State.writeRoot_of_eq ho h0 (Dev.switchGo_of_unstaged h1 h2 hst)
  · exact State.writeRoot_of_eq ho h0 (Dev.switchGo_of_old h1 h2 hst hv)
  · exact State.writeRoot_of_eq ho h0 (Dev.switchGo_of_failed h1 h2 hst hv hf)
  · exact State.writeRoot_of_eq ho h0 (Dev.switchGo_of_ready h1 h2 hst hv hf)

end Sys2Proof.Proofs
end

section
/-! The steps of start-up (R350, R408). -/

namespace Sys2Proof.Machine

/-! ### KEEP ready, and a step done -/

theorem Dev.fget_keepReady (d : Dev) (ok : Bool) : (d.keepReady ok).fget pgBoot Reg.BOOT.IDENTITY = b2n ok := by
  rw [Dev.keepReady, Dev.fput_eq, Dev.fget_fset_same]
  cases ok <;> rfl

theorem Dev.stepped_phaseDone (d : Dev) (k : Nat) : (d.phaseDone k).stepped k = true := by
  rw [Dev.stepped, Dev.phaseDone, Dev.modTherm_therm, List.contains_cons, BEq.rfl, Bool.true_or]

/-- A step done is not due again, and PHASE shows it. -/
theorem Dev.phaseDone_effect (d : Dev) (k : Nat) :
    (d.phaseDone k).stepDue k = false ∧ (d.phaseDone k).fget pgMgmt Reg.MGMT.PHASE = k % 2 ^ Reg.MGMT.PHASE.w := by
  refine ⟨?_, ?_⟩
  · rw [Dev.stepDue, Dev.stepped_phaseDone, Bool.not_true, Bool.false_and]
  · rw [Dev.phaseDone, Dev.fget_modTherm, Dev.fget_fset_same]

/-! ### The steps, each where it is due -/

section steps

variable {d : Dev}

theorem Dev.railsUp_eq (split : Bool) (hs : d.therm.stby = true) (hp : d.therm.p12 = true) (ht : d.therm.tripped = false)
    (hf : d.therm.railFault = false) (hm : d.therm.mains = false) : d.startUp (.rails split) =
    ((({ d with split := split, now := 0, crystal := true } : Dev).fset pgPower Reg.POWER.GOOD 0x3F).modTherm
      (fun t => { t with mains := true, sens := t.sens.map (fun p => (p.1, p.2.restamp)) })).phaseDone 1 :=
  if_neg (by simp [hs, hp, ht, hf, hm])

theorem Dev.startUp_fills (h : d.stepDue 2 = true) : d.startUp .fills = (d.keepFill.fset pgVmap Reg.VALIDMAP.READY 1).phaseDone 2 := by
  rw [Dev.startUp, if_pos h, Dev.ev_eq]

theorem Dev.startUp_fuses (h : d.stepDue 3 = true) (ok : Bool) : d.startUp (.fuses ok) = (d.fset pgBoot Reg.BOOT.IDENTITY (b2n ok)).phaseDone 3 := by
  rw [Dev.startUp, if_pos h, Dev.fput_eq]

theorem Dev.startUp_flash (h : d.stepDue 4 = true) : d.startUp .flash = d.flashVerified.phaseDone 4 := if_pos h

theorem Dev.flashVerified_of_image {k : Nat} {im : List Byte} (h : d.bootChoice = some (k, im)) :
    d.flashVerified = { d with boot := { d.boot with active := some im, activeSlot := k } } := by
  rw [Dev.flashVerified, h]
  rfl

theorem Dev.flashVerified_of_none (h : d.bootChoice = none) : d.flashVerified = d.fset pgBoot Reg.BOOT.STATE 2 := by
  rw [Dev.flashVerified, h]

theorem Dev.startUp_release (h : d.stepDue 5 = true) (hr : d.fget pgBoot Reg.BOOT.STATE ≠ 2) :
    d.startUp .release = (d.reportImage.fset pgBoot Reg.BOOT.STATE 1).phaseDone 5 := if_pos (by simp [h, hr])

/-- The channels that trained are shown. -/
def Dev.showTrained (d : Dev) (mask : Nat) : Dev :=
  (List.range 4).foldl (fun (e : Dev) k => e.fset (pgMemctl k) Reg.MEMCTL.TRAINED (b2n (bitAt mask k))) d

section trained

variable (h : d.stepDue 6 = true) (hf : d.fon pgMgmt Reg.MGMT.FAULT = false)

include h hf

theorem Dev.startUp_trained (m : Fin 16) : d.startUp (.trained m) =
    if m.val % 16 = 15 then (d.showTrained m).phaseDone 6 else (d.showTrained m).fset pgMgmt Reg.MGMT.FAULT 1 :=
  if_pos (by simp [h, hf])

theorem Dev.startUp_allTrained {m : Fin 16} (hm : m.val = 15) : d.startUp (.trained m) = (d.showTrained m).phaseDone 6 := by
  rw [Dev.startUp_trained h hf, if_pos (by omega)]

theorem Dev.startUp_untrained {m : Fin 16} (hm : m.val ≠ 15) : d.startUp (.trained m) = (d.showTrained m).fset pgMgmt Reg.MGMT.FAULT 1 := by
  rw [Dev.startUp_trained h hf, if_neg (by omega)]

end trained

theorem Dev.startUp_pool_of_configured (h : d.stepDue 7 = true) (hc : d.pool.configured = true) : d.startUp .pool = d.phaseDone 7 := by
  rw [Dev.startUp, if_pos h, if_pos hc]

theorem Dev.startUp_pool_of_fresh (h : d.stepDue 7 = true) (hc : d.pool.configured = false) : d.startUp .pool = d.poolConfigDone.phaseDone 7 := by
  rw [Dev.startUp, if_pos h, if_neg (by simp [hc])]

theorem Dev.startUp_links (h : d.stepDue 8 = true) : d.startUp .links = ((List.range 8).foldl (fun (e : Dev) n =>
    (e.fset (pgLink n) Reg.LINK.CAD_ON 1).modDrv n (fun x => { x with present := true })) d).phaseDone 8 := if_pos h

theorem Dev.startUp_ready (h : d.stepDue 9 = true) : d.startUp .ready =
    (List.range 8).foldl Dev.beginLoad ((d.retireAgain.fset pgMgmt Reg.MGMT.READY 1).phaseDone 9) := if_pos h

/-- A step that is not due does nothing. -/
theorem Dev.startUp_of_early {x : StartStep} (h : (x = .flash ∧ d.stepDue 4 = false) ∨ (x = .release ∧ d.stepDue 5 = false) ∨
    (∃ m, x = .trained m ∧ d.stepDue 6 = false) ∨ (x = .pool ∧ d.stepDue 7 = false) ∨ (x = .links ∧ d.stepDue 8 = false) ∨
    (x = .ready ∧ d.stepDue 9 = false)) : d.startUp x = d := by
  rcases h with ⟨rfl, h⟩ | ⟨rfl, h⟩ | ⟨m, rfl, h⟩ | ⟨rfl, h⟩ | ⟨rfl, h⟩ | ⟨rfl, h⟩ <;> exact if_neg (by simp [h])

end steps

theorem exec_keepReady (ok : Bool) (s : State) : exec (.keepReady ok) s = s.onDev (fun d => d.keepReady ok) := rfl

theorem exec_startUpStepCompleted (x : StartStep) (s : State) : exec (.startUpStepCompleted x) s = s.onAll (fun d => d.startUp x) := rfl

/-- A step of start-up that leaves a device leaves it, and what follows of itself. -/
theorem exec_startUp_of_eq {x : StartStep} {s : State} (g : Dev → Dev) (h : s.dev.startUp x = g s.dev) :
    exec (.startUpStepCompleted x) s = .next (s.modDev (fun d => (g d).followAll)) := State.onAll_of_eq h

end Sys2Proof.Machine
end

section
namespace Sys2Proof.Proofs
open Sys2Proof.Machine

/-- The image in flash, or recovery (R408, step 4). -/
theorem startUpFlash_outcome (s : State) (h : s.dev.stepDue 4 = true) :
    exec (.startUpStepCompleted .flash) s = .next (s.modDev (fun d => match s.dev.bootChoice with
      | some (k, im) => (({ d with boot := { d.boot with active := some im, activeSlot := k } } : Dev).phaseDone 4).followAll
      | none => ((d.fset pgBoot Reg.BOOT.STATE 2).phaseDone 4).followAll)) := by
  have hstep := Dev.startUp_flash h
  rcases hc : s.dev.bootChoice with _ | ⟨k, im⟩
  · rw [Dev.flashVerified_of_none hc] at hstep
    exact exec_startUp_of_eq (fun d => (d.fset pgBoot Reg.BOOT.STATE 2).phaseDone 4) hstep
  · rw [Dev.flashVerified_of_image hc] at hstep
    exact exec_startUp_of_eq (fun d => ({ d with boot := { d.boot with active := some im, activeSlot := k } } : Dev).phaseDone 4) hstep

/-- Settles O58: each step of start-up where it is due, and where it is not; KEEP's readiness apart. -/
theorem startUpSteps : Obligations.StartUpSteps := by
  intro s
  refine ⟨fun ok => .of_onDev (exec_keepReady ok s) ⟨Dev.fget_keepReady s.dev ok, rfl⟩,
    fun split hs hp ht hf hm => exec_startUp_of_eq (fun d => ((({ d with split := split, now := 0, crystal := true } : Dev).fset pgPower Reg.POWER.GOOD
      0x3F).modTherm (fun t => { t with mains := true, sens := t.sens.map (fun p => (p.1, p.2.restamp)) })).phaseDone 1)
      (Dev.railsUp_eq split hs hp ht hf hm),
    fun h => exec_startUp_of_eq (fun d => (d.keepFill.fset pgVmap Reg.VALIDMAP.READY 1).phaseDone 2) (Dev.startUp_fills h),
    fun ok h => exec_startUp_of_eq (fun d => (d.fset pgBoot Reg.BOOT.IDENTITY (b2n ok)).phaseDone 3) (Dev.startUp_fuses h ok),
    startUpFlash_outcome s,
    fun h hr => exec_startUp_of_eq (fun d => (d.reportImage.fset pgBoot Reg.BOOT.STATE 1).phaseDone 5) (Dev.startUp_release h hr),
    fun m e h hf he => ⟨fun hm => exec_startUp_of_eq (fun _ => e.phaseDone 6) ?_, fun hm => exec_startUp_of_eq (fun _ => e.fset pgMgmt Reg.MGMT.FAULT 1) ?_⟩,
    fun h hc => exec_startUp_of_eq (fun d => d.phaseDone 7) (Dev.startUp_pool_of_configured h hc),
    fun h hc => exec_startUp_of_eq (fun d => d.poolConfigDone.phaseDone 7) (Dev.startUp_pool_of_fresh h hc),
    fun e h he => exec_startUp_of_eq (fun _ => e.phaseDone 8) ?_,
    fun h => exec_startUp_of_eq (fun d => (List.range 8).foldl Dev.beginLoad ((d.retireAgain.fset pgMgmt Reg.MGMT.READY 1).phaseDone 9)) (Dev.startUp_ready h),
    fun x h => exec_startUp_of_eq id (Dev.startUp_of_early h), Dev.phaseDone_effect⟩
  · rw [Dev.startUp_allTrained h hf hm, he, Dev.showTrained]
  · rw [Dev.startUp_untrained h hf hm, he, Dev.showTrained]
  · rw [Dev.startUp_links h, he]

end Sys2Proof.Proofs
end

section
/-! Weighted classes and accounting windows (R14, R15), and the test access port (R452). -/

namespace Sys2Proof.Machine

/-! ### What an arbiter grants (R14) -/

/-- The bytes of some items. -/
def itemBytes (l : List XItem) : Nat := (l.map (·.bytes)).sum

theorem itemBytes_eq_foldl (l : List XItem) : (l.map (·.bytes)).foldl (· + ·) 0 = itemBytes l := List.sum_eq_foldl.symm

theorem itemBytes_append (l r : List XItem) : itemBytes (l ++ r) = itemBytes l + itemBytes r := by
  rw [itemBytes, List.map_append, List.sum_append]
  rfl

/-- From `g` to `h` the arbiter only moved items from those that wait to those granted, each for its bytes of the capacity. -/
structure Granting.Moves (g h : Granting) : Prop where
  bytes : itemBytes h.granted + h.cap = itemBytes g.granted + g.cap
  items : (h.granted ++ h.waiting).Perm (g.granted ++ g.waiting)

theorem Granting.Moves.refl (g : Granting) : g.Moves g := ⟨rfl, .refl _⟩

theorem Granting.Moves.trans {g h k : Granting} (hgh : g.Moves h) (hhk : h.Moves k) : g.Moves k :=
  ⟨hhk.bytes.trans hgh.bytes, hhk.items.trans hgh.items⟩

/-- What is taken of a list is of that list, within the capacity. -/
theorem takeItems_moves (f : XItem → Bool) : ∀ (l : List XItem) (q cap : Nat), (⟨[], l, cap⟩ : Granting).Moves (takeItems f l q cap).1
  | [], q, cap => .refl _
  | x :: l, q, cap => by
    rw [takeItems]
    split
    · obtain ⟨hbytes, hitems⟩ := takeItems_moves f l q cap
      exact ⟨hbytes, List.perm_middle.trans (hitems.cons x)⟩
    · split
      · next hfit =>
        obtain ⟨hbytes, hitems⟩ := takeItems_moves f l (q - x.bytes) (cap - x.bytes)
        refine ⟨?_, hitems.cons x⟩
        simp only [itemBytes, List.map_cons, List.sum_cons, List.map_nil, List.sum_nil] at hbytes ⊢
        omega
      · exact .refl _

theorem Granting.take_moves (g : Granting) (f : XItem → Bool) (q : Nat) : g.Moves (g.take f q).1 := by
  obtain ⟨hbytes, hitems⟩ := takeItems_moves f g.waiting q g.cap
  refine ⟨?_, ?_⟩
  · rw [Granting.take, itemBytes_append, Nat.add_assoc, hbytes]
    exact congrArg (itemBytes g.granted + ·) (Nat.zero_add _)
  · rw [Granting.take, List.append_assoc]
    exact hitems.append_left g.granted

theorem Arb.serve_moves (a : Arb) (g : Granting) : g.Moves (a.serve g).2 := g.take_moves ..

theorem Arb.rounds_moves : ∀ (n : Nat) (a : Arb) (g : Granting), g.Moves (Arb.rounds n a g).2
  | 0, a, g => .refl g
  | n + 1, a, g => by
    have hserve := a.serve_moves g
    rw [Arb.rounds]
    split
    · exact .refl g
    · dsimp only
      split
      · exact hserve
      · exact hserve.trans (Arb.rounds_moves n _ _)

theorem Arb.share_moves (a : Arb) (g : Granting) : g.Moves (a.share g).2 := (g.take_moves ..).trans (Arb.rounds_moves ..)

/-! ### The accounting window (R15) -/

/-- Spoke `n` asked for more than its reserve: it is counted. -/
def Dev.countOver (items : List XItem) (e : Dev) (n : Nat) : Dev :=
  if e.reserveBytes n < bytesOf (8 + n) items then e.bump pgFelt (Reg.FELT.OVER_RESERVE n) 1 else e

/-- Region `x` was granted its part of `l`: its MiB are counted. -/
def Dev.countGranted (l : List XItem) (e : Dev) (x : Nat) : Dev :=
  if x = 0 ∨ x = 6 ∨ x = 7 then e else e.countMib pgFelt (Reg.FELT.GRANTED_MIB x) (200 + x) (bytesOf x l)

/-- A device without the registers, the byte counters and the felt's accounts. -/
def Dev.offAccounts (d : Dev) : Dev := { d with regs := [], byteCnt := [], felt := {} }

theorem Dev.offAccounts_countOver (items : List XItem) (e : Dev) (n : Nat) : (Dev.countOver items e n).offAccounts = e.offAccounts := by
  rw [Dev.countOver]
  split <;> rfl

theorem Dev.offAccounts_countGranted (l : List XItem) (e : Dev) (x : Nat) : (Dev.countGranted l e x).offAccounts = e.offAccounts := by
  rw [Dev.countGranted]
  split <;> rfl

/-- The links' turns change the felt's accounts alone. -/
theorem Dev.linkOrders_eq (items : List XItem) : ∀ (l : List Nat) (y : Dev × List XItem), ∃ f,
    (l.foldl (fun (y : Dev × List XItem) x => let z := y.1.linkOrder x items; (z.1, y.2 ++ z.2)) y).1 = { y.1 with felt := f }
  | [], y => ⟨y.1.felt, rfl⟩
  | x :: l, y => by
    obtain ⟨f, hf⟩ := Dev.linkOrders_eq items l ((y.1.linkOrder x items).1, y.2 ++ (y.1.linkOrder x items).2)
    exact ⟨f, hf⟩

/-- A window: the felt's accounts change, and then the two counts are taken. -/
theorem Dev.windowEnds_eq (d : Dev) (items : List XItem) : ∃ f l, d.windowEnds items =
    (List.range 16).foldl (Dev.countGranted l) ((List.range 8).foldl (Dev.countOver items) { d with felt := f }) := by
  obtain ⟨f, hf⟩ := Dev.linkOrders_eq items (List.range 16) (d, [])
  delta Dev.windowEnds
  extract_lets o d1 g1 g2 y accounts d2 d3
  have hlinked : d1 = { d with felt := f } := hf
  have hbase : ({ d with felt := { d1.felt with waiting := y.2.waiting, arb := y.1 } } : Dev) = d2 :=
    (congrArg (fun x : Dev => { x with felt := { d1.felt with waiting := y.2.waiting, arb := y.1 } }) hlinked).symm
  refine ⟨{ d1.felt with waiting := y.2.waiting, arb := y.1 }, y.2.granted, ?_⟩
  rw [hbase]
  rfl

/-- A window changes registers, byte counters and the felt's accounts only. -/
theorem Dev.offAccounts_windowEnds (d : Dev) (items : List XItem) : (d.windowEnds items).offAccounts = d.offAccounts := by
  obtain ⟨f, l, heq⟩ := d.windowEnds_eq items
  rw [heq, foldl_keeps Dev.offAccounts _ (Dev.offAccounts_countGranted l), foldl_keeps Dev.offAccounts _ (Dev.offAccounts_countOver items)]
  rfl

section reserves

variable (items : List XItem) {k : Nat} (hk : k < 8)

include hk

theorem Dev.reserveBytes_countOver (e : Dev) (n : Nat) : (Dev.countOver items e n).reserveBytes k = e.reserveBytes k := by
  have hpages : ∀ m : Fin 8, pgFelt ≠ pgDr m := by decide
  have hcog (v : Nat) : (e.fset pgFelt (Reg.FELT.OVER_RESERVE n) v).fget (pgDr k) Reg.DERAILLEUR.CUR_COG = e.fget (pgDr k) Reg.DERAILLEUR.CUR_COG :=
    Dev.fget_fset_page _ _ _ _ (hpages ⟨k, hk⟩)
  rw [Dev.countOver]
  split
  · rw [Dev.bump_eq, Dev.reserveBytes, hcog]
    rfl
  · rfl

/-- Of the spokes before `n` spoke `k` is counted, if it asked for more than its reserve. -/
theorem Dev.fget_countOvers (d : Dev) : ∀ n : Nat, ((List.range n).foldl (Dev.countOver items) d).fget pgFelt (Reg.FELT.OVER_RESERVE k) =
    if k < n ∧ d.reserveBytes k < bytesOf (8 + k) items then
      satAdd (2 ^ (Reg.FELT.OVER_RESERVE k).w - 1) (d.fget pgFelt (Reg.FELT.OVER_RESERVE k)) 1
    else d.fget pgFelt (Reg.FELT.OVER_RESERVE k)
  | 0 => (if_neg (by omega)).symm
  | n + 1 => by
    have ih := Dev.fget_countOvers d n
    have hreserve : ((List.range n).foldl (Dev.countOver items) d).reserveBytes k = d.reserveBytes k :=
      foldl_keeps (fun e : Dev => e.reserveBytes k) _ (Dev.reserveBytes_countOver items hk) ..
    rw [List.range_succ, List.foldl_append, List.foldl_cons, List.foldl_nil]
    generalize (List.range n).foldl (Dev.countOver items) d = e at ih hreserve
    by_cases hkn : n = k
    · subst hkn
      rw [if_neg (by omega)] at ih
      rw [Dev.countOver, hreserve]
      by_cases hover : d.reserveBytes n < bytesOf (8 + n) items
      · rw [if_pos hover, if_pos ⟨Nat.lt_succ_self n, hover⟩, Dev.bump_eq, Dev.fget_fset_same, ih]
        exact Nat.mod_eq_of_lt (satAdd_lt ..)
      · rw [if_neg hover, if_neg (fun h => hover h.2), ih]
    · have hslot : (Reg.FELT.OVER_RESERVE n).slot ≠ (Reg.FELT.OVER_RESERVE k).slot := by
        simp only [Reg.FELT.OVER_RESERVE, Fld.slot]
        omega
      have hsame : (Dev.countOver items e n).fget pgFelt (Reg.FELT.OVER_RESERVE k) = e.fget pgFelt (Reg.FELT.OVER_RESERVE k) := by
        rw [Dev.countOver]
        split
        · exact Dev.fget_fset_slot _ _ _ _ hslot
        · rfl
      have hlt : k < n ↔ k < n + 1 := by omega
      rw [hsame, ih]
      exact if_congr (and_congr_left' hlt) rfl rfl

theorem Dev.fget_countGranted (l : List XItem) (e : Dev) (x : Nat) (hx : x < 16) :
    (Dev.countGranted l e x).fget pgFelt (Reg.FELT.OVER_RESERVE k) = e.fget pgFelt (Reg.FELT.OVER_RESERVE k) := by
  have hslot : (Reg.FELT.GRANTED_MIB x).slot ≠ (Reg.FELT.OVER_RESERVE k).slot := by
    simp only [Reg.FELT.OVER_RESERVE, Reg.FELT.GRANTED_MIB, Fld.slot]
    omega
  rw [Dev.countGranted]
  split
  · rfl
  · exact Dev.fget_countMib_slot _ _ _ _ _ hslot

theorem Dev.fget_countGranteds (l : List XItem) (d : Dev) : ∀ n ≤ 16,
    ((List.range n).foldl (Dev.countGranted l) d).fget pgFelt (Reg.FELT.OVER_RESERVE k) = d.fget pgFelt (Reg.FELT.OVER_RESERVE k)
  | 0, _ => rfl
  | n + 1, hn => by
    rw [List.range_succ, List.foldl_append, List.foldl_cons, List.foldl_nil, Dev.fget_countGranted hk l _ n (by omega),
      Dev.fget_countGranteds l d n (by omega)]

/-- A window counts a spoke that asked for more than its reserve. -/
theorem Dev.fget_windowEnds (d : Dev) : (d.windowEnds items).fget pgFelt (Reg.FELT.OVER_RESERVE k) =
    if d.reserveBytes k < bytesOf (8 + k) items then
      satAdd (2 ^ (Reg.FELT.OVER_RESERVE k).w - 1) (d.fget pgFelt (Reg.FELT.OVER_RESERVE k)) 1
    else d.fget pgFelt (Reg.FELT.OVER_RESERVE k) := by
  obtain ⟨f, l, heq⟩ := d.windowEnds_eq items
  have hiff : (k < 8 ∧ d.reserveBytes k < bytesOf (8 + k) items) ↔ d.reserveBytes k < bytesOf (8 + k) items := and_iff_right hk
  rw [heq, Dev.fget_countGranteds hk l _ 16 (Nat.le_refl _), Dev.fget_countOvers items hk _ 8, ← if_congr hiff rfl rfl]
  rfl

end reserves

/-! ### The test access port (R452) -/

theorem Dev.tapGoes_of_down {d : Dev} (h : d.therm.mains = false) (i : TapInstr) (v : Nat) : d.tapGoes i v = d := if_pos (by simp [h])

theorem Dev.tapActs_of_free {d : Dev} {i : TapInstr} (h : i.drives = false ∨ d.tapGuarded = false) : d.tapActs i = i := by
  refine if_neg ?_
  rcases h with h | h <;> simp [h]

theorem Dev.tapActs_of_guarded {d : Dev} {i : TapInstr} (hi : i.drives = true) (h : d.tapGuarded = true) : d.tapActs i = .sample := if_pos (by simp [hi, h])

/-- EXTEST takes the lands as SAMPLE/PRELOAD does, guarded or not. -/
theorem Dev.tapActs_extest (d : Dev) : d.tapActs .extest = .sample ∨ d.tapActs .extest = .extest := by
  cases h : d.tapGuarded
  · exact .inr (Dev.tapActs_of_free (.inr h))
  · exact .inl (Dev.tapActs_of_guarded rfl h)

/-- The port with an instruction in force that leaves the boundary register, and what it shifts out. -/
def Dev.tapPasses (d : Dev) (i : TapInstr) (o : Out) : Dev := ({ d with tap := { d.tap with instr := i } } : Dev).emit o

/-- The port with an instruction in force that shifts the boundary register, and the lands captured. -/
def Dev.tapCaptures (d : Dev) (i : TapInstr) (v : Nat) : Dev := ({ d with tap := ⟨i, v⟩ } : Dev).nextFree.emit (.jtag 0 d.freeVal)

theorem Dev.tapPasses_effect (d : Dev) (i : TapInstr) (o : Out) :
    (d.tapPasses i o).tap = { d.tap with instr := i } ∧ (d.tapPasses i o).out = o :: d.out ∧ (d.tapPasses i o).tapDrives = (i.drives && !d.tapGuarded) :=
  ⟨rfl, rfl, rfl⟩

theorem Dev.tapCaptures_effect (d : Dev) (i : TapInstr) (v : Nat) :
    (d.tapCaptures i v).tap = ⟨i, v⟩ ∧ (d.tapCaptures i v).tapDrives = (i.drives && !d.tapGuarded) := ⟨rfl, rfl⟩

/-- While the port drives the lands every SPn_WINH_N is low and no SPn_CAD runs. -/
theorem Dev.lands_of_tapDrives {d : Dev} (h : d.tapDrives = true) (n : Nat) : d.winhLow n = true ∧ d.cadOn n = false := by
  rw [Dev.winhLow, Dev.cadOn, h]
  exact ⟨Bool.or_true _, Bool.and_false _⟩

section up

variable {d : Dev} (h : d.therm.mains = true) (v : Nat) {i : TapInstr}

include h

theorem Dev.tapGoes_of_pass (hi : d.tapActs i = .bypass ∨ d.tapActs i = .clamp ∨ d.tapActs i = .highz) : d.tapGoes i v = d.tapPasses i (.jtag 1 0) := by
  rw [Dev.tapGoes, if_neg (by simp [h])]
  rcases hi with hi | hi | hi <;> rw [hi] <;> rfl

theorem Dev.tapGoes_of_idcode (hi : d.tapActs i = .idcode) :
    d.tapGoes i v = d.tapPasses i (.jtag 32 (2 ^ 28 * 0x1 + 2 ^ 12 * 0xA8B4 + 2 * (Config.jtagMaker % 2048) + 1)) := by
  rw [Dev.tapGoes, if_neg (by simp [h]), hi]
  rfl

theorem Dev.tapGoes_of_capture (hi : d.tapActs i = .sample ∨ d.tapActs i = .extest) : d.tapGoes i v = d.tapCaptures i v := by
  rw [Dev.tapGoes, if_neg (by simp [h])]
  rcases hi with hi | hi <;> rw [hi] <;> rfl

end up

theorem exec_bypass (v : Nat) (s : State) : exec (.bypass v) s = s.onDev (fun d => d.tapGoes .bypass v) := rfl

theorem exec_idcode (v : Nat) (s : State) : exec (.idcode v) s = s.onDev (fun d => d.tapGoes .idcode v) := rfl

theorem exec_samplePreload (v : Nat) (s : State) : exec (.samplePreload v) s = s.onDev (fun d => d.tapGoes .sample v) := rfl

theorem exec_extest (v : Nat) (s : State) : exec (.extest v) s = s.onDev (fun d => d.tapGoes .extest v) := rfl

theorem exec_clamp (v : Nat) (s : State) : exec (.clamp v) s = s.onDev (fun d => d.tapGoes .clamp v) := rfl

theorem exec_highz (v : Nat) (s : State) : exec (.highz v) s = s.onDev (fun d => d.tapGoes .highz v) := rfl

theorem exec_trstNAssert (s : State) : exec .trstNAssert s = s.onDev (fun d => d.tapReset) := rfl

theorem exec_accountingWindow (first rest : List XItem) (s : State) :
    exec (.accountingWindow first rest) s = s.onDev (fun d => d.windowEnds (first ++ rest)) := rfl

end Sys2Proof.Machine
end

section
namespace Sys2Proof.Proofs
open Sys2Proof.Machine

/-- An instruction that passes the boundary register by, unguarded or not driving the lands. -/
theorem tapPasses_outcome {c : Instr} {s : State} {i : TapInstr} {v : Nat} {P : State → Prop} (hc : exec c s = s.onDev (fun d => d.tapGoes i v))
    {o : Out} (h : s.dev.tapGoes i v = s.dev.tapPasses i o) (hP : P { s with dev := s.dev.tapPasses i o }) : Completes c s P :=
  .of_onDev hc (by rw [State.modDev, h]; exact hP)

theorem tapCaptures_outcome {c : Instr} {s : State} {i : TapInstr} {v : Nat} {P : State → Prop} (hc : exec c s = s.onDev (fun d => d.tapGoes i v))
    (hm : s.dev.therm.mains = true) (hi : s.dev.tapActs i = .sample ∨ s.dev.tapActs i = .extest)
    (hP : P { s with dev := s.dev.tapCaptures i v }) : Completes c s P :=
  .of_onDev hc (by rw [State.modDev, Dev.tapGoes_of_capture hm v hi]; exact hP)

/-- CLAMP and HIGHZ while no present spoke is unfenced. -/
theorem drivingInstr_free {s : State} {i : TapInstr} {c : Instr} {v : Nat} (hm : s.dev.therm.mains = true) (hg : s.dev.tapGuarded = false)
    (hi : i = .clamp ∨ i = .highz) (hc : exec c s = s.onDev (fun d => d.tapGoes i v)) : Completes c s (fun t =>
      t.dev.tap = { s.dev.tap with instr := i } ∧ t.dev.tapDrives = true ∧ ∀ n, t.dev.winhLow n = true ∧ t.dev.cadOn n = false) := by
  have hacts : s.dev.tapActs i = i := Dev.tapActs_of_free (.inr hg)
  have hdrives : (s.dev.tapPasses i (.jtag 1 0)).tapDrives = true := by
    obtain ⟨-, -, hd⟩ := Dev.tapPasses_effect s.dev i (.jtag 1 0)
    rw [hd, hg]
    rcases hi with rfl | rfl <;> rfl
  refine tapPasses_outcome hc (Dev.tapGoes_of_pass hm v ?_) ⟨rfl, hdrives, Dev.lands_of_tapDrives hdrives⟩
  rw [hacts]
  exact .inr hi

/-- CLAMP and HIGHZ while a present spoke is not fenced act as SAMPLE. -/
theorem drivingInstr_guarded {s : State} {i : TapInstr} {c : Instr} {v : Nat} (hm : s.dev.therm.mains = true) (hg : s.dev.tapGuarded = true)
    (hi : i.drives = true) (hc : exec c s = s.onDev (fun d => d.tapGoes i v)) :
    Completes c s (fun t => t.dev.tap = ⟨i, v⟩ ∧ t.dev.tapDrives = false) := by
  obtain ⟨htap, hdrives⟩ := Dev.tapCaptures_effect s.dev i v
  rw [hg, Bool.not_true, Bool.and_false] at hdrives
  exact tapCaptures_outcome hc hm (.inl (Dev.tapActs_of_guarded hi hg)) ⟨htap, hdrives⟩

/-- Settles O59: the instructions of the port by what they act as, the window by its counts, the arbiter by what it moves. -/
theorem portAndAccounts : Obligations.PortAndAccounts := by
  refine ⟨fun s v => ⟨fun hm => ⟨?_, ?_, ?_, ?_, fun hg => ⟨?_, ?_⟩, fun hg => ⟨?_, ?_⟩⟩, fun hm => ⟨?_, ?_, ?_⟩, .of_onDev (exec_trstNAssert s) ⟨rfl, rfl⟩⟩,
    fun s first rest items hitems => .of_onDev (exec_accountingWindow first rest s) ⟨fun n hn => ?_, ?_⟩, fun a g y hy => ?_⟩
  · exact tapPasses_outcome (exec_bypass v s) (Dev.tapGoes_of_pass hm v (.inl (Dev.tapActs_of_free (.inl rfl)))) ⟨rfl, rfl⟩
  · exact tapPasses_outcome (exec_idcode v s) (Dev.tapGoes_of_idcode hm v (Dev.tapActs_of_free (.inl rfl))) ⟨rfl, rfl⟩
  · exact tapCaptures_outcome (exec_samplePreload v s) hm (.inl (Dev.tapActs_of_free (.inl rfl))) rfl
  · exact tapCaptures_outcome (exec_extest v s) hm s.dev.tapActs_extest rfl
  · exact drivingInstr_free hm hg (.inl rfl) (exec_clamp v s)
  · obtain ⟨t, ht, htap, hdrives, -⟩ := drivingInstr_free hm hg (.inr rfl) (exec_highz v s)
    exact ⟨t, ht, htap, hdrives⟩
  · exact drivingInstr_guarded hm hg rfl (exec_clamp v s)
  · exact drivingInstr_guarded hm hg rfl (exec_highz v s)
  · exact (exec_bypass v s).trans (State.onDev_of_eq (f := fun d => d.tapGoes .bypass v) (Dev.tapGoes_of_down hm _ v))
  · exact (exec_idcode v s).trans (State.onDev_of_eq (f := fun d => d.tapGoes .idcode v) (Dev.tapGoes_of_down hm _ v))
  · exact (exec_extest v s).trans (State.onDev_of_eq (f := fun d => d.tapGoes .extest v) (Dev.tapGoes_of_down hm _ v))
  · subst hitems
    exact Dev.fget_windowEnds (first ++ rest) hn s.dev
  · exact congrArg (fun d : Dev => { s with dev := { d with regs := s.dev.regs, byteCnt := s.dev.byteCnt, felt := s.dev.felt } })
      (Dev.offAccounts_windowEnds s.dev (first ++ rest))
  · obtain ⟨hbytes, hperm⟩ := a.share_moves g
    subst hy
    rw [itemBytes_eq_foldl, itemBytes_eq_foldl]
    exact ⟨hbytes, hperm⟩

end Sys2Proof.Proofs
end
